-- ==== Sys2Proof/Syntax.lean ====
section
/-! DEFINITION. The commands of the block: one constructor for each row of spec/opcode_table.json, with
the row's operands. Operands that carry a measurement or an outcome from outside the module (a
temperature, a decoded symbol count, a peer's answer) are operands, since the manual gives no way to
compute them. -/

namespace Sys2Proof

/-- Who reaches the register window: Chimney link A, Chimney link B, or JTAG (R398). -/
inductive Link where
  | a | b | jtag
  deriving DecidableEq, Repr, Inhabited

/-- The mailboxes of R398. -/
inductive MbxId where
  | a | b | debug | twin
  | tenant (p : Nat)
  deriving DecidableEq, Repr, Inhabited

/-- A message of the REQ, SNP, RSP or DAT channel (R341, R342). `rsv` says that a reserved bit is set. -/
structure LineMsg where
  dst : Nat := 0
  src : Nat := 0
  txn : Nat := 0
  heat : Nat := 0
  status : Nat := 0
  grant : Nat := 0
  epoch : Nat := 0
  addr : Nat := 0
  acode : Nat := 0
  aw : Bool := false
  dirty : Bool := false
  ltag : Nat := 0
  mask : BitVec 64 := 0
  op1 : Nat := 0
  op2 : Nat := 0
  data : Bytes := []
  old : Nat := 0
  rsv : Bool := false
  deriving DecidableEq, Repr, Inhabited

/-- A message of the MSG, SCH or MGT channel (R341, R343). With `flux` the body is the coded stream and
`bytes` the raw size; otherwise the body is the payload. -/
structure PktMsg where
  dst : Nat := 0
  src : Nat := 0
  txn : Nat := 0
  opc : Nat := 0
  status : Nat := 0
  hops : Nat := 0
  heat : Nat := 0
  epoch : Nat := 0
  tenant : Nat := 0
  tag : Nat := 0
  bytes : Nat := 0
  flux : Bool := false
  body : Bytes := []
  rsv : Bool := false
  deriving DecidableEq, Repr, Inhabited

/-- The CONFIG record of R333. `rsv` says that a reserved bit or code is used. -/
structure ConfigRec where
  serial : Nat := 0
  credits : List Nat := []
  cell : Nat := 0
  module : Nat := 0
  port : Nat := 0
  role : Nat := 0
  linkKind : Nat := 0
  caching : Bool := false
  rates : Nat := 7
  version : Nat := 1
  rsv : Bool := false
  deriving DecidableEq, Repr, Inhabited

/-- A flit as it is received (R335): header, the 15 slots as sent, and its CRC-64. `fecOk` is the FEC outcome. -/
structure Flit where
  hdr : Nat := 0
  slots : List (BitVec 128) := []
  crc : Nat := 0
  fecOk : Bool := true
  deriving DecidableEq, Repr, Inhabited

/-- The SPDM messages of R347, by what they do to the session. -/
inductive SpdmMsg where
  | negotiate      -- GET_VERSION to GET_CERTIFICATE and their responses
  | keyExchange    -- KEY_EXCHANGE or its response
  | finish (ok : Bool) -- FINISH or FINISH_RSP, with the outcome of mutual authentication
  | keyUpdate      -- the peer's KEY_UPDATE
  | keyUpdateAck   -- the answer to the module's KEY_UPDATE
  | endSession
  | getMeasurements (txn : Nat)
  deriving DecidableEq, Repr, Inhabited

/-- A Cinder completion entry (R328). -/
structure CinderCpl where
  cid : Nat := 0
  sqHead : Nat := 0
  qid : Nat := 0
  status : Nat := 0
  flips : Nat := 0
  phase : Bool := false
  rsv : Bool := false
  deriving DecidableEq, Repr, Inhabited

/-- The value of a REG_WR frame (R354). `rsv` says that a reserved bit is set, or TYPE is reserved, in a frame of any kind (R5,
R353). -/
structure FrameWord where
  val : BitVec 32 := 0
  rsv : Bool := false
  deriving DecidableEq, Repr, Inhabited

/-- A read of MBX_OVERRUN: the link that reads, and the mailbox of the block it reads (R355). -/
structure OverrunRead where
  link : Link := .a
  block : MbxId := .a
  deriving DecidableEq, Repr, Inhabited

/-- What a primary mirrors to its twin (R438): data of an extent; a descriptor, as the opcode and payload of its command;
a ticketed chain with its requester's endpoint id; a ticket of it; its end; a unit's Ash map record: its entry, or write sequence
number 0 for none; a calendar image; the data of an extent that SYNCING copies (R444), as its lines that are not all zero. -/
inductive MirrorMsg where
  | data (addr : Nat) (bytes : Bytes)
  | desc (op : Nat) (payload : Bytes)
  | chain (cid src : Nat) (bytes : Bytes)
  | ticket (cid phase : Nat)
  | chainEnd (cid : Nat)
  | ash (unit tray ch block off len wseq : Nat) (damaged : Bool)
  | calendar (bytes : Bytes)
  | extent (base : Nat) (lines : List (Nat × Bytes))
  deriving DecidableEq, Repr, Inhabited

/-- Where a chain comes from: a mailbox command or a POUR message (R89). -/
inductive PourSrc where
  | mbx (m : MbxId)
  | msg (port : Nat) (m : PktMsg)
  deriving DecidableEq, Repr, Inhabited

/-- Where an uncorrectable SRAM word lies (R458). -/
inductive SramWhere where
  | tileQueue (nook chain : Nat)
  | rowCache (nook part table row : Nat)
  | chainQueue (nook chain : Nat)
  | template (nook part id : Nat)
  | tableDesc (part table : Nat)
  | tier0 (part list entry : Nat)
  | tracker (id : Nat)
  | calendar (bankB : Bool)
  | keyContent (handle : Nat)
  | keySession (port : Nat)
  | mantel
  | directory (nook set : Nat)
  deriving DecidableEq, Repr, Inhabited

/-- What a cleaner cycle reads (R447), and what the code finds there. -/
inductive CleanWhere where
  | directory (nook set : Nat)
  | hearth (nook : Nat)
  | system
  deriving DecidableEq, Repr, Inhabited

/-- The triggers of R454. -/
inductive RetireWhy where
  | damagedFull | correctedRate | calibration | noData
  deriving DecidableEq, Repr, Inhabited

/-- The background work of R325. -/
inductive AshWork where
  | readDisturb (tray ch block : Nat)
  | badBlock (tray ch block : Nat)
  | collection (tray ch : Nat)
  | staticWear (tray ch : Nat)
  deriving DecidableEq, Repr, Inhabited

/-- The value a MetaValue of a host MemRd names (R307). -/
inductive CxlMeta where
  | s | a | i
  deriving DecidableEq, Repr, Inhabited

/-- The commands. -/
inductive Instr where
  -- mailbox commands, 0x01xx to 0x0Exx (R408)
  | deviceInfo (m : MbxId) | warmRestart (m : MbxId) | moduleHealth (m : MbxId)
  | profileRead (m : MbxId) | profileWrite (m : MbxId) | profileSelect (m : MbxId)
  | twinPair (m : MbxId) | twinUnpair (m : MbxId) | twinStatus (m : MbxId) | twinTakeover (m : MbxId)
  | partitionCreate (m : MbxId) | partitionDestroy (m : MbxId) | nookMove (m : MbxId)
  | partitionQuiesce (m : MbxId) | partitionResume (m : MbxId) | partitionInfo (m : MbxId)
  | extentAdd (m : MbxId) | extentRelease (m : MbxId) | extentSetAttr (m : MbxId)
  | routeSet (m : MbxId) | mapCommit (m : MbxId) | mapDiscard (m : MbxId) | mapRead (m : MbxId)
  | dirRead (m : MbxId) | lineClear (m : MbxId) | lostlogRead (m : MbxId)
  | portMove (m : MbxId) | peerAdmit (m : MbxId) | peerEvict (m : MbxId)
  | portStatus (m : MbxId) | portRetrain (m : MbxId)
  | damperPortSet (m : MbxId) | damperSvcSet (m : MbxId) | damperSubSet (m : MbxId)
  | damperSubClear (m : MbxId) | damperStats (m : MbxId)
  | emberSet (m : MbxId) | emberLinkAsym (m : MbxId) | emberStatus (m : MbxId)
  | calWrite (m : MbxId) | calCopy (m : MbxId) | calArm (m : MbxId) | calCancel (m : MbxId)
  | calStop (m : MbxId) | calRead (m : MbxId)
  | tableCreate (m : MbxId) | tableDestroy (m : MbxId) | tableCachePin (m : MbxId)
  | tableCacheUnpin (m : MbxId) | tableUpdateSet (m : MbxId) | tableSlotsAdd (m : MbxId)
  | stepClose (m : MbxId) | tableRowWrite (m : MbxId) | tableGenBegin (m : MbxId)
  | tableGenSeal (m : MbxId) | tableGenCommit (m : MbxId) | tableGenAbort (m : MbxId)
  | tableMigrateOut (m : MbxId) | tableMigrateCommit (m : MbxId) | tableMigrateRelease (m : MbxId)
  | tableShardLoad (m : MbxId)
  | pour (src : PourSrc) | templateRegister (m : MbxId) | templateRemove (m : MbxId)
  | groupCreate (m : MbxId) | groupDestroy (m : MbxId)
  | bellowsListLoad (m : MbxId) | bellowsListStop (m : MbxId)
  | ashNsCreate (m : MbxId) | ashNsDestroy (m : MbxId) | ashAssign (m : MbxId)
  | ashWrite (m : MbxId) | ashRead (m : MbxId) | ashTrim (m : MbxId) | ashStatus (m : MbxId)
  | hallmarkGet (m : MbxId) | ckeyLoad (m : MbxId) | ckeyUnload (m : MbxId)
  | debugOpen (m : MbxId) | debugClose (m : MbxId) | measlogRead (m : MbxId)
  | eventRead (m : MbxId) | eventNotify (m : MbxId) | telemetryGet (m : MbxId) | telemetryStream (m : MbxId)
  | draftWrite (m : MbxId) | draftRead (m : MbxId) | draftClear (m : MbxId)
  | fwWrite (m : MbxId) | fwVerify (m : MbxId) | fwActivate (m : MbxId) | fwStatus (m : MbxId)
  | deferredCommandEnd (ticket : Nat)
  -- register window and Chimney frames (R354, R355, R401, R409, R410, R418)
  | mbxSubmit (l : Link) (seq : Nat) (v : BitVec 32)
  | doorbell (l : Link) (seq : Nat) (v : BitVec 32)
  | mbxBufferWrite (l : Link) (seq : Nat) (off : Nat) (data : Bytes)
  | mbxOverrunRead (r : OverrunRead)
  | masterWrite (l : Link) (seq : Nat) (v : BitVec 32) (contended : Bool)
  | faultCauseClear (l : Link) (seq : Nat) (v : BitVec 32)
  | irqStatusClear (l : Link) (seq : Nat) (v : BitVec 32)
  | irqEnableWrite (l : Link) (seq : Nat) (v : BitVec 32)
  | emberNsLoRead (l : Link)
  | draftRegisterWrite (l : Link) (seq : Nat) (off : Nat) (v : BitVec 32)
  | regWr (l : Link) (seq : Nat) (off : Nat) (v : FrameWord)
  | irqAck (l : Link)
  | irqResend
  | chimneyFrameRetry (l : Link) (seq : Nat)
  | mbxCmd (port : Nat) (m : PktMsg)
  | tenantCompletionPost (p : Nat)
  | eventMessageSend (p : Nat)
  | fwStreamTimeout
  -- Saxel links (13)
  | detectProbe (port : Nat) | peerDetected (port : Nat) | equalizeConverged (port : Nat)
  | codewordLock (port : Nat) | config (port : Nat) (r : ConfigRec) | configRepeat (port : Nat)
  | linkUp (port : Nat) | laneTrained (port lane : Nat) | portStep (port : Nat) | portStepEnd (port : Nat)
  | lockLossTimeout (port : Nat) | lccShutdown (port : Nat)
  | adaptationWindow (port lane corrected received uncorrectable : Nat)
  | retrainDone (port : Nat) (ok : Bool)
  | flitSend (port : Nat) | flitReceive (port : Nat) (f : Flit)
  | replayTimeout (port : Nat) | ackStallTimeout (port : Nat)
  | spdm (port : Nat) (m : SpdmMsg) | spdmResponseTimeout (port : Nat) | handshakeTimeout (port : Nat)
  | keyUpdateStart (port : Nat) | heartbeatTimeout (port : Nat)
  -- directory (11, 06)
  | rdShared (port : Nat) (m : LineMsg) | rdOwn (port : Nat) (m : LineMsg) | upgrade (port : Nat) (m : LineMsg)
  | rdNc (port : Nat) (m : LineMsg) | wrLine (port : Nat) (m : LineMsg) | wrMask (port : Nat) (m : LineMsg)
  | atomic (port : Nat) (m : LineMsg) | fence (port : Nat) (m : LineMsg)
  | placedWrite (part target addr : Nat) (data : Bytes)
  | ackInv (port : Nat) (m : LineMsg) | ackShared (port : Nat) (m : LineMsg) | notHeld (port : Nat) (m : LineMsg)
  | evictClean (port : Nat) (m : LineMsg) | placeAck (port : Nat) (m : LineMsg)
  | placeDecline (port : Nat) (m : LineMsg) | snpData (port : Nat) (m : LineMsg) | wbData (port : Nat) (m : LineMsg)
  | lineRequestResume (line : Nat) | snoopTimeout (agent line : Nat) | writebackTimeout (agent line : Nat)
  | agentCrash (agent : Nat) | reclaimWalkEnd (agent : Nat) | agentReclaimEnd (agent : Nat)
  | lineHoldAtomic (line : Nat) | homeAtomic (line : Nat) | devownRecallEnd (base : Nat)
  | segmentAcquire (chan first lines : Nat) | segmentAcquired (chan : Nat) | segmentAbandon (chan : Nat)
  | segmentRelease (chan : Nat)
  | cxlMemrd (tray : Nat) (mv : CxlMeta) (addr tag : Nat) | cxlMeminv (tray addr tag : Nat)
  | cxlMemclnevct (tray addr tag : Nat) | cxlMemspecrd (tray addr : Nat)
  | cxlMemwr (tray addr tag : Nat) (mask : BitVec 64) (data : Bytes)
  | cxlBirsp (tray addr : Nat) (shared : Bool) | cxlBiconflict (tray addr tag : Nat)
  | trayCreditResume (tray : Nat) | dcAddAccept (tray base : Nat) | dcReleaseResponse (tray base : Nat)
  | trayReadFail (tray addr : Nat) | trayLinkDown (tray : Nat) | trayPerstN (tray : Nat) (low : Bool)
  | trayPrsntN (tray : Nat) (low : Bool)
  | cinderCompletion (tray : Nat) (c : CinderCpl) (data : Bytes) | cinderCommandTimeout (tray qid cid : Nat)
  | cinderAbortTimeout (tray : Nat) (fatal : Bool) | bridgeAccess (tray addr bytes : Nat)
  -- messages across stages (10, 17) and collectives (07)
  | post (port : Nat) (m : PktMsg) | collect (port : Nat) (m : PktMsg) | collectAnswer (port : Nat) (m : PktMsg)
  | msgCmp (port : Nat) (m : PktMsg) | messageForward (port : Nat) (m : PktMsg)
  | neighbourHello (port : Nat) (m : PktMsg) | helloTimer (port : Nat)
  | contrib (port : Nat) (m : PktMsg) | partialMsg (port : Nat) (m : PktMsg) | result (port : Nat) (m : PktMsg)
  | endMsg (port : Nat) (m : PktMsg)
  | collectiveLocalDeadline (part group inst : Nat) | collectiveResultDeadline (part group inst : Nat)
  | mirrorAccess (port : Nat) (write : Bool) (addr txn : Nat) (data : Bytes)
  | mirrorWrite (port : Nat) (part txn : Nat) (m : MirrorMsg)
  | requestTimeout (id : Nat)
  -- Damper (09)
  | frameSelect (tray : Bool) (port : Nat) | damperParamApply (tray : Bool) (port : Nat)
  -- chains, look-up, Anvil (03, 04, 06)
  | chainAdmit (nook : Nat) | chainComplete (cid : Nat) | chainTimeout (cid : Nat)
  | memoryResponse (cid stage : Nat) | templateDeferredStart (part id : Nat)
  | ladleIndex (cid stage row : Nat) | rowReadDone (cid stage row : Nat)
  | strokeStart (chan : Nat) | strokeEnd (chan : Nat) | refreshDue (chan : Nat) | refreshFallback (chan : Nat)
  | scrubDue (chan : Nat) | scrubFallback (chan : Nat) | scrubBurst (chan : Nat) (corrected bad : List Nat)
  | benchTransfer (chan : Nat) (checkOk : Bool)
  -- table update (05)
  | scatterBatch (cid stage home : Nat) | stepApply (part table row : Nat)
  | applySlotTimeout (part table : Nat) | closeComplete (part table : Nat) | slotWaveFree (part table : Nat)
  | genDrainEnd (part table : Nat) | loadBucketTick | balancerTick
  | shardMoveRow (part : Nat) | shardMoveEnd (part : Nat)
  -- calendar and slots (08)
  | slotBoundary | gateOpen (e : Nat) | gateClose (e : Nat) | chainStart (e : Nat) | calStepClose (e : Nat)
  | refresh (e : Nat) | scrub (e : Nat) | xbarShare (e : Nat) | mark (e : Nat)
  | calSwap | calStopAct
  -- maps, releases, nook moves (10, 01)
  | mapCommitAct | mapRetire | releaseDeadline (base : Nat) | releaseEnd (base : Nat)
  | nookDrainTimeout (nook : Nat) | nookMoveEnd (nook : Nat) | zeroingRegion (nook region : Nat)
  -- Ember (08)
  | syncExchangeTimer | syncReq (port : Nat) (m : PktMsg) (t2 : Nat) | syncRsp (port : Nat) (m : PktMsg) (t4 : Nat)
  | announceTimer | announce (port : Nat) (m : PktMsg) | upstreamLost | emberDelayCheck (delays : List Nat)
  | ppsEdge | ppsTimeout | ppsOutPulse | ppsOutEnd
  -- Bellows, keys, Ash (12, 15)
  | bellowsEntryStart (part list entry : Nat) | bellowsChunk (part list entry : Nat)
  | bellowsEntryComplete (part list entry : Nat) | ckeyExpiry (handle : Nat) | nonceExpiry (part : Nat)
  | keyPoolRefill | trngHealthFail | ashBackgroundWork (w : AshWork) | ashUnitProgrammed (part unit : Nat)
  -- faults and background work (18)
  | cleanerCycle (w : CleanWhere) (corrected : Nat) | sramUncorrectable (w : SramWhere) | mantelRestartEnd
  | channelRetireTrigger (chan : Nat) (why : RetireWhy) | channelRetire (chan : Nat)
  | trayFailover (base : Nat) | trayCopyBackEnd (base : Nat) | recoveryEnd (part : Nat)
  | tempSample (hearth : Int) (temps : List Int) | throttle | telemetrySample (powerW inputMv : Nat)
  -- power, pins, start (17, 19)
  | suppliesValid | supplyOutOfRange | supplyLoss | modRstNFall | startInstant (fwOk : Bool) (identityOk : Bool)
  | readyBasic | readyFull | pwrBrakeAssert | pwrBrakeRelease | brakeLatchClear
  | refclkLost (clk : Nat) | refclkReturn (clk : Nat)
  | twinPaired | twinDown | twinLinksDown | twinSyncEnd | smbusBlockRead (code : Nat)
  | memoryAccessDone (line : Nat) (corrected bad : Bool) | refreshEnd (chan : Nat) | mirrorCopyEnd (base : Nat)
  | genCopyEnd (part table : Nat) | migrationRowArrival (port : Nat) (m : PktMsg) | pushStartTime (part list entry : Nat)
  | keyPairWaitTimeout | twinPairTimeout | takeoverDrainTimeout (part : Nat) | tenantWindowStart (p : Nat)
  | trngHealthRestored | trayLinkUp (tray : Nat) | laneLockLoss (port lane : Nat)
  | chimneyLinkDown (l : Link) | chimneyLinkUp (l : Link) | twinSenseN (asserted : Bool) | supplyBackInRange
  deriving DecidableEq, Repr

end Sys2Proof
end

