-- ==== Sys2Proof/Config.lean ====
section
/-! DEFINITION. The free values: what the manual leaves to secrets, to cryptography named by other
standards, or to the implementation. None has a body, so no claim can rest on one. -/

namespace Sys2Proof.Config

/-- SHA-256 (R383, R385, R414): a named outside standard, left uninterpreted. Log entry 3. -/
opaque sha256 : Bytes → Bytes

/-- The boot ROM's version and SVN (FWVER0 of R386), and the SHA-256 of the Brodoux public key in mask ROM (R382, R383): the
chip's own. Log entry 3. -/
opaque romVersion : Nat

opaque romKeyHash : Bytes

/-- RSASSA-PSS check of a signature over a message under a Brodoux key (R378, R382, R414). Log entry 3. -/
opaque sigOk : Bytes → Bytes → Bool

/-- Does a DER certificate chain reach the Brodoux debug CA and name this SERIAL (R378)? Log entry 3. -/
opaque debugChainOk : Bytes → Nat → Bool

/-- RSASSA-PSS check under the key a debug certificate carries (R378): certificate chain, message, signature. -/
opaque debugSigOk : Bytes → Bytes → Bytes → Bool

/-- Does a firmware slot hold an image of a kind that passes its header, length, digest and signature checks (R414,
R417)? The manual gives the header's contents, not their places. Log entry 3. -/
opaque imageOk : Nat → List (Nat × Byte) → Bool

/-- Version, security version and body digest that an image's header states (R384, R414). Log entry 3. -/
opaque imageVersion : List (Nat × Byte) → Nat

opaque imageSvn : List (Nat × Byte) → Nat

opaque imageDigest : List (Nat × Byte) → Bytes

/-- The RSASSA-PSS signature of a Hallmark under the identity key (R386), given as its wrapped form. Log entry 3. -/
opaque sign : Bytes → Bytes → Bytes

/-- RSAES-OAEP decryption under partition key pair number `k` with a label (R393). Log entry 3. -/
opaque oaepOpen : Nat → Bytes → Bytes → Option Bytes

/-- Modulus of partition key pair number `k` (R386). Log entry 3. -/
opaque pairModulus : Nat → Bytes

/-- The decryption of a run of ciphertext within AES-256-GCM (R314, R394): key, IV, offset, ciphertext. The tag is no part of it. Log
entry 3. -/
opaque gcmPart : Bytes → Bytes → Nat → Bytes → Bytes

/-- AES-256-GCM (R394): key, IV, additional data, ciphertext, tag; the plaintext where the tag holds. Log
entry 3. -/
opaque gcmOpen : Bytes → Bytes → Bytes → Bytes → Bytes → Option Bytes

/-- GCM seal of a flit: ciphertext slots with the tag in the last slot (R335, R348). -/
opaque flitSeal : Nat → Nat → Nat → List (BitVec 128) → List (BitVec 128)

/-- GCM open of a flit: none when the tag fails (R336, R348). -/
opaque flitOpen : Nat → Nat → Nat → List (BitVec 128) → Option (List (BitVec 128))

/-- AES-256-XTS under a nook's memory key (R154, R155): key number, line number, plaintext. Log entry 81. -/
opaque xtsLine : Nat → Nat → Bytes → Bytes

/-- The check bits of the system-ECC code over ciphertext and tag (R155, R171). Log entry 81. -/
opaque eccBits : Bytes → Nat → Bytes

/-- AES-256-XTS with a flash key, and its inverse (R321): key number, unit, sequence number, data. -/
opaque xtsSeal : Nat → Nat → Nat → Bytes → Bytes

opaque xtsOpen : Nat → Nat → Nat → Bytes → Bytes

/-- GMAC of a flash page (R321): key number, page address, program sequence number, contents. -/
opaque gmac : Nat → Nat → Nat → Bytes → Bytes

/-- A namespace key record (R392): AES-256-GCM under the sealing key, over the flash key of a number, with SERIAL and the namespace
id as additional data; and its opening, none where it fails. Log entry 3. -/
opaque sealRecord : Nat → Nat → Nat → Bytes

opaque openRecord : Bytes → Nat → Nat → Option Nat

/-- The same record under RSAES-OAEP to the identity key of the twin with a SERIAL (R392): that SERIAL, flash key, namespace id; and
its opening by the module that holds the identity key. Log entry 3. -/
opaque twinRecord : Nat → Nat → Nat → Bytes

opaque openTwinRecord : Bytes → Nat → Option Nat

/-- Each module of a pair has verified the other's Hallmark of KIND 1 (R392), at the `n`-th draw. Log entry 3. -/
opaque twinVerified : Nat → Bool

/-- The block that holds a page of a partition's Ash map (R322): the manual gives map pages no place. Log entry 89. -/
opaque mapBlock : Nat → Nat → Nat

/-- The channel of the system nooks, counted from the first, that caches a page of a partition's Ash map (R19, R455). Log entry 89. -/
opaque mapChan : Nat → Nat → Nat

/-- TRNG output (R388): the `n`-th draw of 32 bytes. Log entry 3. -/
opaque random32 : Nat → Bytes

/-- A free value for a result the manual leaves open: the `n`-th draw, as a number. Log entry 4. -/
opaque freeNat : Nat → Nat

/-- The dither of a Q8 or Q4 row that a TRANSFORM makes (R87, R141): input row, its sequence number, element. R141 takes it
from a table, a physical row and a step, which a TRANSFORM does not have. Log entry 4. -/
opaque transformDither : Bytes → Nat → Nat → Nat

/-- A Q8 or Q4 row of a TRANSFORM that R141 would not store: input row, its sequence number. Log entry 4. -/
opaque unstoredRow : Bytes → Nat → Nat

/-- Stacked lines whose stored code word falls into error at local time `t`, true where it cannot be corrected any more (R171,
R172): the manual gives no rates. Log entry 79. -/
opaque decay : Nat → List (Nat × Bool)

/-- The part of a steered module's rate that follows its upstream's frequency, learned from the exchanges, in 2^-32 ns per ns;
bounded where it is used: within 50 ns/s of what the last exchanges measure, and R213. It holds alone in HOLDOVER (R215, R224). Log entry 5. -/
opaque learnedRate : Nat → Int

/-- The slots of a mirror message as sent, by its number and place: the manual gives it no layout. Log entry 88. -/
opaque mirrorSlot : Nat → Nat → BitVec 128

/-- The rate correction that a steered module adds to close an offset, in 2^-32 ns per ns; bounded where it is used (R213). -/
opaque steerRate : Nat → Int

/-- A module's own position in its parent's child list (R192): parent's endpoint id, group id. The group descriptor
does not hold it. Log entry 15. -/
opaque childPos : Nat → Nat → Nat

/-- TENANT_TAG that a partition number has on the twin, 0 for none, at the `n`-th draw (R437): how the modules of a pair learn
each other's partitions is not stated. Log entry 17. -/
opaque twinTag : Nat → Nat → Nat

/-- The twin stayed primary, so that this module rejoins as secondary (R444), at the `n`-th draw. Log entry 17. -/
opaque twinStayed : Nat → Bool

/-- The expander behind a tray port has several logical devices, which TRAY_LD may name (R264, R266, log entry 91). -/
opaque multiLd : Nat → Bool

end Sys2Proof.Config
end

