-- ==== Sys2Proof/Machine/Types.lean ====
section
/-! DEFINITION. The parts of the state, one structure for each unit the manual names. Every field has its
reset value as default; the comment after it gives the width, the rule and the reset source
("spec" where the manual states it, "log n" where an entry of the assumption log does). -/

namespace Sys2Proof.Machine

/-- Who owns a nook (Owners). -/
inductive Owner where
  | free | system
  | part (p : Nat)
  deriving DecidableEq, Repr, Inhabited

/-- The status codes of R9 and R407. -/
inductive Status where
  | ok | retry | extentGone | epochStale | lineLost | damaged | noAccess | partialLost | timeout
  | doubleFault | busy | badDescriptor | genConflict | quiesced | imageBad | profileBad
  deriving DecidableEq, Repr, Inhabited

/-- The virtual channels of R340. -/
inductive Vc where
  | req | snp | rsp | dat | msg | sch | mgt
  deriving DecidableEq, Repr, Inhabited

/-- What the module sends on a tray port: CXL responses, back-invalidations, capacity flows, requests to
expanders, whose tag names the logical device (R265, R307, R350 to R352), Completer Abort (R329). -/
inductive TrayOut where
  | memData | memDataPoison | cmp | cmpS | cmpE | biSnpInv | biSnpData | biSnpCur | biConflictAck
  | dcAdd | dcRelease | eventRecord | memRd | memWr | completerAbort | cinder
  deriving DecidableEq, Repr, Inhabited

/-- One message the module sends. -/
inductive Out where
  | line (vc : Vc) (opc : Nat) (m : LineMsg)
  | pkt (vc : Vc) (m : PktMsg)
  | tray (k : TrayOut) (tag addr : Nat) (status : Nat) (data : Bytes)
  | mirror (txn bytes : Nat)     -- mirroring traffic on a twin link (R28, R438)
  deriving DecidableEq, Repr, Inhabited

/-- A frame waiting at a port (R246): its service, its subscriber, its raw flits (R345). -/
structure Frame where
  svc : Nat := 0
  sub : Nat := 0
  raw : Nat := 1
  out : Out := .pkt .sch {}
  deriving DecidableEq, Repr, Inhabited

/-- The pointer of an arbiter (R240): it is the slot number modulo n until the arbiter has a winner in the slot. -/
structure Arb where
  slot : Nat := 0
  ptr : Nat := 0
  deriving DecidableEq, Repr, Inhabited

/-! ## Mantel -/

/-- An accepted command (R403 to R405). `src` and `txn` name the MBX_CMD it came in (tenant mailboxes). -/
structure Job where
  id : Nat := 0
  mbx : MbxId := .a
  port : Nat := 0
  src : Nat := 0
  txn : Nat := 0
  op : Nat := 0
  seq : Nat := 0
  part : Nat := 0
  defer : Bool := false
  quiet : Bool := false
  ticket : Nat := 0
  payload : Bytes := []
  started : Bool := false
  ready : Nat := 0               -- when it could start (R403)
  at_ : Nat := 0                 -- Ember ns of its acceptance (R313)
  res : Option (Nat × Nat × Nat) := none   -- a deferred command's status, detail and end time
  deriving DecidableEq, Repr, Inhabited

/-- A completion (R400): header fields and payload. -/
structure Cmpl where
  op : Nat := 0
  seq : Nat := 0
  status : Nat := 0
  detail : Nat := 0
  ticket : Nat := 0
  endTime : Nat := 0
  payload : Bytes := []
  deriving DecidableEq, Repr, Inhabited

/-- A mailbox block (R401). -/
structure MbxBlock where
  page : Nat := 0               -- 3 bits; 16 R401; reset 0 (spec)
  st : Nat := 0                 -- 2 bits, 0 IDLE 1 BUSY 2 DONE; 16 R401; reset 0 (spec)
  overrun : Bool := false       -- 1 bit; 16 R401; reset 0 (spec)
  cmdHdr : Nat := 0             -- 512 bits; 16 R399, R401; reset 0 (spec)
  cmpHdr : Cmpl := {}           -- 512 bits as fields; 16 R400, R401; reset 0 (spec)
  cmpLen : Nat := 0             -- LEN of the completion; 16 R400; reset 0 (spec)
  buf : List Host.Cell := []    -- 4 KiB, unlisted bytes read 0; 16 R401; reset 0 (log 5)
  deriving DecidableEq, Repr, Inhabited

/-- The last command accepted with its SEQ and OPCODE, and its completion once it has one (R405). -/
structure Last where
  mbx : MbxId := .a
  seq : Nat := 0
  op : Nat := 0
  cmpl : Option Cmpl := none
  waiters : List (Nat × Nat × Nat) := []   -- port, source and TXN of resent commands that wait
  deriving DecidableEq, Repr, Inhabited

/-- A tenant completion that waits for the next 100 us boundary (R374). -/
structure TenPost where
  part : Nat := 0
  port : Nat := 0
  dst : Nat := 0
  txn : Nat := 0
  at_ : Nat := 0
  cmpl : Cmpl := {}
  cmd : Bool := false            -- the end of an accepted command that was not deferred (R402, R403)
  deriving DecidableEq, Repr, Inhabited

/-- An event record (R411). -/
structure Event where
  code : Nat := 0
  part : Nat := 0
  sys : Bool := false
  eseq : Nat := 0
  ns : Nat := 0
  detail : List Nat := []
  deriving DecidableEq, Repr, Inhabited

/-- An event queue (R412). -/
structure EventQ where
  recs : List Event := []        -- 4,096 or 256 records; 16 R412; reset empty (spec)
  eseq : Nat := 0                -- 32 bits; 16 R411; reset 0 (log 5)
  notify : Nat := 0              -- 32 bits, endpoint of EVENT_NOTIFY, 0 none; 16 R408; reset 0 (log 5)
  notifyDue : Option Nat := none -- Ember ns at which the EVENT message leaves; 16 R412; reset none
  deriving DecidableEq, Repr, Inhabited

/-- What a Chimney link remembers of the last request it performed (R354). -/
structure ChimLink where
  up : Bool := false             -- 1 bit, MASTER A_UP or B_UP; 16 R409; reset 0 (spec)
  lastSeq : Option Nat := none   -- 8 bits; 13 R354; reset none
  lastStatus : Nat := 0          -- 16 bits, the answer kept for a resend; 13 R354; reset 0 (log 5)
  answers : Nat := 0             -- count of answers sent (the model's own); 13 R354; reset 0
  lastRead : Nat := 0            -- 32 bits, value of the last RD_RSP; 13 R354; reset 0 (log 5)
  deriving DecidableEq, Repr, Inhabited

/-- One firmware slot (R414, R416, R417). -/
structure FwSlot where
  bytes : List Host.Cell := []   -- the copy in CF0, of the slot size of R414, erased bytes read 0xFF; 16 R414; reset erased (log 6)
  copy : List Host.Cell := []    -- the copy in CF1; 16 R414; reset erased (log 6)
  endAt : Nat := 0               -- end of the last FW_WRITE; 16 R416; reset 0 (log 6)
  verified : Bool := false       -- FW_VERIFY passed since the last write; 16 R417; reset 0 (log 6)
  version : Nat := 0             -- 32 bits; 15 R384; reset 0 (log 6)
  svn : Nat := 0                 -- 32 bits; 15 R384; reset 0 (log 6)
  deriving DecidableEq, Repr, Inhabited

/-- A slot-select record: the active slot and the activation count; its CRC-32 is computed (R415). -/
structure SlotSel where
  activeB : Bool := false        -- active slot; 16 R415; reset A (log 6)
  count : Nat := 0               -- 32 bits; 16 R415; reset 0 (log 6)
  deriving DecidableEq, Repr, Inhabited

/-- One image kind (R414, R415). -/
structure FwKind where
  sel0 : SlotSel := {}           -- the record in CF0; 16 R415
  sel1 : SlotSel := {}           -- the record in CF1; 16 R415
  slotA : FwSlot := {}
  slotB : FwSlot := {}
  runVersion : Nat := 0          -- 32 bits; 16 R408; reset 0 (log 6)
  runSvn : Nat := 0              -- 32 bits; 15 R386; reset 0 (log 6)
  deriving DecidableEq, Repr, Inhabited

/-- The open firmware stream (R416). -/
structure FwStream where
  mbx : MbxId := .a
  kind : Nat := 0
  endAt : Nat := 0
  lastAt : Nat := 0
  deriving DecidableEq, Repr, Inhabited

/-- A telemetry sample's contents (R451), as counters; KIND and PART by where it is kept. -/
structure Tele where
  ns : Nat := 0
  mhz : Nat := 0
  powerW : Nat := 0
  inputMv : Nat := 0
  tempHearth : Int := 0
  tempStacks : List Int := []
  reqAdmitted : Nat := 0
  reqRefused : Nat := 0
  chainsDone : Nat := 0
  chainsNotOk : Nat := 0
  stackCe : Nat := 0
  damagedNew : Nat := 0
  lostNew : Nat := 0
  replays : Nat := 0
  lanesDown : Nat := 0
  flashCe : Nat := 0
  lateActions : Nat := 0
  bytesIn : Nat := 0
  bytesOut : Nat := 0
  heatMax : Nat := 0
  recovering : Bool := false
  quiesced : Bool := false
  deriving DecidableEq, Repr, Inhabited

/-- The Mantel processor, its mailboxes, queues and registers. -/
structure Mantel where
  mbxA : MbxBlock := {}                 -- block; 16 R401; reset 0 (spec)
  mbxB : MbxBlock := {}                 -- block; 16 R401; reset 0 (spec)
  mbxD : MbxBlock := {}                 -- block, MBX_DEBUG; 16 R398; reset 0 (spec)
  jobs : List Job := []                 -- accepted commands; 16 R403; reset empty (spec)
  nextJob : Nat := 1                    -- the model's own counter; reset 1
  nextTicket : Nat := 1                 -- 16 bits; 16 R404; reset 1 (log 7)
  lasts : List Last := []               -- last 1 or 16 commands of a mailbox; 16 R405; reset empty (log 5)
  posts : List TenPost := []            -- tenant completions; 15 R374; reset empty
  evM : EventQ := {}                    -- manager queue; 16 R412; reset empty
  evP : List EventQ := List.replicate 16 {}  -- partition queues; 16 R412; reset empty
  faultCause : BitVec 32 := 0           -- 32 bits; 16 R409; reset 0 (spec)
  irqStatus : BitVec 32 := 0            -- 32 bits; 16 R409, R410; reset 0 (spec)
  irqEnable : BitVec 32 := 0            -- 32 bits; 16 R409; reset 0 (spec)
  irqOut : Option (BitVec 32) := none   -- VALUE of the IRQ frame that awaits IRQ_ACK; 16 R410; reset none
  irqAt : Nat := 0                      -- time of its last sending; 13 R354; reset 0
  irqSent : Nat := 0                    -- IRQ frames sent (the model's own count); 13 R354; reset 0
  irqMore : Bool := false               -- enabled bits set since the frame was formed; 16 R410; reset 0
  masterB : Bool := false               -- MASTER HOLDER; 16 R409; reset 0 (spec)
  mbxArb : Arb := {}                    -- arbiter of commands that become ready in one cycle; 16 R403, 08 R240; reset 0 (spec)
  masterArb : Arb := {}                 -- arbiter of MASTER writes; 13 R355, 08 R240; reset 0 (spec)
  linkA : ChimLink := {}                -- Chimney link A
  linkB : ChimLink := {}                -- Chimney link B
  linkJ : ChimLink := {}                -- JTAG access to the window; 15 R378
  emberHi : BitVec 32 := 0              -- EMBER_NS_HI latch; 16 R409; reset 0 (spec)
  emberFrac : BitVec 32 := 0            -- EMBER_FRAC latch; 16 R409; reset 0 (spec)
  draft : List (Nat × BitVec 32) := []  -- draft registers that are nonzero, by offset; 16 R418; reset 0 (spec)
  debugNonce : Option Bytes := none     -- 32 bytes; 15 R378; reset none
  debugOpen : Bool := false             -- READY [18]; 15 R378; reset 0 (spec)
  everDebug : Bool := false             -- Hallmark FLAGS [2]; 15 R386; reset 0 (spec)
  everDraft : Bool := false             -- Hallmark FLAGS [4]; 15 R386; reset 0 (spec)
  mr : List Bytes := List.replicate 8 (List.replicate 32 0)  -- 8 x 32 bytes; 15 R383; reset 0 (spec)
  measLog : List (Nat × Bytes × Nat) := []   -- (register, digest, description); 15 R383; reset empty
  fw : List FwKind := List.replicate 5 {}    -- firmware slots; 16 R414; reset log 6
  fwStream : Option FwStream := none    -- 16 R416; reset none
  teleM : Tele := {}                    -- latest module sample; 18 R451; reset 0 (log 5)
  teleP : List Tele := List.replicate 16 {}  -- latest partition samples; 18 R451; reset 0 (log 5)
  cntM : Tele := {}                     -- counters of the running interval; 18 R451; reset 0
  cntP : List Tele := List.replicate 16 {}   -- the same for each partition; 18 R451; reset 0
  stream : Option (Nat × Nat) := none   -- TELEMETRY_STREAM endpoint and period; 16 R408; reset none
  streamAt : Nat := 0                   -- ms since the last streamed sample; 16 R408; reset 0
  teleAt : Nat := 0                     -- the last whole millisecond of Ember time sampled; 18 R451; reset 0
  sysCe : Nat := 0                      -- correctable errors of the system's SRAM, saturating; 18 R447, R451; reset 0 (log 5)
  restarting : Bool := false            -- Mantel restart in progress; 18 R458; reset 0
  window : Option Nat := none           -- partition whose 6 us window is open; 15 R374; reset none
  deriving DecidableEq, Repr, Inhabited

/-! ## Pins, power, start -/

/-- Pins, supplies, brake, temperatures, reference clocks and ready signals. -/
structure Power where
  valid : Bool := true            -- supplies valid; 19 R474; reset 1 (spec: R8)
  outOfRange : Bool := false      -- 38 to 40 V or 48 to 50 V for 10 ms; 19 R473; reset 0 (log 5)
  rstLow : Bool := false          -- filtered MOD_RST_N low; 19 R483; reset 0 (spec: R8)
  startDue : Bool := true         -- the start instant has come and START_INSTANT has not run; 17 R420; reset 1
  warm : Bool := false            -- the start that is due is a warm restart; 17 R425; reset 0
  started : Bool := false         -- start-up runs or has run; 17 R421; reset 0
  bootFail : Bool := false        -- no copy verified; 15 R382; reset 0
  noIdentity : Bool := false      -- identity failure; 15 R381; reset 0
  startAt : Nat := 0              -- local time of the start instant; 17 R420; reset 0
  selPin : Nat := 0               -- PROFILE_SEL[1:0]; 19 R470; reset 0 (internal pull-down)
  posPin : Nat := 0               -- MODULE_POS[3:0]; 19 R470; reset 0 (internal pull-down)
  sel : Nat := 0                  -- sampled PROFILE_SEL; 17 R420; reset 0
  pos : Nat := 0                  -- sampled MODULE_POS; 17 R420; reset 0
  brakeLow : Bool := false        -- filtered PWR_BRAKE_N low; 17 R431; reset 0 (pull-up)
  brakeLatch : Bool := false      -- the latch of R431; reset 0 (spec: R479)
  brake : Bool := false           -- settings of R477 apply, READY [4]; 19 R477; reset 0 (spec)
  brakeAsserts : List Nat := []   -- times of the latest assertions; 17 R431; reset empty
  brakeHighAt : Nat := 0          -- time of the last deassertion; 17 R431; reset 0
  refLost : List Bool := [false, false, false]  -- SAXEL0, SAXEL1, PCIE clock lost; 19 R482; reset 0
  tempHearth : Int := 0           -- 16 bits, 1/16 C; 18 R448; reset 0 (spec: TEMP reads 0)
  tempStacks : List Int := List.replicate 24 0  -- 24 x 16 bits; 18 R448; reset 0 (log 5)
  warn : Bool := false            -- THERM_WARN, READY [3]; 18 R448; reset 0 (spec)
  coolAt : Option Nat := none     -- since when every die is 5 C below its warning level; 18 R448; reset none
  belowAt : Option Nat := none    -- since when every die is below its warning level; 18 R450; reset none
  emergency : Bool := false       -- thermal emergency; 18 R450; reset 0 (spec)
  tooHot : Bool := false          -- its limit has been passed, and it waits for the slot boundary; 15 R375, 18 R450; reset 0 (spec)
  step : Nat := 0                 -- Crucible clock step 0 to 3; 18 R449; reset 0 (2.4 GHz)
  stepAt : Nat := 0               -- time of the last step; 18 R449; reset 0
  lowAt : Option Nat := none      -- since when warn clear and power below 2,500 W; 18 R449; reset none
  powerW : Nat := 0               -- POWER_W; 19 R485; reset 0 (log 5)
  inputMv : Nat := 44000          -- INPUT_MV; 19 R485; reset 44,000, the nominal supply (log 5)
  readyBasic : Bool := false      -- READY [0]; 16 R409; reset 0 (spec)
  readyFull : Bool := false       -- READY [1]; 16 R409; reset 0 (spec)
  ppsOut : Bool := false          -- EMBER_PPS_OUT; 08 R214; reset 0 (spec: R483)
  ppsOutAt : Nat := 0             -- local time of its last rise; 08 R214; reset 0
  smbus : Option Bytes := none    -- last SMBus answer, none = NACK; 19 R485; reset none
  trngFail : Bool := false        -- a TRNG health test fails; 15 R390; reset 0
  draws : Nat := 0                -- TRNG draws taken (the model's own free-value counter); reset 0 (log 4)
  frees : Nat := 0                -- free values taken (the model's own counter); reset 0 (log 4)
  deriving DecidableEq, Repr, Inhabited

/-- The decoded active profile header (R427), and the config flash slots. -/
structure Profile where
  role : Nat := 0                 -- 8 bits; 17 R427; reset recovery profile (spec R429)
  secure : Bool := false          -- FLAGS [0]; 17 R427; reset 0
  test : Bool := false            -- FLAGS [1]; 17 R427; reset 0
  twin : Bool := false            -- FLAGS [2]; 17 R427; reset 0
  cell : Nat := 0                 -- 10 bits; 17 R427; reset 0
  sysNooks : Nat := 0             -- 0 to 2; 01 R19; reset 0
  prio : Nat := 0                 -- 8 bits; 08 R216; reset 0
  ppsOffset : Nat := 0            -- ns; 08 R226; reset 0
  split : Nat := 0                -- 64 bits; 17 R427; reset 0
  linkKind : Nat := 2 ^ 128 - 1   -- 128 bits; 17 R427; reset all disabled (spec R429)
  maxRate : Nat := 0              -- 128 bits; 17 R427; reset 0
  trayMode : Nat := 0             -- 32 bits; 17 R427; reset all disabled (spec R429)
  trayX8 : Nat := 0               -- 16 bits; 17 R427; reset 0
  twinA : Nat := 0                -- 8 bits; 17 R427; reset 0
  twinB : Nat := 0                -- 8 bits; 17 R427; reset 0
  twinSerial : Nat := 0           -- 64 bits; 17 R427; reset 0
  deriving DecidableEq, Repr, Inhabited

/-- Config flash and the profile in force. -/
structure Flash where
  cf0 : List Host.Cell := []      -- 4 slots x 256 KiB in CF0, erased bytes read 0xFF; 17 R426; reset erased (log 6)
  cf1 : List Host.Cell := []      -- the same in CF1; 17 R426; reset erased (log 6)
  idKey0 : Bytes := []            -- wrapped identity key with its helper data and certificate chain, in CF0; 01 R12, 15 R379; reset empty (log 6)
  idKey1 : Bytes := []            -- the same in CF1; 01 R12; reset empty (log 6)
  serial : Nat := 0               -- 64 bits, SERIAL; 16 R409; reset 0 (log 6)
  slot : Nat := 0                 -- active slot; 17 R430; reset 0
  recovery : Bool := true         -- the recovery profile is in force; 17 R429; reset 1
  prof : Profile := {}            -- header in force; 17 R427
  record : Bytes := []            -- the active profile record (PROFILE_DIGEST); 15 R386; reset empty
  selectDue : List (Nat × Nat) := []      -- PROFILE_SELECTs accepted that wait for the slot boundary: slot and job; 17 R430; reset none
  retired : List Nat := []        -- retirement records in CF0, channels; 18 R455; reset empty (log 6)
  retired1 : List Nat := []       -- the same in CF1; 18 R455; reset empty (log 6)
  deriving DecidableEq, Repr, Inhabited

/-! ## Partitions, nooks -/

/-- A data fault being recovered (R453, R463). -/
structure Recovery where
  code : Nat := 0
  at_ : Nat := 0
  running : Bool := true
  ended : Bool := false
  unit : Nat := 0
  deriving DecidableEq, Repr, Inhabited

/-- A partition. -/
structure Part where
  id : Nat := 0                   -- 0 to 15; 01 R18
  agents : Nat := 0               -- quota, 0 to 64; 11 R291
  cacheKib : Nat := 1536          -- 12 bits; 04 R125
  tag : Nat := 0                  -- 32 bits; 10 R285
  keyPair : Option Nat := none    -- partition key pair; 15 R391
  quiesced : Bool := false        -- 16 R408
  dfault : Bool := false          -- quiesced under DOUBLE_FAULT; 18 R463
  quiesceJobs : List Nat := []    -- PARTITION_QUIESCEs that wait; 16 R408
  recs : List Recovery := []      -- recoveries; 18 R464
  nonces : List (Bytes × Nat) := []   -- retained Hallmark nonces and issue times; 15 R387
  ce : Nat := 0                   -- correctable-error count; 06 R171
  clockMhz : Nat := 2400          -- Crucible clock fixed at creation; 01 R32
  deriving DecidableEq, Repr, Inhabited

/-- A nook move in progress (R25). -/
structure NookMove where
  nook : Nat := 0
  dst : Owner := .free
  at_ : Nat := 0
  job : Nat := 0
  cleared : Bool := false
  deriving DecidableEq, Repr, Inhabited

/-- A port move or PARTITION_CREATE/DESTROY that waits, with its job. -/
structure PartWait where
  job : Nat := 0
  at_ : Nat := 0
  payload : Bytes := []
  deriving DecidableEq, Repr, Inhabited

/-- Partitions, nook owners, moves, zeroing, key pool. -/
structure Tenancy where
  parts : List Part := []                              -- at most 16; 01 R18; reset none (spec R429)
  nooks : List Owner := List.replicate 96 .free        -- 01 R19; reset free
  moves : List NookMove := []                          -- 01 R25; reset none
  unzeroed : List (Nat × Nat) := []                    -- (nook, 8 slot + channel index) not yet zeroed; 01 R26; reset none
  memKey : List Nat := List.replicate 96 0             -- number of the nook's memory key; 15 R388; reset 0 (log 3)
  trayKey : List (Nat × Nat × Nat) := []               -- (partition, tray port, key number); 15 R388; reset none
  keyPool : List Nat := []                             -- pregenerated key pairs, at most 4; 15 R391; reset none (log 5)
  nextKey : Nat := 1                                   -- the model's own key counter; reset 1 (log 3)
  creates : List PartWait := []                        -- PARTITION_CREATEs that wait for a key pair; 15 R391; reset none
  deriving DecidableEq, Repr, Inhabited

/-! ## Maps and memory -/

/-- An extent (R264). -/
structure Extent where
  base : Nat := 0
  granules : Nat := 1
  trayBase : Nat := 0
  hostmask : Nat := 0
  mirrorPort : Nat := 0
  trayPort : Nat := 0
  trayLd : Nat := 0
  dcRegion : Nat := 0
  nook : Nat := 0
  ch0 : Nat := 0
  channelMap : Bool := false
  mirror : Nat := 0
  devown : Bool := false
  coh : Bool := false
  tray : Bool := false
  part : Nat := 0
  deriving DecidableEq, Repr, Inhabited

/-- A route entry (R286). -/
structure Route where
  own : Bool := false
  dest : Nat := 0
  ports : List Nat := []
  deriving DecidableEq, Repr, Inhabited

/-- A map (R270). -/
structure MapV where
  epoch : Nat := 0
  exts : List Extent := []
  routes : List Route := []
  deriving DecidableEq, Repr, Inhabited

/-- A pending MAP_COMMIT (R271). -/
structure Commit where
  newEpoch : Nat := 0
  atSlot : Nat := 0
  job : Nat := 0
  deriving DecidableEq, Repr, Inhabited

/-- A running release (R274). -/
structure Release where
  ext : Extent := {}
  at_ : Nat := 0
  closed : Bool := false
  back : List Nat := []              -- hosts that have answered; 10 R275
  deriving DecidableEq, Repr, Inhabited

/-- An extent's state beside its descriptor: recall for DEVICE-OWNED (R176), mirror copy (R269, R456), tray loss (R457). -/
structure ExtState where
  base : Nat := 0
  recallJob : Option Nat := none     -- EXTENT_SET_ATTR that waits for its recall
  clearJob : Option Nat := none      -- clearing DEVOWN waits for running strokes
  copyJob : Option Nat := none       -- mirror copy running, with its job
  copying : Bool := false
  mirrorOnly : Bool := false         -- served from MIRROR_PORT alone
  trayOnly : Bool := false           -- served from TRAY_PORT alone, its mirror having failed
  waiting : Bool := false            -- accesses wait for the failover
  copyBack : Bool := false           -- copy back to TRAY_PORT running
  lost : Bool := false               -- every access answers DAMAGED
  accepted : List Nat := []          -- hosts that have accepted the capacity (R267)
  deriving DecidableEq, Repr, Inhabited

/-- The maps. -/
structure Maps where
  cur : MapV := {}                       -- current map; 10 R270; reset epoch 0, empty (spec)
  prev : Option MapV := none             -- previous map while live; 10 R270; reset none (spec)
  pend : Option MapV := none             -- pending map; 10 R270; reset none
  pendRel : List Nat := []               -- BASEs the pending map releases; 10 R271; reset none
  commit : Option Commit := none         -- MAP_COMMIT that waits; 10 R271; reset none
  rels : List Release := []              -- running releases; 10 R274; reset none
  ext : List ExtState := []              -- states of extents; reset none
  places : List (Nat × List Nat) := []   -- granule and the 32 MiB slots it takes on its channels; 10 R265; reset none
  shed : List (Nat × Nat × Nat) := []    -- tray port, BASE, GRANULES of a released extent that the host has not given back; 10 R275; reset none
  deriving DecidableEq, Repr, Inhabited

/-- Kinds of directory request. -/
inductive ReqKind where
  | rdShared | rdOwn | upgrade | rdNc | wrLine | wrMask | atomic | placed
  deriving DecidableEq, Repr, Inhabited

/-- Who sent a request: a Saxel port, a host behind a tray port (with its tag), an engine of the module under the
token of its work (R292). -/
inductive ReqSrc where
  | sax (port : Nat)
  | wb (port : Nat)              -- WB_DATA of a non-coherent line, performed as WR_LINE; 10 R268
  | host (tray tag : Nat) (mv : CxlMeta)
  | engine (tok : Nat)
  deriving DecidableEq, Repr, Inhabited

/-- A request at a directory slice. -/
structure LineReq where
  id : Nat := 0                  -- its tracker, 0 for an engine
  src : ReqSrc := .engine 0
  kind : ReqKind := .rdNc
  m : LineMsg := {}
  line : Nat := 0                -- the line: module offset / 64
  agent : Option Nat := none     -- the sender's agent id, if it has one
  part : Nat := 0
  heat : Nat := 0                -- Heat sampled at admission (R255)
  target : Nat := 0              -- placed write: agent id of the target
  held : Bool := false           -- an atomic that an Anvil unit returned: it runs under a line hold; 06 R175
  deriving DecidableEq, Repr, Inhabited

/-- Line states (R296). -/
inductive LineSt where
  | i | s | f | e | m
  deriving DecidableEq, Repr, Inhabited

/-- A directory entry (R294): its line in full, its way, its age for the LRU choice of R295. PEND is computed: a
transaction, line hold or segment is open on the line. -/
structure DirEnt where
  line : Nat := 0
  nook : Nat := 0
  way : Nat := 0
  st : LineSt := .i
  sharers : List Nat := []
  fwd : Nat := 0
  apred : Nat := 0
  lost : Bool := false
  evict : Bool := false          -- being evicted (R295)
  for_ : Nat := 0                -- the line that takes its way then
  used : Nat := 0
  deriving DecidableEq, Repr, Inhabited

/-- Where an open transaction stands: snoops open; waiting for the recorded owner's own write-back (R300); memory read
or write issued; PLACE sent; a line hold whose atomic awaits memory (R180) or the home unit (R306); a mirror access
sent to the twin (R460). -/
inductive TxPhase where
  | snoop | writeback | memory | place | hold | home | twin
  deriving DecidableEq, Repr, Inhabited

/-- An open transaction of a line (R299). -/
structure Tx where
  line : Nat := 0
  req : LineReq := {}
  phase : TxPhase := .memory
  data : Option Bytes := none    -- data a snoop or write-back brought
  dirty : Bool := false          -- they differ from memory
  ltag : Option Nat := none      -- their tag
  noData : Bool := false         -- UPGRADE by a sharer: no data
  uncached : Bool := false       -- served without an entry (R295)
  home : Bool := false           -- an atomic bound for the home unit (R305)
  stamp : Nat := 0               -- when it joined its channel's request queue; 06 R161
  txn : Nat := 0                 -- the mirror access
  deriving DecidableEq, Repr, Inhabited

/-- An open snoop (R302), or an awaited write-back (R300). -/
structure Snoop where
  agent : Nat := 0
  line : Nat := 0
  kind : Nat := 1                -- SNP opcode of R344
  txn : Nat := 0
  at_ : Nat := 0
  deriving DecidableEq, Repr, Inhabited

/-- A write-back in its channel's request queue (R159, R161): the memory of the model already holds the line. -/
structure WBack where
  line : Nat := 0
  stamp : Nat := 0               -- when it joined the queue
  deriving DecidableEq, Repr, Inhabited

/-- What a directory request of an engine came to: its status and the line read. -/
structure EngRes where
  tok : Nat := 0
  line : Nat := 0
  st : Status := .ok
  data : Bytes := []
  deriving DecidableEq, Repr, Inhabited

/-- A store or atomic that is done but for its mirror write to the twin (R278). -/
structure MAck where
  txn : Nat := 0
  req : LineReq := {}
  old : Nat := 0
  deriving DecidableEq, Repr, Inhabited

/-- A caching agent (R290, R291). -/
structure Agent where
  id : Nat := 0
  tray : Bool := false
  port : Nat := 0
  part : Nat := 0
  crashed : Bool := false
  walking : Bool := false
  leaving : Bool := false        -- reclaim of R489
  lost : Nat := 0                -- lines lost so far in the walk
  deriving DecidableEq, Repr, Inhabited

/-- An Anvil segment (R177). -/
structure Segment where
  chan : Nat := 0
  first : Nat := 0
  lines : Nat := 0
  at_ : Nat := 0
  held : Bool := false
  deriving DecidableEq, Repr, Inhabited

/-- The directory slices and agents. -/
structure Dir where
  ents : List DirEnt := []               -- valid entries of the 96 slices; 11 R293, R294; reset none (log 5)
  txs : List Tx := []                    -- open transactions; 11 R299; reset none
  waitq : List LineReq := []             -- waiting requests, oldest first; 11 R299; reset none
  snoops : List Snoop := []              -- open snoops; 11 R302; reset none
  awaits : List Snoop := []              -- awaited write-backs; 11 R300; reset none
  wbs : List WBack := []                 -- write-backs in the channels' request queues; 06 R159; reset none
  agents : List Agent := []              -- at most 64; 11 R290; reset none
  setLost : List (Nat × Nat) := []       -- set-lost (nook, set); 18 R459; reset none
  eng : List EngRes := []                -- results of the engines' own requests; 11 R292; reset none
  acks : List MAck := []                 -- stores that wait for the twin's answer; 10 R278; reset none
  segs : List Segment := []              -- Anvil segments; 06 R177; reset none
  stamp : Nat := 0                       -- the model's own clock of the LRU choice and of the request queues; reset 0
  nextSnp : Nat := 0                     -- TXN of the next snoop, 20 bits; 13 R341; reset 0 (log 5)
  deriving DecidableEq, Repr, Inhabited

/-- A load, store or message tracker (R14, R281). -/
structure Trk where
  id : Nat := 0
  part : Option Nat := none
  port : Nat := 0
  tray : Bool := false
  txn : Nat := 0
  src : Nat := 0
  epoch : Nat := 0
  at_ : Nat := 0
  vc : Vc := .req
  svc : Nat := 0
  opc : Nat := 0
  line : Nat := 0
  tag : Nat := 0
  heat : Nat := 0
  own : Option PktMsg := none    -- a message of the module itself, kept to be sent again when RETRY answers it; 00 R9
  waits : Bool := false          -- a message of the module that waits until the partition has a tracker; 10 R281
  hops : Nat := 0                -- the hop count it leaves with
  failed : Bool := false         -- a message of the module whose link has gone down: it ends with NO_ACCESS; 13 R334
  deriving DecidableEq, Repr, Inhabited

/-- A FENCE that waits for the trackers before it (R280). -/
structure FenceWait where
  port : Nat := 0
  src : Nat := 0
  txn : Nat := 0
  heat : Nat := 0
  epoch : Nat := 0               -- it counts in its epoch's in-flight count; 10 R272
  waits : List Nat := []         -- trackers of its requester's earlier requests and messages
  chains : List Nat := []        -- chains of its requester's earlier POURs
  deriving DecidableEq, Repr, Inhabited

/-- Memory, its faults, trackers. -/
structure Memory where
  bytes : List Host.Cell := []           -- memory behind module offsets; 10 R263; reset empty, reads 0 (log 8)
  mirror : List Host.Cell := []          -- tray-pair mirror copies; 10 R265; reset empty, reads 0 (log 8)
  weak : List (Nat × Bool) := []         -- stacked lines whose stored code word is in error, true where it cannot be corrected; 06 R171, R172; reset none (log 79)
  trks : List Trk := []                  -- at most 262,144; 10 R281; reset none
  nextTrk : Nat := 1                     -- the model's own counter; reset 1
  transit : List Nat := []               -- trackers of the messages passed on between stage links; 10 R281; reset none
  fences : List FenceWait := []          -- 10 R280; reset none
  deriving DecidableEq, Repr, Inhabited

/-! ## Anvil and channels -/

/-- Kinds of stroke (R159). -/
inductive StrokeKind where
  | leaf | forward | atomic | zero
  deriving DecidableEq, Repr, Inhabited

/-- A stroke (R159). -/
structure Stroke where
  kind : StrokeKind := .forward
  part : Nat := 0
  cid : Nat := 0
  stage : Nat := 0
  rows : List Nat := []          -- positions in the stage's row list
  reqs : List LineReq := []      -- ATOMIC: requests in order
  bag : Nat := 0                 -- LEAF: its bag and its shard
  shard : Nat := 0
  cols : Nat := 1
  deriving DecidableEq, Repr, Inhabited

/-- A leaf that an Anvil unit evaluates (R124, R158) until its value has left on the bench chain (R168). -/
structure Leaf where
  cid : Nat := 0
  stage : Nat := 0
  bag : Nat := 0
  shard : Nat := 0
  rows : List Nat := []          -- positions in the stage's row list
  accs : Nat := 0                -- accumulators it needs
  taken : Bool := false          -- it holds them: its first stroke has started; 06 R158
  left : Nat := 0                -- strokes still to end
  sent : Bool := false           -- its partial sum has left for another unit of the base die; 06 R166
  hops : Nat := 0                -- 512-byte pieces of its value that have left on the bench chain; 06 R166
  resent : Bool := false         -- its transfer has failed once
  deriving DecidableEq, Repr, Inhabited

/-- A stack channel with its controller and Anvil unit (R154, R156). -/
structure Chan where
  retired : Bool := false                -- 18 R455; reset 0
  retiring : Option Nat := none          -- time of the trigger; 18 R455; reset none
  lead : Nat := 0                        -- the channel whose fault this retirement belongs to; 18 R454; reset 0
  damaged : List Nat := []               -- damaged-line table, at most 1,024; 06 R172; reset empty
  ce : Nat := 0                          -- correctable-error count, saturating; 18 R451; reset 0
  ceBuckets : List (Nat × Nat) := []     -- (second, corrected reads); 18 R454; reset empty
  strokes : List Stroke := []            -- stroke queue, 32; 06 R156; reset empty
  held : List Stroke := []               -- strokes that Ladle engines hold while the queue is full; 06 R156, R160; reset empty
  running : Option Stroke := none        -- stroke in progress; 06 R159; reset none
  segWait : List Stroke := []            -- ATOMIC strokes that left a segment and wait for the next; 06 R177; reset none
  strokeAt : Nat := 0                    -- when it started, or when the last one ended; 06 R160, R162; reset 0
  served : Nat := 0                      -- accesses of the request queue served since the last stroke ended; 06 R161; reset 0
  slotUsed : Option Nat := none          -- bench-chain slot, counted from reset, in which the unit last sent; 06 R166; reset none
  zeroLine : Option Nat := none          -- next line of its nook's memory that a ZERO stroke zeroes; 06 R159; reset none
  leafUsed : Nat := 0                    -- leaf-store accumulators taken of 16,384; 06 R158; reset 0
  leaves : List Leaf := []               -- leaves held; 06 R158, R168; reset none
  refDue : Nat := 0                      -- next refresh due (local ns); 06 R163; reset 0
  refPend : Bool := false                -- refresh due and not issued; 06 R163; reset 0
  refBusy : Bool := false                -- refresh in progress; 06 R161; reset 0
  refLast : Nat := 0                     -- last refresh; 06 R165; reset 0
  hot : Bool := false                    -- stack above 85 C; 06 R163; reset 0
  scrubNext : Nat := 0                   -- next line of the pass, mod 2^25; 06 R182; reset 0
  scrubDue : Nat := 0                    -- next burst due; 06 R184; reset 0
  scrubPend : Bool := false              -- burst due and not issued; 06 R184; reset 0
  scrubLast : Nat := 0                   -- last burst; 06 R184; reset 0
  winRef : Option Nat := none            -- when its last refresh window opened; 06 R164; reset none
  deriving DecidableEq, Repr, Inhabited

/-! ## Saxel ports -/

/-- The session of a link (R347 to R349). -/
structure Session where
  phase : Nat := 0               -- 0 none, 1 negotiated, 2 keys exchanged, 3 established
  reqAt : Option Nat := none     -- time of the SPDM request that waits
  startAt : Nat := 0             -- LINK_UP time for the 1 s limit
  txPhase : Bool := false        -- KEY_PHASE sent
  rxPhase : Bool := false        -- KEY_PHASE accepted
  rxEnc : Bool := false          -- an encrypted flit has been accepted
  updating : Bool := false       -- a KEY_UPDATE of this side is open
  txCount : Nat := 0             -- flits sent under the key
  rxCount : Nat := 0
  txKey : Nat := 0               -- key numbers
  rxKey : Nat := 0
  rxNext : Option Nat := none    -- the peer's next key, from its KEY_UPDATE on; 13 R348
  rxOld : Option (Nat × Nat) := none  -- its previous key and that key's count, while a flit under it may still come; 13 R348
  keyAt : Nat := 0               -- age of the transmit key
  th : Bytes := []               -- transcript hash
  finTx : Bool := false          -- this side's FINISH_RSP has not been sent yet: its flits stay in the clear; 13 R348
  deriving DecidableEq, Repr, Inhabited

/-- A PAYLOAD flit kept for replay: its sequence number and its bytes as sent. -/
structure TxFlit where
  seq : Nat := 0
  flit : Flit := {}
  deriving DecidableEq, Repr, Inhabited

/-- A hello heard or sent (R432). -/
structure Hello where
  serial : Nat := 0
  twinSerial : Nat := 0
  epoch : Nat := 0
  cell : Nat := 0
  module : Nat := 0
  port : Nat := 0
  role : Nat := 0
  linkKind : Nat := 0
  ready : Nat := 0
  secure : Bool := false
  deriving DecidableEq, Repr, Inhabited

/-- An ANNOUNCE heard (R220). -/
structure Ann where
  fmSerial : Nat := 0
  cmSerial : Nat := 0
  fmPrio : Nat := 0
  cmPrio : Nat := 0
  fmHops : Nat := 0
  cmHops : Nat := 0
  levels : Nat := 0
  fmBad : Bool := false
  cmBad : Bool := false
  cell : Nat := 0
  state : Nat := 0
  at_ : Nat := 0
  deriving DecidableEq, Repr, Inhabited

/-- Bring-up states of R332, as PORT_STATUS numbers them (R491). -/
inductive PortSt where
  | disabled | detect | equalize | align | config | up | retrain
  deriving DecidableEq, Repr, Inhabited

/-- A Saxel port (R331 to R349), numbered by its lowest lane. -/
structure SaxPort where
  st : PortSt := .disabled               -- 3 bits; 13 R332; reset disabled (spec R429)
  wide : Bool := true                    -- four-lane port; 13 R331
  kind : Nat := 3                        -- 0 accelerator, 1 stage, 2 twin, 3 disabled; 17 R427; reset 3
  owner : Option Nat := none             -- owning partition, none = system; 01 R21
  maxRate : Nat := 0                     -- profile rate; 17 R427
  lanes : List Nat := []                 -- working lanes; 13 R331
  trained : List Nat := []               -- lanes trained and waiting for a step; 13 R332
  rate : Nat := 2                        -- 0 448, 1 224, 2 112; 13 R330
  stepping : Bool := false               -- a step pauses new flits; 13 R332
  stepAt : Nat := 0
  peer : Option ConfigRec := none        -- CONFIG record of the peer; 13 R333
  mismatch : Bool := false               -- a CONFIG pair did not agree; 13 R333
  cfgAt : Nat := 0                       -- time of the last CONFIG; 13 R333
  cfg : Option ConfigRec := none         -- the CONFIG record the module last sent; 13 R333; reset none
  upAt : Nat := 0                        -- time of LINK_UP; 13 R332
  sess : Session := {}                   -- 13 R347
  admitted : Bool := false               -- 09 R245
  caching : Bool := false                -- admitted with the caching flag; 11 R291
  alive : Nat := 0                       -- last heartbeat; 13 R337
  txSeq : Nat := 0                       -- next SEQ; 13 R335
  txAck : Nat := 4095                    -- last acknowledged SEQ; 13 R338
  ackAt : Nat := 0                       -- when ACK last advanced; 13 R339
  replay : List TxFlit := []             -- replay buffer, 512; 13 R338
  replaying : List TxFlit := []          -- flits still to resend; 13 R338
  lastNak : Option Nat := none           -- ACK of the last replay; 13 R338
  nakAt : Nat := 0                       -- when it began; 13 R338
  nakRuns : Nat := 0                     -- replays begun from that ACK; 13 R339
  rxSeq : Nat := 4095                    -- last accepted SEQ; 13 R338
  nak : Bool := false                    -- NAK set in headers sent; 13 R338
  cred : List Nat := List.replicate 7 0  -- transmit credits; 13 R340
  owed : List Nat := List.replicate 7 0  -- credits to return; 13 R340
  rx : List (BitVec 128) := []           -- accepted slots; 13 R341
  tx : List (BitVec 128) := []           -- slots of the chosen frame not yet sent; 09 (Choosing the next frame)
  going : List (Option Nat × Out) := []  -- messages and mirroring traffic given to the flits and not acknowledged by the peer, with the SEQ of the flit that holds the last slot; 13 R334; reset none
  out : Option Flit := none              -- the last flit sent; 13 R335
  flits : Nat := 0                       -- PAYLOAD flits sent (the model's own count); 16 R419
  hello : Option Hello := none           -- hello heard; 17 R433
  helloSent : Option Hello := none       -- last hello sent; 17 R433
  helloAt : Nat := 0                     -- its time; 17 R433
  asym : Int := 0                        -- ASYM, 2^-16 ns; 08 R219; reset 0 (spec)
  ann : Option Ann := none               -- last ANNOUNCE heard; 08 R218
  t1 : Nat := 0                          -- t1 of the open SYNC_REQ; 08 R219
  sch : Option PktMsg := none            -- an SCH message whose flit has not begun; 08 R219; reset none
  delay : Int := 0                       -- link delay d of the last exchange, 2^-16 ns; 08 R219; reset 0 (log 5)
  syncSeq : Nat := 0                     -- its SEQ; 08 R220
  syncOpen : Bool := false
  upSteps : Option Nat := none           -- STEPS last heard from it as upstream; 08 R223
  replays : Nat := 0                     -- REPLAYS; 16 R491
  corrected : Nat := 0                   -- CORRECTED; 16 R491
  retrains : Nat := 0                    -- RETRAINS; 16 R491
  downs : Nat := 0                       -- LINK_DOWNS; 16 R491
  deriving DecidableEq, Repr, Inhabited

/-- A tray port (R350 to R352). -/
structure TrayPort where
  mode : Nat := 0                        -- 0 disabled, 1 downstream, 2 upstream, 3 Ash; 17 R427; reset 0 (spec)
  x8 : Bool := false                     -- 17 R427
  owner : Option Nat := none             -- 01 R21
  present : Bool := false                -- TRAY_PRSNT_N low; 19 R469
  perstLow : Bool := true                -- TRAY_PERST_N low; 19 R469; reset driven low (spec)
  up : Bool := false
  rate : Nat := 6                        -- PCIe data rate code; 16 R491
  creditHeld : Bool := false             -- no CXL.mem credit returned; 09 R253
  corrected : Nat := 0
  retrains : Nat := 0
  downs : Nat := 0
  failed : Bool := false                 -- downstream failure seen; 13 R352
  sent : Option Out := none              -- the last message sent; 13 R350, R351
  deriving DecidableEq, Repr, Inhabited

/-! ## Damper -/

/-- A token bucket (R249, R250): level at an Ember nanosecond, in units of R249. -/
structure Bucket where
  rate : Nat := 0
  cap : Nat := 0
  level : Int := 0
  at_ : Nat := 0
  deriving DecidableEq, Repr, Inhabited

/-- A service on a port (R247). -/
structure DSvc where
  sh : Bucket := {}              -- RATE, BURST; 09 R256; reset 0 (spec R259)
  quantum : Nat := 16            -- 13 bits; 09 R256; reset 16 (spec R259)
  deficit : Int := 0
  subPtr : Arb := {}             -- subscriber pointer; 09 R247
  open_ : Option Nat := none     -- subscriber visit in progress or left unfinished; 09 R247
  pairs : List (Nat × Int) := [] -- pair deficits
  deriving DecidableEq, Repr, Inhabited

/-- A subscriber (R256, R260). -/
structure DSub where
  idx : Nat := 0
  key : Nat := 0
  bw : Bucket := {}
  rq : Bucket := {}
  sh : Bucket := {}
  quantum : Nat := 16
  heatq : Nat := 0
  heatMax : Nat := 0
  framesOut : Nat := 0
  bytesOut : Nat := 0
  reqAdm : Nat := 0
  msgAdm : Nat := 0
  reqRef : Nat := 0
  msgRef : Nat := 0
  deriving DecidableEq, Repr, Inhabited

/-- Parameters accepted and not yet in effect (R258). -/
inductive DParam where
  | port (d : Nat) | svc (d : Nat) | sub (d : Nat)
  deriving DecidableEq, Repr, Inhabited

/-- The Damper state of a port. -/
structure DPort where
  sh : Bucket := {}              -- PORT_RATE, PORT_BURST; 09 R256; reset 0 (spec R259)
  heatq : Nat := 0               -- PORT_HEATQ; 09 R256; reset 0 (spec R259)
  mask : Nat := 0x3FFFFF         -- SUB_MASK; 09 R256; reset 0x3F_FFFF (spec R259)
  svcs : List DSvc := List.replicate 8 {}
  subs : List DSub := [{}]       -- subscriber 0 and those created; 09 R244
  stranger : DSub := { idx := 4095, bw := { rate := 1000, cap := 32768000, level := 32768000 },
                       sh := { rate := 1000, cap := 32768000, level := 32768000 } }  -- 09 R245 (spec)
  q : List Frame := []           -- queued frames, oldest first; 09 R246
  gPtr : Arb := {}               -- pointer of the gated arbiter; 09 R246
  uPtr : Arb := {}               -- pointer of the ungated arbiter; 09 R246
  visit : Option Nat := none     -- service visit in progress; 09 R247
  gone : List (Nat × Nat) := []  -- the (service, subscriber) queues that a frame has left in this cycle; 09 R251; reset none
  params : List (Nat × DParam) := [] -- accepted parameters and the slot of acceptance; 09 R258
  deriving DecidableEq, Repr, Inhabited

/-! ## Ember time and calendar -/

/-- Synchronisation states, numbered as STATE of R220. -/
inductive SyncSt where
  | free | acquire | locked | master | holdover | resync
  deriving DecidableEq, Repr, Inhabited

/-- Ember time and its synchronisation. -/
structure Ember where
  fx : Nat := 0                  -- 80 bits: NS and FRAC; 08 R211, R212; reset 0 (spec)
  rate : Int := 0                -- rate correction in force, 2^-32 ns per ns; 08 R213; reset 0 (log 5)
  learned : Int := 0             -- its part learned from the upstream; 08 R215, R224; reset 0 (log 5)
  sub : Nat := 0                 -- time below FRAC, 2^-32 ns; the model's own, 08 R213; reset 0
  st : SyncSt := .free           -- 08 R215; reset FREE (spec: no upstream)
  up : Option Nat := none        -- upstream port; 08 R217; reset none
  upAt : Nat := 0                -- last ANNOUNCE or SYNC_RSP from it; 08 R218
  exch : Option (Nat × Int) := none  -- local time and offset left after the last exchange with it; 08 R219, R224; reset none
  theta : Int := 0               -- last theta, 2^-16 ns; 16 R491; reset 0 (spec)
  steps : Nat := 0               -- 16 bits; 08 R220; reset 0 (log 5)
  good : Nat := 0                -- consecutive exchanges within 2 ns; 08 R215; reset 0
  first : Bool := false          -- the next exchange in ACQUIRE steps; 08 R215; reset 0
  stepNext : Bool := false       -- STEPS of the upstream changed; 08 R223; reset 0
  ppsQual : Bool := false        -- EMBER_PPS_IN qualified; 08 R225; reset 0 (spec)
  ppsEver : Bool := false        -- it has been disqualified; 08 R225; reset 0
  ppsEdges : List Nat := []      -- latest edge times; 08 R225; reset none
  ppsGood : Nat := 0             -- consecutive good edges; 08 R225; reset 0
  ppsFirst : Bool := true        -- the first qualified edge has not been used; 08 R226; reset 1
  fm : Option Ann := none        -- fabric master followed; 08 R217; reset none
  cm : Option Ann := none        -- cell master followed; 08 R216; reset none
  isCm : Bool := true            -- this module is cell master; 08 R216; reset 1 (no intra-cell link)
  isFm : Bool := true            -- this module is fabric master; 08 R217; reset 1
  annAt : Nat := 0               -- last ANNOUNCE sent; 08 R218
  syncAt : Nat := 0              -- last SYNC_REQ sent; 08 R215
  lastSlot : Nat := 0            -- last slot whose boundary was processed; 08 R232; reset 0
  delays : List Nat := []        -- measured delivery delays of the local counters; 01 R30; reset none measured (spec)
  delayAt : Nat := 0             -- when they were last checked; 01 R30; reset 0
  deriving DecidableEq, Repr, Inhabited

/-- A calendar header (R227). -/
structure CalHdr where
  startSlot : Nat := 0
  swapSlot : Nat := 0
  nEntries : Nat := 0
  calId : Nat := 0
  periodM1 : Nat := 0
  crc : Nat := 0
  deriving DecidableEq, Repr, Inhabited

/-- A gate that the running calendar drives. -/
structure Gate where
  tray : Bool := false
  port : Nat := 0
  svc : Nat := 0
  open_ : Bool := false
  maxFrame : Nat := 1
  deriving DecidableEq, Repr, Inhabited

/-- A calendar action that has fallen due, with what a report of it names (R241). -/
structure CalAct where
  due : Nat := 0                 -- its Ember time, ns
  calId : Nat := 0
  pos : Nat := 0
  deriving DecidableEq, Repr, Inhabited

/-- The calendar engine. -/
structure Calendar where
  bank0 : List Host.Cell := []         -- 4 MiB image, unlisted bytes 0; 08 R227; reset 0 (log 5)
  bank1 : List Host.Cell := []         -- the other bank; 08 R227; reset 0 (log 5)
  active1 : Bool := false              -- which bank is active; 08 R227; reset bank 0
  hdr0 : CalHdr := {}                  -- header of bank 0; 08 R227; reset 0 (log 5)
  hdr1 : CalHdr := {}                  -- header of bank 1; 08 R227; reset 0 (log 5)
  running : Bool := false              -- 08 R231; reset 0 (spec)
  isArmed : Bool := false              -- the shadow bank is armed; 08 R238; reset 0 (spec)
  stopAt : Option Nat := none          -- pending CAL_STOP; 08 R238; reset none
  gates : List Gate := []              -- gates of the running calendar; 08 R231; reset none
  scheduled : List Nat := []           -- channels in scheduled mode; 08 R235; reset none
  xbar : List Nat := List.range 16     -- sub-slot owners; 08 R237; reset the default map (spec)
  late : Nat := 0                      -- late and missed actions counted; 18 R451
  done : List (Nat × Nat) := []        -- events of the last slots that have acted: (slot, entry); 08 R232; reset none
  deriving DecidableEq, Repr, Inhabited

/-- The header of the active bank, and of the shadow while it is armed (R227, R238). -/
def Calendar.hdr (c : Calendar) : CalHdr := if c.active1 then c.hdr1 else c.hdr0
def Calendar.armed (c : Calendar) : Option CalHdr := if c.isArmed then some (if c.active1 then c.hdr0 else c.hdr1) else none

/-! ## Arithmetic registers -/

/-- A melt register (R42): 640-bit value in units of 2^-300, sticky flags, term counter. -/
structure Melt where
  v : Int := 0
  pinf : Bool := false
  ninf : Bool := false
  nan : Bool := false
  n : Nat := 0
  deriving DecidableEq, Repr, Inhabited

/-! ## Tables -/

/-- A table descriptor (R98). -/
structure TDesc where
  rit : Nat := 0
  smap : Nat := 0
  ha : Nat := 0
  hb : Nat := 0
  rows : Nat := 0
  subQ : Nat := 0
  subR : Nat := 0
  gen : Nat := 0
  nspan : Nat := 0
  elems : Nat := 0
  fmt : Nat := 0
  hbits : Nat := 0
  cop : Nat := 0
  storage : Nat := 0
  cache : Nat := 0
  coord : Nat := 0
  part : Nat := 0
  id : Nat := 0
  deriving DecidableEq, Repr, Inhabited

/-- An update descriptor (R135). -/
structure UDesc where
  stateAddr : Nat := 0
  uareas : List Nat := []        -- the 96 entries as read
  lr : Nat := 0
  eps : Nat := 0
  lo : Nat := 0
  hi : Nat := 0
  slots : Nat := 0
  rule : Nat := 0
  exact : Bool := true
  rtz : Bool := false
  hotcache : Bool := false
  move : Bool := false
  deriving DecidableEq, Repr, Inhabited

/-- An update slot in use: an accumulator (R131, R133). -/
structure Accum where
  row : Nat := 0
  step : Nat := 0
  nook : Nat := 0
  acc : List Melt := []
  deriving DecidableEq, Repr, Inhabited

/-- A receipt (R132). -/
structure Receipt where
  src : Nat := 0
  reqId : Nat := 0
  step : Nat := 0
  nook : Nat := 0
  deriving DecidableEq, Repr, Inhabited

/-- A close in progress (R138, R139). -/
structure Close where
  step : Nat := 0
  job : Option Nat := none
  waits : List (Nat × Nat) := [] -- rows whose apply finds no free slot, and since when (R143)
  deriving DecidableEq, Repr, Inhabited

/-- A transfer of a migration (R153) whose parts have not all come: its header and the bytes so far. -/
structure Transfer where
  key : Bytes := []
  bytes : Bytes := []
  deriving DecidableEq, Repr, Inhabited

/-- A shard migration (R153). -/
structure Migr where
  first : Nat := 0
  count : Nat := 0
  dest : Nat := 0
  dtable : Nat := 0
  job : Option Nat := none
  committed : Bool := false
  released : Bool := false
  relStep : Nat := 0
  before : List Nat := []        -- chains admitted before the release: they still read the copy
  again : List Nat := []         -- rows to be sent again at the commit
  trk : Option Nat := none       -- tracker of the opening message, until it is answered
  waits : List (Nat × Nat × Option (Nat × Nat)) := []  -- trackers of its messages, each with its row and, for an accumulator, step and nook
  fail : Option Status := none   -- the first failure among their answers
  deriving DecidableEq, Repr, Inhabited

/-- An AUTO row in a nook's row cache (R125, R126): its last use, and the offset of its first line. -/
structure CRow where
  row : Nat := 0
  nook : Nat := 0
  used : Nat := 0
  addr : Nat := 0
  deriving DecidableEq, Repr, Inhabited

/-- A recent miss of a nook's Ladle engine (R126): its row and its 1 ms window. -/
structure Miss where
  nook : Nat := 0
  part : Nat := 0
  table : Nat := 0
  row : Nat := 0
  window : Nat := 0
  deriving DecidableEq, Repr, Inhabited

/-- A table. -/
structure Table where
  d : TDesc := {}
  u : Option UDesc := none
  closed : Nat := 0                        -- closed-step mark C; 05 R138
  accs : List Accum := []                  -- 05 R133
  receipts : List Receipt := []            -- 05 R132
  close : Option Close := none             -- 05 R138
  closeWait : List Close := []             -- further closes that wait
  free : List (Nat × Nat) := []            -- free stacked slots (nook, address); 05 R137
  freeTray : List Nat := []                -- free tray slots
  wave : Nat := 0                          -- W; 05 R147
  inflight : List (Nat × Nat × Nat) := []  -- look-ups reading: (16 times the chain plus the stage, generation, wave parity); 05 R147
  retired : List (Nat × Nat) := []         -- (wave, slot address); 05 R147
  batches : Nat := 0                       -- batches of writes that wait to advance W; 05 R147
  genState : Nat := 0                      -- 0 none, 1 copying, 2 begun, 3 sealed, 4 draining, 5 aborting; 05 R145
  genJob : Option Nat := none
  destroyJob : Option Nat := none          -- 04 R128
  migr : List Migr := []                   -- 05 R153
  loads : List (Nat × List Nat) := []      -- shard: the eight buckets, newest first; 05 R148
  hot : List Nat := []                     -- hot shards; 05 R149
  pinned : List Nat := []                  -- PINNED rows in the row cache; 04 R126
  cold : List Nat := []                    -- PINNED rows whose cached copy a write has removed; 04 R127
  auto : List CRow := []                   -- AUTO rows cached; 04 R126
  moved : List (Nat × Nat) := []           -- (shard, end of its last move); 05 R150
  damaged : Bool := false                  -- descriptor damaged; 18 R458
  inbox : List Transfer := []              -- transfers of a migration that have not come whole; 05 R153
  deriving DecidableEq, Repr, Inhabited

/-- A balancer shard move (R150, R151). -/
structure ShardMove where
  part : Nat := 0
  table : Nat := 0
  shard : Nat := 0
  dst : Nat := 0
  next : Nat := 0                -- next physical row to copy
  deriving DecidableEq, Repr, Inhabited

/-! ## Chains -/

/-- Who asked for a chain (R92). -/
inductive Asker where
  | msg (port src txn : Nat) (epoch tag tenant heat : Nat)
  | mbx (job : Nat)
  | template (part id : Nat)
  deriving DecidableEq, Repr, Inhabited

/-- One row, record or pair between stages (R71): sequence number, LOST flag, bytes. -/
structure Item where
  seq : Nat := 0
  lost : Bool := false
  data : Bytes := []
  deriving DecidableEq, Repr, Inhabited

/-- A physical row that a look-up needs (R113). -/
structure RowRef where
  table : Nat := 0
  row : Nat := 0
  shard : Nat := 0
  state : Nat := 0               -- 0 wanted, 3 its entry is being read, 1 it is being read (both under a tracker), 2 delivered
  nook : Nat := 0                -- the Ladle engine that resolved it
  chans : List Nat := []         -- the stack channels it is read from; 10 R265
  wait : Nat := 0                -- strokes that bring its last lines and have not ended
  tray : Bool := false           -- it is read from a tray, under a tracker of the tray pool
  entry : Nat := 0               -- the RIT entry sampled; 04 R113
  addr : Nat := 0                -- module offset of its first line
  data : Bytes := []             -- the row's bytes once delivered
  lost : Bool := false
  cached : Bool := false         -- it came from the row cache
  fill : Bool := false           -- once read it enters the row cache; 04 R126
  deriving DecidableEq, Repr, Inhabited

/-- A stage while its chain runs. -/
structure StageRun where
  phase : Nat := 0               -- 0 not started, 1 its lists have been read and its rows are wanted, 2 batches or messages
                                 -- of an instance are out, 5 done
  idxs : List Item := []         -- index list: value in data, or a LOST pair
  offs : List Nat := []          -- bag offsets
  ws : Bytes := []               -- weights
  rows : List RowRef := []
  lostAt : List Nat := []        -- positions lost behind a bench-chain transfer; 06 R168
  ups : List Item := []          -- update rows of SCATTER_ADD
  out : List Item := []          -- its output, tile by tile in its consumers' queues (R71, R72)
  sent : Nat := 0                -- tiles of it put into the queues so far
  gotA : Nat := 0                -- tiles taken from queue A
  gotB : Nat := 0                -- tiles taken from queue B
  homes : List Nat := []         -- SCATTER_ADD: homes still to answer
  late : Bool := false           -- a batch was late; 05 R134
  deriving DecidableEq, Repr, Inhabited

/-- A chain (R67, R73, R92). -/
structure Chain where
  cid : Nat := 0
  asker : Asker := .mbx 0
  hdr : Bytes := []
  descs : List Bytes := []
  reqId : Nat := 0
  part : Nat := 0
  home : Nat := 0
  epoch : Nat := 0
  acceptedAt : Nat := 0
  act : Option CalAct := none    -- the calendar action that started it; 08 R236
  start : Nat := 0               -- T of R190: due time or admission time
  late : Bool := false           -- its start found its nook without room; 01 R35
  admitted : Bool := false
  stages : List StageRun := []
  gens : List (Nat × Nat × Nat) := []  -- (stage, table, generation) read at admission; 04 R104
  status : Option (Status × Nat) := none   -- aborting status and stage
  ended : Bool := false
  endedAt : Nat := 0
  lost : List Nat := []          -- lost positions, ascending
  unmarked : List Nat := []      -- those whose bits at LOST_ADDR are still to be set; 03 R94
  lostCount : Option Nat := none -- LOST of an END (R200)
  units : Nat := 0
  tickets : Nat := 0             -- pour tickets written
  mirrored : Bool := false
  ticketUsed : Nat := 64         -- bytes of the ticket area taken: the ticket, then boundary outputs
  pushes : List Nat := []        -- trackers of its messages still to be answered
  deriving DecidableEq, Repr, Inhabited

/-- A template (R90). -/
structure Template where
  part : Nat := 0
  id : Nat := 0
  nook : Nat := 0
  bytes : Bytes := []
  waiting : Option CalAct := none   -- a start that waits; 03 R90
  damaged : Bool := false
  deriving DecidableEq, Repr, Inhabited

/-- States of a hardware thread (R63). -/
inductive ThreadSt where
  | run | waitMem | waitTile | idle
  deriving DecidableEq, Repr, Inhabited

/-- A hardware thread of a Crucible cluster that a stage holds (R61, R63, R65): 0 to 47 run home stages, 48 to 63 spread
instances. A thread not listed is IDLE. -/
structure Thread where
  nook : Nat := 0
  no : Nat := 0
  cid : Nat := 0
  stage : Nat := 0
  st : ThreadSt := .run
  fp : List Nat := []            -- its FP32 registers: what an ORDERED stage has accumulated; 03 R61; reset none
  deriving DecidableEq, Repr, Inhabited

/-- A melt set that a stage holds (R61, R62, R66): its registers by lane; a lane not listed holds a cleared register. -/
structure MeltSet where
  nook : Nat := 0
  no : Nat := 0
  cid : Nat := 0
  stage : Nat := 0
  spread : Bool := false         -- it belongs to a spread instance; 03 R66, R69
  regs : List Melt := []         -- 256 lanes
  deriving DecidableEq, Repr, Inhabited

/-- A tile (R71): its header and its contents. -/
structure Tile where
  seq : Nat := 0                 -- the row's sequence number
  seg : Nat := 0                 -- segment within the row
  valid : Nat := 0               -- valid elements
  qhdr : Nat := 0                -- the row's Q8 or Q4 header
  lost : Bool := false
  data : Bytes := []
  deriving DecidableEq, Repr, Inhabited

/-- Chains, templates and what the clusters' threads and melt sets hold. -/
structure Chains where
  threads : List Thread := []      -- threads held, of 64 in each of 96 clusters; 03 R61, R63; reset none: every thread IDLE (log 5)
  sets : List MeltSet := []        -- melt sets held, of 16 in each of 96 clusters; 03 R61; reset none (log 5)
  chains : List Chain := []        -- 03 R73; reset none
  templates : List Template := []  -- at most 64 a nook; 03 R90; reset none
  misses : List Miss := []         -- the filters of 4,096 recent misses of a nook; 04 R126; reset none (log 5)
  nextCid : Nat := 1               -- the model's own counter; reset 1
  deriving DecidableEq, Repr, Inhabited

/-! ## Collectives -/

/-- A group descriptor (R187). -/
structure Group where
  id : Nat := 0
  part : Nat := 0
  elems : Nat := 1
  localDl : Nat := 0
  resultDl : Nat := 0
  nranks : Nat := 1
  selfRank : Option Nat := none
  selfW : Nat := 0
  parent : Nat := 0
  ctag : Nat := 0
  rtag : Nat := 0
  window : Nat := 0
  outFmt : Nat := 0
  inFmt : Nat := 0
  root : Bool := false
  exact : Bool := true
  rtz : Bool := false
  coll : Nat := 0
  pool : Nat := 1
  children : List (Nat × Nat × Nat) := []   -- (RANK_LO, RANK_NUM, ENDPOINT)
  members : List (Nat × Nat × Nat) := []    -- (WEIGHT, RANK, ENDPOINT)
  deriving DecidableEq, Repr, Inhabited

/-- One element received: from a rank (`child` false) or a child position, its index and its bytes. -/
structure Got where
  child : Bool := false
  who : Nat := 0
  idx : Nat := 0
  val : Bytes := []
  deriving DecidableEq, Repr, Inhabited

/-- An instance (R190 to R201). -/
structure Inst where
  part : Nat := 0
  group : Nat := 0
  inst : Nat := 0
  start : Nat := 0               -- T
  cid : Nat := 0
  stage : Nat := 0
  got : List Got := []
  tiles : List Nat := []         -- tiles finished (sent up, delivered or withheld)
  mine : List (Nat × Bytes) := []   -- elements due to SELF_RANK, or the root's vector, that have come
  lostRanks : List Nat := []
  lostKids : List Nat := []
  unnamed : Nat := 0             -- lost ranks that ENDs of children count and do not name; R199
  endKids : List Nat := []       -- children whose END has come
  endUp : Bool := false          -- END sent upward
  dlPast : Bool := false         -- LOCAL_DL has passed
  ended : Bool := false
  deriving DecidableEq, Repr, Inhabited

/-- Groups and instances. -/
structure Groups where
  groups : List Group := []      -- at most 256 a partition; 07 R186; reset none
  insts : List Inst := []        -- running and ended instances; 07 R190; reset none
  deriving DecidableEq, Repr, Inhabited

/-! ## Bellows, content keys, Ash -/

/-- A content key (R393); its handle names its partition and slot. -/
structure CKey where
  handle : Nat := 0
  key : Bytes := []
  keyId : Bytes := []
  pushOnly : Bool := false
  notAfter : Nat := 0
  deriving DecidableEq, Repr, Inhabited

/-- A prefetch list entry (R312). -/
structure BEntry where
  src : Nat := 0
  dst : Nat := 0
  length : Nat := 64
  deadline : Nat := 0
  pushStart : Nat := 0
  lead : Nat := 0
  tag : Nat := 0
  ckey : Nat := 0
  eps : List Nat := []
  srcTier : Nat := 1
  dstTier : Nat := 0
  push : Bool := false
  -- progress of the entry in its current iteration
  iter : Nat := 0
  state : Nat := 0               -- 0 waiting for its start, 1 moving, 2 every byte moved, 3 every iteration has ended
  done : Nat := 0                -- bytes moved from the source
  asked : Nat := 0               -- bytes whose reads have been issued: the chunk trackers taken; 12 R315
  trailer : Option Bytes := none -- the trailer of a content object, read first for its IV; 15 R394
  cipher : Bytes := []           -- the ciphertext that its tag covers, as far as it has come; 15 R394
  hold : Bytes := []             -- the bytes moved so far, decrypted under a content key, until they are pushed
  key : Option CKey := none      -- the content key, held from the entry's start to its end
  pieces : List Nat := []        -- nooks of the tier-0 pieces held
  sent : List (Nat × Nat) := []  -- endpoint, bytes pushed
  dead : List Nat := []          -- endpoints without a session
  open_ : List (Nat × Nat × Nat × Nat) := []  -- push messages not yet completed: tracker, endpoint, offset, bytes
  status : Option Status := none -- the status of an early end
  waits : List Nat := [0, 0, 0, 0]  -- ns waited on each cause of R318
  mark : Nat := 0                -- Ember ns up to which waits are counted
  endAt : Nat := 0               -- Ember ns at which its last iteration ended
  deriving DecidableEq, Repr, Inhabited

/-- A loaded list (R312, R313). -/
structure BList where
  part : Nat := 0
  id : Nat := 0
  addr : Nat := 0
  bytes : Nat := 0
  start : Nat := 0
  period : Nat := 0
  iters : Nat := 1
  entries : List BEntry := []
  deriving DecidableEq, Repr, Inhabited

/-- A namespace (R319). -/
structure Ns where
  part : Nat := 0
  units : Nat := 0
  key : Option Nat := none       -- flash key number; none while the key record cannot be opened (15 R381, R392)
  record : Bytes := []           -- namespace key record, kept with the metadata on the flash tray; 15 R392
  twinRecord : Bytes := []       -- the record for the twin, empty where there is none; 15 R392
  wseq : Nat := 0                -- write sequence number, 64 bits
  pseq : Nat := 0                -- program sequence number of the page programmed last; 12 R321
  deriving DecidableEq, Repr, Inhabited

/-- A unit's map entry (R322): location, coded length and write sequence number, or damaged; or a unit being written, with
the bytes the module holds until they are programmed. -/
structure AUnit where
  part : Nat := 0
  unit : Nat := 0
  tray : Nat := 0
  ch : Nat := 0
  block : Nat := 0
  off : Nat := 0                 -- its first byte in the block's page contents
  len : Nat := 0
  wseq : Nat := 0
  damaged : Bool := false
  bytes : Bytes := []            -- header and coded unit, while it is being written
  job : Option Nat := none       -- the ASH_WRITE it belongs to
  trimmed : Bool := false        -- ASH_TRIM came after it: it is not mapped
  homeless : Bool := false       -- its program failed, and no block has room for it yet; 12 R325
  reloc : Option Nat := none     -- a relocation: the write sequence number of the entry copied
  deriving DecidableEq, Repr, Inhabited

/-- Who reads a unit. -/
inductive AWho where
  | job (id : Nat)
  | bellows (part list entry : Nat)
  | reloc (into : Option Nat)    -- a relocation, and the block of the channel that it goes to, where that is fixed (R325)
  deriving DecidableEq, Repr, Inhabited

/-- A unit being read (R324): the entry sampled, the pieces that have come, and what it came to. While `mapping`, the page of its
map entry is being loaded (R322), and of `u` only the partition and the unit are known. -/
structure ARead where
  id : Nat := 0
  who : AWho := .job 0
  u : AUnit := {}
  mapping : Bool := false
  count : Nat := 1
  pieces : List (Nat × Bytes) := []
  st : Option Status := none
  data : Bytes := []
  deriving DecidableEq, Repr, Inhabited

/-- A NAND block (R325). -/
structure NBlock where
  id : Nat := 0
  free : Bool := true
  bad : Bool := false
  erases : Nat := 0
  reads : Nat := 0
  flips : Bool := false          -- a read reported FLIPS at or above FLIP_LIMIT
  used : Nat := 0                -- bytes written, MACs left out
  next : Nat := 0                -- first page not programmed
  progs : List (Nat × Nat) := [] -- program sequence number of each programmed page; 12 R321
  leaving : Bool := false        -- its valid units are being relocated; it is erased then
  stuck : Bool := false          -- a relocation from it found no free block; until the channel next erases one
  deriving DecidableEq, Repr, Inhabited

/-- An Ash tray (R320, R327) with what IDENTIFY reported. -/
structure AshTray where
  port : Nat := 0
  part : Nat := 0
  chans : List Nat := []         -- channels assigned
  blocks : List (Nat × NBlock) := []   -- (channel, block) of the assigned channels
  failed : Bool := false
  ctrlEn : Bool := false         -- CIN_CTRL.EN; 12 R327; reset 0 (spec)
  identified : Bool := false
  chanCount : Nat := 0
  perChan : Nat := 0             -- blocks of a channel
  perDie : Nat := 1              -- blocks of a die
  pages : Nat := 0               -- pages of a block
  pageSize : Nat := 4096
  rated : Nat := 0               -- rated erase cycles
  readLimit : Nat := 0
  flipLimit : Nat := 0
  queues : List Nat := [0]       -- queues created
  tails : List (Nat × Nat) := [] -- SQ_TAIL of each queue, 0 unless listed; 12 R327; reset 0 (spec)
  heads : List (Nat × Nat) := [] -- CQ_HEAD of each queue, 0 unless listed; 12 R327; reset 0 (spec)
  version : Nat := 0x00010000    -- CIN_VERSION; 12 R327; reset 0x00010000 (spec)
  ready : Bool := false          -- CIN_STS.READY; 12 R327; reset 0 (spec)
  fatal : Bool := false          -- CIN_STS.FATAL; 12 R327; reset 0 (spec)
  adminSq : Nat := 0             -- ADMIN_SQ; 12 R327; reset 0 (spec)
  adminCq : Nat := 0             -- ADMIN_CQ; 12 R327; reset 0 (spec)
  adminSize : Nat := 0           -- ADMIN_SIZE; 12 R327; reset 0 (spec)
  sqHeads : List (Nat × Nat) := []  -- SQ_HEAD of each queue's last completion, 0 unless listed; 12 R328; reset 0
  turned : List Nat := []        -- queues whose completion ring is in an even pass, where PHASE is 0; 12 R328; reset none (log 9)
  deriving DecidableEq, Repr, Inhabited

/-- An open Cinder command (R328). -/
structure Cinder where
  tray : Nat := 0
  qid : Nat := 0
  cid : Nat := 0
  opc : Nat := 0
  ch : Nat := 0
  block : Nat := 0               -- of the channel: BLOCK of DIE
  page : Nat := 0                -- first page in the block
  npages : Nat := 0
  arg : Nat := 0                 -- ABORT: the CID to abort
  argQ : Nat := 0                -- ABORT, CREATE_QUEUE: the queue
  buf : Nat := 0
  len : Nat := 0
  part : Nat := 0                -- PROGRAM: the partition
  data : Bytes := []             -- PROGRAM: what its buffer holds
  read : Nat := 0                -- READ: the read it belongs to
  piece : Nat := 0
  at_ : Nat := 0
  aborting : Bool := false
  retried : Bool := false
  waits : Bool := false          -- not in its ring yet: it has no CID and no buffer
  deriving DecidableEq, Repr, Inhabited

/-- An Ash command that runs (R323). -/
structure AshJob where
  job : Nat := 0
  part : Nat := 0
  write : Bool := false
  first : Nat := 0
  count : Nat := 0
  addr : Nat := 0
  left : List Nat := []
  status : Status := .ok
  deriving DecidableEq, Repr, Inhabited

/-- Bellows, content keys, the Ash engine. -/
structure Tiers where
  lists : List BList := []         -- at most 4 a partition; 12 R312; reset none
  tier0 : List (Nat × Nat) := []   -- tier-0 pieces taken on a nook: (nook, count); 12 R311; reset none
  ckeys : List CKey := []          -- 64 slots a partition; 15 R393; reset none (spec R389)
  ns : List Ns := []               -- 12 R319; reset none (log 6)
  units : List AUnit := []         -- the Ash map; 12 R322; reset none (log 6)
  mapCache : List (Nat × Nat) := []  -- map pages cached in the system nooks, (partition, page), the most recently used first; 12 R322; reset none
  bellowsArb : Arb := {}           -- arbiter of the Bellows contexts; 12 R315, 08 R240; reset 0 (spec)
  pendU : List AUnit := []         -- units coded and waiting to be programmed; 12 R321; reset none
  trays : List AshTray := []       -- 12 R320; reset none
  reads : List ARead := []         -- units being read; 12 R324; reset none
  nextRead : Nat := 1              -- the model's own counter; reset 1
  cmds : List Cinder := []         -- open Cinder commands; 12 R328; reset none
  nextCid : Nat := 1               -- 16-bit CIDs; reset 1
  jobs : List AshJob := []         -- running Ash commands; 12 R323; reset none
  journal : Nat := 0               -- journal records since the last checkpoint; 12 R326; reset 0 (log 6)
  checkpoints : Nat := 0           -- map checkpoints written; 12 R326; reset 0 (log 6)
  deriving DecidableEq, Repr, Inhabited

/-! ## Twin -/

/-- Twin states (R440). -/
inductive TwinSt where
  | unpaired | syncing | paired | degraded | alone
  deriving DecidableEq, Repr, Inhabited

/-- A ticketed chain held for the primary (R438): its number there, its requester's endpoint id, its bytes, the phase of the
last ticket held (0 none). -/
structure Mirrored where
  part : Nat := 0
  cid : Nat := 0
  src : Nat := 0
  bytes : Bytes := []
  phase : Nat := 0
  deriving DecidableEq, Repr, Inhabited

/-- A pour ticket that waits until the twin has acknowledged its phase's boundary data (R439). -/
structure HeldTicket where
  part : Nat := 0
  cid : Nat := 0
  phase : Nat := 0
  addr : Nat := 0
  bytes : Bytes := []
  used : Nat := 0                -- bytes of the ticket area taken, with the boundary data
  deriving DecidableEq, Repr, Inhabited

/-- Twin pairing. -/
structure Twin where
  st : TwinSt := .unpaired        -- 17 R440; reset UNPAIRED
  portA : Nat := 0                -- 17 R436
  portB : Nat := 0
  serial : Nat := 0               -- TWIN_SERIAL; 17 R436; reset 0 (spec R491)
  verified : Bool := false        -- each module has verified the other's Hallmark; 15 R392; reset 0 (spec: not paired)
  sense : Bool := false           -- filtered TWIN_SENSE_N asserted; 17 R431; reset 0 (log 5)
  senseAt : Option Nat := none    -- since when; 17 R441; reset none
  downAt : Option Nat := none     -- since when both twin links are down; 17 R440; reset none
  primary : List Nat := []        -- partitions this module is primary for; 17 R437
  twinned : List Nat := []        -- twinned partitions; 17 R437
  pairJob : Option (Nat × Nat) := none   -- TWIN_PAIR that waits: job, time; 17 R436
  takeJob : Option (Nat × Nat × Nat) := none -- TWIN_TAKEOVER: job, partition, time; 17 R443
  giving : Option (Nat × Nat) := none    -- this module hands over: partition, time; 17 R443
  copies : List Mirrored := []    -- chains held for the twin; 17 R438; reset none
  copying : List Nat := []        -- numbers of the copy's messages not yet acknowledged; 17 R444; reset none
  open_ : List (Nat × Nat × Bytes) := []  -- mirror writes sent and not acknowledged: (txn, offset, bytes); 17 R439
  desc : List (Nat × Nat × MirrorMsg) := []  -- other state mirrored and not yet acknowledged: (txn, partition, state); 17 R438
  calImage : List Host.Cell := [] -- the calendar image staged in the system nooks, unlisted bytes 0; 17 R438
  ashMap : List AUnit := []       -- the Ash map held for the twin; 17 R438; reset none
  ns : List Ns := []              -- namespaces of the twin's map, with the key records wrapped for this module; 15 R392, 17 R438; reset none
  tickets : List HeldTicket := [] -- pour tickets not yet mirrored; 17 R439; reset none
  accs : List (Nat × Bool × Nat × Bytes) := []  -- mirror accesses sent: (txn, write, offset, bytes); 18 R460
  nextTxn : Nat := 1              -- the model's own counter; reset 1
  deriving DecidableEq, Repr, Inhabited

end Sys2Proof.Machine
end

