-- ==== Sys2Proof/Machine/State.lean ====
section
/-! DEFINITION. The state of the block, its fault and refusal reasons, and the state after reset. -/

namespace Sys2Proof.Machine

/-- Reasons to stop with a fault. No command of this block faults: every error of the manual is a status
that its requester receives (R10, R33). The one constructor stands for a step of a broken invariant and
is raised by nobody; it is safe. -/
inductive Fault where
  | none_
  deriving DecidableEq, Repr

/-- Reasons to refuse. `notModelled` is raised by an arm of exec whose command has no meaning yet (safe). -/
inductive Refusal where
  | notModelled (mnemonic : String)
  deriving DecidableEq, Repr

/-- Everything the manual gives the module, and the queue of the commands that wait. -/
structure State where
  pending : List Instr := []
  /-- local time in ns since reset; it only grows (the model's own field; the unit of every local timeout) -/
  t : Nat := 0
  mantel : Mantel := {}
  power : Power := {}
  flash : Flash := {}
  ten : Tenancy := {}
  maps : Maps := {}
  mem : Memory := {}
  dir : Dir := {}
  /-- the 768 stack channels, channel `32 k + c` for channel c of stack k (R154) -/
  chans : List Chan := List.replicate 768 {}
  /-- the Saxel ports by port number (R13) -/
  sax : List SaxPort := List.replicate 256 {}
  /-- the tray ports by port number (R13) -/
  trays : List TrayPort := List.replicate 32 {}
  /-- Damper state of the Saxel ports and of the tray ports -/
  dsax : List DPort := List.replicate 256 {}
  dtray : List DPort := List.replicate 32 {}
  ember : Ember := {}
  cal : Calendar := {}
  tables : List Table := []
  moves : List ShardMove := []
  /-- the last 125 us bucket and the last whole millisecond that the load counters and the balancer have handled (R148, R150) -/
  loadTick : Nat := 0
  balTick : Nat := 0
  chains : Chains := {}
  groups : Groups := {}
  tiers : Tiers := {}
  twin : Twin := {}
  deriving DecidableEq, Repr

/-- The machine right after reset (R8): supplies valid, MOD_RST_N released, the start instant due (R420),
no profile applied yet, which is the recovery profile's state (R429). Values the manual does not give are
named in the assumption log. -/
def State.reset : State := {}

end Sys2Proof.Machine
end

