-- ==== Sys2Proof/Machine/Flags.lean ====
section
/-! DEFINITION. Status codes, the READY register, FAULT_N, FAULT_CAUSE and interrupt bits. -/

namespace Sys2Proof.Machine

/-- The codes of R9 and R407. -/
def Status.code : Status → Nat
  | .ok => 0
  | .retry => 1
  | .extentGone => 2
  | .epochStale => 3
  | .lineLost => 4
  | .damaged => 5
  | .noAccess => 6
  | .partialLost => 7
  | .timeout => 8
  | .doubleFault => 9
  | .busy => 0xA
  | .badDescriptor => 0xB
  | .genConflict => 0xC
  | .quiesced => 0xD
  | .imageBad => 0x100
  | .profileBad => 0x101

/-- The number STATE of R220 gives a synchronisation state. -/
def SyncSt.code : SyncSt → Nat
  | .free => 0
  | .acquire => 1
  | .locked => 2
  | .master => 3
  | .holdover => 4
  | .resync => 5

/-- The module is in reset: supplies invalid or MOD_RST_N low (R8, R424). -/
def inReset (s : State) : Bool := !s.power.valid || s.power.rstLow

/-- FAULT_N is asserted (R424): in reset, before READY_BASIC, or with FAULT_CAUSE bit 0, 1 or 2 set. -/
def faultN (s : State) : Bool :=
  inReset s || (!s.power.readyBasic && !s.power.emergency) || (s.mantel.faultCause &&& 7) != 0

/-- READY [4:0] (R409). FAULT shows FAULT_N from the start instant on (R421, R484); before it READY has its reset value 0 (R8). -/
def readyLow (s : State) : Nat :=
  b2n s.power.readyBasic + 2 * b2n s.power.readyFull + 4 * b2n (faultN s && s.power.started) + 8 * b2n s.power.warn
    + 16 * b2n s.power.brake

/-- READY (R409). The bits of profile and identity read zero until READY_BASIC (R409). -/
def readyWord (s : State) : Nat :=
  readyLow s + 256 * s.ember.st.code
    + (if s.power.readyBasic then
        2 ^ 12 * (s.flash.slot % 4) + 2 ^ 16 * b2n s.flash.prof.secure + 2 ^ 17 * b2n s.flash.prof.test
      else 0)
    + 2 ^ 18 * b2n s.mantel.debugOpen + 2 ^ 19 * b2n (s.twin.st != .unpaired)

/-- The output pins of R470, none where high-impedance: every one while supplies are not valid (R472), and THERM_WARN_N, an open
drain, while it is not asserted (R484). READY_BASIC and READY_FULL are high when asserted, the others but EMBER_PPS_OUT low. -/
def pinReadyBasic (s : State) : Option Bool := if s.power.valid then some s.power.readyBasic else none
def pinReadyFull (s : State) : Option Bool := if s.power.valid then some s.power.readyFull else none
def pinFaultN (s : State) : Option Bool := if s.power.valid then some (!faultN s) else none
def pinThermWarnN (s : State) : Option Bool := if s.power.valid && s.power.warn then some false else none
def pinPpsOut (s : State) : Option Bool := if s.power.valid then some s.power.ppsOut else none

/-- FAULT_CAUSE bits that are set again at once while their condition lasts: the identity failure of R381 and the
thermal emergency of R450 (R424), and a supply out of range (R473). -/
def lasting (s : State) : BitVec 32 :=
  (if s.power.noIdentity then 2 else 0) ||| (if s.power.emergency then 4 else 0)
    ||| (if s.power.outOfRange then 8 else 0)

/-- The master link is up (R355). -/
def masterUp (m : Mantel) : Bool := if m.masterB then m.linkB.up else m.linkA.up

/-- Form and send an IRQ frame (R410): VALUE is IRQ_STATUS AND IRQ_ENABLE; it awaits IRQ_ACK. While the
master link is down the interrupt is held (R355). -/
def sendIrq (t : Nat) (m : Mantel) : Mantel :=
  if masterUp m then
    { m with irqOut := some (m.irqStatus &&& m.irqEnable), irqAt := t, irqSent := m.irqSent + 1, irqMore := false }
  else { m with irqMore := true }

/-- Enabled bits have gone from 0 to 1 (R410): send a frame, or remember it while one awaits IRQ_ACK. -/
def noteIrq (t : Nat) (fresh : BitVec 32) (m : Mantel) : Mantel :=
  if fresh &&& m.irqEnable = 0 then m
  else if m.irqOut.isSome then { m with irqMore := true }
  else sendIrq t m

/-- Set bits of IRQ_STATUS (R410). -/
def raiseIrq (mask : BitVec 32) (s : State) : State :=
  let fresh := mask &&& ~~~ s.mantel.irqStatus
  { s with mantel := noteIrq s.t fresh { s.mantel with irqStatus := s.mantel.irqStatus ||| mask } }

/-- What every command does last: FAULT_CAUSE bits 1 to 3 are set again at once while their condition
lasts (R424, R473); a change of READY [4:0] sets IRQ_STATUS [4] and a newly set FAULT_CAUSE bit sets [5] (R410). -/
def settle (old new : State) : State :=
  let m := new.mantel
  let n : State := { new with mantel := { m with faultCause := m.faultCause ||| lasting new } }
  let a : BitVec 32 := if readyLow old = readyLow n then 0 else 16
  let b : BitVec 32 := if n.mantel.faultCause &&& ~~~ (m.faultCause &&& old.mantel.faultCause) = 0 then 0 else 32
  if a ||| b = 0 then n else raiseIrq (a ||| b) n

/-- Set FAULT_CAUSE bits (R409). -/
def setCause (mask : BitVec 32) (s : State) : State :=
  { s with mantel.faultCause := s.mantel.faultCause ||| mask }

end Sys2Proof.Machine
end

