-- ==== Sys2Proof/Machine/Operands.lean ====
section
/-! DEFINITION. Operand forms: the command header (R399), the opcode table with marks and payload lengths
(R408), descriptors of extents, routes, the Damper, messages and slots. -/

namespace Sys2Proof.Machine

/-! ## Mailbox commands (R399, R407, R408) -/

/-- Marks and payload lengths of an opcode (R408). -/
structure OpInfo where
  t : Bool := false        -- accepted on tenant mailboxes
  n : Bool := false        -- accepted on a non-master Chimney mailbox
  w : Bool := false        -- may wait and may be deferred
  only : Bool := false     -- tenant only
  lo : Nat := 0            -- payload bytes, at least
  hi : Nat := 0            -- at most
  step : Nat := 1          -- lo plus a multiple of this
  deriving DecidableEq, Repr

/-- The opcodes of R408; every other code is reserved. -/
def opInfo (op : Nat) : Option OpInfo :=
  match op with
  | 0x0101 => some { t := true, n := true }
  | 0x0102 => some {}
  | 0x0103 => some { n := true }
  | 0x0201 => some { n := true, lo := 12, hi := 12 }
  | 0x0202 => some { lo := 8, hi := 4096 }
  | 0x0203 => some { lo := 1, hi := 1 }
  | 0x0204 => some { w := true, lo := 16, hi := 16 }
  | 0x0205 => some { w := true }
  | 0x0206 => some { n := true }
  | 0x0207 => some { w := true, lo := 1, hi := 1 }
  | 0x0301 => some { w := true, lo := 64, hi := 64 }
  | 0x0302 => some { w := true, lo := 1, hi := 1 }
  | 0x0303 => some { w := true, lo := 2, hi := 2 }
  | 0x0304 => some { w := true, lo := 1, hi := 1 }
  | 0x0305 => some { lo := 1, hi := 1 }
  | 0x0306 => some { t := true, n := true, lo := 1, hi := 1 }
  | 0x0401 => some { lo := 32, hi := 32 }
  | 0x0402 => some { lo := 4, hi := 4 }
  | 0x0403 => some { w := true, lo := 8, hi := 8 }
  | 0x0404 => some { lo := 8, hi := 4096, step := 8 }
  | 0x0405 => some { w := true, lo := 16, hi := 16 }
  | 0x0406 => some {}
  | 0x0407 => some { n := true, lo := 8, hi := 8 }
  | 0x0408 => some { n := true, lo := 6, hi := 6 }
  | 0x0409 => some { lo := 16, hi := 16 }
  | 0x040A => some { n := true, lo := 8, hi := 8 }
  | 0x0501 => some { w := true, lo := 3, hi := 3 }
  | 0x0502 => some { t := true, lo := 2, hi := 2 }
  | 0x0503 => some { t := true, lo := 1, hi := 1 }
  | 0x0504 => some { t := true, n := true, lo := 2, hi := 2 }
  | 0x0505 => some { lo := 2, hi := 2 }
  | 0x0601 => some { lo := 32, hi := 32 }
  | 0x0602 => some { lo := 16, hi := 16 }
  | 0x0603 => some { lo := 32, hi := 32 }
  | 0x0604 => some { lo := 4, hi := 4 }
  | 0x0605 => some { t := true, n := true, lo := 6, hi := 6 }
  | 0x0701 => some { lo := 10, hi := 10 }
  | 0x0702 => some { lo := 8, hi := 8 }
  | 0x0703 => some { t := true, n := true }
  | 0x0704 => some { lo := 8, hi := 4096 }
  | 0x0705 => some { w := true, lo := 12, hi := 12 }
  | 0x0706 => some { lo := 64, hi := 64 }
  | 0x0707 => some {}
  | 0x0708 => some { lo := 8, hi := 8 }
  | 0x0709 => some { n := true, lo := 12, hi := 12 }
  | 0x0801 => some { t := true, lo := 64, hi := 64 }
  | 0x0802 => some { t := true, w := true, lo := 2, hi := 2 }
  | 0x0803 => some { t := true, lo := 8, hi := 4096, step := 8 }
  | 0x0804 => some { t := true, lo := 8, hi := 4096, step := 8 }
  | 0x0805 => some { t := true, lo := 64, hi := 64 }
  | 0x0806 => some { t := true, lo := 16, hi := 16 }
  | 0x0807 => some { t := true, w := true, lo := 8, hi := 8 }
  | 0x0808 => some { t := true, w := true, lo := 24, hi := 24 }
  | 0x0809 => some { t := true, w := true, lo := 2, hi := 2 }
  | 0x080A => some { t := true, lo := 2, hi := 2 }
  | 0x080B => some { t := true, w := true, lo := 2, hi := 2 }
  | 0x080C => some { t := true, w := true, lo := 2, hi := 2 }
  | 0x080D => some { w := true, lo := 16, hi := 16 }
  | 0x080E => some { w := true, lo := 8, hi := 8 }
  | 0x080F => some { w := true, lo := 8, hi := 8 }
  | 0x0810 => some { t := true, n := true, lo := 6, hi := 6 }
  | 0x0901 => some { t := true, w := true, lo := 64, hi := 1088, step := 64 }
  | 0x0902 => some { t := true, lo := 72, hi := 1096, step := 64 }
  | 0x0903 => some { t := true, lo := 3, hi := 3 }
  | 0x0904 => some { t := true, lo := 64, hi := 4096 }
  | 0x0905 => some { t := true, lo := 2, hi := 2 }
  | 0x0A01 => some { t := true, lo := 8, hi := 8 }
  | 0x0A02 => some { t := true, lo := 1, hi := 1 }
  | 0x0A03 => some { lo := 8, hi := 8 }
  | 0x0A04 => some { w := true, lo := 1, hi := 1 }
  | 0x0A05 => some { lo := 16, hi := 16 }
  | 0x0A06 => some { t := true, w := true, lo := 16, hi := 16 }
  | 0x0A07 => some { t := true, w := true, lo := 16, hi := 16 }
  | 0x0A08 => some { t := true, lo := 8, hi := 8 }
  | 0x0A09 => some { t := true, n := true }
  | 0x0B01 => some { t := true, n := true, w := true, lo := 34, hi := 34 }
  | 0x0B02 => some { t := true, only := true, lo := 416, hi := 416 }
  | 0x0B03 => some { t := true, lo := 2, hi := 2 }
  | 0x0B04 => some { lo := 8, hi := 4096 }
  | 0x0B05 => some {}
  | 0x0B06 => some { t := true, n := true, lo := 4, hi := 4 }
  | 0x0C01 => some { t := true, n := true, lo := 2, hi := 2 }
  | 0x0C02 => some { t := true, lo := 4, hi := 4 }
  | 0x0C03 => some { t := true, n := true }
  | 0x0C04 => some { lo := 6, hi := 6 }
  | 0x0D01 => some { lo := 8, hi := 8 }
  | 0x0D02 => some { n := true, lo := 2, hi := 2 }
  | 0x0D03 => some {}
  | 0x0E01 => some { w := true, lo := 8, hi := 4096 }
  | 0x0E02 => some { w := true, lo := 1, hi := 1 }
  | 0x0E03 => some { w := true, lo := 1, hi := 1 }
  | 0x0E04 => some { n := true }
  | _ => none

/-- LEN fits the opcode (R407 step 1). -/
def OpInfo.lenOk (i : OpInfo) (len : Nat) : Bool :=
  i.lo ≤ len && len ≤ i.hi && (len - i.lo) % i.step == 0

/-- The command header (R399), as a number. -/
structure CmdHdr where
  op : Nat := 0
  seq : Nat := 0
  part : Nat := 0
  len : Nat := 0
  defer : Bool := false
  quiet : Bool := false
  rsv : Bool := false
  deriving DecidableEq, Repr

def cmdHdr (h : Nat) : CmdHdr :=
  { op := bits h 15 0, seq := bits h 47 16, part := bits h 51 48, len := bits h 76 64, defer := bit h 80,
    quiet := bit h 81, rsv := bits h 63 52 != 0 || bits h 79 77 != 0 || h / 2 ^ 82 != 0 }

/-- The completion header (R400) as 64 bytes. -/
def cmplBytes (c : Cmpl) : Bytes :=
  toLE 2 c.op ++ toLE 4 c.seq ++ toLE 2 c.status ++ toLE 2 c.payload.length ++ toLE 2 c.ticket ++ toLE 4 c.detail
    ++ toLE 8 c.endTime ++ List.replicate 40 0

/-- Is a field of a payload zero? -/
def zeroAt (b : Bytes) (off n : Nat) : Bool := fldLE b off n == 0

/-! ## Extents and routes (R264, R286) -/

/-- An extent descriptor of R264. -/
def decExtent (x : Nat) : Extent :=
  { base := bits x 255 232, granules := bits x 231 208, trayBase := bits x 207 184, hostmask := bits x 183 152,
    mirrorPort := bits x 151 147, trayPort := bits x 146 142, trayLd := bits x 141 138, dcRegion := bits x 137 135,
    nook := bits x 127 121, ch0 := bits x 120 118, channelMap := bit x 117, mirror := bits x 116 115,
    devown := bit x 114, coh := bit x 113, tray := bits x 112 111 == 1, part := bits x 3 0 }

/-- The 32 bytes of an extent descriptor. -/
def encExtent (e : Extent) : Bytes :=
  toLE 32 (e.part + 2 ^ 111 * b2n e.tray + 2 ^ 113 * b2n e.coh + 2 ^ 114 * b2n e.devown + 2 ^ 115 * e.mirror
    + 2 ^ 117 * b2n e.channelMap + 2 ^ 118 * e.ch0 + 2 ^ 121 * e.nook + 2 ^ 135 * e.dcRegion + 2 ^ 138 * e.trayLd
    + 2 ^ 142 * e.trayPort + 2 ^ 147 * e.mirrorPort + 2 ^ 152 * e.hostmask + 2 ^ 184 * e.trayBase
    + 2 ^ 208 * e.granules + 2 ^ 232 * e.base)

/-- The BAD_DESCRIPTOR conditions of R266 that the descriptor alone decides. -/
def extentBad (x : Nat) : Bool :=
  let e := decExtent x
  bits x 134 128 != 0 || bits x 110 4 != 0 || bits x 112 111 > 1 || e.mirror == 3 || e.granules == 0
    || (if e.tray then
          e.granules > 2 ^ 20 || e.channelMap || e.ch0 != 0 || (e.mirror != 2 && e.mirrorPort != 0)
            || (e.mirror == 2 && e.mirrorPort == e.trayPort) || e.trayBase + e.granules > 2 ^ 24
        else
          e.granules > 64 || e.trayBase != 0 || e.mirrorPort != 0 || e.trayPort != 0 || e.trayLd != 0
            || (!e.channelMap && e.ch0 != 0) || e.mirror == 2)
    || e.nook > 95 || (e.hostmask == 0 && e.dcRegion != 0) || (!e.coh && e.hostmask != 0)
    || e.base + e.granules > 2 ^ 24

/-- A route entry of R286. -/
def decRoute (x : Nat) : Route :=
  { own := bit x 10, dest := bits x 9 0,
    ports := ([bits x 39 32, bits x 47 40, bits x 55 48, bits x 63 56]).take (bits x 31 29) }

/-- The BAD_DESCRIPTOR conditions of R286 that the entry alone decides. -/
def routeBad (x : Nat) : Bool :=
  let n := bits x 31 29
  n > 4 || bits x 28 11 != 0 || (n ≤ 3 && bits x 63 56 != 0) || (n ≤ 2 && bits x 55 48 != 0)
    || (n ≤ 1 && bits x 47 40 != 0) || (n == 0 && bits x 39 32 != 0) || (bit x 10 && bits x 9 4 != 0)

/-! ## Endpoint ids (R262) -/

/-- An endpoint id. -/
def epId (cell module port : Nat) : Nat := cell % 1024 * 4096 + module % 16 * 256 + port % 256

def epCell (e : Nat) : Nat := bits e 21 12
def epModule (e : Nat) : Nat := bits e 11 8
def epPort (e : Nat) : Nat := bits e 7 0

/-! ## Slots of messages (R341 to R345) -/

/-- Slots of a message after its header slot (LEN of R341). -/
def lineLen (vc : Vc) (opc : Nat) (old : Bool) : Nat :=
  match vc with
  | .req => if opc = 5 then 5 else if opc = 6 then 6 else if opc = 7 then 2 else 1
  | .snp => if opc = 5 then 5 else 1
  | .rsp => if opc = 4 then 1 else if opc = 7 && old then 1 else 0
  | .dat => 5
  | _ => 0

/-- Slots of a packet message after its header, at its raw size. -/
def pktLen (bytes : Nat) : Nat := 1 + (bytes + 15) / 16

/-- Channel codes of R340. -/
def Vc.code : Vc → Nat
  | .req => 1
  | .snp => 2
  | .rsp => 3
  | .dat => 4
  | .msg => 5
  | .sch => 6
  | .mgt => 7

/-- Raw flits of `n` slots (R345). -/
def rawFlits (enc : Bool) (n : Nat) : Nat := if enc then (n + 13) / 14 else (n + 14) / 15

/-- A 128-bit slot of bytes. -/
def slotOf (b : Bytes) : BitVec 128 := BitVec.ofNat 128 (leNat (b.take 16))

/-- Bytes cut into slots, the last one padded with zeros. -/
def slotsOf : Nat → Bytes → List (BitVec 128)
  | 0, _ => []
  | n + 1, b => slotOf b :: slotsOf n (b.drop 16)

/-- The header slot of R341. -/
def hdrSlot (vc : Vc) (opc len dst src txn heat status hops grant : Nat) (flux : Bool) : BitVec 128 :=
  BitVec.ofNat 128 (vc.code + 2 ^ 28 * (grant % 8) + 2 ^ 31 * b2n flux + 2 ^ 32 * (hops % 16)
    + 2 ^ 36 * (status % 256) + 2 ^ 44 * (heat % 16) + 2 ^ 48 * (len % 256) + 2 ^ 56 * (opc % 256)
    + 2 ^ 64 * (txn % 2 ^ 20) + 2 ^ 84 * (src % 2 ^ 22) + 2 ^ 106 * (dst % 2 ^ 22))

/-- The body slot of R342. -/
def lineBody (m : LineMsg) : BitVec 128 :=
  BitVec.ofNat 128 (m.ltag % 2 ^ 16 + 2 ^ 34 * b2n m.dirty + 2 ^ 35 * b2n m.aw + 2 ^ 36 * (m.acode % 16)
    + 2 ^ 40 * (m.addr % 2 ^ 56) + 2 ^ 96 * (m.epoch % 2 ^ 32))

/-- The body slot of R343. -/
def pktBody (m : PktMsg) : BitVec 128 :=
  BitVec.ofNat 128 (2 ^ 36 * (m.bytes % 4096) + 2 ^ 48 * (m.tag % 2 ^ 16) + 2 ^ 64 * (m.tenant % 2 ^ 32)
    + 2 ^ 96 * (m.epoch % 2 ^ 32))

/-- The CMP that answers an ATOMIC carries a second slot (R342): the sender marks it with opcode 0x07 and `aw`
kept from the request through `acode` 16 or more. -/
def isAtomicCmp (opc : Nat) (m : LineMsg) : Bool := opc == 7 && m.acode == 16

/-- The slots of a message as sent. -/
def Out.slots : Out → List (BitVec 128)
  | .line vc opc m =>
    let n := lineLen vc opc (isAtomicCmp opc m)
    hdrSlot vc opc n m.dst m.src m.txn m.heat m.status 0 m.grant false ::
      (if n = 0 then []
       else if vc = .rsp && opc = 7 then [BitVec.ofNat 128 (m.old % 2 ^ 64)]
       else lineBody m ::
        (if n = 5 then slotsOf 4 m.data
         else if n = 6 then BitVec.ofNat 128 m.mask.toNat :: slotsOf 4 m.data
         else if n = 2 then [BitVec.ofNat 128 (m.op1 % 2 ^ 64 + 2 ^ 64 * (m.op2 % 2 ^ 64))]
         else []))
  | .pkt vc m =>
    let n := (m.body.length + 15) / 16
    hdrSlot vc m.opc (1 + n) m.dst m.src m.txn m.heat m.status m.hops 0 m.flux :: pktBody m :: slotsOf n m.body
  | .tray _ _ _ _ _ => []
  | .mirror txn n => (List.range (2 + (n + 15) / 16)).map fun k => Config.mirrorSlot txn k

/-- Slots of a message at its raw size, header included (R345). -/
def Out.rawSlots : Out → Nat
  | .line vc opc m => 1 + lineLen vc opc (isAtomicCmp opc m)
  | .pkt _ m => 1 + pktLen m.bytes
  | .tray _ _ _ _ d => 1 + (d.length + 15) / 16
  | .mirror _ n => 2 + (n + 15) / 16

/-! ## Damper parameters (R256) -/

/-- A bucket parameter that breaks R249 (rate and burst in range, no burst without a rate). -/
def bwBad (rate burst : Nat) : Bool := rate > 1600000 || (if rate = 0 then burst != 0 else burst < 2 || burst > 256)

def rqBad (rate burst : Nat) : Bool := if rate = 0 then burst != 0 else burst == 0

/-- The cap of a bandwidth bucket, in units of R249. -/
def bwCap (burst : Nat) : Nat := burst * 1024 * 8000

/-! ## Sizes of elements and rows (R38, R40) -/

/-- Bytes of an element of a format; Q4 is half a byte and is handled by its row. -/
def elemBytes (code : Nat) : Nat :=
  match code with
  | 0 => 4
  | 1 => 2
  | 2 => 2
  | 8 => 16
  | 9 => 96
  | _ => 1

/-- Bytes of a row of `n` elements (R40). -/
def rowBytes (fmt n : Nat) : Nat :=
  if fmt = 6 then 4 + (n + 1) / 2 else if fmt = 5 then 4 + n else n * elemBytes fmt

end Sys2Proof.Machine
end

