-- ==== Sys2Proof/Machine/Ops.lean ====
section
/-! DEFINITION. The named operations that the commands share: sparse memory, lookups, time, free values,
events, ownership, maps, the Damper's buckets, messages and answers, mailbox jobs. -/

namespace Sys2Proof.Machine

/-! ## Sparse memory: cells in rising address order, none equal to the default byte -/

/-- The byte at an address; an unlisted address reads the default. -/
def cellsGet (d : Byte) : List Host.Cell → Nat → Byte
  | [], _ => d
  | (a, b) :: r, x => if x = a then b else cellsGet d r x

/-- List a byte in its place among rising addresses. -/
def cellsPut (x : Nat) (v : Byte) : List Host.Cell → List Host.Cell
  | [] => [(x, v)]
  | c :: r => if x < c.1 then (x, v) :: c :: r else c :: cellsPut x v r

/-- Write one byte and keep the canonical form. -/
def cellsSet (d : Byte) (l : List Host.Cell) (x : Nat) (v : Byte) : List Host.Cell :=
  let r := l.filter fun c => c.1 != x
  if v = d then r else cellsPut x v r

/-- Write bytes from an address upward. -/
def cellsWrite (d : Byte) (l : List Host.Cell) (x : Nat) : Bytes → List Host.Cell
  | [] => l
  | v :: vs => cellsWrite d (cellsSet d l x v) (x + 1) vs

/-- Read `n` bytes from an address upward. -/
def cellsRead (d : Byte) (l : List Host.Cell) (x : Nat) : Nat → Bytes
  | 0 => []
  | n + 1 => cellsGet d l x :: cellsRead d l (x + 1) n

/-- Make `n` bytes from an address read the default again. -/
def cellsClear (l : List Host.Cell) (x n : Nat) : List Host.Cell :=
  l.filter fun c => decide (c.1 < x) || decide (x + n ≤ c.1)

/-- Copy a run of `n` bytes at `x` of one memory to `y` of another. -/
def cellsCopy (d : Byte) (src dst : List Host.Cell) (x y n : Nat) : List Host.Cell :=
  (src.filter fun c => decide (x ≤ c.1) && decide (c.1 < x + n)).foldl
    (fun acc c => cellsSet d acc (c.1 - x + y) c.2) (cellsClear dst y n)

/-- The canonical form of a memory: addresses strictly rising, no listed default. -/
abbrev cellsWf (d : Byte) (l : List Host.Cell) : Prop :=
  l.Pairwise (fun a b => a.1 < b.1) ∧ ∀ c ∈ l, c.2 ≠ d

/-- The canonical form of the module's memory. -/
abbrev Memory.wf (m : Memory) : Prop := cellsWf 0 m.bytes ∧ cellsWf 0 m.mirror

/-! ## Parts of the state by number -/

def State.chan (s : State) (c : Nat) : Chan := s.chans.getD c {}
def State.port (s : State) (p : Nat) : SaxPort := s.sax.getD p {}
def State.tray (s : State) (t : Nat) : TrayPort := s.trays.getD t {}
def State.dport (s : State) (tray : Bool) (p : Nat) : DPort := (if tray then s.dtray else s.dsax).getD p {}

def modChan (c : Nat) (f : Chan → Chan) (s : State) : State := { s with chans := s.chans.modify c f }
def modPort (p : Nat) (f : SaxPort → SaxPort) (s : State) : State := { s with sax := s.sax.modify p f }
def modTray (t : Nat) (f : TrayPort → TrayPort) (s : State) : State := { s with trays := s.trays.modify t f }
def modD (tray : Bool) (p : Nat) (f : DPort → DPort) (s : State) : State :=
  if tray then { s with dtray := s.dtray.modify p f } else { s with dsax := s.dsax.modify p f }

/-- Put an element before the first one of a list that it may stand before. -/
def insertBy {α : Type} (le : α → α → Bool) (x : α) : List α → List α
  | [] => [x]
  | y :: l => if le x y then x :: y :: l else y :: insertBy le x l

/-- A list in order; elements that stand equal keep their places. -/
def sortBy {α : Type} (le : α → α → Bool) (l : List α) : List α := l.foldr (insertBy le) []

/-- Change the members of a list that meet a test. -/
def modWhere {α : Type} (q : α → Bool) (f : α → α) (l : List α) : List α := l.map fun x => if q x then f x else x

def State.part? (s : State) (p : Nat) : Option Part := s.ten.parts.find? (·.id == p)
def modPart (p : Nat) (f : Part → Part) (s : State) : State :=
  { s with ten.parts := modWhere (·.id == p) f s.ten.parts }

/-- Owner of a nook (R18). -/
def State.nookOwner (s : State) (n : Nat) : Owner := s.ten.nooks.getD n .free

/-- The nooks a partition holds. -/
def State.nooksOf (s : State) (p : Nat) : List Nat :=
  (List.range 96).filter fun n => s.nookOwner n == .part p

/-- The Saxel ports a partition holds (R21). -/
def State.saxOf (s : State) (p : Nat) : List Nat := (List.range 256).filter fun k => (s.port k).owner == some p

def State.traysOf (s : State) (p : Nat) : List Nat := (List.range 32).filter fun k => (s.tray k).owner == some p

/-- A set of numbers as a bit mask. -/
def maskOf (l : List Nat) : Nat := (l.map fun n => 2 ^ n).sum

/-- The partition is quiesced (R407, R450, R463). -/
def State.isQuiesced (s : State) (p : Nat) : Bool := (s.part? p).elim false fun x => x.quiesced || x.dfault

/-- The status a quiesced partition answers (R289 step 5, R407 step 4). -/
def State.quiesceStatus (s : State) (p : Nat) : Status := if (s.part? p).elim false (·.dfault) then .doubleFault else .quiesced

/-- The partition is recovering (R463). -/
def State.recovering (s : State) (p : Nat) : Bool := (s.part? p).elim false fun x => x.recs.any (! ·.ended)

/-! ## Time (R211, R228) -/

/-- Ember NS. -/
def State.ns (s : State) : Nat := s.ember.fx / 65536 % 2 ^ 64

/-- Ember FRAC, in 2^-16 ns. -/
def State.frac (s : State) : Nat := s.ember.fx % 65536

/-- The global slot (256 ns). -/
def State.slot (s : State) : Nat := s.ns / 256

/-- A request names a nook that is being moved, from or to the partition (R25). -/
def movingFor (s : State) (p n : Nat) : Bool :=
  s.ten.moves.any fun m => m.nook == n && (m.dst == .part p || s.nookOwner n == .part p)

/-- A rate correction within R213: 100 ppm in 2^-32 ns per ns. -/
def clampRate (r : Int) : Int := max (-429496) (min 429496 r)

/-- The first multiple of `m` at or after `n`. -/
def roundUp (n m : Nat) : Nat := (n + m - 1) / m * m

/-! ## Arbiters (R240) -/

/-- Where an arbiter's pointer stands in the slot. -/
def Arb.now (a : Arb) (slot n : Nat) : Nat := if a.slot = slot then a.ptr else slot % n

/-- The contender that stands first at or after the pointer, counting cyclically. -/
def arbWin (n ptr : Nat) (asks : Nat → Bool) : Option Nat :=
  ((List.range n).map fun i => (ptr + i) % n).find? asks

/-- The pointer moves past the winner. -/
def arbMove (slot n w : Nat) : Arb := { slot := slot, ptr := (w + 1) % n }

/-! ## Free values (log entries 3 and 4) -/

/-- Draw a free value that the manual leaves open. -/
def drawFree (s : State) : Nat × State := (Config.freeNat s.power.frees, { s with power.frees := s.power.frees + 1 })

/-- Draw 32 bytes from the TRNG. -/
def drawRandom (s : State) : Bytes × State := (Config.random32 s.power.draws, { s with power.draws := s.power.draws + 1 })

/-- A fresh key, named by its number. -/
def drawKey (s : State) : Nat × State := (s.ten.nextKey, { s with ten.nextKey := s.ten.nextKey + 1 })

/-! ## Events (R411 to R413, R452) -/

/-- Put a record into the manager's queue of 4,096 (R412), with IRQ_STATUS [2] and [3] of R410. -/
def pushM (e : Event) (s : State) : State :=
  let q := s.mantel.evM
  let e := { e with eseq := q.eseq }
  let q' := { q with eseq := (q.eseq + 1) % 2 ^ 32 }
  if q.recs.length < 4096 then
    let s := { s with mantel.evM := { q' with recs := q.recs ++ [e] } }
    if q.recs.isEmpty then raiseIrq 4 s else s
  else raiseIrq 8 { s with mantel.evM := q' }

/-- Put a record into a partition's queue of 256 (R412); the EVENT message leaves at the next multiple of 100 us. -/
def pushP (p : Nat) (e : Event) (s : State) : State :=
  let now := s.ns
  { s with mantel.evP := s.mantel.evP.modify p fun q =>
      let e := { e with eseq := q.eseq }
      let q' := { q with eseq := (q.eseq + 1) % 2 ^ 32 }
      if q.recs.length < 256 then
        { q' with recs := q.recs ++ [e], notifyDue := if q.recs.isEmpty then some (roundUp now 100000) else q.notifyDue }
      else q' }

/-- Report an event: to the manager, to a partition's queue, with its concern (`none` = system) and DETAIL fields. -/
def event (code : Nat) (toM : Bool) (toP : List Nat) (concern : Option Nat) (detail : List Nat) (s : State) : State :=
  let e : Event := { code := code, part := concern.getD 0, sys := concern.isNone, ns := s.ns, detail := detail }
  let s := if toM then pushM e s else s
  toP.foldl (fun s p => if (s.part? p).isSome then pushP p e s else s) s

/-- An event for the manager and the owner, if there is one. -/
def eventMO (code : Nat) (owner : Option Nat) (detail : List Nat) (s : State) : State :=
  event code true owner.toList owner detail s

/-- An event for the manager and every partition. -/
def eventMA (code : Nat) (detail : List Nat) (s : State) : State :=
  event code true (s.ten.parts.map (·.id)) none detail s

/-! ## Counters (R451) -/

/-- A count saturates at 2^32 - 1. -/
def sat32 (n : Nat) : Nat := min n (2 ^ 32 - 1)

/-- Count in the running interval of the module and, when one is concerned, of a partition. -/
def count (p : Option Nat) (f : Tele → Tele) (s : State) : State :=
  { s with mantel := { s.mantel with
      cntM := f s.mantel.cntM,
      cntP := match p with
        | some p => s.mantel.cntP.modify p f
        | none => s.mantel.cntP } }

/-! ## Recoveries (R453, R463, R464) -/

/-- The recovery of a fault ends; RECOVERY_END row then reports it. -/
def endRecovery (p code unit : Nat) (s : State) : State :=
  let mine := fun (r : Recovery) => r.code == code && r.unit == unit && r.running && !r.ended
  modPart p (fun x => { x with recs := modWhere mine (fun r => { r with ended := true }) x.recs }) s

/-- The recovery of this fault may run now (R464): the first of a quiesced partition that has not ended. -/
def recoveryRuns (s : State) (p code unit : Nat) : Bool :=
  (s.part? p).elim true fun x => x.recs.all fun r => ! (r.code == code && r.unit == unit) || r.running || r.ended

/-! ## Addresses, extents and maps (R261 to R275) -/

/-- The module's own number in its cell. -/
def State.modNum (s : State) : Nat := s.power.pos

/-- A port number names an accelerator link (R262). -/
def isAccel (s : State) (p : Nat) : Bool := (s.port p).kind == 0

/-- The module's own id (R492). -/
def ownId (s : State) : Nat :=
  epId s.flash.prof.cell s.modNum (((List.range 256).find? fun p => ! isAccel s p).getD 0)

/-- An id names this module (R262). -/
def namesMe (s : State) (e : Nat) : Bool :=
  epCell e == s.flash.prof.cell && epModule e == s.modNum && ! isAccel s (epPort e)

/-- An id names an accelerator of this module; its port. -/
def namesMyAccel (s : State) (e : Nat) : Bool :=
  epCell e == s.flash.prof.cell && epModule e == s.modNum && isAccel s (epPort e)

/-- Two ids that name modules name the same one (R492): cell and module number agree. Which ports of another module are
accelerator links is not known here; for this one it is (log entry 84). -/
def sameEp (s : State) (a b : Nat) : Bool :=
  a == b || (namesMe s a && namesMe s b)
    || (epCell a == epCell b && epModule a == epModule b && !(epCell a == s.flash.prof.cell && epModule a == s.modNum))

/-- The extent of a map that holds a granule. -/
def extIn (l : List Extent) (g : Nat) : Option Extent := l.find? fun e => e.base ≤ g && g < e.base + e.granules

/-- Epoch `a` is newer than `b` (R270). -/
def newer (a b : Nat) : Bool :=
  let d := (a % 2 ^ 32 + 2 ^ 32 - b % 2 ^ 32) % 2 ^ 32
  1 ≤ d && d < 2 ^ 31

/-- The live map of an epoch, or the status of R272. -/
def mapFor (s : State) (epoch : Nat) : Except Status MapV :=
  if epoch = s.maps.cur.epoch then .ok s.maps.cur
  else match s.maps.prev with
    | some m => if epoch = m.epoch then .ok m else if newer epoch s.maps.cur.epoch then .error .retry else .error .epochStale
    | none => if newer epoch s.maps.cur.epoch then .error .retry else .error .epochStale

/-- The extent at module offset `o` under a live map and the answer of R273: an extent being released is EXTENT_GONE
whichever map the request carries. -/
def extentAt (s : State) (m : MapV) (o : Nat) : Except Status Extent :=
  let g := o / 2 ^ 28
  match s.maps.rels.find? fun r => r.ext.base ≤ g && g < r.ext.base + r.ext.granules with
  | some r => .ok r.ext
  | none => match extIn m.exts g with
    | some e => .ok e
    | none => .error .noAccess

/-- An extent is being released (R274). -/
def releasing (s : State) (e : Extent) : Bool := s.maps.rels.any (·.ext.base == e.base)

/-- Any extent that the module serves at an offset, of the current map, the previous one, or being released. -/
def anyExtent (s : State) (o : Nat) : Option Extent :=
  let g := o / 2 ^ 28
  match extIn s.maps.cur.exts g with
  | some e => some e
  | none => match extIn (s.maps.rels.map (·.ext)) g with
    | some e => some e
    | none => extIn (s.maps.prev.elim [] (·.exts)) g

/-- The stack channel that holds offset `o` of a stacked extent (R265). -/
def chanOf (e : Extent) (o : Nat) : Option Nat :=
  if e.tray then none
  else
    let x := o - e.base * 2 ^ 28
    let k := if e.channelMap then (e.ch0 + x / 2 ^ 28) % 8 else x / 4096 % 8
    some (e.nook / 4 * 32 + 8 * (e.nook % 4) + k)

/-- The eight channels of a nook (R15). -/
def nookChans (n : Nat) : List Nat := (List.range 8).map fun k => n / 4 * 32 + 8 * (n % 4) + k

/-- The nook of a channel (R15). -/
def chanNook (c : Nat) : Nat := c / 32 * 4 + c % 32 / 8

/-- The owner of a channel. -/
def State.chanOwner (s : State) (c : Nat) : Option Nat :=
  match s.nookOwner (chanNook c) with
  | .part p => some p
  | _ => none

/-- A port is enabled: a stage or twin link, or a port of a partition (R21). -/
def portWorks (s : State) (tray : Bool) (p : Nat) : Bool :=
  if tray then (s.tray p).mode != 0 && (s.tray p).owner.isSome
  else (s.port p).kind == 1 || (s.port p).kind == 2 || ((s.port p).kind == 0 && (s.port p).owner.isSome)

/-- The extra state of an extent. -/
def State.ext (s : State) (base : Nat) : ExtState := (s.maps.ext.find? (·.base == base)).getD { base := base }

def modExt (base : Nat) (f : ExtState → ExtState) (s : State) : State :=
  { s with maps.ext := (f (s.ext base)) :: s.maps.ext.filter (·.base != base) }

/-- The twin is paired and takes mirror traffic (R438, R440). -/
def State.mirrors (s : State) : Bool := s.twin.st == .syncing || s.twin.st == .paired

/-- A line on a retired channel of a MIRROR = 1 extent is served through the twin (R460). -/
def viaTwin (s : State) (e : Extent) (o : Nat) : Bool :=
  e.mirror == 1 && s.twin.st == .paired && !(s.ext e.base).copying
    && (chanOf e o).elim false fun c => (s.chan c).retired || (s.chan c).retiring.isSome

/-- A line of the extent can be read again from a mirror (R172): a tray pair's, or that of a paired twin, once the copy to it has
ended (R269). -/
def mirrored (s : State) (e : Extent) : Bool :=
  (e.mirror == 2 || (e.mirror == 1 && s.twin.st == .paired)) && !(s.ext e.base).copying

/-- The extents the module serves, of both live maps and running releases, one for each base. -/
def liveExts (s : State) : List Extent :=
  let more := (s.maps.prev.elim [] (·.exts)) ++ s.maps.rels.map (·.ext)
  s.maps.cur.exts ++ more.filter fun e => !(s.maps.cur.exts.any (·.base == e.base))

/-- The 32 MiB slots of its channels that granule `g` of an extent takes (R265): one on each of eight channels, or eight of one. They
were chosen at EXTENT_ADD; a granule without a choice takes the slots of its number (log entry 78). -/
def granSlots (s : State) (e : Extent) (g : Nat) : List Nat :=
  match s.maps.places.find? (·.1 == g) with
  | some x => x.2
  | none => if e.channelMap then (List.range 8).map fun i => g % 64 / 8 * 8 + i else List.replicate 8 (g % 64)

/-- The place of a line of an extent among the 2^25 lines of its channel (R265, R182). -/
def linePos (s : State) (e : Extent) (l : Nat) : Nat :=
  let x := l % 2 ^ 22
  let sl := granSlots s e (l / 2 ^ 22)
  if e.channelMap then sl.getD (x / 2 ^ 19) 0 * 2 ^ 19 + x % 2 ^ 19
  else sl.getD (x / 64 % 8) 0 * 2 ^ 19 + x / 512 * 64 + x % 64

/-- The 32 MiB pieces of its nook that granule `g` of an extent takes: 8 times the slot, and the channel index. -/
def granPieces (s : State) (e : Extent) (g : Nat) : List Nat :=
  let sl := granSlots s e g
  if e.channelMap then sl.map fun r => 8 * r + (e.ch0 + (g - e.base)) % 8 else sl.zipIdx.map fun x => 8 * x.1 + x.2

/-- All pieces of an extent. -/
def extPieces (s : State) (e : Extent) : List Nat :=
  if e.tray then [] else (List.range e.granules).flatMap fun i => granPieces s e (e.base + i)

/-- The lines of the module that the extents keep at line `p` of a channel (R265, log entry 78). -/
def linesAt (s : State) (c p : Nat) : List Nat :=
  ((liveExts s).filter fun e => !e.tray && e.nook == chanNook c).flatMap fun e =>
    (List.range e.granules).flatMap fun i =>
      let g := e.base + i
      let ls := if e.channelMap then (List.range 8).map fun j => g * 2 ^ 22 + j * 2 ^ 19 + p % 2 ^ 19
                else [g * 2 ^ 22 + p % 2 ^ 19 / 64 * 512 + c % 8 * 64 + p % 64]
      ls.filter fun l => chanOf e (64 * l) == some c && linePos s e l == p

/-- The name in the damaged-line table of a line that no extent holds (log entry 78). -/
def bareLine (p : Nat) : Nat := 2 ^ 46 + p

/-- A line of an extent stands in its channel's damaged-line table (R172), under its own name or that of its place. -/
def tabled (s : State) (c : Nat) (e : Extent) (l : Nat) : Bool :=
  let d := (s.chan c).damaged
  !d.isEmpty && (d.contains l || d.contains (bareLine (linePos s e l)))

/-- The offset lies in a region that background zeroing has not reached (R26): it reads zero without a memory access. -/
def unzeroed (s : State) (e : Extent) (o : Nat) : Bool :=
  !e.tray && !s.ten.unzeroed.isEmpty
    && (chanOf e o).elim false fun c => s.ten.unzeroed.contains (e.nook, 8 * (linePos s e (o / 64) / 2 ^ 19) + c % 8)

/-- Memory cannot give the line (R172, R289 step 8, R455, R457): damaged with no mirror, on a retired channel with no
mirror, or lost with its tray. -/
def lineDamaged (s : State) (e : Extent) (o : Nat) : Bool :=
  (s.ext e.base).lost ||
  !unzeroed s e o && (chanOf e o).elim false fun c =>
    ((s.chan c).retired || (s.chan c).retiring.isSome) && ! viaTwin s e o || tabled s c e (o / 64) && !mirrored s e

/-! ## Rows of tables (R98, R102 to R107) -/

/-- Physical rows and shards of a table (R98, R107). -/
def TDesc.phys (d : TDesc) : Nat := if d.storage = 1 then 2 ^ d.hbits else d.rows
def TDesc.shards (d : TDesc) : Nat := 256 * d.nspan
def TDesc.shardOf (d : TDesc) (r : Nat) : Nat := r * d.shards / d.phys

/-- The entry of a physical row in a plane (R104). -/
def TDesc.ritAt (d : TDesc) (plane r : Nat) : Nat := d.rit + 8 * (plane % 2 * d.phys + r)

/-- A RIT entry (R103). -/
def ritEntry (gen : Nat) (valid fwd : Bool) (line : Nat) : Nat :=
  gen % 65536 * 2 ^ 48 + b2n valid * 2 ^ 47 + b2n fwd * 2 ^ 46 + line % 2 ^ 46
def entGen (e : Nat) : Nat := bits e 63 48
def entValid (e : Nat) : Bool := bit e 47
def entFwd (e : Nat) : Bool := bit e 46
def entAddr (e : Nat) : Nat := 64 * bits e 45 0

/-- Lines of a row (R102). -/
def rowLines (d : TDesc) : Nat := (rowBytes d.fmt d.elems + 63) / 64

/-! ## Damper: subscribers, buckets, policing, Heat (R244 to R255) -/

/-- A bucket's level at Ember nanosecond `t`, in its units (R249). -/
def Bucket.now (b : Bucket) (t : Nat) : Int := min (b.cap : Int) (b.level + (b.rate * (t - b.at_) : Nat))

/-- A bucket lets a frame start: it does not limit, or holds at least 0 (R249). -/
def Bucket.lets (b : Bucket) (t : Nat) : Bool := b.rate == 0 || 0 ≤ b.now t

/-- Charge a bucket (R249). -/
def Bucket.charge (b : Bucket) (t : Nat) (units : Nat) : Bucket :=
  if b.rate = 0 then b else { b with level := b.now t - units, at_ := t }

/-- Cut a positive balance to zero (R251). -/
def Bucket.drain (b : Bucket) (t : Nat) : Bucket := { b with level := min 0 (b.now t), at_ := t }

/-- Ember time is stepped from `old` to `new`: what the buckets had earned stays, and they go on from there (R212, R249). -/
def Bucket.rebase (old new : Nat) (b : Bucket) : Bucket := { b with level := b.now old, at_ := new }

def DSub.rebase (old new : Nat) (x : DSub) : DSub :=
  { x with bw := x.bw.rebase old new, rq := x.rq.rebase old new, sh := x.sh.rebase old new }

def DPort.rebase (old new : Nat) (d : DPort) : DPort :=
  { d with sh := d.sh.rebase old new, svcs := d.svcs.map fun v => { v with sh := v.sh.rebase old new },
           subs := d.subs.map (DSub.rebase old new), stranger := d.stranger.rebase old new }

/-- The subscriber that an endpoint's key names at a port (R244). -/
def keySub (s : State) (tray : Bool) (p : Nat) (ep : Nat) : Nat :=
  let d := s.dport tray p
  let key := if tray then 0 else ep &&& d.mask
  ((d.subs.find? fun x => x.idx != 0 && x.key == key).map (·.idx)).getD 0

/-- The subscriber of a frame (R244, R245): the stranger while the peer is not admitted. -/
def subOf (s : State) (tray : Bool) (p : Nat) (ep : Nat) : Nat :=
  if !tray && !(s.port p).admitted then 4095 else keySub s tray p ep

def DPort.sub (d : DPort) (i : Nat) : DSub := if i = 4095 then d.stranger else (d.subs.find? (·.idx == i)).getD {}

def DPort.modSub (d : DPort) (i : Nat) (f : DSub → DSub) : DPort :=
  if i = 4095 then { d with stranger := f d.stranger } else { d with subs := modWhere (·.idx == i) f d.subs }

/-- min(15, floor(16 a / c)), 0 when c is 0 (R254). -/
def heatOf (a c : Nat) : Nat := if c = 0 then 0 else min 15 (16 * a / c)

/-- Standing of a bucket (R254). -/
def standing (b : Bucket) (t : Nat) : Nat :=
  if b.rate = 0 then 0 else heatOf (b.cap - (max 0 (b.now t)).toNat) b.cap

/-- The Heat of R254 for a subscriber of a port. -/
def heat (s : State) (tray : Bool) (p i : Nat) : Nat :=
  let d := s.dport tray p
  let x := d.sub i
  let inSvc := d.q.filter (·.svc < 8)
  let backlog := ((inSvc.filter (·.sub == i)).map (·.raw)).sum
  let all := (inSvc.map (·.raw)).sum
  max (max (standing x.bw s.ns) (standing x.rq s.ns)) (max (heatOf backlog x.heatq) (heatOf all d.heatq))

/-- What the policer decides of a frame of `raw` flits from endpoint `ep` on Saxel port `p` (R252): admitted or not,
and the Heat sampled after any charge (R255). `msg` says whether it counts as a message. -/
def police (p ep raw : Nat) (msg : Bool) (s : State) : Bool × Nat × State :=
  let i := subOf s false p ep
  let x := (s.dport false p).sub i
  let t := s.ns
  let ok := x.bw.lets t && x.rq.lets t
  let s := modD false p (fun d => d.modSub i fun x =>
    if ok then
      { x with bw := x.bw.charge t (raw * 256 * 8000), rq := x.rq.charge t 1000000,
               reqAdm := x.reqAdm + b2n (!msg), msgAdm := x.msgAdm + b2n msg }
    else { x with reqRef := x.reqRef + b2n (!msg), msgRef := x.msgRef + b2n msg }) s
  let h := heat s false p i
  let s := modD false p (fun d => d.modSub i fun x => { x with heatMax := max x.heatMax h }) s
  let s := count (s.port p).owner (fun c => { c with
    reqAdmitted := c.reqAdmitted + b2n ok, reqRefused := c.reqRefused + b2n (!ok), heatMax := max c.heatMax h }) s
  (ok, h, s)

/-- A frame is about to join the queue of a pair: a queue that was empty at the end of the last cycle becomes active and earns
from zero (R251); one that a frame has left in this cycle is not cleared. -/
def DPort.wake (svc i t : Nat) (d : DPort) : DPort :=
  let d := if d.q.any (·.svc == svc) || d.gone.any (·.1 == svc) then d
           else { d with svcs := d.svcs.modify svc fun v => { v with sh := v.sh.drain t } }
  if d.q.any (·.sub == i) || d.gone.any (·.2 == i) then d else d.modSub i fun x => { x with sh := x.sh.drain t }

/-- A queue that a frame has left is empty at the end of the cycle: its pair deficit is zero; with no frame of its service the
service's deficit is zero and its shaper keeps no positive balance, and with no frame of its subscriber neither does the
subscriber's (R251). -/
def DPort.emptied (t : Nat) (d : DPort) (k : Nat × Nat) : DPort :=
  let d := if d.q.any (fun f => f.svc == k.1 && f.sub == k.2) then d
    else { d with svcs := d.svcs.modify k.1 fun v => { v with pairs := v.pairs.filter (·.1 != k.2) } }
  let d := if d.q.any (·.svc == k.1) then d
    else { d with svcs := d.svcs.modify k.1 fun v => { v with deficit := 0, sh := v.sh.drain t } }
  if d.q.any (·.sub == k.2) then d else d.modSub k.2 fun x => { x with sh := x.sh.drain t }

/-- The end of a cycle judges the queues that frames have left in it (R251). -/
def DPort.cycleEnd (t : Nat) (d : DPort) : DPort :=
  if d.gone.isEmpty then d else { d.gone.foldl (DPort.emptied t) d with gone := [] }

/-- Queue a frame at a port (R246). COH frames to a peer whose agent is being reclaimed go as for an admitted one (R489). -/
def enqueue (tray : Bool) (p svc ep : Nat) (out : Out) (s : State) : State :=
  let coh := svc == 1 && !tray && s.dir.agents.any fun g => g.leaving && !g.tray && g.port == p && !g.crashed
  let i := if coh then keySub s tray p ep else subOf s tray p ep
  let svc := if i = 4095 then 7 else svc
  let enc := tray || (s.port p).sess.phase == 3
  let f : Frame := { svc := svc, sub := i, raw := rawFlits enc out.rawSlots, out := out }
  let t := s.ns
  modD tray p (fun d => { d.wake svc i t with q := d.q ++ [f] }) s

/-- Queue an SCH message: it belongs to no service (R243) and goes first (R246); it is marked with service 8, and with 4096, which
is no subscriber. -/
def enqueueSch (p : Nat) (m : PktMsg) (s : State) : State :=
  modD false p (fun d => { d with q := d.q ++ [{ svc := 8, sub := 4096, raw := 1, out := .pkt .sch m }] }) s

/-! ## Reading and writing memory -/

/-- Read `n` bytes at a module offset. -/
def memRead (s : State) (o n : Nat) : Bytes := cellsRead 0 s.mem.bytes o n

/-- Read `n` bytes as a number. -/
def memNat (s : State) (o n : Nat) : Nat := leNat (memRead s o n)

/-- The twin link that mirroring traffic takes. -/
def twinPort (s : State) : Nat := if (s.port s.twin.portA).st == .up then s.twin.portA else s.twin.portB

/-- A frame of mirroring traffic of `n` bytes (R242): extent data in BULK, other state in BKG. -/
def mirrorFrame (svc txn n : Nat) (s : State) : State := enqueue false (twinPort s) svc 0 (.mirror txn n) s

/-- Bytes that a piece of mirrored state takes on the twin link. -/
def mirrorBytes : MirrorMsg → Nat
  | .desc _ b => b.length
  | .chain _ _ b => b.length
  | .calendar b => b.length
  | .extent _ ls => 64 * ls.length
  | _ => 16

/-- The service of a mirror message (R242): extent data in BULK, other state in BKG. -/
def mirrorSvc (m : MirrorMsg) : Nat :=
  match m with
  | .data _ _ => 5
  | .extent _ _ => 5
  | _ => 6

/-- Send a mirror write to the twin (R242, R437 to R439): it stays open until its MIRROR_WRITE answer. -/
def mirrorOut (o : Nat) (d : Bytes) (s : State) : State :=
  let w := s.twin
  mirrorFrame 5 w.nextTxn d.length { s with twin := { w with open_ := w.open_ ++ [(w.nextTxn, o, d)], nextTxn := w.nextTxn + 1 } }

/-- Send another piece of mirrored state, of a partition or 16 for none (R242, R438). -/
def mirrorSend (part : Nat) (m : MirrorMsg) (s : State) : State :=
  let w := s.twin
  mirrorFrame (mirrorSvc m) w.nextTxn (mirrorBytes m) { s with twin := { w with desc := w.desc ++ [(w.nextTxn, part, m)], nextTxn := w.nextTxn + 1 } }

/-- Mirror another change of a twinned partition's state to the twin (R438). -/
def mirrorState (part : Nat) (m : MirrorMsg) (s : State) : State :=
  if s.mirrors && s.twin.primary.contains part then mirrorSend part m s else s

/-- The lines of an extent that are not all zero, by module offset. -/
def extentLines (s : State) (e : Extent) : List (Nat × Bytes) :=
  let at_ := fun (c : Host.Cell) => e.base ≤ c.1 / 2 ^ 28 && c.1 / 2 ^ 28 < e.base + e.granules
  (((s.mem.bytes.filter at_).map (·.1 / 64)).eraseDups).map fun l => (64 * l, memRead s (64 * l) 64)

/-- SYNCING copies the data of an extent whose descriptor the twin holds (R444). -/
def copyExtent (part : Nat) (e : Extent) (s : State) : State :=
  if s.mirrors && s.twin.primary.contains part then
    mirrorSend part (.extent e.base (extentLines s e)) { s with twin.copying := s.twin.copying ++ [s.twin.nextTxn] }
  else s

/-- The lines of a run of bytes. -/
def linesOf (o n : Nat) : List Nat := if n = 0 then [] else (List.range ((o + n - 1) / 64 + 1 - o / 64)).map (o / 64 + ·)

/-- Two runs of offsets share a byte. -/
def overlaps (a n b m : Nat) : Bool := decide (a < b + m) && decide (b < a + n)

/-- A write of `n` bytes touches a row's entry in either plane, or the lines at `addr` that the row occupies. -/
def touchesRow (t : Table) (row addr o n : Nat) : Bool :=
  overlaps (t.d.ritAt 0 row) 8 o n || overlaps (t.d.ritAt 1 row) 8 o n
    || overlaps addr (roundUp (rowBytes t.d.fmt t.d.elems) 64) o n

/-- Cached rows leave the caches before a write of their entries or of their lines shows (R127): an AUTO row goes, a PINNED
row loses its copy and keeps its pin (log entry 80). -/
def dropCached (o n : Nat) (s : State) : State :=
  let at_ := fun (t : Table) (r : Nat) => entAddr (leNat (cellsRead 0 s.mem.bytes (t.d.ritAt t.d.gen r) 8))
  { s with tables := s.tables.map fun t =>
      if t.auto.isEmpty && t.pinned.isEmpty then t
      else { t with auto := t.auto.filter fun x => !touchesRow t x.row x.addr o n,
                    cold := t.cold ++ t.pinned.filter fun r => !t.cold.contains r && touchesRow t r (at_ t r) o n } }

/-- A run of bytes covers a line whole. -/
def covers (o n l : Nat) : Bool := decide (o ≤ 64 * l) && decide (64 * l + 64 ≤ o + n)

/-- Writes of whole lines leave good code words, and the lines leave their channels' damaged-line tables (R172). -/
def healOn (e : Extent) (o n : Nat) (s : State) : State :=
  let s := if s.mem.weak.any (covers o n ·.1) then { s with mem.weak := s.mem.weak.filter (! covers o n ·.1) } else s
  if e.tray then s else (nookChans e.nook).foldl (fun s c =>
    let hit := fun (d : Nat) => covers o n d || (2 ^ 46 ≤ d && (linesAt s c (d - 2 ^ 46)).any (covers o n))
    if (s.chan c).damaged.any hit then modChan c (fun k => { k with damaged := k.damaged.filter (! hit ·) }) s else s) s

def healRun (o n : Nat) (s : State) : State := (anyExtent s o).elim s fun e => healOn e o n s

/-- One line is written whole, or found good. -/
def heal (l : Nat) (s : State) : State := healRun (64 * l) 64 s

/-- The place on its channel of an entry of a damaged-line table. -/
def placeOf (s : State) (l : Nat) : Option Nat :=
  if 2 ^ 46 ≤ l then some (l - 2 ^ 46) else (anyExtent s (64 * l)).map (linePos s · l)

/-- Pieces of a nook that wait to be zeroed are zeroed now: their lines are written whole, so that all are good (R26, R172). Their
old contents already read zero here. -/
def zeroPieces (n : Nat) (q : Nat → Bool) (s : State) : State :=
  let ps := (s.ten.unzeroed.filter fun x => x.1 == n && q x.2).map (·.2)
  if ps.isEmpty then s
  else
    let at_ := fun (c : Nat) (p : Option Nat) => chanNook c == n && p.elim false fun p => ps.contains (8 * (p / 2 ^ 19) + c % 8)
    let weak := s.mem.weak.filter fun w =>
      !((anyExtent s (64 * w.1)).elim false fun e => (chanOf e (64 * w.1)).elim false fun c => at_ c (some (linePos s e w.1)))
    (nookChans n).foldl (fun s c =>
      if (s.chan c).damaged.any fun l => at_ c (placeOf s l) then
        modChan c (fun k => { k with damaged := k.damaged.filter fun l => !at_ c (placeOf s l) }) s
      else s) { s with mem.weak := weak, ten.unzeroed := s.ten.unzeroed.filter fun x => !(x.1 == n && q x.2) }

/-- The first write to a region of 256 MiB not yet zeroed zeroes it whole (R26). -/
def zeroFirst (e : Extent) (o : Nat) (s : State) : State :=
  if unzeroed s e o then zeroPieces e.nook (· / 8 == linePos s e (o / 64) / 2 ^ 19) s else s

/-- Write bytes at a module offset: the region is zeroed first (R26), cached rows leave (R127), whole lines are good again
(R172); memory, the tray-pair copy (R265, R269) and the twin (R438) take them. -/
def memWrite (o : Nat) (d : Bytes) (s : State) : State :=
  let s := dropCached o d.length s
  let s := { s with mem.bytes := cellsWrite 0 s.mem.bytes o d }
  let s := healRun o d.length s
  match anyExtent s o with
  | none => s
  | some e =>
    let s := zeroFirst e o s
    let s := if e.mirror == 2 then { s with mem.mirror := cellsWrite 0 s.mem.mirror o d } else s
    if e.mirror == 1 && s.mirrors && s.twin.primary.contains e.part then mirrorOut o d s else s

/-- A channel's damaged-line table takes a line (R172); with more than 1,024 the channel is due for retirement. -/
def addDamaged (c l : Nat) (s : State) : State :=
  if (s.chan c).damaged.contains l || (anyExtent s (64 * l)).elim false (tabled s c · l) then s
  else count (s.chanOwner c) (fun t => { t with damagedNew := sat32 (t.damagedNew + 1) })
    (modChan c (fun k => { k with damaged := k.damaged ++ [l] }) s)

/-- A corrected read is counted for the channel and its owner (R171, R451, R454). -/
def corrected (c n : Nat) (s : State) : State :=
  if n = 0 then s
  else
    let sec := s.t / 1000000000
    let s := modChan c (fun k =>
      let b := k.ceBuckets.filter fun b => b.1 + 60 > sec && b.1 != sec
      { k with ce := sat32 (k.ce + n), ceBuckets := b ++ [(sec, ((k.ceBuckets.find? (·.1 == sec)).elim 0 (·.2)) + n)] }) s
    let o := s.chanOwner c
    let s := match o with
      | some p => modPart p (fun x => { x with ce := sat32 (x.ce + n) }) s
      | none => s
    count o (fun t => { t with stackCe := sat32 (t.stackCe + n) }) s

/-- A line is uncorrectable (R172): where it is mirrored it is read again from its mirror and rewritten, and leaves the
damaged-line table; otherwise it enters the table. Whether the read has the line. -/
def badRead (l : Nat) (s : State) : Bool × State :=
  match anyExtent s (64 * l) with
  | none => (false, s)
  | some e => if mirrored s e then (true, heal l s)
    else (false, match chanOf e (64 * l) with
      | some c => addDamaged c l s
      | none => s)

/-- The channel's data path reads a line (R155, R171, R172): whether it gives the line. A corrected read is counted; a line
that cannot be corrected, or stands in the damaged-line table, is read again from its mirror and rewritten, or enters the
table. -/
def readLine (l : Nat) (s : State) : Bool × State :=
  match anyExtent s (64 * l) with
  | none => (true, s)
  | some e => match chanOf e (64 * l) with
    | none => (true, s)
    | some c =>
      if unzeroed s e (64 * l) then (true, s)
      else match (s.mem.weak.find? (·.1 == l)).map (·.2), tabled s c e l with
        | none, false => (true, s)
        | some false, false => (true, corrected c 1 s)
        | _, _ => badRead l s

/-- A run of lines is read: whether the path gives them all. -/
def readLines (ls : List Nat) (s : State) : Bool × State :=
  ls.foldl (fun a l => let r := readLine l a.2; (a.1 && r.1, r.2)) (true, s)

/-- Zero the space of an extent, on a tray pair with its copy; cached rows leave (R127, R172, R276). -/
def memClear (e : Extent) (s : State) : State :=
  let o := e.base * 2 ^ 28
  let n := e.granules * 2 ^ 28
  let s := dropCached o n s
  healOn e o n { s with mem := { s.mem with bytes := cellsClear s.mem.bytes o n, mirror := cellsClear s.mem.mirror o n } }

/-! ## Answers and the way of messages (R242, R284 to R287, R493) -/

/-- HEAT of a response on a port: pinned by the draft register of R419, otherwise the sample. -/
def pinHeat (s : State) (p h : Nat) : Nat :=
  let d := (s.mantel.draft.find? (·.1 == 0x3000 + 4 * p)).elim 0 (·.2.toNat)
  if bit d 21 then bits d 20 17 else h

/-- Answer a REQ-channel request with a CMP (R297, R342, R493). -/
def sendCmp (p : Nat) (q : LineMsg) (st : Status) (grant h : Nat) (old : Option Nat) (svc : Nat) (s : State) : State :=
  let m : LineMsg := { dst := q.src, src := ownId s, txn := q.txn, heat := pinHeat s p h, status := st.code % 256,
                       grant := grant, acode := if old.isSome then 16 else 0, old := old.getD 0 }
  enqueue false p svc q.src (.line .rsp 7 m) s

/-- Send a snoop (R302). -/
def sendSnp (p dst txn opc line : Nat) (s : State) : State :=
  let m : LineMsg := { dst := dst, src := ownId s, txn := txn, addr := s.modNum * 2 ^ 52 + line * 64 }
  enqueue false p 1 dst (.line .snp opc m) s

/-- The tags of table migration and of a telemetry stream (R432). -/
def migTag : Nat := 0xFF20
def teleTag : Nat := 0xFF10

/-- The service of a MSG-channel opcode and tag (R242). -/
def msgSvc (opc tag : Nat) : Nat :=
  if opc = 4 || opc = 5 then 2 else if opc = 6 then 3 else if opc = 1 && tag = migTag then 5
  else if opc = 1 && tag = teleTag then 6 else 4

/-- The map a MSG_CMP or an answer takes: that of its EPOCH while live, otherwise the current one (R493). -/
def routeMap (s : State) (epoch : Nat) : MapV :=
  match s.maps.prev with
  | some m => if epoch = m.epoch then m else s.maps.cur
  | none => s.maps.cur

/-- The stage port of R286 for a message: none where no entry, or one with NPORTS 0, is set. -/
def routePort (s : State) (m : MapV) (src dst : Nat) : Option Nat :=
  let own := epCell dst == s.flash.prof.cell
  let d := if own then epModule dst else epCell dst
  match m.routes.find? fun r => r.own == own && r.dest == d with
  | none => none
  | some r => if r.ports.isEmpty then none else r.ports[(src ^^^ dst) % r.ports.length]?

/-- What happens to a message that leaves for its destination. -/
inductive Leave where
  | here | accel (port : Nat) | out (port : Nat) | loop | nowhere
  deriving DecidableEq, Repr

/-- Where a message goes (R284, R286, R287). -/
def leave (s : State) (map : MapV) (m : PktMsg) : Leave :=
  if namesMe s m.dst then .here
  else if namesMyAccel s m.dst then .accel (epPort m.dst)
  else match routePort s map m.src m.dst with
    | none => .nowhere
    | some p => if m.hops + 1 ≥ 16 then .loop else .out p

/-- An endpoint of this module holds an attested session with the port's partition (R396). -/
def attested (s : State) (p : Nat) : Bool := (s.port p).sess.phase == 3 && (s.port p).admitted

/-- A hop count that would reach 16 is reported to the fabric manager (R287). -/
def loopReport (m : PktMsg) (s : State) : State := event 0x0012 true [] none [m.src, m.dst] s

/-- Send a message that is not itself answered (an answer, RESULT or END downward): undeliverable, it is
discarded (R493), a loop with its event (R287). -/
def sendQuiet (vc : Vc) (svc : Nat) (m : PktMsg) (s : State) : State :=
  match leave s (routeMap s m.epoch) m with
  | .accel p => enqueue false p svc m.dst (.pkt vc m) s
  | .out p => enqueue false p svc m.dst (.pkt vc { m with hops := m.hops + 1, heat := 0 }) s
  | .loop => loopReport m s
  | _ => s

/-- The MSG_CMP of R493 that answers a message. -/
def msgCmpOf (s : State) (q : PktMsg) (st : Status) : PktMsg :=
  { dst := q.src, src := ownId s, txn := q.txn, opc := 7, status := st.code % 256, epoch := q.epoch,
    tenant := q.tenant, tag := q.tag, bytes := 0 }

/-- The Heat of an answer that a message gets at once on its port: the sample of its own subscriber, 0 across a stage link
(R255). -/
def answerHeat (s : State) (p : Nat) (q : PktMsg) : Nat :=
  if (s.port p).kind = 0 then pinHeat s p (heat s false p (subOf s false p q.src)) else 0

/-- Answer on the port the message came in, for a peer that has not been admitted or a channel the link does not
carry. The answer that crosses a stage link has its hop count raised (R287). -/
def answerOnSvc (svc p : Nat) (q : PktMsg) (st : Status) (s : State) : State :=
  let hops := if (s.port p).kind = 1 then 1 else 0
  enqueue false p svc q.src (.pkt .msg { msgCmpOf s q st with heat := answerHeat s p q, hops := hops }) s

/-- The same in the service of the message (R243). -/
def answerOn (p : Nat) (q : PktMsg) (st : Status) (s : State) : State := answerOnSvc (msgSvc q.opc q.tag) p q st s

/-- The partition a tenant tag names: the owner of the tag, none for tag 0 or no match (R285). -/
def partOfTag (s : State) (tag : Nat) : Option Nat := (s.ten.parts.find? (·.tag == tag)).map (·.id)

def tagOf (s : State) (p : Option Nat) : Nat := (p.bind s.part?).elim 0 (·.tag)

/-- A received message of `n` slots leaves the port's buffer, and the slots it would take uncoded are owed as credits
(R340, R369). -/
def consume (p : Nat) (vc : Vc) (n raw : Nat) (s : State) : State :=
  modPort p (fun x => { x with rx := x.rx.drop n, owed := x.owed.modify (vc.code - 1) (· + raw) }) s

def eatPkt (p : Nat) (vc : Vc) (m : PktMsg) : State → State :=
  consume p vc (2 + (m.body.length + 15) / 16) (2 + ((if m.flux then m.bytes else m.body.length) + 15) / 16)

def eatLine (p : Nat) (vc : Vc) (opc : Nat) : State → State :=
  consume p vc (1 + lineLen vc opc false) (1 + lineLen vc opc false)

/-! ## Trackers (R281, R282) -/

/-- Trackers a partition may hold (R281). -/
def trkShare (s : State) (p : Option Nat) : Nat :=
  match p with
  | some p => 2560 * (s.nooksOf p).length
  | none => 262144 - 2560 * (s.ten.parts.map fun x => (s.nooksOf x.id).length).sum

/-- A tracker is free for the partition. -/
def trkFree (s : State) (p : Option Nat) : Bool :=
  decide ((s.mem.trks.filter fun k => k.part == p && !k.waits).length < trkShare s p)

/-- Take a tracker; its number. -/
def takeTrk (k : Trk) (s : State) : Nat × State :=
  let id := s.mem.nextTrk
  (id, { s with mem := { s.mem with trks := s.mem.trks ++ [{ k with id := id, at_ := s.t }], nextTrk := id + 1 } })

/-- The oldest message of the module that waits for a tracker leaves, once its partition has one (R281). -/
def leaveWaiting (s : State) : State :=
  match s.mem.trks.find? fun k => k.waits && trkFree s k.part with
  | none => s
  | some k =>
    let s := { s with mem.trks := modWhere (·.id == k.id) (fun k => { k with waits := false, at_ := s.t }) s.mem.trks }
    match k.own with
    | some m => enqueue false k.port k.svc m.dst (.pkt .msg { m with hops := k.hops }) s
    | none => s

/-- A FENCE still waits: a tracker before it is held, or a chain of a POUR before it has not ended (R280). -/
def fenceOpen (s : State) (f : FenceWait) : Bool :=
  f.waits.any (fun id => s.mem.trks.any (·.id == id)) || f.chains.any (fun c => s.chains.chains.any fun x => x.cid == c && !x.ended)

/-- The FENCEs that wait for nothing any more complete (R280). -/
def fencesGo (s : State) : State :=
  (s.mem.fences.filter (! fenceOpen s ·)).foldl (fun s f => sendCmp f.port { src := f.src, txn := f.txn } .ok 0 f.heat none 0 s)
    { s with mem.fences := s.mem.fences.filter (fenceOpen s) }

/-- Free a tracker: a message that waits for one leaves, and the FENCEs that waited for it go on (R280, R281). -/
def freeTrk (id : Nat) (s : State) : State :=
  fencesGo (leaveWaiting { s with mem := { s.mem with trks := s.mem.trks.filter (·.id != id), transit := s.mem.transit.filter (· != id) } })

/-- The tracker of a MSG-channel message (R281): its source and its TXN. -/
def msgTrk (s : State) (src txn : Nat) : Option Trk := s.mem.trks.find? fun k => k.vc == .msg && k.src == src && k.txn == txn

/-- The message's tracker, if it holds one, becomes free. -/
def freeMsg (src txn : Nat) (s : State) : State := (msgTrk s src txn).elim s fun k => freeTrk k.id s

/-- Answer a message with MSG_CMP (R493); its tracker becomes free. -/
def answerMsg (q : PktMsg) (st : Status) (s : State) : State :=
  let h := (msgTrk s q.src q.txn).elim 0 fun k => pinHeat s k.port k.heat
  freeMsg q.src q.txn (sendQuiet .msg (msgSvc q.opc q.tag) { msgCmpOf s q st with heat := h } s)

/-- The in-flight count of an epoch (R272, R74): trackers, the FENCEs that wait, and chains. -/
def inFlight (s : State) (epoch : Nat) : Nat :=
  (s.mem.trks.filter (·.epoch == epoch)).length + (s.mem.fences.filter (·.epoch == epoch)).length + (s.chains.chains.filter fun c => c.epoch == epoch && c.admitted && !c.ended).length

/-! ## Mailbox jobs (R398 to R407) -/

def Mantel.blk (m : Mantel) : MbxId → MbxBlock
  | .b => m.mbxB
  | .debug => m.mbxD
  | _ => m.mbxA

def modBlk (i : MbxId) (f : MbxBlock → MbxBlock) (s : State) : State :=
  match i with
  | .a => { s with mantel.mbxA := f s.mantel.mbxA }
  | .b => { s with mantel.mbxB := f s.mantel.mbxB }
  | .debug => { s with mantel.mbxD := f s.mantel.mbxD }
  | _ => s

/-- The mailbox is one of the three with a block (R401). -/
def mbxBlocked : MbxId → Bool
  | .a => true
  | .b => true
  | .debug => true
  | _ => false

/-- The partition of a tenant mailbox. -/
def mbxTenant : MbxId → Option Nat
  | .tenant p => some p
  | _ => none

/-- Post a completion on a mailbox (R400 to R402): the block becomes DONE with the interrupt of R410 unless QUIET; a
tenant completion waits for the next multiple of 100 us (R374); MBX_TWIN answers at once. -/
def postCmpl (j : Job) (c : Cmpl) (s : State) : State :=
  match j.mbx with
  | .tenant p =>
    let at_ := roundUp s.ns 100000
    { s with mantel.posts := s.mantel.posts ++ [{ part := p, port := j.port, dst := j.src, txn := j.txn, at_ := at_, cmpl := c, cmd := j.started && !j.defer }] }
  | .twin =>
    let b := cmplBytes c ++ c.payload
    let m : PktMsg := { dst := j.src, src := ownId s, txn := j.txn, opc := 2, status := c.status % 256,
                        bytes := b.length, body := b }
    enqueue false j.port 7 j.src (.pkt .mgt m) s
  | i =>
    let s := modBlk i (fun k => { k with st := 2, cmpHdr := c, cmpLen := c.payload.length, buf := cellsWrite 0 [] 0 c.payload }) s
    if j.quiet then s
    else match i with
      | .a => raiseIrq 1 s
      | .b => raiseIrq 2 s
      | _ => s

/-- Record the completion of an accepted command for R405, and answer the resent copies that wait for it. -/
def recordLast (j : Job) (c : Cmpl) (s : State) : State :=
  let mine := fun (l : Last) => l.mbx == j.mbx && l.seq == j.seq && l.op == j.op
  let w := (s.mantel.lasts.filter mine).flatMap (·.waiters)
  let s := { s with mantel.lasts := modWhere mine (fun l => { l with cmpl := some c, waiters := [] }) s.mantel.lasts }
  w.foldl (fun s x => postCmpl { j with port := x.1, src := x.2.1, txn := x.2.2, started := false } c s) s

/-- A command ends with a status (R400). A deferred one keeps its end for COMMAND_DONE (R404); a tenant completion of
more than 1,984 payload bytes becomes BAD_DESCRIPTOR (R402). -/
def finish (id : Nat) (st : Status) (detail : Nat) (payload : Bytes) (s : State) : State :=
  match s.mantel.jobs.find? (·.id == id) with
  | none => s
  | some j =>
    if j.defer then
      { s with mantel.jobs := modWhere (·.id == id) (fun j => { j with res := some (st.code, detail, s.ns) }) s.mantel.jobs }
    else
      let big := (mbxTenant j.mbx).isSome && payload.length > 1984
      let c : Cmpl := { op := j.op, seq := j.seq, status := if big then Status.badDescriptor.code else st.code,
                        detail := if big then 0 else detail, endTime := s.ns, payload := if big then [] else payload }
      let wait := if (mbxTenant j.mbx).isSome then roundUp s.ns 100000 - s.ns else 0
      let next := modWhere (fun k => k.mbx == j.mbx && !k.started) (fun k => { k with ready := s.t + wait })
      recordLast j c (postCmpl { j with started := true } c { s with mantel.jobs := next (s.mantel.jobs.filter (·.id != id)) })

/-- End a job when there is one. -/
def finish? (id : Option Nat) (st : Status) (s : State) : State :=
  match id with
  | some i => finish i st 0 [] s
  | none => s

/-- The time is in the system's share of each 100 us (R374); outside a secure profile it always is. -/
def sysShare (s : State) : Bool := !s.flash.prof.secure || decide (96000 ≤ s.ns % 100000)

/-- The time is in a partition's 6 us window (R374); outside a secure profile it always is. -/
def inWindow (s : State) (p : Nat) : Bool :=
  !s.flash.prof.secure || (s.mantel.window == some p && s.ns % 100000 / 6000 == p)

/-- The position of a mailbox in the arbiter of R403 (log entry 2). -/
def mbxPos : MbxId → Nat
  | .a => 0
  | .b => 1
  | .debug => 2
  | .twin => 3
  | .tenant p => 4 + p

def mbxAt (k : Nat) : MbxId :=
  match k with
  | 0 => .a
  | 1 => .b
  | 2 => .debug
  | 3 => .twin
  | _ => .tenant (k - 4)

/-- The next command of a mailbox that may start (R403): the first one not started, with no earlier one of the same
mailbox that is neither completed nor deferred. A tenant's command completes at its 100 us boundary (R374). -/
def candidate (s : State) (m : MbxId) : Option Job :=
  let mine := s.mantel.jobs.filter (·.mbx == m)
  match mine.find? (! ·.started) with
  | none => none
  | some j =>
    if (mine.takeWhile (·.id != j.id)).all (·.defer) && !s.mantel.restarting
        && ((mbxTenant m).elim true fun p => inWindow s p && s.mantel.posts.all fun x => !(x.cmd && x.part == p && decide (s.ns < x.at_)))
    then some j
    else none

/-- The command that a mailbox starts now (R403): among commands that became ready in the same cycle R240 gives the order. -/
def startable (s : State) (m : MbxId) : Option Job :=
  (candidate s m).filter fun j =>
    arbWin 20 (s.mantel.mbxArb.now s.slot 20) (fun k => (candidate s (mbxAt k)).elim false (·.ready == j.ready)) == some (mbxPos m)

/-- How a command's own rules end: with a completion; waiting for a later event; or waiting for reads that it has issued, to
go on when its row runs again. -/
inductive End where
  | done (st : Status) (detail : Nat := 0) (payload : Bytes := [])
  | waits
  | again
  deriving DecidableEq, Repr

/-- A command starts. -/
def startJob (j : Job) (s : State) : State :=
  { s with mantel := { s.mantel with jobs := modWhere (·.id == j.id) (fun k => { k with started := true }) s.mantel.jobs,
                                     mbxArb := arbMove s.slot 20 (mbxPos j.mbx) } }

/-- How a command that has started goes on: it is completed, or waits. -/
def endJob (j : Job) (r : End × State) : State :=
  match r.1 with
  | .waits => r.2
  | .again => { r.2 with mantel.jobs := modWhere (·.id == j.id) (fun k => { k with started := false }) r.2.mantel.jobs }
  | .done st d p => finish j.id st d p r.2

/-- Run the next command of a mailbox when it carries this opcode; otherwise nothing happens (log entry 2). -/
def runCmd (op : Nat) (m : MbxId) (f : Job → State → End × State) (s : State) : State :=
  match startable s m with
  | none => s
  | some j =>
    if j.op ≠ op then s else endJob j (f j (startJob j s))

/-- A command whose body is a function of the payload that answers a status and perhaps changes the state. -/
def simply (f : Job → State → Status × State) (j : Job) (s : State) : End × State :=
  match f j s with
  | (st, s) => (.done st, s)

/-- A command is the manager's (R398): it came through a Chimney or debug mailbox. -/
def Job.manager (j : Job) : Bool := mbxBlocked j.mbx

/-- A status as a result that changes nothing. -/
def deny (st : Status) (s : State) : Status × State := (st, s)

/-! ## How a chain stops (R93, R95, R202) -/

/-- The token of a stage's own directory requests (R292). -/
def stageTok (cid i : Nat) : Nat := 16 * cid + i

/-- The token of the directory requests for one row of a look-up (R116, R292). -/
def rowTok (cid i r : Nat) : Nat := 2 ^ 56 + (16 * cid + i) * 2 ^ 17 + r

/-- The token of a stage's own directory writes, and that of the reads for a chain's lost-index bitmap. -/
def writeTok (cid i : Nat) : Nat := 2 ^ 60 + 16 * cid + i
def lostTok (cid : Nat) : Nat := 2 ^ 61 + cid

/-- The token is that of a stage, a row or the bitmap of the chain. -/
def chainTok (cid tok : Nat) : Bool :=
  if tok < 2 ^ 56 then tok / 16 == cid
  else if tok < 2 ^ 60 then (tok - 2 ^ 56) / 2 ^ 21 == cid
  else if tok < 2 ^ 61 then (tok - 2 ^ 60) / 16 == cid
  else tok == lostTok cid

/-- The status that a chain's own writes came to first, with the stage (R95). -/
def engFail (s : State) (c : Chain) : Option (Status × Nat) :=
  s.dir.eng.findSome? fun r =>
    if r.st == .ok then none
    else ((List.range c.descs.length).find? fun i => r.tok == writeTok c.cid i).map fun i => (r.st, i)

/-- A chain leaves the channels: its strokes not yet started go, and its leaves free their accumulators. -/
def leaveChans (cid : Nat) (s : State) : State :=
  let mine := fun (x : Stroke) => x.kind != .atomic && x.cid == cid
  if s.chans.any fun k => (k.strokes ++ k.held).any mine || k.leaves.any (·.cid == cid) then
    { s with chans := s.chans.map fun k => { k with
        strokes := k.strokes.filter (! mine ·), held := k.held.filter (! mine ·), leaves := k.leaves.filter (·.cid != cid),
        leafUsed := k.leafUsed - ((k.leaves.filter fun l => l.cid == cid && l.taken && !l.sent).map (·.accs)).sum } }
  else s

/-- Threads and melt sets that meet a test become free. -/
def freeUnits (q : Nat → Nat → Bool) (s : State) : State :=
  { s with chains := { s.chains with threads := s.chains.threads.filter fun t => !q t.cid t.stage,
                                     sets := s.chains.sets.filter fun m => !q m.cid m.stage } }

/-- A PARTIAL, RESULT or END of an instance: group and number (R192). -/
def ofInst (i : Inst) (m : PktMsg) : Bool := m.opc == 6 && fldLE m.body 14 2 == i.group && fldLE m.body 10 4 == i.inst

/-- The messages of a stopped chain's instances that still wait at the ports, or for a tracker, are not sent (R202). -/
def dropColl (cid : Nat) (s : State) : State :=
  let is := s.groups.insts.filter (·.cid == cid)
  if is.isEmpty then s
  else
    let mine := fun (m : PktMsg) => m.src == ownId s && is.any fun i => m.tenant == tagOf s (some i.part) && ofInst i m
    let gone := fun (f : Frame) => match f.out with
      | .pkt .msg m => mine m
      | _ => false
    { s with dsax := s.dsax.map fun d => { d with q := d.q.filter (! gone ·) },
             mem.trks := s.mem.trks.filter fun k => !(k.waits && k.own.elim false mine) }

/-- An aborting status, the first of the chain, stops its stages (R93, R95): one that an access of the chain came to before counts
first. Its threads and melt sets are free, its look-ups leave their counters (R147), and its accesses that still wait are not made. -/
def halt (cid : Nat) (st : Status) (stage : Nat) (s : State) : State :=
  match s.chains.chains.find? (·.cid == cid) with
  | none => s
  | some c =>
    if c.status.isSome || c.ended then s
    else
      let end_ := (engFail s c).getD (st, stage)
      let s := leaveChans cid { s with
        chains.chains := modWhere (·.cid == cid) (fun c => { c with status := some end_, unmarked := [] }) s.chains.chains
        tables := s.tables.map fun t => { t with inflight := t.inflight.filter (·.1 / 16 != cid) }
        dir.waitq := s.dir.waitq.filter fun q => match q.src with
          | .engine tok => !chainTok cid tok
          | _ => true }
      dropColl cid (freeUnits (fun x _ => x == cid) s)

/-- A data fault touches a partition (R463): it is recovering from now; when it already was, the partition is
quiesced, its chains stop under DOUBLE_FAULT (R93), FAULT_CAUSE [4] is set and DOUBLE_FAULT is raised. In a quiesced partition
recoveries run one at a time (R464). -/
def dataFault (p code unit : Nat) (s : State) : State :=
  match s.part? p with
  | none => s
  | some x =>
    let busy := x.recs.any (! ·.ended)
    let r : Recovery := { code := code, at_ := s.t, running := ! (busy && (x.dfault || busy)), unit := unit }
    let s := modPart p (fun x => { x with recs := x.recs.filter (! ·.ended) ++ [r], dfault := x.dfault || busy,
                                          quiesced := x.quiesced || busy }) s
    if busy && !x.dfault then
      let s := (s.chains.chains.filter (·.part == p)).foldl (fun s c => halt c.cid .doubleFault 0 s) s
      eventMO 0x0036 (some p) [unit] (setCause 16 s)
    else s

/-- A fault touches several partitions. -/
def dataFaults (ps : List Nat) (code unit : Nat) (s : State) : State := ps.foldl (fun s p => dataFault p code unit s) s

end Sys2Proof.Machine
end

