-- ==== Sys2Proof/Machine/CalImage.lean ====
section
/-! DEFINITION. Reading a calendar bank (R227 to R229): index, events, gates and their closes (R231, R233, R234). -/

namespace Sys2Proof.Machine

/-- An event entry of R228 at its position. -/
structure CalEv where
  e : Nat := 0
  pos : Nat := 0
  arg : Nat := 0
  target : Nat := 0
  svc : Nat := 0
  offset : Nat := 0
  kind : Nat := 0
  rsv : Bool := false
  deriving DecidableEq, Repr, Inhabited

/-- The image of a bank (R227). -/
def bankImg (c : Calendar) (second : Bool) : List Host.Cell := if second then c.bank1 else c.bank0

def activeImg (c : Calendar) : List Host.Cell := bankImg c c.active1
def shadowImg (c : Calendar) : List Host.Cell := bankImg c (!c.active1)

/-- Slot-index entry of a position: NUM and FIRST (R228). -/
def idxNum (img : List Host.Cell) (p : Nat) : Nat := bits (leNat (cellsRead 0 img (4 * p) 4)) 31 18
def idxFirst (img : List Host.Cell) (p : Nat) : Nat := bits (leNat (cellsRead 0 img (4 * p) 4)) 17 0

/-- Event entry `e` at position `p` (R228). -/
def evAt (img : List Host.Cell) (p e : Nat) : CalEv :=
  let x := leNat (cellsRead 0 img (262144 + 16 * e) 16)
  { e := e, pos := p, arg := bits x 127 64, target := bits x 63 48, svc := bits x 47 40, offset := bits x 12 8,
    kind := bits x 3 0, rsv := bits x 39 13 != 0 || bits x 7 4 != 0 }

def CalHdr.period (h : CalHdr) : Nat := h.periodM1 + 1

/-- The events of a position, in entry order. -/
def evsOf (img : List Host.Cell) (p : Nat) : List CalEv :=
  (List.range (idxNum img p)).map fun i => evAt img p (idxFirst img p + i)

/-- Every event of a calendar, in position order. -/
def evsAll (img : List Host.Cell) (h : CalHdr) : List CalEv := (List.range h.period).flatMap (evsOf img)

/-- The position at a global slot (R227). -/
def posAt (h : CalHdr) (slot : Nat) : Nat := ((slot : Int) - h.startSlot).emod h.period |>.toNat

/-- A gate event, and its port and services (R229). -/
def CalEv.isGate (v : CalEv) : Bool := v.kind ≤ 1
def CalEv.onTray (v : CalEv) : Bool := bit v.target 15
def CalEv.gates (v : CalEv) (tray : Bool) (port svc : Nat) : Bool :=
  v.isGate && v.onTray == tray && bits v.target 7 0 == port && bit v.svc svc

/-- Time of an event in its period, ns (R232). -/
def CalEv.time (v : CalEv) : Nat := v.pos * 256 + v.offset * 8

/-- The gate events of a port and service, in time order. -/
def gateEvs (img : List Host.Cell) (h : CalHdr) (tray : Bool) (port svc : Nat) : List CalEv :=
  (evsAll img h).filter fun v => v.gates tray port svc

/-- The state a calendar gives a gate at a position: its last event at or before it, around the period (R231). -/
def gateAt (evs : List CalEv) (tau : Nat) : Option CalEv :=
  match (evs.filter fun v => v.time ≤ tau).getLast? with
  | some v => some v
  | none => evs.getLast?

/-- Every gate of a calendar with its state at a position, offset-0 events included. -/
def gatesAt (img : List Host.Cell) (h : CalHdr) (pos : Nat) : List Gate :=
  let evs := (evsAll img h).filter (·.isGate)
  let keys := (evs.flatMap fun v => ((List.range 8).filter (bit v.svc)).map fun k => (v.onTray, bits v.target 7 0, k)).eraseDups
  keys.map fun k =>
    let mine := evs.filter fun v => v.gates k.1 k.2.1 k.2.2
    match gateAt mine (pos * 256) with
    | some v => { tray := k.1, port := k.2.1, svc := k.2.2, open_ := v.kind == 0, maxFrame := if v.kind = 0 then bits v.arg 4 0 else 1 }
    | none => { tray := k.1, port := k.2.1, svc := k.2.2 }

/-- The closes of a gate under a calendar, each at its first time not before instant `at_`, which lies at position time `tau`. -/
def closesFrom (img : List Host.Cell) (h : CalHdr) (tray : Bool) (port svc at_ tau : Nat) : List Nat :=
  ((gateEvs img h tray port svc).filter (·.kind == 1)).map fun v =>
    at_ + (if tau ≤ v.time then v.time - tau else v.time + h.period * 256 - tau)

/-- The instant of the next close of a gate, in Ember ns (R233): of the running calendar before an armed swap or a pending stop, which
drop what comes later (R238, R239); the swap where it closes the gate; and of the armed calendar from the swap on. -/
def nextClose (s : State) (tray : Bool) (port svc : Nat) : Option Nat :=
  let h := s.cal.hdr
  let limit := [s.cal.armed.map (·.swapSlot), s.cal.stopAt].filterMap fun x => x.map (256 * ·)
  let olds := if !s.cal.running then []
    else (closesFrom (activeImg s.cal) h tray port svc s.ns (posAt h s.slot * 256 + s.ns % 256)).filter fun t => limit.all (t < ·)
  let news := match s.cal.armed with
    | none => []
    | some a =>
      let tau := posAt a a.swapSlot * 256
      let shut := (gateAt (gateEvs (shadowImg s.cal) a tray port svc) tau).elim false (·.kind != 0)
      (if shut then [a.swapSlot * 256] else []) ++ closesFrom (shadowImg s.cal) a tray port svc (a.swapSlot * 256) tau
  (olds ++ news).min?

/-- Flit time of a port in 1/100 ns times its lanes, and the lanes (Time gates). -/
def flitTime (s : State) (tray : Bool) (port : Nat) : Nat × Nat :=
  if tray then (if (s.tray port).x8 then 400 else 200, 1)
  else
    let p := s.port port
    ((if p.rate = 0 then 512 else if p.rate = 1 then 1024 else 2048), max 1 p.lanes.length)

/-- A frame of `raw` flits that starts now ends at or before the next close (R233). -/
def mayStart (s : State) (tray : Bool) (port svc raw : Nat) : Bool :=
  match nextClose s tray port svc with
  | none => true
  | some t => let f := flitTime s tray port; decide (65536 * (raw * f.1) + s.frac * 100 * f.2 ≤ 65536 * (t - s.ns) * 100 * f.2)

/-- The guard band in ns (R234). -/
def guardBand (s : State) (tray : Bool) (port maxFrame : Nat) : Nat :=
  let f := flitTime s tray port
  roundUp ((maxFrame * f.1 + 100 * f.2 - 1) / (100 * f.2)) 8

/-! ## Refresh windows (R164, R235, R238, R239) -/

/-- The channel is in scheduled mode. -/
def scheduled (s : State) (c : Nat) : Bool := s.cal.running && s.cal.scheduled.contains c

/-- An event of a kind names the channel. -/
def CalEv.onChan (v : CalEv) (kind c : Nat) : Bool := v.kind == kind && v.target == c / 32 && bit v.arg (c % 32)

/-- The calendar that will be in force at a slot: the running one, until the armed one's swap or a stop that comes before (R238). -/
def calFor (s : State) (slot : Nat) : Option (List Host.Cell × CalHdr) :=
  let cur := if s.cal.running then some (activeImg s.cal, s.cal.hdr) else none
  match s.cal.armed.filter (·.swapSlot ≤ slot), s.cal.stopAt.filter (· ≤ slot) with
  | none, none => cur
  | none, some _ => none
  | some a, none => some (shadowImg s.cal, a)
  | some a, some b => if b ≤ a.swapSlot then some (shadowImg s.cal, a) else none

/-- A refresh window of the channel begins at a slot. -/
def windowAt (s : State) (c slot : Nat) : Bool :=
  (calFor s slot).elim false fun x => (evsOf x.1 (posAt x.2 slot)).any (·.onChan 4 c)

/-- A refresh window of the channel is open: it holds the refresh and nothing else (R164). -/
def windowOpen (s : State) (c : Nat) : Bool := (s.chan c).winRef.elim false fun w => decide (s.t < w + 512)

/-- A stroke that starts now ends at or before the next refresh window of its channel, and none is open (R164). -/
def beforeWindow (s : State) (c : Nat) : Bool :=
  !windowOpen s c && ([s.slot - 1, s.slot, s.slot + 1, s.slot + 2, s.slot + 3].all fun k =>
    decide (s.ns + 600 ≤ 256 * k) || decide (256 * k + 512 ≤ s.ns) || !windowAt s c k)

/-- The delay of DRAFT_STROKE on a channel (R162, R418). -/
def strokeDelay (s : State) (c : Nat) : Nat :=
  let r := fun (o : Nat) => (s.mantel.draft.find? (·.1 == o)).elim 0 (·.2.toNat)
  if bit (r 0x3508) (c / 32) then bits (r 0x3504) 15 0 else 0

/-! ## Late and missed actions (R241) -/

/-- The action of the running calendar at a global slot. -/
def actAt (s : State) (slot : Nat) : CalAct := { due := 256 * slot, calId := s.cal.hdr.calId, pos := posAt s.cal.hdr slot }

/-- What an event about an action carries: CAL_ID and position when it fell due, kind, target and delay in ns. -/
def lateDetail (a : CalAct) (kind target delay : Nat) : List Nat := [a.calId, a.pos, kind, target, delay]

/-- A late action is counted and reported with its delay. -/
def lateAction (owner : Option Nat) (kind target delay : Nat) (a : CalAct) (s : State) : State :=
  eventMO 0x0003 owner (lateDetail a kind target delay)
    (count owner (fun t => { t with lateActions := sat32 (t.lateActions + 1) }) { s with cal.late := s.cal.late + 1 })

/-- A missed action is counted and reported. -/
def missedAction (owner : Option Nat) (kind target : Nat) (a : CalAct) (s : State) : State :=
  eventMO 0x0004 owner (lateDetail a kind target (s.ns - a.due))
    (count owner (fun t => { t with lateActions := sat32 (t.lateActions + 1) }) { s with cal.late := s.cal.late + 1 })

end Sys2Proof.Machine
end

