-- ==== Sys2Proof/Machine/Arith.lean ====
section
/-! DEFINITION. Element formats, rounding, the melt register, EXACT and ORDERED arithmetic, W128 (R38 to R60). -/

namespace Sys2Proof.Machine

/-! ## Formats (R38, R39) -/

/-- A floating-point value: NaN, an infinity, or sign, significand and exponent (value m x 2^e). -/
inductive Num where
  | nan
  | inf (neg : Bool)
  | fin (neg : Bool) (m : Nat) (e : Int)
  deriving DecidableEq, Repr, Inhabited

/-- Parameters of R39. -/
structure Fp where
  eb : Nat
  fb : Nat
  bias : Nat
  e4m3 : Bool := false
  deriving DecidableEq, Repr

def fp32 : Fp := { eb := 8, fb := 23, bias := 127 }
def bf16 : Fp := { eb := 8, fb := 7, bias := 127 }
def fp16 : Fp := { eb := 5, fb := 10, bias := 15 }
def fe4m3 : Fp := { eb := 4, fb := 3, bias := 7, e4m3 := true }
def fe5m2 : Fp := { eb := 5, fb := 2, bias := 15 }

/-- The floating-point format of a code of R38. -/
def fpOf (code : Nat) : Option Fp :=
  match code with
  | 0 => some fp32
  | 1 => some bf16
  | 2 => some fp16
  | 3 => some fe4m3
  | 4 => some fe5m2
  | _ => none

def Fp.width (f : Fp) : Nat := 1 + f.eb + f.fb

/-- The value of an encoding (R39). -/
def Fp.dec (f : Fp) (x : Nat) : Num :=
  let neg := bit x (f.eb + f.fb)
  let e := bits x (f.eb + f.fb - 1) f.fb
  let m := x % 2 ^ f.fb
  if f.e4m3 && x % 128 == 127 then .nan
  else if !f.e4m3 && e == 2 ^ f.eb - 1 then (if m = 0 then .inf neg else .nan)
  else if e = 0 then .fin neg m (1 - (f.bias : Int) - f.fb)
  else .fin neg (m + 2 ^ f.fb) ((e : Int) - f.bias - f.fb)

/-- The canonical quiet NaN (R39). -/
def Fp.qnan (f : Fp) : Nat := if f.e4m3 then 0x7F else (2 ^ f.eb - 1) * 2 ^ f.fb + 2 ^ (f.fb - 1)

/-- An infinity; E4M3 has none and takes its NaN (R51). -/
def Fp.infBits (f : Fp) (neg : Bool) : Nat :=
  if f.e4m3 then 0x7F else b2n neg * 2 ^ (f.eb + f.fb) + (2 ^ f.eb - 1) * 2 ^ f.fb

/-- The largest finite magnitude's encoding. -/
def Fp.maxBits (f : Fp) : Nat := if f.e4m3 then 0x7E else (2 ^ f.eb - 1) * 2 ^ f.fb - 1

/-- Exponent of the highest bit of a/b, both positive. -/
def ratLog (a b : Nat) : Int :=
  let l : Int := (Nat.log2 a : Int) - Nat.log2 b
  let ge : Bool := if 0 ≤ l then decide (b * 2 ^ l.toNat ≤ a) else decide (b ≤ a * 2 ^ (-l).toNat)
  if ge then l else l - 1

/-- a/b divided by 2^u, rounded to an integer: toward zero or to nearest even. -/
def roundInt (rtz : Bool) (a b : Nat) (u : Int) : Nat :=
  let n := if 0 ≤ u then a else a * 2 ^ (-u).toNat
  let d := if 0 ≤ u then b * 2 ^ u.toNat else b
  let q := n / d
  let r := n % d
  if rtz || 2 * r < d || (2 * r == d && q % 2 == 0) then q else q + 1

/-- Round the positive rational a/b with a sign to a format: gradual underflow, or flush of subnormals (R54); overflow
to infinity under RNE and to the largest finite number under RTZ (R49), saturation in E4M3 (R51). -/
def Fp.round (f : Fp) (rtz flush neg : Bool) (a b : Nat) : Nat :=
  let s := b2n neg * 2 ^ (f.eb + f.fb)
  if a = 0 then s
  else
    let emin : Int := 1 - f.bias
    let e := max (ratLog a b) emin
    let q := roundInt rtz a b (e - f.fb)
    let enc := if q < 2 ^ f.fb then q else ((e + f.bias).toNat - 1) * 2 ^ f.fb + q
    if f.maxBits < enc then (if rtz || f.e4m3 then s + f.maxBits else f.infBits neg)
    else if flush && enc < 2 ^ f.fb then s
    else s + enc

/-- Round a value to a format. -/
def Fp.enc (f : Fp) (rtz flush : Bool) (x : Num) : Nat :=
  match x with
  | .nan => f.qnan
  | .inf neg => f.infBits neg
  | .fin neg m e => if 0 ≤ e then f.round rtz flush neg (m * 2 ^ e.toNat) 1 else f.round rtz flush neg m (2 ^ (-e).toNat)

/-- An input below its format's smallest normal reads as zero of its sign (R54). -/
def Fp.flush (f : Fp) (x : Num) : Num :=
  match x with
  | .fin neg m e => if m < 2 ^ f.fb then .fin neg 0 e else .fin neg m e
  | y => y

/-! ## Exact operations on values -/

def Num.neg : Num → Bool
  | .nan => false
  | .inf n => n
  | .fin n _ _ => n

def Num.isZero : Num → Bool
  | .fin _ m _ => m == 0
  | _ => false

def Num.isNan : Num → Bool
  | .nan => true
  | _ => false

def Num.isInf : Num → Bool
  | .inf _ => true
  | _ => false

/-- The product; an infinity times zero is NaN (R46). -/
def Num.mul (x y : Num) : Num :=
  match x, y with
  | .nan, _ => .nan
  | _, .nan => .nan
  | .inf a, .inf b => .inf (a != b)
  | .inf a, .fin b m _ => if m = 0 then .nan else .inf (a != b)
  | .fin a m _, .inf b => if m = 0 then .nan else .inf (a != b)
  | .fin a m e, .fin b n f => .fin (a != b) (m * n) (e + f)

def Num.int (neg : Bool) (m : Nat) : Int := if neg then -(m : Int) else m

/-- The sum; an exact zero of two unlike values is +0. -/
def Num.add (x y : Num) : Num :=
  match x, y with
  | .nan, _ => .nan
  | _, .nan => .nan
  | .inf a, .inf b => if a = b then .inf a else .nan
  | .inf a, _ => .inf a
  | _, .inf b => .inf b
  | .fin a m e, .fin b n f =>
    let k := min e f
    let v := Num.int a (m * 2 ^ (e - k).toNat) + Num.int b (n * 2 ^ (f - k).toNat)
    if v = 0 then .fin (a && b && m == 0 && n == 0) 0 k else .fin (decide (v < 0)) v.natAbs k

def Num.ofInt (i : Int) : Num := .fin (decide (i < 0)) i.natAbs 0

def Num.negate : Num → Num
  | .nan => .nan
  | .inf n => .inf (!n)
  | .fin n m e => .fin (!n) m e

/-- Order of two values that are not NaN; zeros of both signs are equal. -/
def Num.lt (x y : Num) : Bool :=
  match x, y with
  | .nan, _ => false
  | _, .nan => false
  | .inf a, .inf b => a && !b
  | .inf a, _ => a
  | _, .inf b => !b
  | .fin a m e, .fin b n f =>
    let k := min e f
    decide (Num.int a (m * 2 ^ (e - k).toNat) < Num.int b (n * 2 ^ (f - k).toNat))

/-! ## FP32 steps -/

/-- FP32 rounding of a value to nearest even. -/
def rne32 (flush : Bool) (x : Num) : Num :=
  let y := fp32.dec (fp32.enc false flush x)
  y

/-- FMA with one rounding, subnormals flushed (R53, R54). -/
def fma (a b c : Num) : Num := rne32 true (Num.add (Num.mul a b) c)

/-- The quotient of two values rounded to FP32. -/
def fdiv (flush : Bool) (x y : Num) : Num :=
  match x, y with
  | .nan, _ => .nan
  | _, .nan => .nan
  | .inf _, .inf _ => .nan
  | .inf a, z => .inf (a != z.neg)
  | .fin a _ _, .inf b => .fin (a != b) 0 0
  | .fin a m e, .fin b n f =>
    if n = 0 then (if m = 0 then .nan else .inf (a != b))
    else
      let k := e - f
      let num := if 0 ≤ k then m * 2 ^ k.toNat else m
      let den := if 0 ≤ k then n else n * 2 ^ (-k).toNat
      fp32.dec (fp32.round false flush (a != b) num den)

/-- The square root rounded to FP32: 64 extra bits and a sticky bit decide the rounding. -/
def fsqrt (flush : Bool) (x : Num) : Num :=
  match x with
  | .nan => .nan
  | .inf n => if n then .nan else .inf false
  | .fin n m e =>
    if m = 0 then .fin n 0 e
    else if n then .nan
    else
      let e2 : Int := if e % 2 = 0 then e - 128 else e - 129
      let v := m * 2 ^ (e - e2).toNat
      let r := Nat.sqrt v
      let r2 := if r * r = v then 2 * r else 2 * r + 1
      rne32 flush (.fin false r2 (e2 / 2 - 1))

/-- FP32 addition of ADD_FP32 (R179): subnormals kept, any NaN the canonical one. -/
def fadd32 (a b : Nat) : Nat := fp32.enc false false (Num.add (fp32.dec a) (fp32.dec b))

/-! ## Rows (R40, R41, R100) -/

/-- Scale and offset of a Q8 or Q4 row. -/
def qScale (row : Bytes) : Num := bf16.dec (fldLE row 0 2)
def qOffset (row : Bytes) : Num := bf16.dec (fldLE row 2 2)

/-- The integer code of element `j` of a Q8, Q4 or INT8 row. -/
def qCode (fmt : Nat) (row : Bytes) (j : Nat) : Int :=
  if fmt = 6 then
    let b := (row.getD (4 + j / 2) 0).toNat
    signed 4 (if j % 2 = 0 then b % 16 else b / 16)
  else if fmt = 5 then signed 8 (row.getD (4 + j) 0).toNat
  else signed 8 (row.getD j 0).toNat

/-- The floating-point element `j` of a row. -/
def fpElem (fmt : Nat) (row : Bytes) (j : Nat) : Num :=
  match fpOf fmt with
  | some f => f.dec (fldLE row (j * (f.width / 8)) (f.width / 8))
  | none => .nan

/-- scale x code + offset as an exact value (R41). -/
def qValue (scale offset : Num) (c : Int) : Num := Num.add (Num.mul scale (Num.ofInt c)) offset

/-- The exact value of element `j` (R41). -/
def elemValue (fmt : Nat) (row : Bytes) (j : Nat) : Num :=
  if fmt = 5 || fmt = 6 then qValue (qScale row) (qOffset row) (qCode fmt row j)
  else if fmt = 7 then Num.ofInt (qCode 7 row j)
  else fpElem fmt row j

/-- Element `j` as ORDERED mode reads it (R53, R54). -/
def elemOrdered (fmt : Nat) (row : Bytes) (j : Nat) : Num :=
  if fmt = 5 || fmt = 6 then fma (bf16.flush (qScale row)) (Num.ofInt (qCode fmt row j)) (bf16.flush (qOffset row))
  else if fmt = 7 then Num.ofInt (qCode 7 row j)
  else match fpOf fmt with
    | some f => f.flush (fpElem fmt row j)
    | none => .nan

/-! ## The melt register (R42 to R47) -/

/-- One in the register's units. -/
def meltOne : Int := 2 ^ 300

/-- A finite value in units of 2^-300; every term of R43 is a whole number of them. -/
def meltUnits (neg : Bool) (m : Nat) (e : Int) : Int :=
  let k := e + 300
  Num.int neg (if 0 ≤ k then m * 2 ^ k.toNat else m / 2 ^ (-k).toNat)

/-- Enter a term (R43, R46). A product of two FP32 factors has at most 48 significand bits, so R44 leaves it as it is. -/
def Melt.enter (r : Melt) (x : Num) : Melt :=
  match x with
  | .nan => { r with nan := true }
  | .inf neg => if neg then { r with ninf := true } else { r with pinf := true }
  | .fin neg m e => { r with v := r.v + meltUnits neg m e }

/-- A lane cycle: product term and row-constant term, one count (R45); none when the counter would pass 2^40. -/
def Melt.cycle (r : Melt) (p c : Num) : Option Melt :=
  if 2 ^ 40 ≤ r.n then none else some { (r.enter p).enter c with n := r.n + 1 }

/-- The terms of element `j` of a row under a weight (R43). -/
def exactTerms (fmt : Nat) (w : Num) (row : Bytes) (j : Nat) : Num × Num :=
  if fmt = 5 || fmt = 6 then
    (Num.mul (Num.mul w (qScale row)) (Num.ofInt (qCode fmt row j)), Num.mul w (qOffset row))
  else (Num.mul w (elemValue fmt row j), .fin false 0 0)

/-- The bound 2^304 of R46, in units. -/
def meltBound : Int := 2 ^ 604

/-- Adding a value would reach 2^304 (R46). -/
def Melt.overflows (r : Melt) (v : Int) : Bool := decide (meltBound.natAbs ≤ (r.v + v).natAbs)

/-- A malformed partial (R46, R59): it is not added, raises no counter and sets NaN seen; the flag asks for the
malformed-partial event (log entry 75). -/
def Melt.malformed (r : Melt) : Melt × Bool := ({ r with nan := true }, true)

/-- The exact value that a register holds, by the first three rules of R49. -/
def Melt.value (r : Melt) : Num :=
  if r.nan || (r.pinf && r.ninf) then .nan
  else if r.pinf then .inf false
  else if r.ninf then .inf true
  else .fin (decide (r.v < 0)) r.v.natAbs (-300)

/-- A melt image (R47). -/
def Melt.image (r : Melt) : Bytes :=
  toLE 80 (unsigned 640 r.v) ++ toLE 1 (b2n r.pinf + 2 * b2n r.ninf + 4 * b2n r.nan) ++ toLE 6 r.n ++ List.replicate 9 0

/-- A melt image read back (R47). DESIGN CHOICE (log entry 95): its reserved bits are ignored as it is read. -/
def Melt.ofImage (b : Bytes) : Melt :=
  let f := fldLE b 80 1
  { v := signed 640 (fldLE b 0 80), pinf := bit f 0, ninf := bit f 1, nan := bit f 2, n := fldLE b 81 6 % 2 ^ 41 }

/-- Add a melt image (R46, R47); none when the counters together would pass 2^40 (R45). -/
def Melt.addImage (r x : Melt) : Option (Melt × Bool) :=
  if r.overflows x.v then some r.malformed
  else if 2 ^ 40 < r.n + x.n then none
  else some ({ v := r.v + x.v, pinf := r.pinf || x.pinf, ninf := r.ninf || x.ninf, nan := r.nan || x.nan, n := r.n + x.n }, false)

/-- Read a melt register divided by `n` as FP32, BF16 or FP16 (R49, R50). -/
def Melt.read (r : Melt) (f : Fp) (rtz : Bool) (n : Nat) : Nat :=
  if r.nan || (r.pinf && r.ninf) then f.qnan
  else if r.pinf then f.infBits false
  else if r.ninf then f.infBits true
  else if r.v = 0 then 0
  else f.round rtz false (decide (r.v < 0)) r.v.natAbs (2 ^ 300 * max 1 n)

/-! ## W128 (R57 to R59) -/

/-- Convert a melt register to W128, rounding to odd (R58). -/
def Melt.w128 (r : Melt) : Nat :=
  if r.pinf || r.ninf || r.nan then 0x1FF * 2 ^ 118 + b2n r.pinf + 2 * b2n r.ninf + 4 * b2n r.nan
  else if r.v = 0 then 0
  else
    let a := r.v.natAbs
    let e := Nat.log2 a - 117
    let m := a / 2 ^ e
    let m := if a % 2 ^ e = 0 then m else m ||| 1
    b2n (decide (r.v < 0)) * 2 ^ 127 + e * 2 ^ 118 + m

/-- Add a W128 word (R45, R59): the register and whether the word was malformed; none when the counter would pass 2^40. -/
def Melt.addW128 (r : Melt) (x : Nat) : Option (Melt × Bool) :=
  let e := bits x 126 118
  let m := x % 2 ^ 118
  let v := Num.int (bit x 127) (m * 2 ^ e)
  if e = 0x1FF then
    if bit x 127 || m / 8 ≠ 0 then some r.malformed
    else if 2 ^ 40 ≤ r.n then none
    else some ({ r with pinf := r.pinf || bit m 0, ninf := r.ninf || bit m 1, nan := r.nan || bit m 2, n := r.n + 1 }, false)
  else if 2 ^ 604 ≤ m * 2 ^ e || r.overflows v then some r.malformed
  else if 2 ^ 40 ≤ r.n then none
  else some ({ r with v := r.v + v, n := r.n + 1 }, false)

/-! ## Checks (R170, R227, R336) -/

/-- One step of a CRC of width `w`, most significant bit first: bit `b` enters. -/
def crcBit (w poly : Nat) (c : Nat) (b : Bool) : Nat :=
  let top := bit c (w - 1) != b
  let c := c * 2 % 2 ^ w
  if top then c ^^^ poly else c

/-- A CRC over bytes, unreflected. -/
def crcMsb (w poly : Nat) (init : Nat) (d : Bytes) : Nat :=
  d.foldl (fun c x => (List.range 8).foldl (fun c i => crcBit w poly c (bit x.toNat (7 - i))) c) init

/-- The line tag of R170. -/
def lineTag (o : Nat) (d : Bytes) : Nat := crcMsb 16 0x8BB7 0 (toLE 6 (o / 64 % 2 ^ 46) ++ d)

/-- The CRC-64 of R336. -/
def crc64 (d : Bytes) : Nat := crcMsb 64 0x42F0E1EBA9EA3693 0 d

/-- The CRC-32 of IEEE 802.3: reflected, initial value and final XOR all ones. -/
def crc32 (d : Bytes) : Nat :=
  (d.foldl (fun c x =>
    (List.range 8).foldl (fun c _ => if c % 2 = 1 then (c / 2) ^^^ 0xEDB88320 else c / 2) (c ^^^ x.toNat)) 0xFFFFFFFF) ^^^ 0xFFFFFFFF

end Sys2Proof.Machine
end

