-- ==== Sys2Proof/Machine/Mailbox.lean ====
section
/-! DEFINITION. Mailboxes, the register window, Chimney frames and interrupts (R353 to R355, R398 to R413, R418). -/

namespace Sys2Proof.Machine

/-! ## Accepting a command (R398, R402 to R407) -/

/-- Opcodes that need a service of READY_FULL (R422): twin pairing, calendars, Bellows and the Ash tier. -/
def needsFull (op : Nat) : Bool := op ∈ [0x0204, 0x0205, 0x0207, 0x0706, 0x0A01, 0x0A02, 0x0A03, 0x0A04, 0x0A05, 0x0A06, 0x0A07, 0x0A08, 0x0A09]

/-- The mailbox accepts the opcode (R398). -/
def mbxAccepts (s : State) (m : MbxId) (op : Nat) (i : OpInfo) : Bool :=
  match m with
  | .a => !i.only && (i.n || !s.mantel.masterB)
  | .b => !i.only && (i.n || s.mantel.masterB)
  | .debug => !i.only
  | .twin => op ∈ [0x0204, 0x0205, 0x0206, 0x0207]
  | .tenant _ => i.t

/-- The deferral table is full (R404). -/
def deferFull (s : State) (m : MbxId) : Bool :=
  let d := s.mantel.jobs.filter (·.defer)
  match m with
  | .tenant p => 16 ≤ (d.filter (·.mbx == .tenant p)).length
  | _ => 256 ≤ (d.filter fun j => mbxBlocked j.mbx).length

/-- The tenant mailbox holds 16 commands not yet completed (R402). -/
def tenantFull (s : State) (m : MbxId) : Bool :=
  match m with
  | .tenant p => 16 ≤ (s.mantel.jobs.filter fun j => j.mbx == m && !j.defer).length
      + (s.mantel.posts.filter fun x => x.cmd && x.part == p && decide (s.ns < x.at_)).length
  | _ => false

/-- Steps 1 to 4 of R407, and BUSY for a service not yet available (R423) or while Mantel restarts (R458).
`have_` is the payload length that came with the command. -/
def acceptStatus (s : State) (m : MbxId) (h : CmdHdr) (have_ : Nat) : Status :=
  match opInfo h.op with
  | none => .badDescriptor
  | some i =>
    let lim := if (mbxTenant m).isSome then 1984 else 4096
    if h.rsv || h.len > lim || h.len > have_ || !i.lenOk h.len || (h.defer && !i.w)
        || ((mbxTenant m).isNone && !i.t && h.part ≠ 0) then .badDescriptor
    else if !mbxAccepts s m h.op i || (mbxTenant m).elim false (· != h.part) then .noAccess
    else if tenantFull s m || (h.defer && deferFull s m) || s.mantel.restarting then .busy
    else if !i.n && i.t && s.isQuiesced h.part then s.quiesceStatus h.part
    else if needsFull h.op && !s.power.readyFull then .busy
    else .ok

/-- Remember an accepted command for R405: the last one of a block, the last 16 of a tenant mailbox. -/
def noteLast (l : Last) (ls : List Last) : List Last :=
  let keep := if (mbxTenant l.mbx).isSome then 15 else 0
  let mine := ls.filter (·.mbx == l.mbx)
  ls.filter (·.mbx != l.mbx) ++ mine.drop (mine.length - keep) ++ [l]

/-- A command arrives at its mailbox (R403 to R407). A command whose SEQ and OPCODE were accepted before is answered
with the stored completion (R405); the others are refused, deferred or queued. -/
def accept (m : MbxId) (port src txn : Nat) (hdr : Nat) (data : Bytes) (s : State) : State :=
  let h := cmdHdr hdr
  let j : Job := { id := s.mantel.nextJob, mbx := m, port := port, src := src, txn := txn, op := h.op, seq := h.seq,
                   part := h.part, defer := h.defer, quiet := h.quiet, payload := data.take h.len, ready := s.t, at_ := s.ns }
  match s.mantel.lasts.find? fun l => l.mbx == m && l.seq == h.seq && l.op == h.op with
  | some l =>
    match l.cmpl with
    | some c => postCmpl j c s
    | none =>
      let mine := fun (l : Last) => l.mbx == m && l.seq == h.seq && l.op == h.op
      { s with mantel.lasts := modWhere mine (fun l => { l with waiters := l.waiters ++ [(port, src, txn)] }) s.mantel.lasts }
  | none =>
    match acceptStatus s m h data.length with
    | .ok =>
      let tk := if h.defer then s.mantel.nextTicket else 0
      let j := { j with ticket := tk }
      let s := { s with mantel := { s.mantel with
        jobs := s.mantel.jobs ++ [j], nextJob := s.mantel.nextJob + 1,
        nextTicket := if h.defer then (if tk = 65535 then 1 else tk + 1) else s.mantel.nextTicket,
        lasts := noteLast { mbx := m, seq := h.seq, op := h.op } s.mantel.lasts } }
      if h.defer then
        let c : Cmpl := { op := h.op, seq := h.seq, ticket := tk, endTime := s.ns }
        recordLast j c (postCmpl j c s)
      else s
    | st => postCmpl j { op := h.op, seq := h.seq, status := st.code, endTime := s.ns } s

/-- Submit the command of a block (R401): ignored and noted while BUSY. -/
def submit (i : MbxId) (s : State) : State :=
  let b := s.mantel.blk i
  if b.st = 1 then modBlk i (fun b => { b with overrun := true }) s
  else
    let s := modBlk i (fun b => { b with st := 1 }) s
    accept i 0 0 0 b.cmdHdr (cellsRead 0 b.buf 0 (min 4096 (bits b.cmdHdr 76 64))) s

/-- What COMMAND_DONE carries: the final completion header, whose fields lie in its first 24 bytes (R400, R404). -/
def doneItems (j : Job) (r : Nat × Nat × Nat) : List Nat :=
  let b := cmplBytes { op := j.op, seq := j.seq, status := r.1, detail := r.2.1, ticket := j.ticket, endTime := r.2.2 }
  [fldLE b 0 8, fldLE b 8 8, fldLE b 16 8]

/-- DEFERRED_COMMAND_END: a deferred command that has ended is reported as COMMAND_DONE with its final header to its
issuer (R404, R413), and leaves the table. -/
def deferredEnd (ticket : Nat) (s : State) : State :=
  match s.mantel.jobs.find? fun j => j.defer && j.ticket == ticket && j.res.isSome with
  | none => s
  | some j =>
    let r := j.res.getD (0, 0, 0)
    let s := { s with mantel.jobs := s.mantel.jobs.filter (·.id != j.id) }
    let d := doneItems j r
    match mbxTenant j.mbx with
    | some p => event 0x0001 false [p] (some p) d s
    | none => event 0x0001 true [] none d s

/-! ## The register window (R401, R409, R418) -/

/-- The mailbox block of a window offset, and the offset in it (R409). -/
def blockAt (off : Nat) : Option (MbxId × Nat) :=
  if 0x1000 ≤ off && off < 0x1400 then some (.a, off - 0x1000)
  else if 0x1400 ≤ off && off < 0x1800 then some (.b, off - 0x1400)
  else if 0x1800 ≤ off && off < 0x1C00 then some (.debug, off - 0x1800)
  else none

/-- An offset inside a mailbox block that R401 lists. -/
def blockOff (o : Nat) : Bool := o % 4 == 0 && (o ≤ 0xC || (0x40 ≤ o && o < 0xC0) || (0x200 ≤ o && o < 0x400))

/-- A draft register's offset (R418). -/
def draftOff (o : Nat) : Bool :=
  (0x3000 ≤ o && o < 0x3400) || (0x3400 ≤ o && o < 0x3480) || (0x3500 ≤ o && o ≤ 0x3518)

/-- The writable bits of a draft register (R418, R419; R6). -/
def draftMask (o : Nat) : BitVec 32 :=
  if o < 0x3400 then 0xBFFEFFFF
  else if o < 0x3480 then 0x0000FFFF
  else if o = 0x3500 then 0x00FFFFFF
  else if o = 0x3504 then 0x0000FFFF
  else if o = 0x3508 then 0x00FFFFFF
  else if o = 0x350C then 0x0000FFFF
  else 0xFFFFFFFF

/-- An offset that R409 lists; every other one is reserved. -/
def regOff (o : Nat) : Bool :=
  o % 4 == 0 && (o ∈ [0x0000, 0x0004, 0x0008, 0x000C, 0x0010, 0x0100, 0x0104, 0x0108, 0x0110, 0x0200, 0x0204, 0x0208,
      0x2000, 0x2004, 0x2008, 0x200C] || draftOff o || (blockAt o).elim false fun b => blockOff b.2)

/-- TEMP (R409): the hottest die and the stack that holds it, 0x1F for the Hearth. -/
def tempWord (s : State) : Nat :=
  let best := s.power.tempStacks.zipIdx.foldl (fun (a : Int × Nat) (x : Int × Nat) => if x.1 > a.1 then x else a)
    (s.power.tempHearth, 0x1F)
  if best.1 = 0 then (if s.power.tempHearth = 0 && s.power.tempStacks.all (· == 0) then 0 else 2 ^ 16 * best.2)
  else unsigned 16 best.1 + 2 ^ 16 * best.2

/-- The value of a draft register. -/
def draftReg (s : State) (o : Nat) : BitVec 32 := (s.mantel.draft.find? (·.1 == o)).elim 0 (·.2)

/-- A register of the window as read (R409, R401). -/
def readReg (s : State) (o : Nat) : Nat :=
  let id := s.power.readyBasic
  match blockAt o with
  | some (m, k) =>
    let b := s.mantel.blk m
    if k = 4 then b.page
    else if k = 8 then b.st
    else if k = 0xC then b2n b.overrun
    else if 0x40 ≤ k && k < 0x80 then bits b.cmdHdr (8 * (k - 0x40) + 31) (8 * (k - 0x40))
    else if 0x80 ≤ k && k < 0xC0 then fldLE (cmplBytes b.cmpHdr) (k - 0x80) 4
    else if 0x200 ≤ k && k < 0x400 then leNat (cellsRead 0 b.buf (512 * b.page + (k - 0x200)) 4)
    else 0
  | none =>
    if o = 0x0000 then 0x0B2D2464
    else if o = 0x0004 then 0x00000100
    else if o = 0x0008 then (if id then s.flash.serial % 2 ^ 32 else 0)
    else if o = 0x000C then (if id then s.flash.serial / 2 ^ 32 % 2 ^ 32 else 0)
    else if o = 0x0010 then (if id then 16 * (s.flash.prof.cell % 1024) + s.power.pos % 16 else 0)
    else if o = 0x0100 then readyWord s
    else if o = 0x0104 then b2n s.mantel.masterB + 2 * b2n s.mantel.linkA.up + 4 * b2n s.mantel.linkB.up
    else if o = 0x0108 then s.mantel.faultCause.toNat
    else if o = 0x0110 then tempWord s
    else if o = 0x0200 then s.mantel.irqStatus.toNat
    else if o = 0x0204 then s.mantel.irqEnable.toNat
    else if o = 0x0208 then s.mantel.evM.recs.length
    else if o = 0x2000 then s.ns % 2 ^ 32
    else if o = 0x2004 then s.mantel.emberHi.toNat
    else if o = 0x2008 then s.mantel.emberFrac.toNat
    else if o = 0x200C then b2n s.cal.running + 2 * b2n s.cal.armed.isSome
        + (if s.cal.running then 2 ^ 16 * (s.cal.hdr.calId % 65536) else 0)
    else if draftOff o then (draftReg s o).toNat
    else 0

/-- Draft registers work only in a test profile or a debug session, and never in a secure profile (R378, R418). -/
def draftWorks (s : State) : Bool := !s.flash.prof.secure && (s.flash.prof.test || s.mantel.debugOpen)

/-- Extend a measurement register (R383), with a line of the measurement log. -/
def extendMr (i : Nat) (d : Bytes) (what : Nat) (s : State) : State :=
  { s with mantel := { s.mantel with
      mr := s.mantel.mr.modify i fun r => Config.sha256 (r ++ d),
      measLog := s.mantel.measLog ++ [(i, d, what)] } }

/-- Write a draft register (R418): outside R378 it is NO_ACCESS and changes nothing. The first write of all extends MR7
and sets the Hallmark flag (R378). -/
def draftSet (o : Nat) (v : BitVec 32) (s : State) : Status × State :=
  if !draftOff o then (.badDescriptor, s)
  else if !draftWorks s then (.noAccess, s)
  else
    let v := v &&& draftMask o
    let s := if s.mantel.everDraft then s else
      { extendMr 7 (Config.sha256 (toLE 4 o ++ toLE 4 v.toNat)) 2 s with mantel.everDraft := true }
    let rest := s.mantel.draft.filter (·.1 != o)
    (.ok, { s with mantel.draft := if v = 0 then rest else (o, v) :: rest })

/-- Does the link hold mastership (R355)? -/
def holds (s : State) (l : Link) : Bool :=
  match l with
  | .a => !s.mantel.masterB
  | .b => s.mantel.masterB
  | .jtag => false

def ownMbx : Link → MbxId
  | .a => .a
  | .b => .b
  | .jtag => .debug

/-- JTAG reaches the window only in a test profile or a debug session (R378). -/
def jtagWorks (s : State) : Bool := s.flash.prof.test || s.mantel.debugOpen

/-- May the link write at an offset (R354, R355, R398, R401)? -/
def writeStatus (s : State) (l : Link) (o : Nat) : Status :=
  if l == .jtag && !jtagWorks s then .noAccess
  else match blockAt o with
    | some (m, k) =>
      if m == .debug && l != .jtag then .noAccess
      else if !blockOff k then .badDescriptor
      else if m != ownMbx l then .noAccess
      else .ok
    | none =>
      if !regOff o then .badDescriptor
      else if o = 0x0104 then (if l == .jtag then .noAccess else .ok)
      else if l == .jtag then (if draftOff o then .ok else .noAccess)
      else if !holds s l then .noAccess
      else .ok

/-- MASTER is written (R355): mastership goes to the writing link, or to the winner of R240 when both write in one cycle;
interrupts held for it are then sent (R355, R410). -/
def takeMaster (l : Link) (contended : Bool) (s : State) : State :=
  let ptr := s.mantel.masterArb.now s.slot 2
  let b := if contended then arbWin 2 ptr (fun _ => true) == some 1 else l == .b
  let moved := b != s.mantel.masterB
  let s := { s with mantel.masterB := b }
  let s := if contended then { s with mantel.masterArb := arbMove s.slot 2 (b2n b) } else s
  let s := if s.mantel.irqMore || (moved && s.mantel.irqOut.isSome) then { s with mantel := sendIrq s.t s.mantel } else s
  if moved then raiseIrq 64 s else s

/-- The bytes of a block's buffers are written (R401): BUSY changes nothing, the first write after DONE makes it IDLE. Of a
run that goes on over CMP_HDR, which is RO, the part over CMD_HDR is set (R7). -/
def writeBuffer (i : MbxId) (k : Nat) (d : Bytes) (s : State) : Status × State :=
  let b := s.mantel.blk i
  if b.st = 1 then (.busy, s)
  else
    let b' := { b with st := 0 }
    if 0x40 ≤ k && k < 0x80 && k + d.length ≤ 0xC0 then
      let h := toLE 64 b.cmdHdr
      let d := d.take (0x80 - k)
      let n := h.take (k - 0x40) ++ d ++ h.drop (k - 0x40 + d.length)
      (.ok, modBlk i (fun _ => { b' with cmdHdr := leNat n }) s)
    else if 0x200 ≤ k && k + d.length ≤ 0x400 then
      (.ok, modBlk i (fun _ => { b' with buf := cellsWrite 0 b.buf (512 * b.page + (k - 0x200)) d }) s)
    else (.badDescriptor, s)

/-- Write one register (R409). -/
def writeReg (l : Link) (o : Nat) (v : BitVec 32) (s : State) : Status × State :=
  match writeStatus s l o with
  | .ok =>
    match blockAt o with
    | some (m, k) =>
      if k = 0 then (.ok, if v.getLsbD 0 then submit m s else s)
      else if k = 4 then (.ok, modBlk m (fun b => { b with page := v.toNat % 8 }) s)
      else if (0x40 ≤ k && k < 0x80) || 0x200 ≤ k then writeBuffer m k (toLE 4 v.toNat) s
      else (.ok, s)
    | none =>
      if o = 0x0104 then (.ok, takeMaster l false s)
      else if o = 0x0108 then (.ok, { s with mantel.faultCause := s.mantel.faultCause &&& ~~~ v })
      else if o = 0x0200 then (.ok, { s with mantel.irqStatus := s.mantel.irqStatus &&& ~~~ v })
      else if o = 0x0204 then
        let e := v &&& 0x7F
        let fresh := e &&& ~~~ s.mantel.irqEnable &&& s.mantel.irqStatus
        (.ok, { s with mantel := noteIrq s.t fresh { s.mantel with irqEnable := e } })
      else if draftOff o then draftSet o v s
      else (.ok, s)
  | st => (st, s)

/-! ## Chimney frames (R353 to R355) -/

def modLink (l : Link) (f : ChimLink → ChimLink) (s : State) : State :=
  match l with
  | .a => { s with mantel.linkA := f s.mantel.linkA }
  | .b => { s with mantel.linkB := f s.mantel.linkB }
  | .jtag => { s with mantel.linkJ := f s.mantel.linkJ }

def linkOf (s : State) : Link → ChimLink
  | .a => s.mantel.linkA
  | .b => s.mantel.linkB
  | .jtag => s.mantel.linkJ

/-- A frame has been performed and is answered with a status (R354). -/
def answerFrame (l : Link) (seq : Nat) (st : Status) (s : State) : State :=
  modLink l (fun k => { k with lastSeq := some seq, lastStatus := st.code, answers := k.answers + 1 }) s

/-- A REG_WR or DOORBELL frame (R354): one whose SEQ is that of the last one performed on the link is only answered
again; in reset no frame is answered; mailboxes and registers are served otherwise. -/
def frame (l : Link) (seq : Nat) (f : State → Status × State) (s : State) : State :=
  if inReset s then s
  else if l != .jtag && (linkOf s l).lastSeq == some seq then modLink l (fun k => { k with answers := k.answers + 1 }) s
  else answerFrame l seq (f s).1 (f s).2

/-- The answer to a resent frame (R354). -/
def frameAgain (l : Link) (seq : Nat) (s : State) : State :=
  if !inReset s && (linkOf s l).lastSeq == some seq then modLink l (fun k => { k with answers := k.answers + 1 }) s else s

/-- Mailboxes serve from READY_BASIC (R422), and through a thermal emergency (R450). -/
def mailboxesServe (s : State) : Bool := s.power.readyBasic || s.power.emergency

/-- MBX_SUBMIT (R401) of the link's own mailbox. -/
def mbxSubmit (l : Link) (seq : Nat) (v : BitVec 32) (s : State) : State :=
  let base := match l with
    | .a => 0x1000
    | .b => 0x1400
    | .jtag => 0x1800
  frame l seq (fun s => if mailboxesServe s then writeReg l base v s else (.busy, s)) s

/-- A DOORBELL frame (R401): VALUE 0 names MBX_A and 1 MBX_B; a link may ring only its own. -/
def doorbell (l : Link) (seq : Nat) (v : BitVec 32) (s : State) : State :=
  frame l seq (fun s =>
    if l == .jtag then (.noAccess, s)
    else if 1 < v.toNat then (.badDescriptor, s)
    else if v.toNat ≠ (if l == .b then 1 else 0) then (.noAccess, s)
    else if mailboxesServe s then (.ok, submit (ownMbx l) s) else (.busy, s)) s

/-- A REG_WR over CMD_HDR or PAGE_DATA (R401); one over CMP_HDR, which is RO, is ignored (R7). -/
def mbxBufferWrite (l : Link) (seq off : Nat) (d : Bytes) (s : State) : State :=
  frame l seq (fun s =>
    match writeStatus s l off with
    | .ok => match blockAt off with
      | some (m, k) =>
        if d.length % 4 ≠ 0 then (.badDescriptor, s)
        else if 0x80 ≤ k && k + d.length ≤ 0xC0 then (.ok, s)
        else writeBuffer m k d s
      | none => (.badDescriptor, s)
    | st => (st, s)) s

/-- Reading MBX_OVERRUN of a block returns and clears it (R401, R7). Each link reads every register (R355); MBX_DEBUG is read
by JTAG only (R398), and JTAG reads only where R378 lets it. -/
def overrunRead (l : Link) (m : MbxId) (s : State) : State :=
  let may := mbxBlocked m && (m != .debug || l == .jtag) && (l != .jtag || jtagWorks s)
  if inReset s || !may then s
  else
    let v := b2n (s.mantel.blk m).overrun
    modBlk m (fun b => { b with overrun := false }) (modLink l (fun k => { k with lastRead := v }) s)

/-- Reading EMBER_NS_LO latches the other two (R409). -/
def nsLoRead (l : Link) (s : State) : State :=
  if inReset s then s
  else
    let s := modLink l (fun k => { k with lastRead := s.ns % 2 ^ 32 }) s
    { s with mantel := { s.mantel with emberHi := BitVec.ofNat 32 (s.ns / 2 ^ 32), emberFrac := BitVec.ofNat 32 s.frac } }

/-- MASTER is written by a link, perhaps in the same cycle as by the other (R355). -/
def masterWrite (l : Link) (seq : Nat) (_v : BitVec 32) (contended : Bool) (s : State) : State :=
  frame l seq (fun s => if l == .jtag then (.noAccess, s) else (.ok, takeMaster l contended s)) s

/-- IRQ_ACK on the master link (R410): the frame is acknowledged, and the next one sent at once if enabled bits were set
since it was formed. -/
def irqAck (l : Link) (s : State) : State :=
  if s.mantel.irqOut.isSome && holds s l then
    let m := { s.mantel with irqOut := none }
    { s with mantel := if m.irqMore then sendIrq s.t m else m }
  else s

/-- An unacknowledged IRQ is resent every 10 us (R354). -/
def irqResend (s : State) : State :=
  if s.mantel.irqOut.isSome && masterUp s.mantel && s.mantel.irqAt + 10000 ≤ s.t then
    { s with mantel := { s.mantel with irqAt := s.t, irqSent := s.mantel.irqSent + 1 } }
  else s

/-- The link goes down (R353): MASTER shows it; mastership stays (R355). -/
def chimneyDown (l : Link) (s : State) : State := modLink l (fun k => { k with up := false }) s

def chimneyUp (l : Link) (s : State) : State :=
  if inReset s || (l != .jtag && s.power.refLost.getD (b2n (l == .b)) false) then s else modLink l (fun k => { k with up := true }) s

/-! ## Tenant mailboxes (R402, R374) -/

/-- The tracker of an MBX_CMD (R281): its port, its source and its TXN. -/
def cmdTrk (s : State) (port src txn : Nat) : Option Trk :=
  s.mem.trks.find? fun k => k.vc == .mgt && k.port == port && k.src == src && k.txn == txn

/-- The MBX_CMP of a completion, to the endpoint that sent the command, with the Heat sampled when it came, or sampled now for one
that took no tracker (R255); the command's tracker becomes free. -/
def mbxCmp (port dst txn : Nat) (c : Cmpl) (s : State) : State :=
  let b := cmplBytes c ++ c.payload
  let k := cmdTrk s port dst txn
  let h := k.elim (heat s false port (subOf s false port dst)) (·.heat)
  let m : PktMsg := { dst := dst, src := ownId s, txn := txn, opc := 2, status := c.status % 256, heat := pinHeat s port h,
                      bytes := b.length, body := b }
  let s := enqueue false port 7 dst (.pkt .mgt m) s
  k.elim s fun k => freeTrk k.id s

/-- MBX_CMD (R402): the command goes to the tenant mailbox of the port's owner, to MBX_TWIN on a twin link. A source
that is not the link's endpoint is NO_ACCESS (R289 step 0), a malformed message BAD_DESCRIPTOR, a policed one RETRY
(R252), one from a peer not admitted NO_ACCESS (R398). A tenant's command holds a tracker of the system's share until its MBX_CMP,
and waits at its port while none is free (R281). -/
def mbxCmd (p : Nat) (m : PktMsg) (s0 : State) : State :=
  let s := eatPkt p .mgt m s0
  let pt := s.port p
  let hd := cmdHdr (leNat (m.body.take 64))
  let no := fun (st : Status) (s : State) => mbxCmp p m.src m.txn { op := hd.op, seq := hd.seq, status := st.code, endTime := s.ns } s
  if pt.kind = 0 && m.src ≠ epId s.flash.prof.cell s.modNum p then no .noAccess s
  else if m.rsv || m.flux || m.body.length < 64 || m.bytes ≠ m.body.length then no .badDescriptor s
  else
    match police p m.src (rawFlits (pt.sess.phase == 3) (1 + pktLen m.bytes)) true s with
    | (false, _, s) => no .retry s
    | (true, h, s) =>
      let s1 := (takeTrk { port := p, txn := m.txn, src := m.src, vc := .mgt, svc := 7, opc := 1, heat := h } s).2
      match pt.owner with
      | none =>
        if pt.kind = 2 then accept .twin p m.src m.txn (leNat (m.body.take 64)) (m.body.drop 64) s else no .noAccess s
      | some q =>
        if !trkFree s none then s0
        else if !pt.admitted then postCmpl { mbx := .tenant q, port := p, src := m.src, txn := m.txn }
            { op := hd.op, seq := hd.seq, status := Status.noAccess.code, endTime := s.ns } s1
        else accept (.tenant q) p m.src m.txn (leNat (m.body.take 64)) (m.body.drop 64) s1

/-- TENANT_COMPLETION_POST: the completions of a partition whose 100 us boundary has come leave (R374). -/
def tenantPost (p : Nat) (s : State) : State :=
  let now := s.ns
  let due := s.mantel.posts.filter fun x => x.part == p && decide (x.at_ ≤ now)
  let s := { s with mantel.posts := s.mantel.posts.filter fun x => !(x.part == p && decide (x.at_ ≤ now)) }
  due.foldl (fun s x => mbxCmp x.port x.dst x.txn { x.cmpl with endTime := x.at_ } s) s

/-- EVENT_MESSAGE_SEND: the EVENT message of R412, an 8-byte record count to the notify endpoint. -/
def eventSend (p : Nat) (s : State) : State :=
  match s.mantel.evP[p]? with
  | none => s
  | some q =>
    match q.notifyDue with
    | none => s
    | some at_ =>
      if s.ns < at_ then s
      else
        let s := { s with mantel.evP := s.mantel.evP.modify p fun q => { q with notifyDue := none } }
        if q.notify = 0 then s
        else
          let m : PktMsg := { dst := q.notify, src := ownId s, opc := 3, bytes := 8, body := toLE 8 q.recs.length }
          enqueue false (epPort q.notify) 7 q.notify (.pkt .mgt m) s

/-- TENANT_WINDOW_START: partition p's window of R374 opens. -/
def windowStart (p : Nat) (s : State) : State :=
  if s.flash.prof.secure && s.ns % 100000 / 6000 == p then { s with mantel.window := some p } else s

/-! ## Meanings -/

def execDeferredCommandEnd (ticket : Nat) (s : State) : Host.Outcome State Fault Refusal := .next (settle s (deferredEnd ticket s))
def execMbxSubmit (l : Link) (seq : Nat) (v : BitVec 32) (s : State) : Host.Outcome State Fault Refusal := .next (settle s (mbxSubmit l seq v s))
def execDoorbell (l : Link) (seq : Nat) (v : BitVec 32) (s : State) : Host.Outcome State Fault Refusal := .next (settle s (doorbell l seq v s))
def execMbxBufferWrite (l : Link) (seq off : Nat) (data : Bytes) (s : State) : Host.Outcome State Fault Refusal := .next (settle s (mbxBufferWrite l seq off data s))
def execMbxOverrunRead (r : OverrunRead) (s : State) : Host.Outcome State Fault Refusal := .next (settle s (overrunRead r.link r.block s))
def execMasterWrite (l : Link) (seq : Nat) (v : BitVec 32) (contended : Bool) (s : State) : Host.Outcome State Fault Refusal := .next (settle s (masterWrite l seq v contended s))
def execFaultCauseClear (l : Link) (seq : Nat) (v : BitVec 32) (s : State) : Host.Outcome State Fault Refusal := .next (settle s (frame l seq (writeReg l 0x0108 v) s))
def execIrqStatusClear (l : Link) (seq : Nat) (v : BitVec 32) (s : State) : Host.Outcome State Fault Refusal := .next (settle s (frame l seq (writeReg l 0x0200 v) s))
def execIrqEnableWrite (l : Link) (seq : Nat) (v : BitVec 32) (s : State) : Host.Outcome State Fault Refusal := .next (settle s (frame l seq (writeReg l 0x0204 v) s))
def execEmberNsLoRead (l : Link) (s : State) : Host.Outcome State Fault Refusal := .next (settle s (nsLoRead l s))
def execDraftRegisterWrite (l : Link) (seq off : Nat) (v : BitVec 32) (s : State) : Host.Outcome State Fault Refusal :=
  .next (settle s (frame l seq (fun s => if draftOff off then writeReg l off v s else (.badDescriptor, s)) s))
def execRegWr (l : Link) (seq off : Nat) (v : FrameWord) (s : State) : Host.Outcome State Fault Refusal :=
  .next (settle s (frame l seq (if v.rsv then deny .badDescriptor else writeReg l off v.val) s))
def execIrqAck (l : Link) (s : State) : Host.Outcome State Fault Refusal := .next (settle s (irqAck l s))
def execIrqResend (s : State) : Host.Outcome State Fault Refusal := .next (settle s (irqResend s))
def execChimneyFrameRetry (l : Link) (seq : Nat) (s : State) : Host.Outcome State Fault Refusal := .next (settle s (frameAgain l seq s))
def execMbxCmd (port : Nat) (m : PktMsg) (s : State) : Host.Outcome State Fault Refusal :=
  .next (settle s (mbxCmd port m s))
def execTenantCompletionPost (p : Nat) (s : State) : Host.Outcome State Fault Refusal := .next (settle s (tenantPost p s))
def execEventMessageSend (p : Nat) (s : State) : Host.Outcome State Fault Refusal := .next (settle s (eventSend p s))
def execChimneyLinkDown (l : Link) (s : State) : Host.Outcome State Fault Refusal := .next (settle s (chimneyDown l s))
def execChimneyLinkUp (l : Link) (s : State) : Host.Outcome State Fault Refusal := .next (settle s (chimneyUp l s))
def execTenantWindowStart (p : Nat) (s : State) : Host.Outcome State Fault Refusal := .next (settle s (windowStart p s))

end Sys2Proof.Machine
end

