-- ==== Sys2Proof/Machine/Device.lean ====
section
/-! DEFINITION. Device, event, telemetry, draft, debug, measurement-log and firmware commands (R378, R383, R408,
R412, R414 to R418, R451). -/

namespace Sys2Proof.Machine

/-- FLAGS of the Hallmark (R386), also in DEVICE_INFO. -/
def hallmarkFlags (s : State) : Nat :=
  b2n s.flash.prof.secure + 2 * b2n s.flash.prof.test + 4 * b2n s.mantel.everDebug + 8 * b2n (s.twin.st != .unpaired)
    + 16 * b2n s.mantel.everDraft

/-- DEVICE_INFO (R408). -/
def deviceInfo (_j : Job) (s : State) : End × State :=
  (.done .ok 0 (toLE 8 s.flash.serial ++ toLE 4 0x0B2D2464 ++ toLE 4 0x00000100 ++ toLE 4 (readyWord s)
    ++ toLE 1 (hallmarkFlags s) ++ toLE 1 s.flash.slot ++ [0, 0]), s)

/-- MODULE_HEALTH (R408). -/
def moduleHealth (_j : Job) (s : State) : End × State :=
  (.done .ok 0 (toLE 4 (tempWord s) ++ toLE 4 s.mantel.faultCause.toNat ++ toLE 4 s.power.inputMv ++ toLE 4 s.power.powerW), s)

/-! ## Events (R411, R412) -/

/-- The 64 bytes of a record. Items of DETAIL take eight bytes each, the first six of them (log entry 9). -/
def eventBytes (e : Event) : Bytes :=
  toLE 2 e.code ++ toLE 2 (e.part % 16 + 16 * b2n e.sys) ++ toLE 4 e.eseq ++ toLE 8 e.ns
    ++ (((e.detail ++ List.replicate 6 0).take 6).flatMap (toLE 8))

/-- EVENT_READ (R412): at most MAX records, in ESEQ order; a tenant reads its partition's queue, the manager its own. -/
def eventRead (j : Job) (s : State) : End × State :=
  let max_ := fldLE j.payload 0 2
  if max_ = 0 || max_ > 64 then (.done .badDescriptor, s)
  else match mbxTenant j.mbx with
    | none =>
      let q := s.mantel.evM
      (.done .ok 0 ((q.recs.take max_).flatMap eventBytes), { s with mantel.evM := { q with recs := q.recs.drop max_ } })
    | some p =>
      let q := s.mantel.evP.getD p {}
      let out := q.recs.take max_
      if out.length * 64 > 1984 then (.done .badDescriptor, s)
      else (.done .ok 0 (out.flatMap eventBytes),
            { s with mantel.evP := s.mantel.evP.modify p fun q => { q with recs := q.recs.drop max_ } })

/-- An endpoint is an admitted peer of a partition. -/
def admittedPeer (s : State) (p e : Nat) : Bool :=
  namesMyAccel s e && (s.port (epPort e)).owner == some p && (s.port (epPort e)).admitted

/-- EVENT_NOTIFY (R408). -/
def eventNotify (j : Job) (s : State) : End × State :=
  let e := fldLE j.payload 0 4
  if (s.part? j.part).isNone then (.done .noAccess, s)
  else if e ≠ 0 && !admittedPeer s j.part e then (.done .noAccess, s)
  else (.done .ok, { s with mantel.evP := s.mantel.evP.modify j.part fun q => { q with notify := e } })

/-! ## Telemetry (R451) -/

/-- The 256 bytes of a sample; a partition's temperature and power fields read zero. -/
def teleBytes (module : Bool) (part : Nat) (x : Tele) : Bytes :=
  let m := fun (n : Nat) => if module then n else 0
  toLE 8 x.ns ++ toLE 1 (b2n module) ++ toLE 1 (if module then 0 else part) ++ toLE 2 x.mhz ++ toLE 4 (m x.powerW)
    ++ toLE 4 (m x.inputMv) ++ toLE 2 (m (unsigned 16 x.tempHearth))
    ++ ((List.range 24).flatMap fun k => toLE 2 (m (unsigned 16 (x.tempStacks.getD k 0)))) ++ [0, 0]
    ++ toLE 8 x.reqAdmitted ++ toLE 8 x.reqRefused ++ toLE 8 x.chainsDone ++ toLE 4 (sat32 x.chainsNotOk)
    ++ toLE 4 (sat32 x.stackCe) ++ toLE 4 (sat32 x.damagedNew) ++ toLE 4 (sat32 x.lostNew) ++ toLE 4 (sat32 x.replays)
    ++ toLE 4 x.lanesDown ++ toLE 4 (sat32 x.flashCe) ++ toLE 4 (sat32 x.lateActions) ++ toLE 8 x.bytesIn
    ++ toLE 8 x.bytesOut ++ toLE 1 x.heatMax ++ toLE 1 (b2n x.recovering + 2 * b2n x.quiesced) ++ List.replicate 110 0

/-- TELEMETRY_GET (R408). -/
def telemetryGet (j : Job) (s : State) : End × State :=
  match mbxTenant j.mbx with
  | some p => (.done .ok 0 (teleBytes false p (s.mantel.teleP.getD p {})), s)
  | none => (.done .ok 0 (teleBytes true 0 s.mantel.teleM), s)

/-- TELEMETRY_STREAM (R408): PERIOD_MS 0 stops it. The bits of ENDPOINT above an endpoint id's 22 are reserved (R5, R262). -/
def telemetryStream (j : Job) (s : State) : End × State :=
  let e := fldLE j.payload 0 4
  let n := fldLE j.payload 4 2
  if 2 ^ 22 ≤ e then (.done .badDescriptor, s)
  else (.done .ok, { s with mantel := { s.mantel with stream := if n = 0 then none else some (e, n), streamAt := 0 } })

/-! ## Draft registers (R418) -/

def draftWrite (j : Job) (s : State) : End × State :=
  let o := fldLE j.payload 0 2
  if !zeroAt j.payload 2 2 || o % 4 != 0 then (.done .badDescriptor, s)
  else
    let r := draftSet o (BitVec.ofNat 32 (fldLE j.payload 4 4)) s
    (.done r.1, r.2)

def draftRead (j : Job) (s : State) : End × State :=
  let o := fldLE j.payload 0 2
  if draftOff o && o % 4 == 0 then (.done .ok 0 (toLE 4 (draftReg s o).toNat), s) else (.done .badDescriptor, s)

def draftClear (_j : Job) (s : State) : End × State := (.done .ok, { s with mantel.draft := [] })

/-! ## Debug sessions (R378) -/

/-- DEBUG_OPEN: STEP 0 issues a nonce, STEP 1 checks the signature over the nonce and SERIAL. A failed check is
NO_ACCESS (log entry 10). -/
def debugOpen (j : Job) (s : State) : End × State :=
  let stp := fldLE j.payload 0 1
  if !zeroAt j.payload 1 7 || stp > 1 then (.done .badDescriptor, s)
  else if stp = 0 then
    if j.payload.length ≠ 8 then (.done .badDescriptor, s)
    else if s.flash.prof.secure then (.done .noAccess, s)
    else
      let r := drawRandom s
      (.done .ok 0 r.1, { r.2 with mantel.debugNonce := some r.1 })
  else if j.payload.length < 393 then (.done .badDescriptor, s)
  else if s.flash.prof.secure then (.done .noAccess, s)
  else
    let sig := (j.payload.drop 8).take 384
    let cert := j.payload.drop 392
    match s.mantel.debugNonce with
    | none => (.done .noAccess, s)
    | some n =>
      let s := { s with mantel.debugNonce := none }
      if Config.debugChainOk cert s.flash.serial && Config.debugSigOk cert (n ++ toLE 8 s.flash.serial) sig then
        let s := extendMr 7 (Config.sha256 (n ++ toLE 8 s.flash.serial)) 1 s
        (.done .ok, { s with mantel := { s.mantel with debugOpen := true, everDebug := true } })
      else (.done .noAccess, s)

/-- DEBUG_CLOSE: outside a test profile the draft registers become zero (R418). -/
def debugClose (_j : Job) (s : State) : End × State :=
  (.done .ok, { s with mantel := { s.mantel with
    debugOpen := false, draft := if s.flash.prof.test then s.mantel.draft else [] } })

/-- MEASLOG_READ: records from FIRST, each the register, a description code and the digest (log entry 9). -/
def measlogRead (j : Job) (s : State) : End × State :=
  let n := if (mbxTenant j.mbx).isSome then 49 else 102
  (.done .ok 0 (((s.mantel.measLog.drop (fldLE j.payload 0 4)).take n).flatMap fun x =>
    toLE 1 x.1 ++ [0, 0, 0] ++ toLE 4 x.2.2 ++ (x.2.1 ++ List.replicate 32 0).take 32), s)

/-! ## Firmware (R414 to R417) -/

/-- Slot size of an image kind (R414). -/
def fwSize (k : Nat) : Nat :=
  match k with
  | 0 => 256 * 1024
  | 1 => 6 * 1024 * 1024
  | 2 => 2 * 1024 * 1024
  | 3 => 2 * 1024 * 1024
  | _ => 1024 * 1024

/-- The slot that the record with the higher count names (R415). -/
def FwKind.sel (k : FwKind) : SlotSel := if k.sel0.count < k.sel1.count then k.sel1 else k.sel0
def FwKind.activeB (k : FwKind) : Bool := k.sel.activeB
def FwKind.inactive (k : FwKind) : FwSlot := if k.activeB then k.slotA else k.slotB
def FwKind.active (k : FwKind) : FwSlot := if k.activeB then k.slotB else k.slotA
def FwKind.setInactive (k : FwKind) (x : FwSlot) : FwKind := if k.activeB then { k with slotA := x } else { k with slotB := x }

def State.fwKind (s : State) (k : Nat) : FwKind := s.mantel.fw.getD k {}
def modFw (k : Nat) (f : FwKind → FwKind) (s : State) : State := { s with mantel.fw := s.mantel.fw.modify k f }

/-- The open stream belongs to another mailbox (R416). -/
def fwOther (s : State) (m : MbxId) : Bool := s.mantel.fwStream.elim false (·.mbx != m)

/-- A firmware command of the holder keeps the stream open (R416). -/
def fwTouch (m : MbxId) (s : State) : State :=
  { s with mantel.fwStream := s.mantel.fwStream.map fun x => if x.mbx == m then { x with lastAt := s.t } else x }

/-- FW_WRITE (R416), its statuses in the order in which the rule lists them (R407). -/
def fwWrite (j : Job) (s : State) : End × State :=
  let s := fwTouch j.mbx s
  let k := fldLE j.payload 0 1
  let off := fldLE j.payload 4 4
  let d := j.payload.drop 8
  if k > 4 || !zeroAt j.payload 1 3 then (.done .badDescriptor, s)
  else if s.mantel.fwStream.elim (off != 0) (fun x => x.kind != k || off != x.endAt) then (.done .badDescriptor, s)
  else if fwOther s j.mbx then (.done .busy, s)
  else if off + d.length > fwSize k then (.done .busy, s)
  else
    let fresh := s.mantel.fwStream.isNone
    let s := modFw k (fun f =>
      let x := if fresh then ({} : FwSlot) else f.inactive
      f.setInactive { x with bytes := cellsWrite 0xFF x.bytes off d, copy := cellsWrite 0xFF x.copy off d, endAt := off + d.length, verified := false }) s
    (.done .ok, { s with mantel.fwStream := some { mbx := j.mbx, kind := k, endAt := off + d.length, lastAt := s.t } })

/-- FW_VERIFY (R417): both copies of the inactive slot. -/
def fwVerify (j : Job) (s : State) : End × State :=
  let k := fldLE j.payload 0 1
  if k > 4 then (.done .badDescriptor, s)
  else if fwOther s j.mbx then (.done .busy, s)
  else
    let s := fwTouch j.mbx s
    let x := (s.fwKind k).inactive
    if Config.imageOk k x.bytes && Config.imageOk k x.copy then
      (.done .ok, modFw k (fun f => f.setInactive { x with
        verified := true, version := Config.imageVersion x.bytes % 2 ^ 32, svn := Config.imageSvn x.bytes % 2 ^ 32 }) s)
    else (.done .imageBad, modFw k (fun f => f.setInactive { x with verified := false }) s)

/-- FW_ACTIVATE (R417): the verified slot becomes active, the count rises by 1, MR7 is extended; the stream closes. -/
def fwActivate (j : Job) (s : State) : End × State :=
  let k := fldLE j.payload 0 1
  if k > 4 then (.done .badDescriptor, s)
  else
    let s := { s with mantel.fwStream := none }
    let f := s.fwKind k
    if !f.inactive.verified then (.done .imageBad, s)
    else
      let dig := Config.sha256 (toLE 1 k ++ toLE 1 (b2n (!f.activeB)) ++ Config.imageDigest f.inactive.bytes)
      let n : SlotSel := { activeB := !f.activeB, count := (f.sel.count + 1) % 2 ^ 32 }
      let s := modFw k (fun f => { f with sel0 := n, sel1 := n }) s
      (.done .ok, extendMr 7 dig 3 s)

/-- FW_STATUS (R408): for each kind 32 bytes (log entry 9). -/
def fwStatus (j : Job) (s : State) : End × State :=
  let slot := fun (x : FwSlot) => toLE 4 x.version ++ toLE 4 x.svn ++ toLE 1 (b2n x.verified) ++ [0, 0, 0]
  (.done .ok 0 (s.mantel.fw.flatMap fun f =>
    toLE 1 (b2n f.activeB) ++ [0, 0, 0] ++ toLE 4 f.runVersion ++ slot f.slotA ++ slot f.slotB), fwTouch j.mbx s)

/-- FW_STREAM_TIMEOUT: 60 s without a firmware command (R416). -/
def fwTimeout (s : State) : State :=
  if s.mantel.fwStream.elim false fun x => decide (x.lastAt + 60000000000 ≤ s.t) then { s with mantel.fwStream := none } else s

/-! ## Meanings -/

def execDeviceInfo (m : MbxId) (s : State) : Host.Outcome State Fault Refusal :=
  .next (settle s (runCmd 0x0101 m deviceInfo s))
def execModuleHealth (m : MbxId) (s : State) : Host.Outcome State Fault Refusal :=
  .next (settle s (runCmd 0x0103 m moduleHealth s))
def execEventRead (m : MbxId) (s : State) : Host.Outcome State Fault Refusal :=
  .next (settle s (runCmd 0x0C01 m eventRead s))
def execEventNotify (m : MbxId) (s : State) : Host.Outcome State Fault Refusal :=
  .next (settle s (runCmd 0x0C02 m eventNotify s))
def execTelemetryGet (m : MbxId) (s : State) : Host.Outcome State Fault Refusal :=
  .next (settle s (runCmd 0x0C03 m telemetryGet s))
def execTelemetryStream (m : MbxId) (s : State) : Host.Outcome State Fault Refusal :=
  .next (settle s (runCmd 0x0C04 m telemetryStream s))
def execDraftWrite (m : MbxId) (s : State) : Host.Outcome State Fault Refusal :=
  .next (settle s (runCmd 0x0D01 m draftWrite s))
def execDraftRead (m : MbxId) (s : State) : Host.Outcome State Fault Refusal :=
  .next (settle s (runCmd 0x0D02 m draftRead s))
def execDraftClear (m : MbxId) (s : State) : Host.Outcome State Fault Refusal :=
  .next (settle s (runCmd 0x0D03 m draftClear s))
def execDebugOpen (m : MbxId) (s : State) : Host.Outcome State Fault Refusal :=
  .next (settle s (runCmd 0x0B04 m debugOpen s))
def execDebugClose (m : MbxId) (s : State) : Host.Outcome State Fault Refusal :=
  .next (settle s (runCmd 0x0B05 m debugClose s))
def execMeaslogRead (m : MbxId) (s : State) : Host.Outcome State Fault Refusal :=
  .next (settle s (runCmd 0x0B06 m measlogRead s))
def execFwWrite (m : MbxId) (s : State) : Host.Outcome State Fault Refusal :=
  .next (settle s (runCmd 0x0E01 m fwWrite s))
def execFwVerify (m : MbxId) (s : State) : Host.Outcome State Fault Refusal :=
  .next (settle s (runCmd 0x0E02 m fwVerify s))
def execFwActivate (m : MbxId) (s : State) : Host.Outcome State Fault Refusal :=
  .next (settle s (runCmd 0x0E03 m fwActivate s))
def execFwStatus (m : MbxId) (s : State) : Host.Outcome State Fault Refusal :=
  .next (settle s (runCmd 0x0E04 m fwStatus s))
def execFwStreamTimeout (s : State) : Host.Outcome State Fault Refusal :=
  .next (settle s (fwTimeout s))

end Sys2Proof.Machine
end

