-- ==== Sys2Proof/Machine/Flux.lean ====
section
/-! DEFINITION. Flux block compression (chapter 14): expander, compressor, and where the module uses them. -/

namespace Sys2Proof.Machine

/-! ## Elements and planes (R357, R360) -/

/-- Width in bytes of an element type (R357). -/
def fluxWidth (etype : Nat) : Nat :=
  match etype with
  | 0 => 1
  | 1 => 2
  | 2 => 4
  | 3 => 8
  | 4 => 4
  | _ => 2

/-- Fraction and exponent bits of a floating element type (R357). -/
def fluxFrac (etype : Nat) : Nat := if etype = 4 then 23 else if etype = 5 then 7 else 10
def fluxExp (etype : Nat) : Nat := if etype = 6 then 5 else 8

/-- The elements of a raw block. -/
def fluxElems (w : Nat) (b : Bytes) : List Nat := (List.range (256 / w)).map fun j => fldLE b (w * j) w

/-- The raw block of elements of `w` bytes. -/
def fluxJoin (w : Nat) (l : List Nat) : Bytes := l.flatMap (toLE w)

/-- A plane of `v`-bit fields as bytes (R360). -/
def fluxPlane (v : Nat) (l : List Nat) : Bytes :=
  toLE (l.length * v / 8) (l.foldr (fun x acc => x % 2 ^ v + 2 ^ v * acc) 0)

/-- The `n` fields of a plane of width `v` (R360). -/
def fluxFields (v n : Nat) (b : Bytes) : List Nat :=
  let x := leNat (b.take (n * v / 8))
  (List.range n).map fun j => x / 2 ^ (j * v) % 2 ^ v

/-- Packed elements put back where the bitmap says (R359). -/
def fluxUnpack (w : Nat) : List Nat → Bytes → List Nat
  | [], _ => []
  | 0 :: bs, d => 0 :: fluxUnpack w bs d
  | _ :: bs, d => leNat (d.take w) :: fluxUnpack w bs (d.drop w)

/-! ## Expander (R356 to R362, R365) -/

/-- Body bytes before padding that a mode needs, none for a mode, element type or parameter that R359 does not allow. -/
def fluxNeed (mode etype param : Nat) (body : Bytes) : Option Nat :=
  let w := fluxWidth etype
  let n := 256 / w
  match mode with
  | 0 => if etype = 0 && param = 0 then some 256 else none
  | 1 => if etype = 0 && param = 0 then some 0 else none
  | 2 => if etype ≤ 6 && param = 0 then some w else none
  | 3 => if etype ≤ 6 && param = 0 then some (n / 8 + ((fluxFields 1 n body).filter (· == 1)).length * w) else none
  | 4 => if 4 ≤ etype && etype ≤ 6 && param ≤ 8 then some (1 + n * param / 8 + n * (fluxFrac etype + 1) / 8) else none
  | 5 => if etype ≤ 3 && param ≤ 16 then some (w + n * param / 8) else none
  | _ => none

/-- The raw block a body stands for (R359, R361); none when an exponent overflows. -/
def fluxRaw (mode etype param : Nat) (body : Bytes) : Option Bytes :=
  let w := fluxWidth etype
  let n := 256 / w
  match mode with
  | 0 => some (body.take 256)
  | 1 => some (List.replicate 256 0)
  | 2 => some ((List.replicate n (body.take w)).flatten)
  | 3 => some (fluxJoin w (fluxUnpack w (fluxFields 1 n body) (body.drop (n / 8))))
  | 4 =>
    let f := fluxFrac etype
    let b := leNat (body.take 1)
    let ds := fluxFields param n (body.drop 1)
    let sm := fluxFields (f + 1) n (body.drop (1 + n * param / 8))
    if ds.any fun d => 2 ^ fluxExp etype ≤ b + d then none
    else some (fluxJoin w ((ds.zip sm).map fun x => x.2 / 2 ^ f * 2 ^ (8 * w - 1) + (b + x.1) * 2 ^ f + x.2 % 2 ^ f))
  | _ =>
    let a := leNat (body.take w)
    some (fluxJoin w ((fluxFields param n (body.drop w)).map fun q => (a + q) % 2 ^ (8 * w)))

/-- One coded block: its raw block and the rest of the stream. -/
def fluxBlockOpen (b : Bytes) : Option (Bytes × Bytes) :=
  let h := leNat (b.take 4)
  let len := bits h 5 0
  let body := (b.drop 4).take (8 * len)
  if b.length < 4 || body.length ≠ 8 * len || bits h 15 6 ≠ 0 then none
  else
    let mode := bits h 31 28
    let etype := bits h 27 24
    let param := bits h 23 16
    match fluxNeed mode etype param body with
    | none => none
    | some n =>
      if len ≠ (n + 7) / 8 || (mode ≠ 0 && 31 < len) || (body.drop n).any (· != 0) then none
      else (fluxRaw mode etype param body).map fun r => (r, b.drop (4 + 8 * len))

/-- `k` coded blocks: the raw bytes and what follows. -/
def fluxBlocks : Nat → Bytes → Option (Bytes × Bytes)
  | 0, b => some ([], b)
  | k + 1, b =>
    match fluxBlockOpen b with
    | none => none
    | some (r, rest) => (fluxBlocks k rest).map fun x => (r ++ x.1, x.2)

/-- Expand the stream of a message of `n` raw bytes; none when it is malformed (R358, R365). -/
def fluxExpand (n : Nat) (b : Bytes) : Option Bytes :=
  match fluxBlocks ((n + 255) / 256) b with
  | none => none
  | some (r, rest) => if 16 ≤ rest.length || rest.any (· != 0) then none else some (r.take n)

/-! ## Compressor (R363, R364) -/

/-- A coded block (R356, R359). -/
def fluxBlock (mode etype param : Nat) (body : Bytes) : Bytes :=
  let len := (body.length + 7) / 8
  toLE 4 (mode * 2 ^ 28 + etype * 2 ^ 24 + param * 2 ^ 16 + len) ++ body ++ List.replicate (8 * len - body.length) 0

/-- The smallest width that holds a range (R363). -/
def fluxBits (range : Nat) : Nat := if range = 0 then 0 else Nat.log2 range + 1

def listMin (l : List Nat) : Nat := l.foldl min (l.headD 0)
def listMax (l : List Nat) : Nat := l.foldl max 0

/-- The candidates of R363 in their order, those beyond R362 left out. -/
def fluxCandidates (b : Bytes) : List Bytes :=
  let es := fun (t : Nat) => fluxElems (fluxWidth t) b
  let zero := if b.all (· == 0) then [fluxBlock 1 0 0 []] else []
  let const := (List.range 4).filterMap fun t =>
    let l := es t
    if l.all (· == l.headD 0) then some (fluxBlock 2 t 0 (b.take (fluxWidth t))) else none
  let bitmap := (List.range 4).filterMap fun t =>
    let l := es t
    let body := fluxPlane 1 (l.map fun x => if x = 0 then 0 else 1) ++ fluxJoin (fluxWidth t) (l.filter (· != 0))
    if body.length ≤ 248 then some (fluxBlock 3 t 0 body) else none
  let delta := (List.range 4).filterMap fun t =>
    let l := es t
    let a := listMin l
    let c := fluxBits (listMax l - a)
    let w := fluxWidth t
    if 16 < c || 248 < w + 256 / w * c / 8 then none
    else some (fluxBlock 5 t c (toLE w a ++ fluxPlane c (l.map (· - a))))
  let xsplit := [4, 5, 6].filterMap fun t =>
    let l := es t
    let f := fluxFrac t
    let w := fluxWidth t
    let ex := l.map fun x => x / 2 ^ f % 2 ^ fluxExp t
    let a := listMin ex
    let d := fluxBits (listMax ex - a)
    let body := toLE 1 a ++ fluxPlane d (ex.map (· - a)) ++ fluxPlane (f + 1) (l.map fun x => x / 2 ^ (8 * w - 1) * 2 ^ f + x % 2 ^ f)
    if d ≤ 8 && body.length ≤ 248 then some (fluxBlock 4 t d body) else none
  zero ++ const ++ bitmap ++ delta ++ xsplit

/-- The coded form of a raw block: the first candidate with the fewest bytes, else RAW (R363). -/
def fluxCodeBlock (b : Bytes) : Bytes :=
  match fluxCandidates b with
  | [] => fluxBlock 0 0 0 b
  | c :: cs => cs.foldl (fun a x => if x.length < a.length then x else a) c

/-- Code `k` raw blocks. -/
def fluxCodeBlocks : Nat → Bytes → Bytes
  | 0, _ => []
  | k + 1, b =>
    let r := b.take 256
    fluxCodeBlock (r ++ List.replicate (256 - r.length) 0) ++ fluxCodeBlocks k (b.drop 256)

/-- The coded stream of a payload. -/
def fluxCode (b : Bytes) : Bytes := fluxCodeBlocks ((b.length + 255) / 256) b

/-- The form in which the module sends a message (R364): MSG payloads of 256 bytes or more are coded when that takes fewer
slots. -/
def fluxOut (o : Out) : Out :=
  match o with
  | .pkt .msg m =>
    if m.flux || m.bytes < 256 then o
    else
      let c := fluxCode m.body
      if (c.length + 15) / 16 < (m.bytes + 15) / 16 then .pkt .msg { m with flux := true, body := c } else o
  | _ => o

/-- A received MSG message with its payload expanded (R346, R366); none where it is malformed or BYTES disagrees with it. -/
def openPkt (m : PktMsg) : Option PktMsg :=
  if m.flux then
    if m.bytes < 256 || 2048 < m.bytes then none
    else (fluxExpand m.bytes m.body).map fun d => { m with flux := false, body := d }
  else if m.body.length = m.bytes then some m else none

/-- A malformed stream is reported to the manager and the port's owner (R366). -/
def fluxEvent (p : Nat) (m : PktMsg) (s : State) : State :=
  if m.flux && 256 ≤ m.bytes then eventMO 0x0015 (s.port p).owner [p, m.src] s else s

end Sys2Proof.Machine
end

