-- ==== Sys2Proof/Machine/Damper.lean ====
section
/-! DEFINITION. The Damper: parameters (R256 to R260), counters, and the choice of the next frame (R246 to R251). -/

namespace Sys2Proof.Machine

/-- New RATE and BURST of a bucket (R258): a positive balance is cut to the new cap, a negative one kept; from rate 0, or
fresh, it starts full. -/
def Bucket.set (b : Bucket) (rate cap t : Nat) (fresh : Bool) : Bucket :=
  { rate := rate, cap := cap, at_ := t, level := if fresh || (b.rate == 0 && rate != 0) then (cap : Int) else min (b.now t) cap }

/-- Port parameters take effect (R256, R258). -/
def applyPort (t d : Nat) (x : DPort) : DPort :=
  { x with sh := x.sh.set (bits d 255 224) (bwCap (bits d 223 215)) t false, heatq := bits d 207 192, mask := bits d 191 170 }

/-- Service parameters take effect. -/
def applySvc (t d : Nat) (x : DPort) : DPort :=
  { x with svcs := x.svcs.modify (bits d 10 8) fun v => { v with
      sh := v.sh.set (bits d 127 96) (bwCap (bits d 95 87)) t false, quantum := bits d 79 64 } }

/-- Subscriber parameters take effect; a new entry starts with full buckets. -/
def applySub (t d : Nat) (x : DPort) : DPort :=
  let i := bits d 27 16
  let fresh := !(x.subs.any (·.idx == i))
  let base : DSub := if fresh then { idx := i } else (x.subs.find? (·.idx == i)).getD {}
  let n : DSub := { base with
    key := bits d 79 58, quantum := bits d 111 96, heatq := bits d 95 80,
    bw := base.bw.set (bits d 255 224) (bwCap (bits d 223 215)) t fresh,
    rq := base.rq.set (bits d 207 184) (bits d 183 168 * 1000000) t fresh,
    sh := base.sh.set (bits d 167 136) (bwCap (bits d 135 127)) t fresh }
  { x with subs := x.subs.filter (·.idx != i) ++ [n] }

def applyParam (t : Nat) (x : DPort) (p : DParam) : DPort :=
  match p with
  | .port d => applyPort t d x
  | .svc d => applySvc t d x
  | .sub d => applySub t d x

/-- The port as it will be once every accepted parameter is in effect. -/
def accepted (x : DPort) : DPort := (x.params.map (·.2)).foldl (applyParam 0) x

/-- The profile gives the port work: it is not disabled, whether or not a partition holds it now. -/
def portEnabled (s : State) (tray : Bool) (p : Nat) : Bool := if tray then (s.tray p).mode != 0 else (s.port p).kind != 3

/-- Number of subscriber entries of the module: those created on any port, and the default and the stranger of every port that the
profile enables, so that a port that gets an owner later finds its two (R244, log entry 90). -/
def subEntries (s : State) : Nat :=
  let of_ := fun (tray : Bool) (p : Nat) =>
    ((accepted (s.dport tray p)).subs.filter (·.idx != 0)).length + (if portEnabled s tray p then 2 else 0)
  ((List.range 256).map (of_ false)).sum + ((List.range 32).map (of_ true)).sum

def portDesc (d : Nat) : Bool × Nat := (bit d 15, bits d 7 0)
def portRange (d : Nat) : Bool := !(bit d 15) || bits d 7 0 < 32

/-- R257 for DAMPER_PORT_SET. -/
def portSetStatus (d : Nat) (s : State) : Status :=
  let x := accepted (s.dport (bit d 15) (bits d 7 0))
  if bits d 214 208 ≠ 0 || bits d 169 16 ≠ 0 || bits d 14 8 ≠ 0 || !portRange d || bwBad (bits d 255 224) (bits d 223 215)
      || (bits d 191 170 != x.mask && x.subs.any (·.idx != 0)) then .badDescriptor
  else if !portWorks s (bit d 15) (bits d 7 0) then .noAccess
  else .ok

/-- R257 for DAMPER_SVC_SET. -/
def svcSetStatus (d : Nat) (s : State) : Status :=
  if bits d 86 80 ≠ 0 || bits d 63 16 ≠ 0 || bits d 14 11 ≠ 0 || !portRange d || bwBad (bits d 127 96) (bits d 95 87)
      || bits d 79 64 = 0 || bits d 79 64 > 4096 then .badDescriptor
  else if !portWorks s (bit d 15) (bits d 7 0) then .noAccess
  else .ok

/-- R257 for DAMPER_SUB_SET. -/
def subSetStatus (d : Nat) (s : State) : Status :=
  let x := accepted (s.dport (bit d 15) (bits d 7 0))
  let i := bits d 27 16
  let key := bits d 79 58
  if bits d 214 208 ≠ 0 || bits d 126 112 ≠ 0 || bits d 57 28 ≠ 0 || bits d 14 8 ≠ 0 || !portRange d
      || bwBad (bits d 255 224) (bits d 223 215) || rqBad (bits d 207 184) (bits d 183 168)
      || bwBad (bits d 167 136) (bits d 135 127) || bits d 111 96 = 0 || bits d 111 96 > 4096
      || i > 4094 || (i == 0 && key != 0) || key &&& x.mask ≠ key then .badDescriptor
  else if !portWorks s (bit d 15) (bits d 7 0) then .noAccess
  else if i ≠ 0 && x.subs.any (fun y => y.idx != 0 && y.idx != i && y.key == key) then .busy
  else if !(x.subs.any (·.idx == i)) && (x.subs.length + 1 ≥ 4096 || subEntries s ≥ 65536) then .busy
  else .ok

/-- Accept parameters for the next slot boundary (R258). -/
def addParam (d : Nat) (p : DParam) (s : State) : State :=
  modD (bit d 15) (bits d 7 0) (fun x => { x with params := x.params ++ [(s.slot, p)] }) s

def setPort (d : Nat) (s : State) : Status × State :=
  match portSetStatus d s with
  | .ok => (.ok, addParam d (.port d) s)
  | st => (st, s)

def setSvc (d : Nat) (s : State) : Status × State :=
  match svcSetStatus d s with
  | .ok => (.ok, addParam d (.svc d) s)
  | st => (st, s)

def setSub (d : Nat) (s : State) : Status × State :=
  match subSetStatus d s with
  | .ok => (.ok, addParam d (.sub d) s)
  | st => (st, s)

/-- DAMPER_PARAM_APPLY: parameters accepted in an earlier slot take effect at the boundary (R258). -/
def paramApply (tray : Bool) (p : Nat) (s : State) : State :=
  let sl := s.slot
  let t := s.ns
  modD tray p (fun x =>
    let now := (x.params.filter fun q => q.1 < sl).map (·.2)
    { now.foldl (applyParam t) x with params := x.params.filter fun q => !(q.1 < sl) }) s

/-- DAMPER_SUB_CLEAR (R258): the queued frames move to the tail of subscriber 0's queues; an idle subscriber 0 becomes active with
them (R251). -/
def subClear (j : Job) (s : State) : Status × State :=
  let p := fldLE j.payload 0 1
  let tr := fldLE j.payload 1 1
  let i := fldLE j.payload 2 2
  if tr > 1 || (tr = 1 && p > 31) || i = 0 || i ≥ 4095 then (.badDescriptor, s)
  else
    let t := s.ns
    (.ok, modD (tr == 1) p (fun x =>
      if x.subs.any (·.idx == i) then
        let x := if x.q.any (·.sub == i) && !x.q.any (·.sub == 0) && !x.gone.any (·.2 == 0) then
            x.modSub 0 fun y => { y with sh := y.sh.drain t } else x
        { x with
          subs := x.subs.filter (·.idx != i),
          q := x.q.filter (·.sub != i) ++ (x.q.filter (·.sub == i)).map fun f => { f with sub := 0 },
          svcs := x.svcs.map fun v => { v with pairs := v.pairs.filter (·.1 != i), open_ := if v.open_ = some i then none else v.open_ },
          params := x.params.filter fun q => match q.2 with
            | .sub d => bits d 27 16 != i
            | _ => true }
      else x) s)

/-- One DAMPER_STATS record of R491. -/
def statsRec (d : DPort) (i : Nat) : Bytes :=
  if i = 4095 || d.subs.any (·.idx == i) then
    let x := d.sub i
    toLE 2 i ++ [1] ++ toLE 1 x.heatMax ++ [0, 0, 0, 0] ++ toLE 8 x.framesOut ++ toLE 8 x.bytesOut ++ toLE 8 x.reqAdm
      ++ toLE 8 x.msgAdm ++ toLE 8 x.reqRef ++ toLE 8 x.msgRef ++ List.replicate 8 0
  else toLE 2 i ++ List.replicate 62 0

/-- DAMPER_STATS (R260, R491): the read clears the largest Heat. -/
def damperStats (j : Job) (s : State) : End × State :=
  let p := fldLE j.payload 0 1
  let tr := fldLE j.payload 1 1
  let first := fldLE j.payload 2 2
  let n := fldLE j.payload 4 2
  let ten := mbxTenant j.mbx
  if tr > 1 || (tr = 1 && p > 31) || n = 0 || n > (if ten.isSome then 31 else 64) || first + n > 4096 then (.done .badDescriptor, s)
  else if ten.isSome && (if tr = 1 then (s.tray p).owner else (s.port p).owner) != ten then (.done .noAccess, s)
  else
    let d := s.dport (tr == 1) p
    let ids := (List.range n).map (first + ·)
    (.done .ok 0 (ids.flatMap (statsRec d)),
      modD (tr == 1) p (fun d => ids.foldl (fun d i => d.modSub i fun x => { x with heatMax := 0 }) d) s)

/-! ## Choosing the next frame -/

/-- The gate of a service on a port under the running calendar (R231). -/
def gateOf (s : State) (tray : Bool) (p svc : Nat) : Option Gate :=
  if s.cal.running then s.cal.gates.find? fun g => g.tray == tray && g.port == p && g.svc == svc else none

/-- First frame of a service on a port, or of a (service, subscriber) pair. -/
def headOf (d : DPort) (svc : Nat) : Option Frame := d.q.find? (·.svc == svc)
def headPair (d : DPort) (svc sub : Nat) : Option Frame := d.q.find? fun f => f.svc == svc && f.sub == sub

/-- Remove the first frame of a pair. -/
def dropPair (svc sub : Nat) : List Frame → List Frame
  | [] => []
  | f :: r => if f.svc = svc ∧ f.sub = sub then r else f :: dropPair svc sub r

/-- A visit that has nothing more to send ends, and its pointer moves past it (R247); what the queue's emptiness clears waits for
the end of the cycle (R251). -/
def afterSend (slot svc sub : Nat) (d : DPort) : DPort :=
  let past := fun (v : DSvc) => if v.open_ = some sub then { v with open_ := none, subPtr := arbMove slot 4096 sub } else v
  let d := if d.q.any (fun f => f.svc == svc && f.sub == sub) then d else { d with svcs := d.svcs.modify svc past }
  let d := if d.q.any (·.svc == svc) || d.visit != some svc then d else { d with visit := none, uPtr := arbMove slot 8 svc }
  { d with gone := d.gone.filter (· != (svc, sub)) ++ [(svc, sub)] }

/-- Take a frame from its queue and count it (R260). -/
def takeFrame (s : State) (f : Frame) (d : DPort) : DPort :=
  let d := { d with q := dropPair f.svc f.sub d.q }
  let d := d.modSub f.sub fun x => { x with framesOut := x.framesOut + 1, bytesOut := x.bytesOut + 256 * f.raw }
  afterSend s.slot f.svc f.sub d

/-- Subscribers in cyclic order from a service's subscriber pointer (R247). -/
def subOrder (s : State) (v : DSvc) (d : DPort) : List Nat :=
  let ptr := v.subPtr.now s.slot 4096
  let ids := (d.q.map (·.sub)).eraseDups
  sortBy (fun a b => decide (a ≤ b)) (ids.filter (ptr ≤ ·)) ++ sortBy (fun a b => decide (a ≤ b)) (ids.filter (· < ptr))

/-- The frame that a gated service sends next in its window (R246): that of the first subscriber at or after its pointer. -/
def gatedHead (s : State) (svc : Nat) (d : DPort) : Option Frame :=
  (subOrder s (d.svcs.getD svc {}) d).findSome? fun i => headPair d svc i

/-- The gated service in window whose next frame may start, by its own arbiter (R233, R246). -/
def gatedPick (s : State) (tray : Bool) (p : Nat) (d : DPort) : Option Nat :=
  arbWin 8 (d.gPtr.now s.slot 8) fun v =>
    match gateOf s tray p v, gatedHead s v d with
    | some g, some f => g.open_ && mayStart s tray p v f.raw
    | _, _ => false

/-- A gated frame (R246, R248): no deficit and no shaper. -/
def sendGated (s : State) (svc : Nat) (d : DPort) : Option (Frame × DPort) :=
  match gatedHead s svc d with
  | none => none
  | some f =>
    let d := { d with gPtr := arbMove s.slot 8 svc, svcs := d.svcs.modify svc fun v => { v with subPtr := arbMove s.slot 4096 f.sub } }
    some (f, takeFrame s f d)

/-- The first frame of a pair may start: it ends before a swap that closes its service (R233, R239). -/
def pairStarts (s : State) (tray : Bool) (p : Nat) (d : DPort) (svc i : Nat) : Bool :=
  (headPair d svc i).elim false fun f => mayStart s tray p svc f.raw

/-- An ungated service is eligible (R247). -/
def svcEligible (s : State) (tray : Bool) (p : Nat) (d : DPort) (v : Nat) : Bool :=
  (gateOf s tray p v).isNone && (d.svcs.getD v {}).sh.lets s.ns && (v == 7 || d.sh.lets s.ns)
    && ((d.q.map (·.sub)).eraseDups.any (pairStarts s tray p d v))

/-- A subscriber is eligible outside a window (R247). -/
def subEligible (s : State) (tray : Bool) (p : Nat) (d : DPort) (svc i : Nat) : Bool :=
  (d.sub i).sh.lets s.ns && pairStarts s tray p d svc i

def pairDef (v : DSvc) (i : Nat) : Int := (v.pairs.find? (·.1 == i)).elim 0 (·.2)
def setPair (v : DSvc) (i : Nat) (x : Int) : DSvc := { v with pairs := (i, x) :: v.pairs.filter (·.1 != i) }

/-- One service visit in progress (R247, steps 1 to 4): the frame it sends next, or none when the visit ends. `fuel`
bounds the subscriber visits tried. -/
def visitSend (s : State) (tray : Bool) (p svc : Nat) : Nat → DPort → Option Frame × DPort
  | 0, d => (none, d)
  | fuel + 1, d =>
    let v := d.svcs.getD svc {}
    match v.open_ with
    | some i =>
      if subEligible s tray p d svc i then
        match headPair d svc i with
        | none => (none, d)
        | some f =>
          if pairDef v i < f.raw then
            visitSend s tray p svc fuel { d with svcs := d.svcs.modify svc fun v => { v with open_ := none, subPtr := arbMove s.slot 4096 i } }
          else if v.deficit < f.raw then (none, d)
          else (some f, { d with svcs := d.svcs.modify svc fun v => setPair { v with deficit := v.deficit - f.raw } i (pairDef v i - f.raw) })
      else
        visitSend s tray p svc fuel { d with svcs := d.svcs.modify svc fun v => { v with open_ := none, subPtr := arbMove s.slot 4096 i } }
    | none =>
      match (subOrder s v d).find? (subEligible s tray p d svc) with
      | none => (none, d)
      | some i =>
        let q := (d.sub i).quantum
        let begin_ := fun (v : DSvc) => setPair { v with open_ := some i } i (pairDef v i + q)
        visitSend s tray p svc fuel { d with svcs := d.svcs.modify svc begin_ }

/-- The port's ungated choice (R247): the visit in progress goes on, or the next eligible service is visited with its
QUANTUM added. `fuel` bounds the visits tried in this cycle. -/
def sendUngated (s : State) (tray : Bool) (p : Nat) : Nat → DPort → Option Frame × DPort
  | 0, d => (none, d)
  | fuel + 1, d =>
    match d.visit with
    | some v =>
      if svcEligible s tray p d v then
        match visitSend s tray p v 65536 d with
        | (some f, d) => (some f, d)
        | (none, d) => sendUngated s tray p fuel { d with visit := none, uPtr := arbMove s.slot 8 v }
      else sendUngated s tray p fuel { d with visit := none, uPtr := arbMove s.slot 8 v }
    | none =>
      match arbWin 8 (d.uPtr.now s.slot 8) (svcEligible s tray p d) with
      | none => (none, d)
      | some v =>
        sendUngated s tray p fuel { d with visit := some v, svcs := d.svcs.modify v fun x => { x with deficit := x.deficit + x.quantum } }

/-- Charge the shapers an ungated frame (R249): service, subscriber and port. -/
def chargeShapers (t : Nat) (f : Frame) (d : DPort) : DPort :=
  let u := f.raw * 256 * 8000
  let d := { d with sh := d.sh.charge t u, svcs := d.svcs.modify f.svc fun v => { v with sh := v.sh.charge t u } }
  d.modSub f.sub fun x => { x with sh := x.sh.charge t u }

/-- The next frame of a port (R246): SCH first, then the gated services in window, then the ungated ones. -/
def nextFrame (s : State) (tray : Bool) (p : Nat) (d : DPort) : Option Frame × DPort :=
  match d.q.find? (·.svc == 8) with
  | some f => (some f, { d with q := dropPair 8 f.sub d.q })
  | none =>
    match gatedPick s tray p d with
    | some v => match sendGated s v d with
      | some (f, d) => (some f, d)
      | none => (none, d)
    | none =>
      match sendUngated s tray p 65536 d with
      | (some f, d) => (some f, takeFrame s f (chargeShapers s.ns f d))
      | (none, d) => (none, d)

/-- The channel of a message. -/
def Out.vc : Out → Vc
  | .line vc _ _ => vc
  | .pkt vc _ => vc
  | .tray .. => .mgt
  | .mirror .. => .msg

/-- An SCH message (R219). -/
def Out.schMsg : Out → Option PktMsg
  | .pkt .sch m => some m
  | _ => none

/-- The link has the credits a message takes (R340); the draft register of R419 stops a channel. -/
def creditFor (s : State) (p : Nat) (o : Out) : Bool :=
  let c := o.vc.code
  !bit (draftReg s (0x3000 + 4 * p)).toNat (24 + c) && decide (o.rawSlots ≤ (s.port p).cred.getD (c - 1) 0)

/-- A POST passed onto an accelerator link is answered OK then (R284). -/
def postAnswer (p : Nat) (o : Out) (s : State) : State :=
  match o with
  | .pkt .msg m => if m.opc = 1 && (s.port p).kind == 0 then answerMsg m .ok s else s
  | _ => s

/-- A message whose delivery is watched until the peer acknowledges its flits (R334): one that is answered otherwise on link
down, or mirroring traffic. -/
def watched (s : State) (p : Nat) (o : Out) : Bool :=
  match o with
  | .pkt .msg m => (m.opc == 1 && (s.port p).kind != 0) || m.opc == 2 || m.opc == 4 || m.opc == 6
  | .mirror .. => true
  | _ => false

/-- The frames of a Saxel port's queue that may leave now: their channel has the credits (R301, R340). One that lacks them holds back
only those of its own service, subscriber and channel. -/
def readyQ (s : State) (p : Nat) (q : List Frame) : List Frame :=
  (q.foldl (fun (a : List Frame × List (Nat × Nat × Nat)) f =>
    let k := (f.svc, f.sub, f.out.vc.code)
    if a.2.contains k then a else if creditFor s p f.out then (a.1 ++ [f], a.2) else (a.1, a.2 ++ [k])) ([], [])).1

/-- A port as its scheduler sees it: with the frames that may leave. -/
def readyPort (s : State) (p : Nat) (d : DPort) : DPort := { d with q := readyQ s p d.q }

/-- The port after a choice among those frames, with the frames that stay; a pair whose frames stay has not emptied. -/
def keepQ (old : DPort) (f : Option Frame) (d : DPort) : DPort :=
  let q := f.elim old.q old.q.erase
  { d with q := q, gone := d.gone.filter fun x => !(q.any fun f => f.svc == x.1 && f.sub == x.2) }

/-- FRAME_SELECT: when the transmit path can take a new frame, the scheduler's choice goes to it whole, Flux-coded where
R364 says so. On a Saxel port it chooses among the frames whose uncoded slots have credits (R301, R340, R369). -/
def frameSelect (tray : Bool) (p : Nat) (s : State) : State :=
  let d := s.dport tray p
  if !tray && !(s.port p).tx.isEmpty then s
  else
  let r0 := nextFrame s tray p (if tray then d else readyPort s p d)
  let r := if tray then r0 else (r0.1, keepQ d r0.1 r0.2)
  match r.1 with
  | none => modD tray p (fun _ => r.2) s
  | some f =>
    if tray then
      let s := modTray p (fun x => { x with sent := some f.out }) (modD true p (fun _ => r.2) s)
      count (s.tray p).owner (fun c => { c with bytesOut := c.bytesOut + 256 * f.raw }) s
    else
      let o := if s.power.readyFull then fluxOut f.out else f.out
      let going := if watched s p f.out then [(none, f.out)] else []
      let s := modPort p (fun x => { x with tx := o.slots, going := x.going ++ going, sch := f.out.schMsg, cred := x.cred.modify (f.out.vc.code - 1) (· - f.out.rawSlots) })
        (modD false p (fun _ => r.2) s)
      postAnswer p f.out s

/-! ## Meanings -/

def execDamperPortSet (m : MbxId) (s : State) : Host.Outcome State Fault Refusal :=
  .next (settle s (runCmd 0x0601 m (simply fun j s => setPort (leNat j.payload) s) s))
def execDamperSvcSet (m : MbxId) (s : State) : Host.Outcome State Fault Refusal :=
  .next (settle s (runCmd 0x0602 m (simply fun j s => setSvc (leNat j.payload) s) s))
def execDamperSubSet (m : MbxId) (s : State) : Host.Outcome State Fault Refusal :=
  .next (settle s (runCmd 0x0603 m (simply fun j s => setSub (leNat j.payload) s) s))
def execDamperSubClear (m : MbxId) (s : State) : Host.Outcome State Fault Refusal :=
  .next (settle s (runCmd 0x0604 m (simply subClear) s))
def execDamperStats (m : MbxId) (s : State) : Host.Outcome State Fault Refusal :=
  .next (settle s (runCmd 0x0605 m damperStats s))
def execFrameSelect (tray : Bool) (port : Nat) (s : State) : Host.Outcome State Fault Refusal :=
  .next (settle s (Sys2Proof.Machine.frameSelect tray port s))
def execDamperParamApply (tray : Bool) (port : Nat) (s : State) : Host.Outcome State Fault Refusal :=
  .next (settle s (paramApply tray port s))

end Sys2Proof.Machine
end

