-- ==== Sys2Proof/Machine/Links.lean ====
section
/-! DEFINITION. Saxel links: bring-up, flits, retry, sessions, heartbeat (R330 to R349, R446). -/

namespace Sys2Proof.Machine

/-! ## Link down, lanes, guard bands -/

/-- Mark caching agents crashed (R308); AGENT_CRASH then reclaims them. The peer behind one must be admitted again (R309),
unless it had lost the caching role before (R489). -/
def crashAgents (q : Agent → Bool) (s : State) : State :=
  let out := s.dir.agents.filter fun g => q g && !g.tray && !g.crashed && !g.leaving
  out.foldl (fun s g => modPort g.port (fun x => { x with admitted := false, caching := false }) s)
    { s with dir.agents := modWhere q (fun g => { g with crashed := true }) s.dir.agents }

/-- The caching agent of a port crashes (R308). -/
def crashPort (tray : Bool) (p : Nat) (s : State) : State := crashAgents (fun a => a.tray == tray && a.port == p) s

/-- Messages to a peer that has gone, queued or in flits that it has not acknowledged, are answered NO_ACCESS (R334), those of the
module itself when REQUEST_TIMEOUT finds them so; the queues are emptied, with what R251 clears; mirroring traffic takes the other
twin link. -/
def failQueue (p : Nat) (s : State) : State :=
  let sent := (s.port p).going.map (·.2)
  let gone := (sent ++ (s.dport false p).q.map fun f => f.out).filterMap fun o => match o with
    | .pkt .msg m => if m.opc = 1 || m.opc = 2 || m.opc = 4 || m.opc = 6 then some m else none
    | _ => none
  let svc := fun (o : Out) => match o with
    | .mirror t _ => (s.twin.desc.find? (·.1 == t)).elim 5 fun x => mirrorSvc x.2.2
    | _ => 5
  let all : List (Nat × Out) := sent.map (fun o => (svc o, o)) ++ (s.dport false p).q.map fun f => (f.svc, f.out)
  let mirrors := all.filterMap fun x => match x.2 with
    | .mirror t n => some (x.1, t, n)
    | _ => none
  let s := modPort p (fun x => { x with going := [] }) (modD false p (fun d => { d with
    q := [], visit := none, gone := (d.gone ++ (d.q.filter (·.svc < 8)).map fun f => (f.svc, f.sub)).eraseDups }) s)
  let s := mirrors.foldl (fun s x => mirrorFrame x.1 x.2.1 x.2.2 s) s
  gone.foldl (fun s m =>
    match msgTrk s m.src m.txn with
    | some k => if k.own.isSome then { s with mem.trks := modWhere (·.id == k.id) (fun k => { k with failed := true }) s.mem.trks }
                else answerMsg m .noAccess s
    | none => answerMsg m .noAccess s) s

/-- Every twin link is down (R440). -/
def twinDark (s : State) : Bool := (s.port s.twin.portA).st != .up && (s.port s.twin.portB).st != .up

/-- The open windows of a port that are shorter than their guard band, by service and opening entry (R234). -/
def shortSet (s : State) (tray : Bool) (p : Nat) : List (Nat × Nat) :=
  if !s.cal.running then []
  else
    let len := s.cal.hdr.period * 256
    (List.range 8).flatMap fun v =>
      let l := gateEvs (activeImg s.cal) s.cal.hdr tray p v
      ((l.zip (l.rotate 1)).filter fun x =>
        x.1.kind == 0 && decide ((x.2.time + len - x.1.time) % len < guardBand s tray p (bits x.1.arg 4 0))).map fun x => (v, x.1.e)

/-- A port changes its rate or its lanes: every service with a window that this makes short is reported (R234). -/
def rateChange (tray : Bool) (p : Nat) (f : State → State) (s : State) : State :=
  let was := shortSet s tray p
  let s := f s
  let now := (((shortSet s tray p).filter (! was.contains ·)).map (·.1)).eraseDups
  now.foldl (fun s v => event 0x0007 true [] none [p, v] s) s

/-- The link goes down (R334): sessions end, the peer is crashed and a stranger again, undelivered messages fail, the
port returns to DETECT, LINK_DOWN is raised. -/
def linkDown (p : Nat) (s : State) : State :=
  let pt := s.port p
  let s := rateChange false p (modPort p fun x => { x with
    st := .detect, peer := none, sess := {}, admitted := false, caching := false, lanes := [], trained := [],
    stepping := false, rate := 2, txSeq := 0, txAck := 4095, replay := [], replaying := [], lastNak := none,
    nakRuns := 0, rxSeq := 4095, nak := false, cred := List.replicate 7 0, owed := List.replicate 7 0, rx := [],
    tx := [], sch := none, hello := none, helloSent := none, ann := none, syncOpen := false, downs := x.downs + 1 }) s
  let s := failQueue p (crashPort false p s)
  let s := eventMO 0x0032 pt.owner [p] s
  if pt.kind = 2 && twinDark s && s.twin.downAt.isNone && s.twin.st != .unpaired then { s with twin.downAt := some s.t } else s

/-- The link is up or retraining (R332). -/
def linkAlive (s : State) (p : Nat) : Bool := (s.port p).st == .up || (s.port p).st == .retrain

/-- The lanes of a port. -/
def portLanes (s : State) (p : Nat) : List Nat := if (s.port p).wide then [p, p + 1, p + 2, p + 3] else [p]

/-- The rates a module offers under its profile's limit, by bit (R333, R427). -/
def ownRates (m : Nat) : Nat := if m = 0 then 7 else if m = 1 then 3 else 1

/-- The rate a port aims at: the highest that both ends offer, 112 Gb/s under the brake (R331, R333, R477). A lane that does not hold it
leaves the port (R334, log entry 93). -/
def targetRate (s : State) (p : Nat) : Nat :=
  let r := (s.port p).peer.elim 7 (·.rates) &&& ownRates (s.port p).maxRate
  if s.power.brake then 2 else if bit r 2 then 0 else if bit r 1 then 1 else 2

/-- A lane leaves its port, which retrains on the others (R334, R446); LANE_RETRAIN is raised. -/
def laneOut (p lane : Nat) (s : State) : State :=
  let pt := s.port p
  if pt.st == .up && pt.lanes.contains lane then
    eventMO 0x0031 pt.owner [p, lane] (rateChange false p (modPort p fun x => { x with
      st := .retrain, lanes := if x.lanes.length ≤ 1 then x.lanes else x.lanes.erase lane, retrains := x.retrains + 1 }) s)
  else s

/-! ## Bring-up (R332, R333) -/

def detectProbe (p : Nat) (s : State) : State :=
  if portWorks s false p && s.power.started && (s.port p).st == .disabled && !inReset s && !(s.power.refLost.getD (p / 128) false) then modPort p (fun x => { x with st := .detect }) s else s

def peerDetected (p : Nat) (s : State) : State :=
  if portWorks s false p && (s.port p).st == .detect && !inReset s && !(s.power.refLost.getD (p / 128) false) then
    modPort p (fun x => { x with st := .equalize, rate := 2, lanes := [p] }) s
  else s

def equalizeConverged (p : Nat) (s : State) : State :=
  if (s.port p).st == .equalize then modPort p (fun x => { x with st := .align }) s else s

/-- The CONFIG record the module sends (R333): it offers every rate up to the profile's, and the credits of R340 (log entry 11). -/
def configOf (s : State) (p : Nat) : ConfigRec :=
  { serial := s.flash.serial, credits := [1024, 256, 512, 1024, 2048, 32, 512], cell := s.flash.prof.cell, module := s.modNum,
    port := p, role := 1, linkKind := (s.port p).kind, rates := ownRates (s.port p).maxRate }

def codewordLock (p : Nat) (s : State) : State :=
  let t := s.t
  let c := configOf s p
  if (s.port p).st == .align then modPort p (fun x => { x with st := .config, cfg := some c, cfgAt := t, mismatch := false }) s else s

/-- The two CONFIG records agree (R333). -/
def configAgrees (kind : Nat) (r : ConfigRec) : Bool :=
  !r.rsv && r.version == 1 && (if r.role = 0 then kind == 0 else r.role == 1 && (kind == 1 || kind == 2) && r.linkKind == kind)

def config (p : Nat) (r : ConfigRec) (s : State) : State :=
  let pt := s.port p
  let t := s.t
  if pt.st != .config then s
  else if configAgrees pt.kind r then
    modPort p (fun x => { x with peer := some r, mismatch := false, cred := r.credits, cfgAt := t }) s
  else event 0x0013 true [] none [p] (modPort p (fun x => { x with peer := none, mismatch := true, cfgAt := t }) s)

/-- CONFIG is repeated every 100 ms while the pair does not match (R333). -/
def configRepeat (p : Nat) (s : State) : State :=
  let pt := s.port p
  let t := s.t
  if pt.st == .config && pt.mismatch && pt.cfgAt + 100000000 ≤ t then
    let c := configOf s p
    event 0x0013 true [] none [p] (modPort p (fun x => { x with cfg := some c, cfgAt := t }) s)
  else s

/-- The module opens the SPDM handshake (R347): between modules, the one with the lower SERIAL. -/
def isRequester (s : State) (p : Nat) : Bool :=
  (s.port p).kind != 0 && (s.port p).peer.elim false fun r => decide (s.flash.serial < r.serial)

/-- The endpoint at the other end of a link (R262, R492). -/
def peerId (s : State) (p : Nat) : Nat :=
  (s.port p).peer.elim 0 fun r => if r.role = 0 then epId s.flash.prof.cell s.modNum p else epId r.cell r.module r.port

/-- An SPDM message of this module (MGT opcode 0x04); its bytes are those of DMTF SPDM and are left out (log entry 11). -/
def sendSpdm (p txn : Nat) (body : Bytes) (s : State) : State :=
  let dst := peerId s p
  let m : PktMsg := { dst := dst, src := ownId s, txn := txn, opc := 4, bytes := max 1 body.length, body := body }
  enqueue false p 7 dst (.pkt .mgt m) s

/-- The hello the module sends on a port (R432). -/
def helloOf (s : State) (p : Nat) : Hello :=
  let f := s.flash.prof
  { serial := s.flash.serial, twinSerial := if (s.port p).kind != 2 then 0 else if s.twin.serial = 0 then f.twinSerial else s.twin.serial, epoch := s.maps.cur.epoch,
    cell := f.cell, module := s.modNum, port := p, role := f.role, linkKind := (s.port p).kind,
    ready := b2n s.power.readyBasic + 2 * b2n s.power.readyFull, secure := f.secure }

/-- The 32-byte payload of a hello (R432). -/
def encHello (h : Hello) : Bytes :=
  toLE 32 (1 + 2 ^ 67 * b2n h.secure + 2 ^ 68 * (h.ready % 4) + 2 ^ 70 * (h.linkKind % 4) + 2 ^ 72 * (h.role % 4)
    + 2 ^ 74 * (h.port % 256) + 2 ^ 82 * (h.module % 16) + 2 ^ 86 * (h.cell % 1024) + 2 ^ 96 * (h.epoch % 2 ^ 32)
    + 2 ^ 128 * (h.twinSerial % 2 ^ 64) + 2 ^ 192 * (h.serial % 2 ^ 64))

/-- A hello's payload read; none where a reserved bit is set or VERSION is not 0x01. -/
def decHello (b : Bytes) : Option Hello :=
  let x := leNat b
  if b.length ≠ 32 || bits x 7 0 ≠ 1 || bits x 66 8 ≠ 0 then none
  else some { serial := bits x 255 192, twinSerial := bits x 191 128, epoch := bits x 127 96, cell := bits x 95 86,
              module := bits x 85 82, port := bits x 81 74, role := bits x 73 72, linkKind := bits x 71 70,
              ready := bits x 69 68, secure := bit x 67 }

/-- Send the module's hello to the id the peer's CONFIG record gives (R432, R433); its TXN is 0 (log entry 12). -/
def sendHello (p : Nat) (s : State) : State :=
  match (s.port p).peer with
  | none => s
  | some r =>
    let h := helloOf s p
    let t := s.t
    let m : PktMsg := { dst := epId r.cell r.module r.port, src := ownId s, opc := 1, hops := 1, epoch := s.maps.cur.epoch,
                        tag := 0xFF01, bytes := 32, body := encHello h }
    enqueue false p 4 m.dst (.pkt .msg m) (modPort p (fun x => { x with helloSent := some h, helloAt := t }) s)

/-- The module's hello crosses only a stage or twin link whose session stands (R433). -/
def carriesHello (s : State) (p : Nat) : Bool :=
  ((s.port p).kind == 1 || (s.port p).kind == 2) && (s.port p).st == .up && (s.port p).sess.phase == 3

/-- HELLO_TIMER: a hello every 1 s, or when a field other than EPOCH has changed (R433). -/
def helloTimer (p : Nat) (s : State) : State :=
  let pt := s.port p
  let same := pt.helloSent.elim false fun h => { h with epoch := 0 } == { helloOf s p with epoch := 0 }
  if carriesHello s p && (!same || pt.helloAt + 1000000000 ≤ s.t) then sendHello p s else s

/-- The requester of the handshake sends its first message, when no session and no handshake is open (R347). -/
def openHandshake (p : Nat) (s : State) : State :=
  let t := s.t
  if isRequester s p && (s.port p).sess.phase == 0 && (s.port p).sess.reqAt.isNone then
    sendSpdm p 0 [] (modPort p (fun x => { x with sess := { x.sess with reqAt := some t } }) s)
  else s

/-- LINK_UP at 112 Gb/s on one lane; the flit stream starts with SEQ 0 (log entry 11). -/
def linkUp (p : Nat) (s : State) : State :=
  let pt := s.port p
  let t := s.t
  if pt.st == .config && pt.peer.isSome && !pt.mismatch then
    let s := rateChange false p (modPort p fun x => { x with
      st := .up, upAt := t, lanes := [p], rate := 2, txSeq := 0, txAck := 4095, rxSeq := 4095, nak := false, replay := [],
      replaying := [], going := [], ackAt := t, alive := t, sess := { startAt := t } }) s
    openHandshake p (if pt.kind = 2 then { s with twin.downAt := none } else s)
  else s

def laneTrained (p lane : Nat) (s : State) : State :=
  let pt := s.port p
  if pt.st == .up && (portLanes s p).contains lane && !pt.lanes.contains lane && !pt.trained.contains lane then
    modPort p (fun x => { x with trained := x.trained ++ [lane] }) s
  else s

/-- A step begins: no new flit is sent (R332). -/
def portStep (p : Nat) (s : State) : State :=
  let pt := s.port p
  let t := s.t
  if pt.st == .up && !pt.stepping && (!pt.trained.isEmpty || pt.rate != targetRate s p) then
    modPort p (fun x => { x with stepping := true, stepAt := t, retrains := x.retrains + 1 }) s
  else s

/-- A step ends: the trained lanes join, the rate changes, unacknowledged flits are replayed (R332). -/
def portStepEnd (p : Nat) (s : State) : State :=
  let pt := s.port p
  if pt.stepping then
    let r := targetRate s p
    rateChange false p (modPort p fun x => { x with
      stepping := false, lanes := (portLanes s p).filter fun l => x.lanes.contains l || x.trained.contains l, trained := [],
      rate := r, replaying := x.replay }) s
  else s

def lockLoss (p : Nat) (s : State) : State := if linkAlive s p then linkDown p s else s
def lccShutdown (p : Nat) (s : State) : State := if linkAlive s p then linkDown p s else s

/-- The 1 ms window of a lane (R446): more than one corrected symbol in 10,000, or four codewords beyond FEC. -/
def adaptationWindow (p lane corrected received bad : Nat) (s : State) : State :=
  let s := modPort p (fun x => { x with corrected := x.corrected + corrected }) s
  if corrected * 10000 > received || bad ≥ 4 then laneOut p lane s else s

/-- A retrain ends (R334, R339): replay resumes, or the link goes down. -/
def retrainDone (p : Nat) (ok : Bool) (s : State) : State :=
  let t := s.t
  if (s.port p).st == .retrain then
    if ok then openHandshake p (modPort p (fun x => { x with st := .up, replaying := x.replay, nakRuns := 0, ackAt := t }) s)
    else linkDown p s
  else s

/-! ## Flits (R335 to R339) -/

/-- A flit header (R335). -/
def flitHdr (seq ack : Nat) (nak : Bool) (va ca vb cb : Nat) (alive phase : Bool) (idle enc : Bool) : Nat :=
  2 ^ 52 * (seq % 4096) + 2 ^ 40 * (ack % 4096) + 2 ^ 39 * b2n nak + 2 ^ 36 * va + 2 ^ 26 * ca + 2 ^ 23 * vb + 2 ^ 13 * cb
    + 2 ^ 12 * b2n alive + 2 ^ 11 * b2n phase + 2 ^ 8 * b2n idle + 2 ^ 7 * b2n enc

/-- The bytes 0 to 247 of a flit. -/
def flitBytes (hdr : Nat) (slots : List (BitVec 128)) : Bytes := toLE 8 hdr ++ slots.flatMap fun x => toLE 16 x.toNat

/-- The first two channels with credits to return (R335); back-pressure of R419 returns none. -/
def credReturns (s : State) (p : Nat) : List (Nat × Nat) :=
  let d := (draftReg s (0x3000 + 4 * p)).toNat
  (((List.range 7).filter fun i => 0 < (s.port p).owed.getD i 0 && !bit d (25 + i)).map fun i =>
    (i + 1, min 1023 ((s.port p).owed.getD i 0))).take 2

/-- The transaction layer serves (R337): the module is neither in reset nor quiesced as a whole (R450). -/
def serving (s : State) : Bool := !inReset s && !s.power.emergency

/-- The flit that carries an SCH message begins: t1 of a SYNC_REQ is taken, and t3 put into a SYNC_RSP (R219). -/
def stampSch (p : Nat) (s : State) : State :=
  match (s.port p).sch with
  | none => s
  | some m =>
    let fx := s.ember.fx
    let x := leNat m.body
    let m' := if bits x 3 0 = 1 then { m with body := toLE 32 (x - 2 ^ 96 * bits x 175 96 + 2 ^ 96 * fx) } else m
    modPort p (fun y => { y with
      sch := none, tx := (Out.pkt .sch m').slots,
      t1 := if bits x 3 0 = 0 && y.syncOpen && bits x 95 80 == y.syncSeq then fx else y.t1 }) s

/-- An SPDM message still waits in the port's queue. -/
def spdmQueued (s : State) (p : Nat) : Bool :=
  (s.dport false p).q.any fun f => match f.out with
    | .pkt .mgt m => m.opc == 4
    | _ => false

/-- FLIT_SEND: the port sends one flit: a replayed one first (R338), then the next slots of the frame, else IDLE. At most
512 PAYLOAD flits stay unacknowledged; nothing new leaves in a step. Encryption starts after FINISH_RSP (R348); the time without an
acknowledgement counts from the first flit that is unacknowledged (R339). -/
def flitSend (p : Nat) (s : State) : State :=
  let pt := s.port p
  if pt.st != .up || pt.stepping || s.power.emergency then s
  else match pt.replaying with
    | f :: r =>
      count pt.owner (fun c => { c with bytesOut := c.bytesOut + 256 })
        (modPort p (fun x => { x with replaying := r, out := some f.flit }) s)
    | [] =>
      let pay := !pt.tx.isEmpty && decide (pt.replay.length < 512)
      let s := if pay then stampSch p s else s
      let pt := s.port p
      let enc := pt.sess.phase == 3 && !pt.sess.finTx
      let n := if enc then 14 else 15
      let body := if pay then pt.tx.take n else []
      let slots := body ++ List.replicate (n - body.length) 0
      let cr := credReturns s p
      let a := cr.getD 0 (0, 0)
      let b := cr.getD 1 (0, 0)
      let hdr := flitHdr pt.txSeq pt.rxSeq pt.nak a.1 a.2 b.1 b.2 (serving s) pt.sess.txPhase (!pay) enc
      let sl := if enc then Config.flitSeal pt.sess.txKey pt.sess.txCount hdr slots else slots
      let every := bits (draftReg s (0x3000 + 4 * p)).toNat 24 22
      let spoil := pay && every != 0 && (pt.flits + 1) % 2 ^ (2 * every + 2) == 0
      let crc := crc64 (flitBytes hdr sl)
      let f : Flit := { hdr := hdr, slots := sl, crc := crc }
      let owed := cr.foldl (fun o x => o.modify (x.1 - 1) (· - x.2)) pt.owed
      let s := modPort p (fun x => { x with
        owed := owed, out := some { f with crc := if spoil then crc ^^^ 1 else crc },
        sess := { x.sess with txCount := x.sess.txCount + b2n enc, finTx := x.sess.finTx && (spdmQueued s p || (x.tx.drop n) != []) },
        ackAt := if pay && x.replay.isEmpty then s.t else x.ackAt,
        tx := if pay then x.tx.drop n else x.tx,
        going := if pay && (x.tx.drop n).isEmpty then x.going.map fun g => (some (g.1.getD pt.txSeq), g.2) else x.going, flits := x.flits + b2n pay,
        txSeq := if pay then (x.txSeq + 1) % 4096 else x.txSeq,
        replay := if pay then x.replay ++ [{ seq := pt.txSeq, flit := f }] else x.replay }) s
      if pay then count pt.owner (fun c => { c with bytesOut := c.bytesOut + 256 }) s else s

/-- A replay begins: every unacknowledged flit is resent in order (R338). -/
def startReplay (p ack : Nat) (s : State) : State :=
  let t := s.t
  let owner := (s.port p).owner
  let s := modPort p (fun x => { x with
    replaying := x.replay, nakRuns := if x.lastNak = some ack then x.nakRuns + 1 else 1, lastNak := some ack, nakAt := t,
    replays := x.replays + 1 }) s
  count owner (fun c => { c with replays := c.replays + 1 }) s

/-- The header of a flit whose CRC passes is acted on (R336): heartbeat, ACK, credits, NAK. -/
def actHeader (p hdr : Nat) (s : State) : State :=
  let t := s.t
  let ack := bits hdr 51 40
  let s := modPort p (fun x =>
    let n := (ack + 4096 - x.txAck) % 4096
    let ok := decide (n ≤ x.replay.length)
    let cr := x.cred.modify (bits hdr 38 36 - 1) (fun c => if bits hdr 38 36 = 0 then c else c + bits hdr 35 26)
    let cr := cr.modify (bits hdr 25 23 - 1) (fun c => if bits hdr 25 23 = 0 then c else c + bits hdr 22 13)
    { x with
      alive := if bit hdr 12 then t else x.alive,
      txAck := if ok then ack else x.txAck, replay := if ok then x.replay.drop n else x.replay,
      going := if ok then x.going.filter fun g => g.1.elim true fun q => (x.replay.drop n).any (·.seq == q) else x.going,
      ackAt := if ok && n != 0 then t else x.ackAt, cred := cr }) s
  let pt := s.port p
  if bit hdr 39 && ack == pt.txAck && (pt.lastNak != some ack || pt.nakAt + 2000 ≤ t) && !pt.replay.isEmpty then startReplay p ack s else s

/-- A flit passes its CRC and fails its tag (R348). -/
def tagFailure (p : Nat) (s : State) : State := linkDown p (eventMO 0x0014 (s.port p).owner [p] s)

/-- The key and count that open a flit (R348): KEY_PHASE names the key in use, the previous one while it is kept, or the next
one once the peer has announced it. -/
def rxKeyOf (ss : Session) (phase : Bool) : Option (Nat × Nat) :=
  if phase == ss.rxPhase then some (ss.rxKey, ss.rxCount) else ss.rxOld.or (ss.rxNext.map (·, 0))

/-- Open the slots of a flit: plaintext before the session, the tag checked after (R336, R347, R348). -/
def openFlit (ss : Session) (f : Flit) : Option (List (BitVec 128)) :=
  if bit f.hdr 7 then
    if ss.phase ≠ 3 then none
    else (rxKeyOf ss (bit f.hdr 11)).bind fun k => Config.flitOpen k.1 k.2 f.hdr f.slots
  else if ss.rxEnc then none else some f.slots

/-- What an accepted encrypted flit leaves of the receive keys (R348): a flit under the next key makes it the key in use and
keeps the previous one, until a PAYLOAD flit under the key in use shows that every flit under the previous one has come. -/
def rxAdvance (ss : Session) (phase payload : Bool) : Session :=
  if phase == ss.rxPhase then { ss with rxEnc := true, rxCount := ss.rxCount + 1, rxOld := if payload then none else ss.rxOld }
  else match ss.rxOld, ss.rxNext with
    | some o, _ => { ss with rxEnc := true, rxOld := some (o.1, o.2 + 1) }
    | none, some k => { ss with rxEnc := true, rxPhase := phase, rxKey := k, rxCount := 1, rxNext := none,
                                rxOld := if payload then none else some (ss.rxKey, ss.rxCount) }
    | none, none => ss

/-- FLIT_RECEIVE (R336, R338): FEC, CRC, header, SEQ, tag, then the slots join the receive buffer. -/
def flitReceive (p : Nat) (f : Flit) (s : State) : State :=
  if (s.port p).st != .up || s.power.emergency then s
  else if !f.fecOk || crc64 (flitBytes f.hdr f.slots) ≠ f.crc then modPort p (fun x => { x with nak := true }) s
  else
    let s := actHeader p f.hdr s
    let pt := s.port p
    let kind := bits f.hdr 10 8
    if kind > 1 then s
    else if kind = 0 && bits f.hdr 63 52 ≠ (pt.rxSeq + 1) % 4096 then modPort p (fun x => { x with nak := true }) s
    else match openFlit pt.sess f with
      | none => tagFailure p s
      | some slots =>
        let s := if bit f.hdr 7 then modPort p (fun x => { x with sess := rxAdvance x.sess (bit f.hdr 11) (kind == 0) }) s else s
        if kind = 1 then s
        else
          let s := modPort p (fun x => { x with rxSeq := bits f.hdr 63 52, nak := false, rx := x.rx ++ slots }) s
          count pt.owner (fun c => { c with bytesIn := c.bytesIn + 256 }) s

/-- The same NAK 2 us after a replay began starts another (R338). -/
def replayTimeout (p : Nat) (s : State) : State :=
  let pt := s.port p
  match pt.lastNak with
  | some a => if pt.st == .up && !pt.replay.isEmpty && a == pt.txAck && pt.nakAt + 2000 ≤ s.t then startReplay p a s else s
  | none => s

/-- Retry escalates to a retrain (R339). -/
def ackStall (p : Nat) (s : State) : State :=
  let pt := s.port p
  if pt.st == .up && !pt.replay.isEmpty && (pt.ackAt + 20000 ≤ s.t || 8 ≤ pt.nakRuns) then
    modPort p (fun x => { x with st := .retrain, retrains := x.retrains + 1 }) s
  else s

/-! ## Sessions (R347 to R349) -/

/-- The session ends or its handshake fails (R349): the peer is a stranger, a caching agent is crashed (R308). -/
def endSession (p : Nat) (s : State) : State :=
  let t := s.t
  crashPort false p (modPort p (fun x => { x with sess := { startAt := t }, admitted := false, caching := false }) s)

/-- An SPDM message that is not performed is answered with a status (R33). -/
def spdmNo (st : Status) (p : Nat) (s : State) : State := sendSpdm p 0 (toLE 2 st.code) s

/-- A handshake that needs a key while a TRNG health test fails is answered BUSY (R390). -/
def spdmBusy (p : Nat) (s : State) : State := spdmNo .busy p s

/-- An SPDM message that passes the policer is handled. No session is established without an identity (R381), and no new key while a TRNG health
test fails (R390). A peer between modules is admitted by the profile (R349). In a secure profile the public-key work of a
partition's port runs in the partition's window alone, that of other ports in the system's share (R374): outside it nothing
happens yet. A message that does not fit the
handshake, or comes without an identity to answer with, is refused with a status (R33). -/
def spdmTake (p : Nat) (m : SpdmMsg) (s : State) : State :=
  let pt := s.port p
  let t := s.t
  let req := isRequester s p
  let again : Option Nat := if req then some t else none
  let open_ := pt.owner.elim (sysShare s) (inWindow s)
  match m with
    | .negotiate =>
      if pt.sess.phase = 0 || pt.sess.phase = 1 then
        sendSpdm p 0 [] (modPort p (fun x => { x with sess := { x.sess with phase := 1, reqAt := again } }) s)
      else spdmNo .badDescriptor p s
    | .keyExchange =>
      if pt.sess.phase = 1 && open_ && s.power.trngFail then spdmBusy p s
      else if pt.sess.phase = 1 && open_ && s.power.noIdentity then spdmNo .noAccess p s
      else if pt.sess.phase = 1 && open_ then
        sendSpdm p 0 [] (modPort p (fun x => { x with sess := { x.sess with phase := 2, reqAt := again } }) s)
      else if pt.sess.phase = 1 then s
      else spdmNo .badDescriptor p s
    | .finish ok =>
      if pt.sess.phase = 2 && open_ then
        if ok then
          let k1 := drawKey s
          let k2 := drawKey k1.2
          let th := drawRandom k2.2
          let s := th.2
          let s := if req then s else sendSpdm p 0 [] s
          let s := modPort p (fun x => { x with
            admitted := x.kind == 1 || x.kind == 2, alive := t,
            sess := { x.sess with phase := 3, reqAt := none, txKey := k1.1, rxKey := k2.1, keyAt := t, txCount := 0,
                                  rxCount := 0, th := th.1, finTx := !req } }) s
          if carriesHello s p then sendHello p s else s
        else endSession p s
      else if pt.sess.phase = 2 then s
      else spdmNo .badDescriptor p s
    | .keyUpdate =>
      if pt.sess.phase = 3 && s.power.trngFail then spdmBusy p s
      else if pt.sess.phase = 3 then
        let k := drawKey s
        sendSpdm p 0 [] (modPort p (fun x => { x with sess := { x.sess with rxNext := some k.1 } }) k.2)
      else spdmNo .badDescriptor p s
    | .keyUpdateAck =>
      if pt.sess.phase = 3 && pt.sess.updating && !s.power.trngFail then
        let k := drawKey s
        modPort p (fun x => { x with sess := { x.sess with
          updating := false, reqAt := none, txPhase := !x.sess.txPhase, txKey := k.1, txCount := 0, keyAt := t } }) k.2
      else s
    | .endSession => endSession p s
    | .getMeasurements txn => sendSpdm p txn (s.mantel.mr.flatMap id) s

/-- The frame of an SPDM message as the policer charges it (R252): its bytes are those of DMTF SPDM, so it counts as the shortest
message (log entry 11). -/
def rawSpdm (s : State) (p : Nat) : Nat := rawFlits ((s.port p).sess.phase == 3) (1 + pktLen 1)

/-- An SPDM message of the peer is policed like every message in MGT (R252) and then handled; a refused one is answered RETRY. -/
def spdm (p : Nat) (m : SpdmMsg) (s : State) : State :=
  if (s.port p).st != .up then s
  else match police p (peerId s p) (rawSpdm s p) true s with
    | (false, h, s) =>
      enqueue false p 7 (peerId s p) (.pkt .msg { msgCmpOf s { src := peerId s p, opc := 4 } .retry with heat := pinHeat s p h }) s
    | (true, _, s) => spdmTake p m s

/-- An SPDM response has not come within 100 ms (R347): the handshake fails. -/
def spdmTimeout (p : Nat) (s : State) : State :=
  match (s.port p).sess.reqAt with
  | some a => if a + 100000000 ≤ s.t then endSession p s else s
  | none => s

/-- A handshake not finished 1 s after LINK_UP retrains the link (R347). -/
def handshakeTimeout (p : Nat) (s : State) : State :=
  let pt := s.port p
  let t := s.t
  if pt.st == .up && pt.sess.phase != 3 && pt.sess.startAt + 1000000000 ≤ t then
    modPort p (fun x => { x with st := .retrain, retrains := x.retrains + 1, sess := { startAt := t } }) s
  else s

/-- A key update starts at 2^31 flits or 60 s (R348). -/
def keyUpdateStart (p : Nat) (s : State) : State :=
  let pt := s.port p
  let t := s.t
  if pt.sess.phase = 3 && !pt.sess.updating && !s.power.trngFail
      && (2 ^ 31 ≤ pt.sess.txCount || pt.sess.keyAt + 60000000000 ≤ t) then
    sendSpdm p 0 [] (modPort p (fun x => { x with sess := { x.sess with updating := true, reqAt := some t } }) s)
  else s

/-- No heartbeat for 1 ms crashes the agent (R308, R337). -/
def heartbeatTimeout (p : Nat) (s : State) : State :=
  if (s.port p).alive + 1000000 ≤ s.t then crashPort false p s else s

/-! ## Port commands (R408, R491) -/

def PortSt.code : PortSt → Nat
  | .disabled => 0
  | .detect => 1
  | .equalize => 2
  | .align => 3
  | .config => 4
  | .up => 5
  | .retrain => 6

/-- PORT_STATUS (R491). -/
def portStatus (j : Job) (s : State) : End × State :=
  let p := fldLE j.payload 0 1
  let tr := fldLE j.payload 1 1
  let ten := mbxTenant j.mbx
  let own := fun (o : Option Nat) => toLE 1 (o.getD 0xFF)
  if tr > 1 || (tr = 1 && p > 31) then (.done .badDescriptor, s)
  else if tr = 0 then
    let x := s.port p
    if ten.isSome && x.owner != ten then (.done .noAccess, s)
    else
      let st := if x.stepping then 6 else if portWorks s false p then x.st.code else 0
      (.done .ok 0 (toLE 1 st ++ toLE 1 x.lanes.length ++ toLE 1 x.rate ++ own x.owner
        ++ toLE 1 (b2n (x.sess.phase == 3) + 2 * b2n x.admitted + 4 * b2n x.caching) ++ [0, 0, 0]
        ++ toLE 8 (min x.replays (2 ^ 64 - 1)) ++ toLE 8 (min x.corrected (2 ^ 64 - 1)) ++ toLE 4 (sat32 x.retrains)
        ++ toLE 4 (sat32 x.downs)), s)
  else
    let x := s.tray p
    if ten.isSome && x.owner != ten then (.done .noAccess, s)
    else
      let st := if !portWorks s true p then 0 else if x.up then 5 else 1
      (.done .ok 0 (toLE 1 st ++ toLE 1 (if x.up then (if x.x8 then 8 else 16) else 0) ++ toLE 1 x.rate ++ own x.owner
        ++ toLE 1 (8 * b2n x.present) ++ [0, 0, 0] ++ toLE 8 0 ++ toLE 8 x.corrected ++ toLE 4 (sat32 x.retrains)
        ++ toLE 4 (sat32 x.downs)), s)

/-- PORT_RETRAIN (R408). -/
def portRetrain (j : Job) (s : State) : Status × State :=
  let p := fldLE j.payload 0 1
  let tr := fldLE j.payload 1 1
  if tr > 1 || (tr = 1 && p > 31) then (.badDescriptor, s)
  else if tr = 1 then (.ok, modTray p (fun x => if x.up then { x with retrains := x.retrains + 1 } else x) s)
  else (.ok, modPort p (fun x => if x.st == .up then { x with st := .retrain, retrains := x.retrains + 1 } else x) s)

/-! ## Meanings -/

def execPortStatus (m : MbxId) (s : State) : Host.Outcome State Fault Refusal :=
  .next (settle s (runCmd 0x0504 m portStatus s))
def execPortRetrain (m : MbxId) (s : State) : Host.Outcome State Fault Refusal :=
  .next (settle s (runCmd 0x0505 m (simply portRetrain) s))
def execDetectProbe (port : Nat) (s : State) : Host.Outcome State Fault Refusal :=
  .next (settle s (Sys2Proof.Machine.detectProbe port s))
def execPeerDetected (port : Nat) (s : State) : Host.Outcome State Fault Refusal :=
  .next (settle s (Sys2Proof.Machine.peerDetected port s))
def execEqualizeConverged (port : Nat) (s : State) : Host.Outcome State Fault Refusal :=
  .next (settle s (Sys2Proof.Machine.equalizeConverged port s))
def execCodewordLock (port : Nat) (s : State) : Host.Outcome State Fault Refusal :=
  .next (settle s (Sys2Proof.Machine.codewordLock port s))
def execConfig (port : Nat) (r : ConfigRec) (s : State) : Host.Outcome State Fault Refusal :=
  .next (settle s (Sys2Proof.Machine.config port r s))
def execConfigRepeat (port : Nat) (s : State) : Host.Outcome State Fault Refusal :=
  .next (settle s (Sys2Proof.Machine.configRepeat port s))
def execLinkUp (port : Nat) (s : State) : Host.Outcome State Fault Refusal :=
  .next (settle s (Sys2Proof.Machine.linkUp port s))
def execLaneTrained (port lane : Nat) (s : State) : Host.Outcome State Fault Refusal :=
  .next (settle s (Sys2Proof.Machine.laneTrained port lane s))
def execPortStep (port : Nat) (s : State) : Host.Outcome State Fault Refusal :=
  .next (settle s (Sys2Proof.Machine.portStep port s))
def execPortStepEnd (port : Nat) (s : State) : Host.Outcome State Fault Refusal :=
  .next (settle s (Sys2Proof.Machine.portStepEnd port s))
def execLockLossTimeout (port : Nat) (s : State) : Host.Outcome State Fault Refusal :=
  .next (settle s (lockLoss port s))
def execLccShutdown (port : Nat) (s : State) : Host.Outcome State Fault Refusal :=
  .next (settle s (Sys2Proof.Machine.lccShutdown port s))
def execAdaptationWindow (port lane corrected received uncorrectable : Nat) (s : State) : Host.Outcome State Fault Refusal :=
  .next (settle s (Sys2Proof.Machine.adaptationWindow port lane corrected received uncorrectable s))
def execRetrainDone (port : Nat) (ok : Bool) (s : State) : Host.Outcome State Fault Refusal :=
  .next (settle s (Sys2Proof.Machine.retrainDone port ok s))
def execFlitSend (port : Nat) (s : State) : Host.Outcome State Fault Refusal :=
  .next (settle s (Sys2Proof.Machine.flitSend port s))
def execFlitReceive (port : Nat) (f : Flit) (s : State) : Host.Outcome State Fault Refusal :=
  .next (settle s (Sys2Proof.Machine.flitReceive port f s))
def execReplayTimeout (port : Nat) (s : State) : Host.Outcome State Fault Refusal :=
  .next (settle s (Sys2Proof.Machine.replayTimeout port s))
def execAckStallTimeout (port : Nat) (s : State) : Host.Outcome State Fault Refusal :=
  .next (settle s (ackStall port s))
def execSpdm (port : Nat) (m : SpdmMsg) (s : State) : Host.Outcome State Fault Refusal :=
  .next (settle s (Sys2Proof.Machine.spdm port m s))
def execSpdmResponseTimeout (port : Nat) (s : State) : Host.Outcome State Fault Refusal :=
  .next (settle s (spdmTimeout port s))
def execHandshakeTimeout (port : Nat) (s : State) : Host.Outcome State Fault Refusal :=
  .next (settle s (Sys2Proof.Machine.handshakeTimeout port s))
def execKeyUpdateStart (port : Nat) (s : State) : Host.Outcome State Fault Refusal :=
  .next (settle s (Sys2Proof.Machine.keyUpdateStart port s))
def execHeartbeatTimeout (port : Nat) (s : State) : Host.Outcome State Fault Refusal :=
  .next (settle s (Sys2Proof.Machine.heartbeatTimeout port s))
def execLaneLockLoss (port lane : Nat) (s : State) : Host.Outcome State Fault Refusal :=
  .next (settle s (laneOut port lane s))

def execHelloTimer (port : Nat) (s : State) : Host.Outcome State Fault Refusal :=
  .next (settle s (Sys2Proof.Machine.helloTimer port s))

end Sys2Proof.Machine
end

