-- ==== Sys2Proof/Machine/Directory.lean ====
section
/-! DEFINITION. Directory slices: requests, snoops, answers, atomics, agents, segments (chapter 11, R172 to R181,
R277 to R289). -/

namespace Sys2Proof.Machine

/-! ## Atomics (R179) -/

/-- Code, width or alignment that R179 does not list. -/
def atomicBad (m : LineMsg) : Bool :=
  10 < m.acode || (m.acode == 1 && m.aw) || m.addr % (if m.aw then 8 else 4) != 0

/-- The new value of an operand of `w` bits (R179). -/
def atomicNew (code w old a b : Nat) : Nat :=
  let x := a % 2 ^ w
  match code with
  | 0 => (old + x) % 2 ^ w
  | 1 => fadd32 old x
  | 2 => if signed w old ≤ signed w x then old else x
  | 3 => if signed w old ≤ signed w x then x else old
  | 4 => min old x
  | 5 => max old x
  | 6 => old &&& x
  | 7 => old ||| x
  | 8 => old ^^^ x
  | 9 => x
  | _ => if old = x then b % 2 ^ w else old

/-- Replace `n` bytes of a line. -/
def patch (d : Bytes) (off : Nat) (v : Bytes) : Bytes := d.take off ++ v ++ d.drop (off + v.length)

/-- An atomic applied to its line: the new line and the old value. -/
def applyAtomic (m : LineMsg) (d : Bytes) : Bytes × Nat :=
  let n := if m.aw then 8 else 4
  let off := m.addr % 64
  let old := fldLE d off n
  (patch d off (toLE n (atomicNew m.acode (8 * n) old m.op1 m.op2)), old)

/-- Masked bytes of `new` over `d` (R277). -/
def maskMerge (d new : Bytes) (mask : BitVec 64) : Bytes :=
  (List.range 64).map fun i => if mask.getLsbD i then new.getD i 0 else d.getD i 0

/-! ## Entries and ways (R293 to R296) -/

def State.ent? (s : State) (l : Nat) : Option DirEnt := s.dir.ents.find? (·.line == l)

/-- The entry of a line, or the I entry that stands for no entry. -/
def State.ent (s : State) (l : Nat) : DirEnt := (s.ent? l).getD { line := l }

def modEnt (l : Nat) (f : DirEnt → DirEnt) (s : State) : State :=
  { s with dir.ents := modWhere (·.line == l) f s.dir.ents }

/-- The entry is the most recently used one (R295). -/
def touch (l : Nat) (s : State) : State :=
  let n := s.dir.stamp + 1
  modEnt l (fun d => { d with used := n }) { s with dir.stamp := n }

/-- An entry without one of its holders (R298). -/
def dropHolder (a : Nat) (d : DirEnt) : DirEnt :=
  if !d.sharers.contains a then d
  else
    let r := d.sharers.filter (· != a)
    if r.isEmpty || d.st == .e || d.st == .m then { d with st := .i, sharers := [], fwd := 0 }
    else if d.st == .f && d.fwd == a then { d with st := .s, sharers := r, fwd := 0 }
    else { d with sharers := r }

/-- The owner of an E or M line. -/
def DirEnt.owner (d : DirEnt) : Option Nat := if d.st == .e || d.st == .m then some d.fwd else none

/-- A segment holds or acquires the line (R177). -/
def segAt (s : State) (l : Nat) : Option Segment :=
  s.dir.segs.find? fun g => g.first ≤ l && l < g.first + g.lines
    && ((anyExtent s (64 * l)).bind fun e => chanOf e (64 * l)) == some g.chan

/-- A snoop or an awaited write-back is open on the line. -/
def snooping (s : State) (l : Nat) : Bool := s.dir.snoops.any (·.line == l) || s.dir.awaits.any (·.line == l)

/-- A transaction, a line hold or a segment is open on the line: its PEND bit (R294). -/
def pendLine (s : State) (l : Nat) : Bool := s.dir.txs.any (·.line == l) || snooping s l || (segAt s l).isSome

/-- The line's set is set-lost (R459). -/
def setLost (s : State) (nook l : Nat) : Bool := s.dir.setLost.contains (nook, l % 4096)

/-- What R295 says of a line that needs a way. -/
inductive WayFor where
  | take (w : Nat) | evict (line : Nat) | wait | uncached
  deriving DecidableEq, Repr

/-- The way of R295 for a line: the lowest way that is I and idle, else the least recently used idle one; a line whose eviction
runs waits for it, and another line waits only while every way is pending. -/
def wayFor (s : State) (nook l : Nat) : WayFor :=
  let set := l % 4096
  let es := s.dir.ents.filter fun d => d.nook == nook && d.line % 4096 == set
  let free := (List.range 16).find? fun w =>
    (es.find? (·.way == w)).elim true fun d => d.st == .i && !d.lost && !d.evict && !pendLine s d.line
  match free with
  | some w => .take w
  | none =>
    if es.all (·.lost) then .uncached
    else if es.any fun d => d.evict && d.for_ == l then .wait
    else
      let c := es.filter fun d => !d.lost && !d.evict && !pendLine s d.line
      match c.find? fun d => c.all fun x => d.used ≤ x.used with
      | some d => .evict d.line
      | none => .wait

/-- Count lines that became LOST. -/
def countLost (part : Option Nat) (n : Nat) (s : State) : State :=
  count part (fun c => { c with lostNew := sat32 (c.lostNew + n) }) s

/-- Reclaim the holders of a line that have crashed (R309): an E or M line of theirs becomes LOST. -/
def reclaimLine (l : Nat) (s : State) : State :=
  let d := s.ent l
  (s.dir.agents.filter fun a => a.crashed && d.sharers.contains a.id).foldl (fun s a =>
    let owned := (s.ent l).owner == some a.id
    let s := modEnt l (fun d => { dropHolder a.id d with lost := d.lost || owned }) s
    if owned then
      countLost (some a.part) 1 { s with dir.agents := modWhere (·.id == a.id) (fun a => { a with lost := a.lost + 1 }) s.dir.agents }
    else s) s

/-! ## Snoops (R297, R302, R307) -/

/-- The endpoint of an accelerator port. -/
def accelEp (s : State) (p : Nat) : Nat := epId s.flash.prof.cell s.modNum p

/-- Send a snoop, or PLACE with its line, to an agent that has none open on the line. -/
def snoopAgent (a l kind : Nat) (data : Bytes) (s : State) : State :=
  match s.dir.agents.find? (·.id == a) with
  | none => s
  | some g =>
    if g.crashed || s.dir.snoops.any (fun x => x.agent == a && x.line == l) then s
    else
      let txn := s.dir.nextSnp
      let sn : Snoop := { agent := a, line := l, kind := kind, txn := txn, at_ := s.t }
      let s := { s with dir := { s.dir with nextSnp := (txn + 1) % 2 ^ 20, snoops := s.dir.snoops ++ [sn] } }
      if g.tray then
        let k := if kind = 1 then TrayOut.biSnpInv else if kind = 2 then .biSnpData else .biSnpCur
        enqueue true g.port 1 0 (.tray k txn (64 * l) 0 []) s
      else if kind = 5 then
        let m : LineMsg := { dst := accelEp s g.port, src := ownId s, txn := txn, addr := s.modNum * 2 ^ 52 + l * 64,
                             ltag := lineTag (64 * l) data, data := data }
        enqueue false g.port 1 m.dst (.line .snp 5 m) s
      else sendSnp g.port (accelEp s g.port) txn kind l s

/-- Recall every cached copy of the entries that meet a test: SNP_INV to every holder (R295, R176, R274). -/
def recallAll (q : DirEnt → Bool) (s : State) : State :=
  ((s.dir.ents.filter q).flatMap fun d => d.sharers.map fun a => (a, d.line)).foldl
    (fun s x => snoopAgent x.1 x.2 1 [] s) s

/-- Recall the lines that one agent holds: SNP_INV to it alone (R489). -/
def recallOf (a : Nat) (s : State) : State :=
  ((s.dir.ents.filter fun d => d.sharers.contains a && !s.dir.txs.any (·.line == d.line)).map (·.line)).foldl
    (fun s l => snoopAgent a l 1 [] s) s

/-! ## Requests to expanders (R242, R265, R269) -/

/-- The address behind a tray port of an offset of a tray extent (R265). -/
def trayAddr (e : Extent) (o : Nat) : Nat := e.trayBase * 2 ^ 28 + (o - e.base * 2 ^ 28)

/-- The tray ports that an access of a tray extent goes to: a write to both copies, a read to the one that serves (R265, R269, R456). -/
def trayPorts (s : State) (e : Extent) (write : Bool) : List Nat :=
  let x := s.ext e.base
  let main := if x.mirrorOnly then [] else [e.trayPort]
  let copy := if e.mirror == 2 && !x.trayOnly && (write || !x.copying) then [e.mirrorPort] else []
  if write then main ++ copy else (main ++ copy).take 1

/-- The frames of an access of a tray line, one on each port it goes to (R242, R265). -/
def trayFrame (svc l : Nat) (e : Extent) (write : Bool) (d : Bytes) (s : State) : State :=
  (trayPorts s e write).foldl (fun s p =>
    enqueue true p svc 0 (.tray (if write then .memWr else .memRd) e.trayLd (trayAddr e (64 * l)) 0 d) s) s

/-- A frame of a request to an expander for line `l` of the extent. -/
def isTrayFrame (e : Extent) (l : Nat) (f : Frame) : Bool :=
  match f.out with
  | .tray .memRd ld a _ _ => ld == e.trayLd && a == trayAddr e (64 * l)
  | .tray .memWr ld a _ _ => ld == e.trayLd && a == trayAddr e (64 * l)
  | _ => false

/-! ## Writing memory from the directory -/

/-- The line cannot be written any more: its channel is retired and no mirror takes it (R455). -/
def writeGone (s : State) (e : Extent) (o : Nat) : Bool :=
  !viaTwin s e o && (chanOf e o).elim false fun c => (s.chan c).retired || (s.chan c).retiring.isSome

/-- Write a whole line (R173): the channel computes or keeps a matching tag, and the line leaves the damaged-line table
(R172). -/
def storeLine (l : Nat) (d : Bytes) (s : State) : State :=
  match anyExtent s (64 * l) with
  | none => s
  | some e =>
    if writeGone s e (64 * l) then s else memWrite (64 * l) d s

/-- A line that a holder gives back is written (R298): later accesses of the line see it; its own access waits in the channel's
request queue (R159), or leaves in the COH service for its tray (R242). -/
def writeBack (l : Nat) (d : Bytes) (s : State) : State :=
  let s := storeLine l d s
  match anyExtent s (64 * l) with
  | none => s
  | some e =>
    if e.tray then trayFrame 1 l e true d s
    else if writeGone s e (64 * l) then s
    else { s with dir := { s.dir with wbs := s.dir.wbs ++ [{ line := l, stamp := s.dir.stamp + 1 }], stamp := s.dir.stamp + 1 } }

/-! ## Answers (R297, R307, R351, R493) -/

/-- The sender has crashed: nothing is answered (R309). -/
def deadReq (s : State) (q : LineReq) : Bool :=
  q.agent.elim false fun a => (s.dir.agents.find? (·.id == a)).elim true (·.crashed)

/-- The CMP that answers WB_DATA or dirty SNP_DATA, in the COH service (R490). -/
def dataCmp (p : Nat) (m : LineMsg) (st : Status) (s : State) : State :=
  sendCmp p m st 0 (heat s false p (subOf s false p m.src)) none 1 s

/-- Answer a request: DATA when there is any, then CMP (R299); MemData and Cmp to a host, Cmp-S or Cmp-E only with a grant, with
Poison and an event record for an error (R351, R307); RETRY or OK for a write-back (R490); a result for an engine. Its tracker is
freed. -/
def answerReq (q : LineReq) (st : Status) (grant old : Nat) (data : Option Bytes) (ltag : Option Nat) (s : State) : State :=
  if deadReq s q then freeTrk q.id s
  else match q.src with
    | .sax p =>
      let s := match data with
        | some d =>
          let m : LineMsg := { dst := q.m.src, src := ownId s, txn := q.m.txn, heat := pinHeat s p q.heat, addr := q.m.addr,
                               ltag := ltag.getD (lineTag (64 * q.line) d), data := d }
          enqueue false p 0 q.m.src (.line .dat 1 m) s
        | none => s
      freeTrk q.id (sendCmp p q.m st grant q.heat (if q.kind == .atomic then some old else none) 0 s)
    | .wb p => dataCmp p q.m (if st = .retry then .retry else .ok) s
    | .host t tag _ =>
      let out := fun (k : TrayOut) (d : Bytes) => enqueue true t 0 0 (.tray k tag (64 * q.line) st.code d)
      let read := q.kind == .rdShared || q.kind == .rdOwn || q.kind == .rdNc
      let s := if st = .ok then
          let s := match data with
            | some d => if read then out .memData d s else s
            | none => s
          out (if grant = 0 then .cmp else if q.kind == .rdShared then .cmpS else .cmpE) [] s
        else if read then out .eventRecord [] (out .memDataPoison [] s)
        else out .eventRecord [] (out .cmp [] s)
      freeTrk q.id s
    | .engine tok =>
      let r : EngRes := { tok := tok, line := q.line, st := st, data := data.getD [] }
      { s with dir.eng := s.dir.eng.filter (fun x => !(x.tok == tok && x.line == q.line)) ++ [r] }

/-- A store or an atomic has been written: it is answered once the twin has it too (R278). `n` is the number the next
mirror write had before the write. -/
def storeDone (n : Nat) (q : LineReq) (old : Nat) (s : State) : State :=
  if s.twin.nextTxn = n then answerReq q .ok 0 old none none s
  else { s with dir.acks := s.dir.acks ++ [{ txn := n, req := q, old := old }] }

/-- Nothing of a run of bytes is on its way to the twin, alone or in a copy (R444), or waits in the directory. -/
def mirrorClear (s : State) (o n : Nat) : Bool :=
  s.twin.copying.isEmpty && s.twin.open_.all (fun x => !overlaps x.2.1 x.2.2.length o n) && s.dir.txs.all (fun x => !overlaps (64 * x.line) 64 o n)
    && s.dir.waitq.all fun q => !overlaps (64 * q.line) 64 o n

/-- Tickets whose boundary data the twin has acknowledged are mirrored (R439). -/
def ticketsGo (s : State) : State :=
  let ok := s.twin.tickets.filter fun k => mirrorClear s (k.addr + 64) (k.used - 64)
  let s := { s with twin.tickets := s.twin.tickets.filter (! ok.contains ·) }
  if !s.mirrors then s
  else ok.foldl (fun s k => mirrorState k.part (.ticket k.cid k.phase) (mirrorOut k.addr k.bytes s)) s

/-- The data of an extent is copied once the twin has the extent's descriptor (R444). -/
def copyNext (k : Nat × Nat × MirrorMsg) (s : State) : State :=
  match k.2.2 with
  | .desc op b => if op = 0x0401 then copyExtent k.2.1 (decExtent (leNat b)) s else s
  | _ => s

/-- The twin has a mirror write, or the write completes unmirrored (R439, R441): it is open no more, its store is answered,
and tickets that waited for it go. -/
def mirrorDone (txn : Nat) (s : State) : State :=
  let w := s.dir.acks.filter (·.txn == txn)
  let ks := if s.twin.copying.contains txn then s.twin.desc.filter (·.1 == txn) else []
  let s := { s with dir.acks := s.dir.acks.filter (·.txn != txn),
                    twin := { s.twin with
                      open_ := s.twin.open_.filter (·.1 != txn), desc := s.twin.desc.filter (·.1 != txn),
                      copying := s.twin.copying.filter (· != txn) } }
  let s := ks.foldl (fun s k => copyNext k s) s
  ticketsGo (w.foldl (fun s a => answerReq a.req .ok 0 a.old none none s) s)

/-- A message of the twin link that RETRY has answered leaves again unchanged (R9). -/
def mirrorAgain (txn : Nat) (s : State) : State :=
  let data := (s.twin.open_.filter (·.1 == txn)).map fun x => (5, x.2.2.length)
  let descs := (s.twin.desc.filter (·.1 == txn)).map fun x => (mirrorSvc x.2.2, mirrorBytes x.2.2)
  let accs := (s.twin.accs.filter (·.1 == txn)).map fun x => (5, x.2.2.2.length)
  (data ++ descs ++ accs).foldl (fun s x => mirrorFrame x.1 txn x.2 s) s

/-! ## Serving one request (R298 to R300, R304, R305) -/

def modTx (l : Nat) (f : Tx → Tx) (s : State) : State := { s with dir.txs := modWhere (·.line == l) f s.dir.txs }

def dropTx (l : Nat) (s : State) : State := { s with dir.txs := s.dir.txs.filter (·.line != l) }

/-- A transaction is given up: dirty data it had drawn is written, and nothing is granted (R309, R278). -/
def abandonTx (x : Tx) (s : State) : State :=
  let s := dropTx x.line s
  match x.data with
  | some d => if x.dirty then writeBack x.line d s else s
  | none => s

/-- Copies of an extent that is being released are recalled as soon as they are given (R274). -/
def recallGone (e : Extent) (l : Nat) (s : State) : State := if releasing s e then recallAll (·.line == l) s else s

/-- A caching read is done (R298, R307): the line's new state, DATA and grant. A crashed requester is granted nothing (R309). -/
def grantRead (x : Tx) (e : Extent) (data : Option Bytes) (s : State) : State :=
  let q := x.req
  if deadReq s q then freeTrk q.id (abandonTx x s)
  else match q.agent with
  | none => answerReq q .ok 0 0 data x.ltag (dropTx x.line s)
  | some r =>
    if x.uncached || !e.coh then answerReq q .ok 0 0 data x.ltag (dropTx x.line s)
    else
      let host := match q.src with
        | .host _ _ _ => true
        | _ => false
      let d := s.ent x.line
      let others := d.sharers.filter (· != r)
      let (st, sh, fwd, g) : LineSt × List Nat × Nat × Nat :=
        if q.kind == .rdShared then
          if others.isEmpty then (if host then (.s, [r], 0, 1) else (.e, [r], r, 2))
          else if !e.tray then (.s, others ++ [r], 0, 1)
          else if !host then (.f, others ++ [r], r, 1)
          else if d.st == .f then (.f, others ++ [r], d.fwd, 1)
          else (.s, others ++ [r], 0, 1)
        else if host then (.e, [r], r, 2)
        else (.m, [r], r, 3)
      let s := if host && x.dirty && q.kind != .rdShared then writeBack x.line (x.data.getD []) s else s
      let s := modEnt x.line (fun d => { d with st := st, sharers := sortBy (fun a b => decide (a ≤ b)) sh, fwd := fwd }) s
      recallGone e x.line (answerReq q .ok g 0 data x.ltag (dropTx x.line s))

/-- The transaction has the line that memory or the twin gives, and ends (R298). -/
def withLine (x : Tx) (e : Extent) (d : Bytes) (s : State) : State :=
  let l := x.line
  let n := s.twin.nextTxn
  match x.req.kind with
  | .rdNc => answerReq x.req .ok 0 0 (some d) none (dropTx l s)
  | .wrMask => storeDone n x.req 0 (storeLine l (maskMerge d x.req.m.data x.req.m.mask) (dropTx l s))
  | .wrLine => storeDone n x.req 0 (storeLine l x.req.m.data (dropTx l s))
  | .placed =>
    let s := storeLine l x.req.m.data s
    let out := if s.twin.nextTxn = n then 0 else n
    let a := x.req.target
    let ok := e.coh && !x.uncached && s.dir.agents.any fun g => g.id == a && !g.tray && !g.crashed && !g.leaving
    if ok then modTx l (fun y => { y with phase := .place, txn := out }) (snoopAgent a l 5 x.req.m.data s)
    else storeDone n x.req 0 (dropTx l s)
  | .atomic =>
    let r := applyAtomic x.req.m d
    storeDone n x.req r.2 (storeLine l r.1 (dropTx l s))
  | _ => grantRead x e (some d) s

/-- The request only reads its line. -/
def onlyReads (q : LineReq) : Bool := q.kind == .rdShared || q.kind == .rdOwn || q.kind == .upgrade || q.kind == .rdNc

/-- The service of a request to an expander (R242): LS on behalf of an accelerator or a host, BULK for Bellows and Ash, LOOKUP
for a chain. -/
def expanderSvc (q : LineReq) : Nat :=
  match q.src with
  | .engine tok => if tok < 2 ^ 64 then 2 else 5
  | _ => 0

/-- The access of a tray line leaves as a frame of its tray port, a write on that of its copy too (R242, R265). -/
def expanderFrame (x : Tx) (e : Extent) (s : State) : State :=
  if !e.tray then s
  else
    let write := !(onlyReads x.req || x.req.kind == .atomic)
    trayFrame (expanderSvc x.req) x.line e write (if write then x.req.m.data else []) s

/-- The request of a tray line still waits at a port. -/
def expanderWaits (s : State) (e : Extent) (l : Nat) : Bool :=
  e.tray && [e.trayPort, e.mirrorPort].any fun p => (s.dport true p).q.any (isTrayFrame e l)

/-- A request to an expander that ends early never leaves later (R278); write-backs (COH) still do. -/
def dropFrames (e : Extent) (l : Nat) (s : State) : State :=
  if !e.tray then s
  else [e.trayPort, e.mirrorPort].foldl (fun s p =>
    modD true p (fun d => { d with q := d.q.filter fun f => f.svc == 1 || !isTrayFrame e l f }) s) s

/-- The atomic of a line goes to its home (R306): it takes its place in the channel's request queue, or its read leaves for the
tray. -/
def goHome (x : Tx) (e : Extent) (s : State) : State :=
  let n := s.dir.stamp + 1
  let s := modTx x.line (fun y => { y with phase := .home, stamp := n }) { s with dir.stamp := n }
  if e.tray then trayFrame 0 x.line e false [] s else s

/-- A transaction goes to memory, behind the accesses that wait in the channel's request queue (R159, R161), or to the twin's
copy (R460). A read of a region not yet zeroed gives zeros without a memory access (R26). -/
def goMemory (x : Tx) (e : Extent) (s : State) : State :=
  if viaTwin s e (64 * x.line) && x.req.kind != .wrLine && x.req.kind != .placed then
    let n := s.twin.nextTxn
    modTx x.line (fun y => { y with phase := .twin, txn := n })
      (mirrorFrame 5 n 0 { s with twin := { s.twin with accs := s.twin.accs ++ [(n, false, 64 * x.line, [])], nextTxn := n + 1 } })
  else if unzeroed s e (64 * x.line) && onlyReads x.req then withLine x e (x.data.getD (List.replicate 64 0)) s
  else
    let n := s.dir.stamp + 1
    expanderFrame x e { s with dir := { s.dir with
      txs := s.dir.txs.filter (·.line != x.line) ++ [{ x with phase := .memory, stamp := n }], stamp := n } }

/-- A placed write whose target has answered completes, once the twin has it too (R278, R304). -/
def placeDone (x : Tx) (s : State) : State :=
  if s.twin.open_.any (·.1 == x.txn) then { s with dir.acks := s.dir.acks ++ [{ txn := x.txn, req := x.req, old := 0 }] }
  else answerReq x.req .ok 0 0 none none s

/-- Every snoop of a line has been answered: its transaction goes on (R299), or its eviction frees the way (R295). -/
def progress (l : Nat) (s : State) : State :=
  if snooping s l then s
  else match s.dir.txs.find? (·.line == l) with
    | none => modEnt l (fun d => if d.evict then { d with st := .i, sharers := [], fwd := 0, evict := false } else d) s
    | some x =>
      match anyExtent s (64 * l) with
      | none => answerReq x.req .extentGone 0 0 none none (dropTx l s)
      | some e =>
        if x.phase == .writeback then { dropTx l s with dir.waitq := x.req :: s.dir.waitq }
        else if (s.ent l).lost then answerReq x.req .lineLost 0 0 none none (dropTx l s)
        else if x.phase == .place then placeDone x (dropTx l s)
        else if x.phase != .snoop then s
        else match x.req.kind with
          | .rdShared => if x.data.isSome then grantRead x e x.data s else goMemory x e s
          | .rdOwn => if x.data.isSome then grantRead x e x.data s else goMemory x e s
          | .upgrade => if x.data.isSome || x.noData then grantRead x e x.data s else goMemory x e s
          | .rdNc => if x.data.isSome then answerReq x.req .ok 0 0 x.data x.ltag (dropTx l s) else goMemory x e s
          | .atomic =>
            if viaTwin s e (64 * l) then goMemory x e s
            else if x.home then goHome x e s else modTx l (fun y => { y with phase := .hold }) s
          | _ => goMemory x e s

/-- The snoops of R298 for a request: agent and kind. -/
def snoopsFor (d : DirEnt) (q : LineReq) : List (Nat × Nat) :=
  let own := d.st == .e || d.st == .m
  match q.kind with
  | .rdShared => if own then [(d.fwd, 2)] else if d.st == .f then [(d.fwd, 4)] else []
  | .rdOwn => (d.sharers.filter fun a => own || q.agent != some a).map fun a => (a, 1)
  | .upgrade => (d.sharers.filter fun a => own || q.agent != some a).map fun a => (a, 1)
  | .rdNc => if own then [(d.fwd, 3)] else []
  | _ => d.sharers.map fun a => (a, 1)

/-- Open a transaction, send its snoops and go on if there are none. -/
def startTx (x : Tx) (sn : List (Nat × Nat)) (s : State) : State :=
  let s := { s with dir.txs := s.dir.txs ++ [x] }
  progress x.line (sn.foldl (fun s a => snoopAgent a.1 x.line a.2 [] s) s)

/-- An atomic on a coherent line moves the predictor (R305). -/
def predict (l : Nat) (s : State) : State :=
  let up := (s.ent l).st != .i || s.dir.waitq.any (·.line == l)
  modEnt l (fun d => { d with apred := if up then min 3 (d.apred + 1) else d.apred - 1 }) s

/-- Column accesses, row activations and atomics of a stroke (R159, R160). -/
def strokeCols (s : State) : Nat := if s.power.brake then 64 else 256
def strokeActs (s : State) : Nat := if s.power.brake then 6 else 24
def strokeAtomics (s : State) : Nat := if s.power.brake then 32 else 128

/-- Row activations of atomics: one for each line (log entry 82). -/
def atomicActs (qs : List LineReq) : Nat := (qs.map (·.line)).eraseDups.length

/-- Two atomics may share a stroke: they lie in one extent, and both in no segment or in the same one (R175, R177). -/
def sameRange (s : State) (a b : LineReq) : Bool :=
  (anyExtent s (64 * a.line)).map (·.base) == (anyExtent s (64 * b.line)).map (·.base) && segAt s a.line == segAt s b.line

/-- An atomic joins an ATOMIC stroke of its channel, or a new one (R159, R175, R181); false where the stroke queue is full
(R156). -/
def joinStroke (c : Nat) (q : LineReq) (s : State) : Bool × State :=
  let k := s.chan c
  match k.strokes.getLast? with
  | some x =>
    if x.kind == .atomic && x.part == q.part && x.reqs.all (sameRange s q) && x.reqs.length < strokeAtomics s && atomicActs (x.reqs ++ [q]) ≤ strokeActs s then
      (true, modChan c (fun k => { k with strokes := k.strokes.dropLast ++ [{ x with reqs := x.reqs ++ [q] }] }) s)
    else if k.strokes.length < 32 then
      (true, modChan c (fun k => { k with strokes := k.strokes ++ [{ kind := .atomic, part := q.part, reqs := [q] }] }) s)
    else (false, s)
  | none => (true, modChan c (fun k => { k with strokes := k.strokes ++ [{ kind := .atomic, part := q.part, reqs := [q] }] }) s)

/-- An ATOMIC stroke covers the line (R175): DEVICE-OWNED, and inside a held segment when coherent. -/
def strokeCovers (s : State) (e : Extent) (l : Nat) : Bool :=
  e.devown && !e.tray && (!e.coh || (segAt s l).elim false (·.held))

/-- Lines that the home unit of a nook holds, of those that the nook's slice tracks (R306). -/
def homeLines (s : State) (nook : Nat) : Nat :=
  (s.dir.txs.filter fun x => x.home && (anyExtent s (64 * x.line)).elim false (·.nook == nook)).length

/-- Steps 7 to 9 of R289, and a retired or lost memory (R172, R173, R455, R457). -/
def lineStatus (s : State) (e : Extent) (q : LineReq) : Status :=
  let o := 64 * q.line
  if (s.ent q.line).lost || (e.coh && setLost s e.nook q.line) then .lineLost
  else if (q.kind == .wrLine || q.kind == .placed) && (writeGone s e o || (s.ext e.base).lost) then .damaged
  else if q.kind != .wrLine && q.kind != .placed && lineDamaged s e o then .damaged
  else if q.kind == .wrLine && (match q.src with
      | .sax _ => q.m.ltag != lineTag o q.m.data
      | .wb _ => q.m.ltag != lineTag o q.m.data
      | _ => false) then .retry
  else .ok

/-- A request needs a directory entry (R295). -/
def needsEntry (q : LineReq) : Bool :=
  match q.kind with
  | .rdShared => true
  | .rdOwn => true
  | .upgrade => true
  | .atomic => true
  | .placed => true
  | _ => false

/-- Serve a request on an idle line that has its entry, or needs none. False: it must wait. An atomic that an Anvil unit
returned runs under a line hold (R175). -/
def serveEntry (q : LineReq) (e : Extent) (uncached : Bool) (s : State) : Bool × State :=
  let l := q.line
  let s := touch l s
  let d := s.ent l
  let mine := q.agent.elim false fun a => d.owner == some a
  if mine then
    let a := q.agent.getD 0
    let s := { s with dir := { s.dir with txs := s.dir.txs ++ [{ line := l, req := q, phase := .writeback }],
                                          awaits := s.dir.awaits ++ [{ agent := a, line := l, at_ := s.t }] } }
    (true, s)
  else
    let s := if q.kind == .rdShared then
        match q.agent with
        | some a => modEnt l (dropHolder a) s
        | none => s
      else s
    let d := s.ent l
    if q.kind == .atomic then
      let home := e.tray || (e.coh && 2 ≤ d.apred && !q.held)
      if !e.tray && !q.held && strokeCovers s e l then
        match chanOf e (64 * l) with
        | some c =>
          let r := joinStroke c q (if e.coh then predict l s else s)
          (r.1, if r.1 then r.2 else s)
        | none => (false, s)
      else if home && 16 ≤ homeLines s e.nook then (false, s)
      else
        let s := if e.coh then predict l s else s
        (true, startTx { line := l, req := q, phase := .snoop, home := home, uncached := uncached } (snoopsFor d q) s)
    else
      let noData := q.kind == .upgrade && (d.st == .s || d.st == .f) && q.agent.elim false fun a => d.sharers.contains a
      (true, startTx { line := l, req := q, phase := .snoop, noData := noData, uncached := uncached } (snoopsFor d q) s)

/-- Serve a request whose line is idle (R298). False: it must wait for a way, a home unit or a stroke queue. -/
def serve (q : LineReq) (s : State) : Bool × State :=
  match anyExtent s (64 * q.line) with
  | none => (true, answerReq q .extentGone 0 0 none none s)
  | some e =>
    let s := reclaimLine q.line s
    match lineStatus s e q with
    | .ok =>
      if !e.coh || (s.ent? q.line).isSome || !needsEntry q then serveEntry q e false s
      else
        match wayFor s e.nook q.line with
        | .take w =>
          let set := q.line % 4096
          let ents := s.dir.ents.filter fun d => !(d.nook == e.nook && d.line % 4096 == set && d.way == w)
          serveEntry q e false { s with dir.ents := ents ++ [{ line := q.line, nook := e.nook, way := w }] }
        | .evict v =>
          let s := modEnt v (fun d => { d with evict := true, for_ := q.line }) (reclaimLine v s)
          (false, progress v (recallAll (·.line == v) s))
        | .wait => (false, s)
        | .uncached => serveEntry q e true s
    | st => (true, answerReq q st 0 0 none none s)

/-- A caching request (R268). -/
def caching (q : LineReq) : Bool := q.kind == .rdShared || q.kind == .rdOwn || q.kind == .upgrade

/-- The line is not free for this request (R299, R177, R176, R352). -/
def blocked (s : State) (q : LineReq) : Bool :=
  let l := q.line
  match anyExtent s (64 * l) with
  | none => false
  | some e =>
    s.dir.txs.any (·.line == l) || snooping s l || s.dir.acks.any (·.req.line == l)
      || ((segAt s l).isSome && !(q.kind == .atomic && (segAt s l).elim false (·.held) && e.devown))
      || ((s.ext e.base).recallJob.isSome && caching q) || (s.ext e.base).waiting

/-- A request reaches its slice: it is served, or waits behind the earlier ones of its line (R299). -/
def arrive (q : LineReq) (s : State) : State :=
  if blocked s q || s.dir.waitq.any (·.line == q.line) then { s with dir.waitq := s.dir.waitq ++ [q] }
  else match serve q s with
    | (true, s) => s
    | (false, s) => { s with dir.waitq := s.dir.waitq ++ [q] }

/-- LINE_REQUEST_RESUME: the first waiting request of a line is served when the line is free (R299). -/
def resumeLine (l : Nat) (s : State) : State :=
  match s.dir.waitq.find? (·.line == l) with
  | none => s
  | some q =>
    if blocked s q then s
    else
      let rest := s.dir.waitq.eraseP (·.line == l)
      match serve q { s with dir.waitq := rest } with
      | (true, s) => s
      | (false, s) => { s with dir.waitq := q :: s.dir.waitq }

/-! ## Memory answers (R171, R172, R298, R352, R460) -/

/-- The line and its read are given up: DAMAGED (R172). -/
def readBad (x : Tx) (s : State) : State := answerReq x.req .damaged 0 0 none none (dropTx x.line s)

/-- A line is read with an outcome seen outside: `fixed` says that the ECC corrected it, `bad` that it is uncorrectable (on a
tray, Poison). Whether the line came, and what follows (R171, R172). -/
def lineRead (l : Nat) (e : Extent) (fixed bad : Bool) (s : State) : Bool × State :=
  if bad then badRead l s
  else if fixed && !s.mem.weak.any (·.1 == l) then ((chanOf e (64 * l)).elim (true, s) fun c => (true, corrected c 1 s))
  else readLine l s

/-! ## Strokes and the request queue of a channel (R159 to R164) -/

/-- The line lies on the channel. -/
def onChan (s : State) (c l : Nat) : Bool := ((anyExtent s (64 * l)).bind fun e => chanOf e (64 * l)) == some c

/-- The accesses that wait in the channel's request queue, oldest first (R159, R161). -/
def chanQueue (s : State) (c : Nat) : List Tx := s.dir.txs.filter fun x => x.phase == .memory && onChan s c x.line

/-- The write-backs that wait in the channel's request queue, oldest first. -/
def chanBacks (s : State) (c : Nat) : List WBack := s.dir.wbs.filter fun x => onChan s c x.line

/-- The line whose access the request queue serves next, the oldest one (R161), and whether it is a write-back. -/
def queueHead (s : State) (c : Nat) : Option (Nat × Bool) :=
  match chanBacks s c, chanQueue s c with
  | w :: _, x :: _ => if w.stamp < x.stamp then some (w.line, true) else some (x.line, false)
  | w :: _, [] => some (w.line, true)
  | [], x :: _ => some (x.line, false)
  | [], [] => none

/-- Atomics that the directory has handed to the channel under a line hold (R180). -/
def chanHolds (s : State) (c : Nat) : List Tx := s.dir.txs.filter fun x => x.phase == .hold && onChan s c x.line

/-- The unit takes no further stroke (R185, R455). -/
def chanGone (k : Chan) : Bool := k.retired || k.retiring.isSome

/-- Nothing occupies the channel and nothing due comes first (R161, R163, R184). -/
def chanIdle (k : Chan) : Bool := k.running.isNone && !k.refBusy && !k.refPend && !k.scrubPend

/-- A stroke may start on the channel now (R160 to R164). -/
def strokeFree (s : State) (c : Nat) : Bool :=
  let k := s.chan c
  !chanGone k && !s.power.emergency && chanIdle k && beforeWindow s c && decide (k.strokeAt + strokeDelay s c ≤ s.t)

/-- The channel serves the access of line `l` next (R161, R164): the oldest one, up to 32 behind a stroke, or more while no
stroke can start. -/
def servesNext (s : State) (c l : Nat) : Bool :=
  let k := s.chan c
  chanIdle k && !windowOpen s c && (queueHead s c).elim false (·.1 == l)
    && (decide (k.served < 32) || !strokeFree s c || (k.strokes.isEmpty && (chanHolds s c).isEmpty))

/-- The oldest access of the channel's request queue is younger than `n`. -/
def queuedAfter (s : State) (c n : Nat) : Bool :=
  (chanBacks s c).all (fun w => decide (n < w.stamp)) && (chanQueue s c).all fun x => decide (n < x.stamp)

/-- An access of the channel may run at once: nothing occupies it, no refresh window is open, and nothing waits before it (R161,
R163, R164). -/
def chanFree (s : State) (c : Nat) : Bool := chanIdle (s.chan c) && !windowOpen s c && (queueHead s c).isNone

/-- What the DRAM of a channel holds for a line whose plaintext is in memory (R155): the ciphertext under the key of the
channel's nook, the line tag of R170, and the check bits over both. The model keeps the plaintext; a stored word in error is a
line of `mem.weak` (log entry 81). -/
def dramLine (s : State) (nook l : Nat) : Bytes × Nat × Bytes :=
  let x := memRead s (64 * l) 64
  let c := Config.xtsLine (s.ten.memKey.getD nook 0) l x
  let tag := lineTag (64 * l) x
  (c, tag, Config.eccBits c tag)

/-- MEMORY_ACCESS_DONE (R298, R171, R172): the access the directory issued for a line is done; `fixed` says that the ECC
corrected it, `bad` that it is uncorrectable (on a tray, Poison). A mirrored line is read again from its mirror,
rewritten, and goes on. A write-back that is the oldest access of its channel leaves the request queue. -/
def memoryDone (l : Nat) (fixed bad : Bool) (s : State) : State :=
  match ((anyExtent s (64 * l)).bind fun e => chanOf e (64 * l)).filter fun c => queueHead s c == some (l, true) with
  | some c =>
    if !servesNext s c l then s
    else modChan c (fun k => { k with served := k.served + 1 }) { s with dir.wbs := s.dir.wbs.eraseP (·.line == l) }
  | none =>
  match s.dir.txs.find? fun x => x.line == l && x.phase == .memory with
  | none => s
  | some x =>
    match anyExtent s (64 * l) with
    | none => answerReq x.req .extentGone 0 0 none none (dropTx l s)
    | some e =>
      let ch := chanOf e (64 * l)
      if ch.elim (expanderWaits s e l) fun c => !servesNext s c l then s
      else
        let s := match ch with
          | some c => modChan c (fun k => { k with served := k.served + 1 }) s
          | none => s
        let whole := x.req.kind == .wrLine || x.req.kind == .placed || x.data.isSome
        let r := if whole then (true, s) else lineRead l e fixed bad s
        if r.1 then withLine x e (x.data.getD (memRead r.2 (64 * l) 64)) r.2 else readBad x r.2

/-- The twin has answered a mirror access (R460). -/
def accessDone (txn : Nat) (ok : Bool) (data : Bytes) (s : State) : State :=
  let s := { s with twin := { s.twin with accs := s.twin.accs.filter (·.1 != txn) } }
  match s.dir.txs.find? fun x => x.phase == .twin && x.txn == txn with
  | none => s
  | some x =>
    match anyExtent s (64 * x.line) with
    | none => answerReq x.req .extentGone 0 0 none none (dropTx x.line s)
    | some e =>
      if !ok || data.length ≠ 64 then answerReq x.req .damaged 0 0 none none (dropTx x.line s)
      else withLine x e (x.data.getD data) s

/-! ## Requests from accelerators (R252, R267, R272, R273, R280, R281, R289) -/

/-- A store to `n` bytes at an offset touches what no agent may store to (R100, R133, R312): RIT and shard map of a table, its
update areas, loaded prefetch lists. -/
def guarded (s : State) (o n : Nat) : Bool :=
  s.tables.any (fun t =>
    t.d.storage != 2 && (overlaps (t.d.rit % 2 ^ 52) (16 * t.d.phys) o n || overlaps (t.d.smap % 2 ^ 52) t.d.shards o n)
      || t.u.elim false fun u =>
          let m := u.slots * roundUp (64 + 96 * t.d.elems) 64
          u.uareas.any fun a => a % 2 ^ 52 != 0 && overlaps (a % 2 ^ 52) m o n)
    || s.tiers.lists.any fun l => overlaps (l.addr % 2 ^ 52) l.bytes o n

/-- The runs of bytes that a request stores to: those of its mask, its operand, or its whole line (R277). -/
def storeRuns (kind : ReqKind) (m : LineMsg) : List (Nat × Nat) :=
  let o := m.addr % 2 ^ 52
  match kind with
  | .wrMask => ((List.range 64).filter fun i => m.mask.getLsbD i).map fun i => (o + i, 1)
  | .atomic => [(o, if m.aw then 8 else 4)]
  | .wrLine => [(o, 64)]
  | .placed => [(o, 64)]
  | _ => []

/-- The extent is held for the twin (R424, R437): this module is not the primary of its twinned partition, or FAULT_N is
asserted. -/
def heldForTwin (s : State) (e : Extent) : Bool :=
  e.mirror == 1 && s.twin.twinned.contains e.part && (faultN s || !s.twin.primary.contains e.part)

/-- Steps 4 to 6 of R289 for a request of a partition under a map, with the bytes it stores to; a tray extent is BUSY before READY_FULL (R423). -/
def accessStatus (s : State) (map : MapV) (o : Nat) (part : Option Nat) (runs : List (Nat × Nat)) (host : Option Nat) : Except Status Extent :=
  match extentAt s map o with
  | .error st => .error st
  | .ok e =>
    if part != some e.part || (runs.any fun r => guarded s r.1 r.2)
        || host.elim false (fun t => !(bit e.hostmask t && (s.ext e.base).accepted.contains t)) then .error .noAccess
    else if e.tray && !s.power.readyFull then .error .busy
    else if s.isQuiesced e.part then .error (s.quiesceStatus e.part)
    else if heldForTwin s e then .error .quiesced
    else if releasing s e then .error .extentGone
    else .ok e

/-- The agent id of a port, while it has the caching role. -/
def agentOn (s : State) (tray : Bool) (p : Nat) : Option Nat :=
  (s.dir.agents.find? fun a => a.tray == tray && a.port == p && !a.crashed && !a.leaving).map (·.id)

/-- The agents of a port whose answers may still come. -/
def agentsAt (s : State) (tray : Bool) (p : Nat) : List Nat :=
  (s.dir.agents.filter fun a => a.tray == tray && a.port == p && !a.crashed).map (·.id)

/-- Steps 0 to 3 of R289 for a request on a Saxel port; `bad` is its own step 1. The policer's answer is passed on, with
the Heat. A link that carries no REQ answers BAD_DESCRIPTOR with MSG_CMP (R28, R493). -/
def admitReq (p : Nat) (m : LineMsg) (raw : Nat) (bad : Bool) (s : State) : Option (Status × Nat) × Nat × State :=
  let pt := s.port p
  let h := heat s false p (subOf s false p m.src)
  if m.src ≠ accelEp s p || !pt.admitted then (some (.noAccess, h), h, s)
  else if m.rsv || bad then (some (.badDescriptor, h), h, s)
  else match mapFor s m.epoch with
    | .error st => (some (st, h), h, s)
    | .ok _ =>
      match police p m.src raw false s with
      | (false, h, s) => (some (.retry, h), h, s)
      | (true, h, s) => (none, h, s)

/-- A load, store or atomic from an accelerator (R277, R289, R291). A request that finds no free tracker waits at its port:
nothing changes (R281). -/
def lineRequest (kind : ReqKind) (opc p : Nat) (m : LineMsg) (s : State) : State :=
  let pt := s.port p
  let q0 : LineReq := { src := .sax p, kind := kind, m := m, line := m.addr % 2 ^ 52 / 64,
                        agent := if pt.caching then agentOn s false p else none, part := pt.owner.getD 0 }
  if pt.kind ≠ 0 then
    answerOnSvc 0 p { src := m.src, dst := m.dst, txn := m.txn, epoch := m.epoch } .badDescriptor (eatLine p .req opc s)
  else
    let bad := m.addr / 2 ^ 52 != s.modNum || (if kind == .atomic then atomicBad m else m.addr % 64 != 0)
      || (caching q0 && !pt.caching) || (kind == .wrMask && m.mask == 0)
    let raw := rawFlits (pt.sess.phase == 3) (1 + lineLen .req opc false)
    let refused := m.src ≠ accelEp s p || !pt.admitted || m.rsv || bad || (mapFor s m.epoch).toOption.isNone
    if !refused && !trkFree s pt.owner then s
    else
      let no := fun (st : Status) (h : Nat) (s : State) =>
        sendCmp p m st 0 h (if kind == .atomic then some 0 else none) 0 s
      match admitReq p m raw bad (eatLine p .req opc s) with
      | (some (st, h), _, s) => no st h s
      | (none, h, s) =>
        match mapFor s m.epoch with
        | .error st => no st h s
        | .ok map =>
          match accessStatus s map (m.addr % 2 ^ 52) pt.owner (storeRuns kind m) none with
          | .error st => no st h s
          | .ok e =>
            let q := { q0 with heat := h, part := e.part,
                               kind := if !e.coh && caching q0 then .rdNc else kind }
            let (id, s) := takeTrk { part := pt.owner, port := p, txn := m.txn, src := m.src, epoch := m.epoch, vc := .req,
                                     line := q.line, heat := h } s
            arrive { q with id := id } s

/-- A chain whose POUR came on this port from this endpoint: its message completes with the chain (R280, R282). -/
def askedOn (c : Chain) (p src : Nat) : Bool :=
  match c.asker with
  | .msg port from_ _ _ _ _ _ => port == p && from_ == src
  | _ => false

/-- FENCE (R280): it completes once every earlier request and message of its requester on the link has. -/
def fenceReq (p : Nat) (m : LineMsg) (s : State) : State :=
  let pt := s.port p
  if pt.kind ≠ 0 then answerOnSvc 0 p { src := m.src, dst := m.dst, txn := m.txn, epoch := m.epoch } .badDescriptor (eatLine p .req 8 s)
  else
    match admitReq p m (rawFlits (pt.sess.phase == 3) 2) (m.addr != 0) (eatLine p .req 8 s) with
    | (some (st, h), _, s) => sendCmp p m st 0 h none 0 s
    | (none, h, s) =>
      if (pt.owner.elim false s.isQuiesced) then sendCmp p m (s.quiesceStatus (pt.owner.getD 0)) 0 h none 0 s
      else
        let f : FenceWait := { port := p, src := m.src, txn := m.txn, heat := h, epoch := m.epoch,
                               waits := (s.mem.trks.filter fun k => !k.tray && k.port == p && k.src == m.src).map (·.id),
                               chains := (s.chains.chains.filter fun c => !c.ended && askedOn c p m.src).map (·.cid) }
        if fenceOpen s f then { s with mem.fences := s.mem.fences ++ [f] } else sendCmp p m .ok 0 h none 0 s

/-! ## Requests of engines (R292, R304) -/

/-- PLACED_WRITE (R304): a whole line from an agent without a cache, with a target endpoint. -/
def placedWrite (tok part target addr : Nat) (d : Bytes) (s : State) : State :=
  let l := addr / 64
  let res := fun (st : Status) (s : State) => answerReq { src := .engine tok, line := l } st 0 0 none none s
  if addr % 64 ≠ 0 then res .badDescriptor s
  else match accessStatus s s.maps.cur addr (some part) [(addr, 64)] none with
    | .error st => res st s
    | .ok e =>
      let g := s.dir.agents.find? fun g => !g.tray && !g.crashed && !g.leaving && g.part == part
        && accelEp s g.port == target && (s.port g.port).admitted
      let q : LineReq := { src := .engine tok, m := { addr := addr, data := d }, line := l, part := part }
      match g with
      | some g => if e.coh then arrive { q with kind := .placed, target := g.id } s else arrive { q with kind := .wrLine } s
      | none => arrive { q with kind := .wrLine } s

/-- Nothing in the directory stands before an engine's read of a line: nobody owns it, no request or segment holds it, and it is
not lost (R298, R299). -/
def dirQuiet (s : State) (l : Nat) : Bool :=
  !(s.dir.txs.any (·.line == l)) && !snooping s l && !(s.dir.waitq.any (·.line == l)) && !(s.dir.acks.any (·.req.line == l))
    && (segAt s l).isNone && (s.ent l).owner.isNone && !(s.ent l).lost
    && !((anyExtent s (64 * l)).elim false fun e => e.coh && setLost s e.nook l)

/-- An engine's access of a line needs no more than stacked memory, and its channel can serve it at once (R161, R164). -/
def quietLine (s : State) (l : Nat) : Bool :=
  dirQuiet s l && (anyExtent s (64 * l)).elim true fun e =>
    !viaTwin s e (64 * l) && (chanOf e (64 * l)).elim false fun c => chanGone (s.chan c) || chanFree s c

/-- A request of an engine for a line is open, or has been answered. -/
def engHas (s : State) (tok l : Nat) : Bool :=
  s.dir.eng.any (fun r => r.tok == tok && r.line == l) || s.dir.txs.any (fun x => x.req.src == .engine tok && x.line == l)
    || s.dir.waitq.any fun q => q.src == .engine tok && q.line == l

/-- Issue RD_NC for the lines of a run that a test does not pass, once each (R292, R298). -/
def askLines (quiet : State → Nat → Bool) (tok part o n : Nat) (s : State) : State :=
  (linesOf o n).foldl (fun s l =>
    if quiet s l || engHas s tok l then s
    else arrive { src := .engine tok, kind := .rdNc, line := l, part := part, m := { addr := 64 * l } } s) s

/-- Issue RD_NC for the lines of a run that memory alone does not answer at once. -/
def engRead (tok part o n : Nat) (s : State) : State := askLines quietLine tok part o n s

/-- A directory request of an engine is still open. -/
def engBusy (s : State) (tok : Nat) : Bool :=
  s.dir.txs.any (·.req.src == .engine tok) || s.dir.waitq.any (·.src == .engine tok)
    || s.dir.acks.any (·.req.src == .engine tok)

/-- The lines of a run that the engine's own requests did not answer are read from memory: whether all came (R172). -/
def engLines (tok o n : Nat) (s : State) : Bool × State :=
  readLines ((linesOf o n).filter fun l => !(s.dir.eng.any fun r => r.tok == tok && r.line == l)) s

/-- The bytes of a run as the engine's reads gave them, over memory. -/
def engBytes (s : State) (tok o n : Nat) : Bytes :=
  let over_ := s.dir.eng.filter fun r => r.tok == tok && r.st == .ok && r.data.length == 64
  if over_.isEmpty then memRead s o n
  else (List.range n).map fun i =>
    match over_.find? fun r => r.line == (o + i) / 64 with
    | some r => r.data.getD ((o + i) % 64) 0
    | none => cellsGet 0 s.mem.bytes (o + i)

/-- The worst status that an engine's requests of a run came to. -/
def engStatus (s : State) (tok o n : Nat) : Status :=
  let ls := linesOf o n
  ((s.dir.eng.find? fun r => r.tok == tok && ls.contains r.line && r.st != .ok).map (·.st)).getD .ok

def engForget (tok : Nat) (s : State) : State := { s with dir.eng := s.dir.eng.filter (·.tok != tok) }

/-- An engine writes a run of bytes, line by line (R292, R173): WR_LINE or WR_MASK through the directory where a copy is
cached or a request is open, memory otherwise. -/
def engWrite (tok part o : Nat) (d : Bytes) (s : State) : State :=
  (linesOf o d.length).foldl (fun s l =>
    let lo := max o (64 * l)
    let hi := min (o + d.length) (64 * l + 64)
    let run := (d.drop (lo - o)).take (hi - lo)
    if quietLine s l && (s.ent l).sharers.isEmpty then
      if hi - lo = 64 then storeLine l run s else
        match anyExtent s lo with
        | some e =>
          let r := readLine l s
          if writeGone s e lo || !r.1 then answerReq { src := .engine tok, line := l } .damaged 0 0 none none r.2 else memWrite lo run r.2
        | none => s
    else
      let full := List.replicate (lo - 64 * l) 0 ++ run ++ List.replicate (64 * l + 64 - hi) 0
      let mask : BitVec 64 := BitVec.ofNat 64 ((2 ^ (hi - lo) - 1) * 2 ^ (lo - 64 * l))
      arrive { src := .engine tok, kind := if hi - lo = 64 then .wrLine else .wrMask, line := l, part := part,
               m := { addr := 64 * l, data := full, mask := mask } } s) s

/-! ## Answers to snoops, notices (R298, R300, R490) -/

/-- PROTOCOL event (R300). -/
def protocolEvent (p l : Nat) (s : State) : State :=
  event 0x001A true [] ((anyExtent s (64 * l)).map (·.part)) [p, 64 * l] s

def dropSnoop (x : Snoop) (s : State) : State :=
  { s with dir.snoops := s.dir.snoops.filter fun y => !(y.agent == x.agent && y.line == x.line) }

/-- The dirty data of a snoop answer would be written to memory (R298, R490). -/
def wouldWrite (s : State) (l : Nat) : Bool :=
  let gone := match anyExtent s (64 * l) with
    | some e => writeGone s e (64 * l)
    | none => true
  !gone && match s.dir.txs.find? (·.line == l) with
    | none => true
    | some x => match x.req.kind with
      | .rdShared => true
      | .wrMask => true
      | .atomic => true
      | .rdOwn => (match x.req.src with
          | .host _ _ _ => true
          | _ => false)
      | .upgrade => (match x.req.src with
          | .host _ _ _ => true
          | _ => false)
      | _ => false

/-- A snoop has been answered with or without data: the holder's new state and the data for the request (R298). -/
def snoopData (x : Snoop) (data : Option Bytes) (dirty : Bool) (ltag : Option Nat) (s : State) : State :=
  let d := s.ent x.line
  let own := d.owner == some x.agent
  let useful := own || x.kind == 4
  let s := dropSnoop x s
  let s := if x.kind = 1 then modEnt x.line (dropHolder x.agent) s
    else if x.kind = 2 && own then modEnt x.line (fun d => { d with st := .s, sharers := [x.agent], fwd := 0 }) s
    else s
  let s := match data with
    | none => s
    | some b =>
      if !useful then s
      else
        let tx := s.dir.txs.any (·.line == x.line)
        let dirty := dirty && own
        let nowWrite := dirty && (!tx || (s.dir.txs.any fun y => y.line == x.line && (y.req.kind == .rdShared || y.req.kind == .atomic)))
        let s := if nowWrite then writeBack x.line b s else s
        modTx x.line (fun y =>
          if y.req.kind == .atomic || (y.req.kind == .rdNc && !dirty) then y
          else { y with data := some b, dirty := dirty, ltag := ltag }) s
  let s := progress x.line s
  (anyExtent s (64 * x.line)).elim s fun e => recallGone e x.line s

/-- ACK_INV and ACK_SHARED (R298, R300). -/
def snoopAck (p : Nat) (m : LineMsg) (s : State) : State :=
  let as := agentsAt s false p
  match s.dir.snoops.find? fun x => as.contains x.agent && x.txn == m.txn && x.kind != 5 with
  | some x => snoopData x none false none s
  | none => s

/-- The snoop ends with the agent holding nothing (R300): an owner that sent no notice still owes one. -/
def notHeldBy (x : Snoop) (s : State) : State :=
  let d := s.ent x.line
  let s := dropSnoop x s
  if d.owner == some x.agent then
    { s with dir.awaits := s.dir.awaits ++ [{ agent := x.agent, line := x.line, at_ := s.t }] }
  else progress x.line (modEnt x.line (dropHolder x.agent) s)

/-- The target's answer to PLACE (R304). -/
def placed (x : Snoop) (took : Bool) (s : State) : State :=
  let s := dropSnoop x s
  progress x.line (modEnt x.line (fun d => if took then { d with st := .e, sharers := [x.agent], fwd := x.agent }
    else { d with st := .i, sharers := [], fwd := 0 }) s)

def notHeld (p : Nat) (m : LineMsg) (s : State) : State :=
  let as := agentsAt s false p
  match s.dir.snoops.find? fun x => as.contains x.agent && x.txn == m.txn with
  | some x => if x.kind = 5 then placed x false s else notHeldBy x s
  | none => s

def placeAnswer (p : Nat) (m : LineMsg) (took : Bool) (s : State) : State :=
  let as := agentsAt s false p
  match s.dir.snoops.find? fun x => as.contains x.agent && x.txn == m.txn && x.kind == 5 with
  | some x => placed x took s
  | none => s

/-- SNP_DATA (R298, R490): dirty data that would be written is refused with RETRY when its tag does not match. -/
def snpData (p : Nat) (m : LineMsg) (s : State) : State :=
  let as := agentsAt s false p
  let l := m.addr % 2 ^ 52 / 64
  match s.dir.snoops.find? fun x => as.contains x.agent && x.line == l && x.kind != 5 with
  | none => if m.dirty then dataCmp p m .ok s else s
  | some x =>
    if m.dirty && wouldWrite s l && (s.ent l).owner == some x.agent && m.ltag ≠ lineTag (64 * l) m.data then dataCmp p m .retry s
    else
      let s := snoopData x (some m.data) m.dirty (some m.ltag) s
      if m.dirty then dataCmp p m .ok s else s

/-- A notice from the owner has come: it holds nothing, and what awaited the notice goes on (R300). -/
def noticed (a l : Nat) (data : Option Bytes) (s : State) : State :=
  let s := modEnt l (dropHolder a) s
  let s := { s with dir.awaits := s.dir.awaits.filter fun x => !(x.agent == a && x.line == l) }
  let s := match data with
    | some d => modTx l (fun y => if y.phase == .writeback || y.req.kind == .atomic then y else { y with data := some d }) s
    | none => s
  progress l s

/-- WB_DATA (R268, R298, R300, R490). -/
def wbData (p : Nat) (m : LineMsg) (s : State) : State :=
  let l := m.addr % 2 ^ 52 / 64
  let tagOk := m.ltag == lineTag (64 * l) m.data
  match anyExtent s (64 * l) with
  | none => protocolEvent p l (dataCmp p m .ok s)
  | some e =>
    if !e.coh then
      if (s.port p).owner != some e.part || (s.isQuiesced e.part) || guarded s (64 * l) 64 || releasing s e then dataCmp p m .ok s
      else arrive { src := .wb p, kind := .wrLine, m := m, line := l, part := e.part } s
    else
      let d := s.ent l
      match (agentsAt s false p).find? fun a => d.sharers.contains a with
      | none => protocolEvent p l (dataCmp p m .ok s)
      | some a =>
        if d.owner == some a then
          let kept := writeGone s e (64 * l) || guarded s (64 * l) 64
          if !tagOk && !kept then dataCmp p m .retry s
          else dataCmp p m .ok (noticed a l (some m.data) (if kept then s else writeBack l m.data s))
        else dataCmp p m .ok (protocolEvent p l (noticed a l none s))

/-- EVICT_CLEAN (R268, R298, R300). -/
def evictFrom (as : List Nat) (p l : Nat) (s : State) : State :=
  match anyExtent s (64 * l) with
  | none => protocolEvent p l s
  | some e =>
    if !e.coh then s
    else match as.find? fun a => (s.ent l).sharers.contains a with
      | some a => noticed a l none s
      | none => protocolEvent p l s

def evictClean (p : Nat) (m : LineMsg) (s : State) : State :=
  evictFrom (agentsAt s false p) p (m.addr % 2 ^ 52 / 64) s

/-- The message answers a snoop of the reclaim of an agent of the port, or brings a write-back that the reclaim awaits (R489). -/
def answersReclaim (s : State) (p : Nat) (m : LineMsg) (vc : Vc) (opc : Nat) : Bool :=
  let l := m.addr % 2 ^ 52 / 64
  s.dir.agents.any fun g => g.leaving && !g.tray && g.port == p && !g.crashed
    && ((if vc = .dat then opc == 2 && s.dir.snoops.any (fun x => x.agent == g.id && x.line == l)
         else opc != 4 && s.dir.snoops.any fun x => x.agent == g.id && x.txn == m.txn)
        || s.dir.awaits.any fun x => x.agent == g.id && x.line == l)

/-- An RSP or DAT message is taken only on an accelerator link that carries it; it always sinks (R28, R301). That of a peer that is
not admitted is discarded with NO_ACCESS (R245), but for the answers to the snoops of a reclaim (R489). -/
def sink (p : Nat) (m : LineMsg) (vc : Vc) (opc : Nat) (f : State → State) (s : State) : State :=
  let s := eatLine p vc opc s
  if (s.port p).kind ≠ 0 then answerOnSvc 1 p { src := m.src, dst := m.dst, txn := m.txn } .badDescriptor s
  else if m.src ≠ accelEp s p then s
  else if !(s.port p).admitted && !answersReclaim s p m vc opc then (if vc = .dat then dataCmp p m .noAccess s else s)
  else f s

/-! ## Crashes and reclaim (R303, R308, R309, R489) -/

def crashAgent (a : Nat) (s : State) : State := crashAgents (·.id == a) s

/-- SNOOP_TIMEOUT: a snoop unanswered for 1 ms crashes its agent (R303, R307). -/
def snoopTimeout (a l : Nat) (s : State) : State :=
  if s.dir.snoops.any fun x => x.agent == a && x.line == l && decide (x.at_ + 1000000 ≤ s.t) then crashAgent a s else s

/-- WRITEBACK_TIMEOUT: an awaited write-back that has not come within 1 ms crashes its agent (R300, R308). -/
def writebackTimeout (a l : Nat) (s : State) : State :=
  if s.dir.awaits.any fun x => x.agent == a && x.line == l && decide (x.at_ + 1000000 ≤ s.t) then crashAgent a s else s

/-- A transaction ends early (R278): a store whose write has left for its tray is performed now, and one that has not never leaves. -/
def endTx (x : Tx) (s : State) : State :=
  match anyExtent s (64 * x.line) with
  | none => abandonTx x s
  | some e =>
    let sent := e.tray && x.phase == .memory && !expanderWaits s e x.line
    let s := dropFrames e x.line (abandonTx x s)
    match x.req.kind with
    | .wrLine => if sent then storeLine x.line x.req.m.data s else s
    | .placed => if sent then storeLine x.line x.req.m.data s else s
    | .wrMask => if sent then storeLine x.line (maskMerge (memRead s (64 * x.line) 64) x.req.m.data x.req.m.mask) s else s
    | _ => s

/-- Requests of queued and running strokes that meet a test. -/
def strokeReqs (q : LineReq → Bool) (s : State) : List LineReq :=
  s.chans.flatMap fun k => (k.strokes ++ k.held ++ k.segWait ++ k.running.toList).flatMap fun x => x.reqs.filter q

/-- They leave their strokes; one that runs performs them no more (R278, R282). -/
def dropStrokeReqs (q : LineReq → Bool) (s : State) : State :=
  if (strokeReqs q s).isEmpty then s
  else
    let drop := fun (x : Stroke) => { x with reqs := x.reqs.filter (! q ·) }
    { s with chans := s.chans.map fun k => { k with
        strokes := k.strokes.map drop, held := k.held.map drop, segWait := k.segWait.map drop, running := k.running.map drop } }

/-- AGENT_CRASH (R309): the agent's requests end without answer, its open snoops count as answered NOT_HELD with no notice
to come, and the walks start. -/
def agentCrash (a : Nat) (s : State) : State :=
  if !(s.dir.agents.any fun g => g.id == a && g.crashed && !g.walking) then s
  else
    let s := { s with dir.agents := modWhere (·.id == a) (fun g => { g with walking := true }) s.dir.agents }
    let mine := s.dir.waitq.filter (·.agent == some a)
    let s := mine.foldl (fun s q => freeTrk q.id s) { s with dir.waitq := s.dir.waitq.filter (·.agent != some a) }
    let txs := s.dir.txs.filter (·.req.agent == some a)
    let s := txs.foldl (fun s x => freeTrk x.req.id (endTx x s)) s
    let s := (strokeReqs (·.agent == some a) s ++ (s.dir.acks.map (·.req)).filter (·.agent == some a)).foldl (fun s q => freeTrk q.id s)
      { dropStrokeReqs (·.agent == some a) s with dir.acks := s.dir.acks.filter (·.req.agent != some a) }
    let ls := ((s.dir.snoops ++ s.dir.awaits).filter (·.agent == a)).map (·.line)
    let s := { s with dir := { s.dir with snoops := s.dir.snoops.filter (·.agent != a),
                                          awaits := s.dir.awaits.filter (·.agent != a) } }
    ls.foldl (fun s l => progress l (reclaimLine l s)) s

/-- RECLAIM_WALK_END (R309): no entry names the agent any more, its id is free, LOST_LINE reports the count. -/
def reclaimWalkEnd (a : Nat) (s : State) : State :=
  match s.dir.agents.find? fun g => g.id == a && g.walking with
  | none => s
  | some _ =>
    let ls := (s.dir.ents.filter (·.sharers.contains a)).map (·.line)
    let s := ls.foldl (fun s l => progress l (reclaimLine l s)) s
    match s.dir.agents.find? fun g => g.id == a && g.walking with
    | none => s
    | some g => eventMO 0x0010 (some g.part) [a, g.lost] { s with dir.agents := s.dir.agents.filter (·.id != a) }

/-- The caching role of a port's agent ends while its session stays up (R489): its lines are recalled. -/
def startLeave (p : Nat) (s : State) : State :=
  match agentOn s false p with
  | none => s
  | some a =>
    recallOf a { s with dir.agents := modWhere (·.id == a) (fun g => { g with leaving := true }) s.dir.agents }

/-- AGENT_RECLAIM_END (R489): when no entry names a leaving agent its id is free; lines it still holds are recalled. -/
def agentReclaimEnd (a : Nat) (s : State) : State :=
  if !(s.dir.agents.any fun g => g.id == a && g.leaving && !g.crashed) then s
  else if s.dir.ents.any (·.sharers.contains a) || s.dir.snoops.any (·.agent == a) || s.dir.awaits.any (·.agent == a)
      || s.dir.txs.any (fun x => x.req.agent == some a) || s.dir.waitq.any (·.agent == some a)
      || s.dir.acks.any (fun x => x.req.agent == some a) || !(strokeReqs (·.agent == some a) s).isEmpty then
    recallOf a s
  else { s with dir.agents := s.dir.agents.filter (·.id != a) }

/-! ## Atomics under a line hold and at the home (R180, R181, R306) -/

/-- LINE_HOLD_ATOMIC (R180): a stroke of one read and one write by the channel's Anvil unit, before any queued stroke. -/
def holdAtomic (l : Nat) (s : State) : State :=
  match s.dir.txs.find? fun x => x.line == l && x.phase == .hold with
  | none => s
  | some x =>
    match anyExtent s (64 * l) with
    | none => answerReq x.req .extentGone 0 0 none none (dropTx l s)
    | some e =>
      let ch := chanOf e (64 * l)
      if ch.elim false fun c => !strokeFree s c && !chanGone (s.chan c) then s
      else
        let s := match ch with
          | some c => modChan c (fun k => { k with strokeAt := s.t, served := 0 }) s
          | none => s
        let g := readLine l s
        if !g.1 || lineDamaged s e (64 * l) then answerReq x.req .damaged 0 0 none none (dropTx l g.2)
        else
          let n := s.twin.nextTxn
          let r := applyAtomic x.req.m (memRead g.2 (64 * l) 64)
          storeDone n x.req r.2 (storeLine l r.1 (dropTx l g.2))

/-- The atomics at the head of a line's waiting requests: no other request comes before them. -/
def atomicRun (l : Nat) (w : List LineReq) : List LineReq := (w.filter (·.line == l)).takeWhile (·.kind == .atomic)

/-- The home's access of a line may run: its read of the tray has left, or its channel serves it next (R161, R164). -/
def homeTurn (s : State) (x : Tx) (e : Extent) : Bool :=
  match chanOf e (64 * x.line) with
  | some c => chanIdle (s.chan c) && !windowOpen s c && queuedAfter s c x.stamp
  | none => !expanderWaits s e x.line

/-- Queued atomics of a line join the one that its home serves, in slice order; each moves the predictor while those behind it
still wait (R305, R306). -/
def takeAtomics (e : Extent) (l : Nat) (qs : List LineReq) (s : State) : State :=
  qs.foldl (fun s q =>
    let s := { s with dir.waitq := s.dir.waitq.erase q }
    if e.coh then predict l s else s) s

/-- HOME_ATOMIC (R306): the home reads the line once, applies the atomics queued for it, at most 64, and writes it once. -/
def homeAtomic (l : Nat) (s : State) : State :=
  match s.dir.txs.find? fun x => x.line == l && x.phase == .home with
  | none => s
  | some x =>
    let more := (atomicRun l s.dir.waitq).take 63
    let all := x.req :: more
    match anyExtent s (64 * l) with
    | none => answerReq x.req .extentGone 0 0 none none (dropTx l s)
    | some e =>
      if !homeTurn s x e then s
      else
      let g := readLine l (takeAtomics e l more (dropTx l s))
      if !g.1 || lineDamaged s e (64 * l) then all.foldl (fun s q => answerReq q .damaged 0 0 none none s) g.2
      else
        let s := g.2
        let n := s.twin.nextTxn
        let r := all.foldl (fun (acc : Bytes × List (LineReq × Nat)) q =>
          let a := applyAtomic q.m acc.1
          (a.1, acc.2 ++ [(q, a.2)])) (memRead s (64 * l) 64, [])
        let s := storeLine l r.1 s
        r.2.foldl (fun s x => storeDone n x.1 x.2 s) (if e.tray then trayFrame 0 l e true r.1 s else s)

/-- DEVOWN_RECALL_END (R176): no copy of the extent is cached any more, and the attribute takes effect in both live maps;
copies that are left are recalled. -/
def setDevown (base : Nat) (v : Bool) (s : State) : State :=
  let f := modWhere (fun (e : Extent) => e.base == base) (fun e => { e with devown := v })
  { s with maps := { s.maps with cur := { s.maps.cur with exts := f s.maps.cur.exts },
                                 prev := s.maps.prev.map fun m => { m with exts := f m.exts },
                                 pend := s.maps.pend.map fun m => { m with exts := f m.exts } } }

/-- A line lies in an extent. -/
def inExt (e : Extent) (l : Nat) : Bool := e.base ≤ l / 2 ^ 22 && l / 2 ^ 22 < e.base + e.granules

def devownRecallEnd (base : Nat) (s : State) : State :=
  match (s.ext base).recallJob, s.maps.cur.exts.find? (·.base == base) with
  | some j, some e =>
    let held := fun (d : DirEnt) => inExt e d.line && !d.sharers.isEmpty
    if s.dir.ents.any held || s.dir.snoops.any (fun x => inExt e x.line) || s.dir.awaits.any (fun x => inExt e x.line) then
      recallAll (fun d => held d && !s.dir.txs.any (·.line == d.line)) s
    else finish j .ok 0 [] (setDevown base true (modExt base (fun x => { x with recallJob := none }) s))
  | _, _ => s

/-! ## Anvil segments (R177) -/

/-- SEGMENT_ACQUIRE: the range, at most 1 MiB of one channel within one coherent DEVICE-OWNED extent, overlaps no other
segment and no line that a waiting request names; its copies are recalled. -/
def segmentAcquire (c first n : Nat) (s : State) : State :=
  match anyExtent s (64 * first) with
  | none => s
  | some e =>
    let inRange := fun (l : Nat) => decide (first ≤ l) && decide (l < first + n) && chanOf e (64 * l) == some c
    if n = 0 || 16384 < n || !e.coh || !e.devown || !inExt e (first + n - 1) || chanOf e (64 * first) != some c
        || s.dir.segs.any (fun g => g.first < first + n && first < g.first + g.lines && g.chan == c)
        || s.dir.waitq.any (fun q => inRange q.line) || releasing s e || (s.ext e.base).clearJob.isSome
        || s.chanOwner c != some e.part then s
    else
      let s := { s with dir.segs := s.dir.segs ++ [{ chan := c, first := first, lines := n, at_ := s.t }] }
      recallAll (fun d => inRange d.line && !s.dir.txs.any (·.line == d.line)) s

/-- The lines of a segment. -/
def inSeg (s : State) (g : Segment) (l : Nat) : Bool :=
  g.first ≤ l && l < g.first + g.lines && ((anyExtent s (64 * l)).bind fun e => chanOf e (64 * l)) == some g.chan

/-- No copy of a line of the segment is cached and nothing is open on one. -/
def segClear (s : State) (g : Segment) : Bool :=
  !(s.dir.ents.any fun d => inSeg s g d.line && !d.sharers.isEmpty) && !(s.dir.txs.any fun x => inSeg s g x.line)
    && !(s.dir.snoops.any fun x => inSeg s g x.line) && !(s.dir.awaits.any fun x => inSeg s g x.line)

/-- The atomics of waiting strokes that a held segment covers now enter the unit's queue of 32 while it has room; the others go on
waiting (R156, R177). -/
def refill (c : Nat) (s : State) : State :=
  let k := s.chan c
  let ok := fun (q : LineReq) => (segAt s q.line).elim false (·.held)
  let part : (LineReq → Bool) → List Stroke := fun f => (k.segWait.map fun (x : Stroke) => { x with reqs := x.reqs.filter f }).filter fun x => !x.reqs.isEmpty
  let go := part ok
  let n := 32 - k.strokes.length
  if go.isEmpty then s
  else modChan c (fun k => { k with strokes := k.strokes ++ go.take n, segWait := go.drop n ++ part (! ok ·) }) s

/-- SEGMENT_ACQUIRED: every recall is answered; strokes of the range that waited go to the unit, and the atomics that
waited in front join strokes (R175, R177). -/
def segmentAcquired (c : Nat) (s : State) : State :=
  match s.dir.segs.find? fun g => g.chan == c && !g.held with
  | none => s
  | some g =>
    if !segClear s g then
      recallAll (fun d => inSeg s g d.line && !s.dir.txs.any (·.line == d.line)) s
    else
      let s := { s with dir.segs := modWhere (· == g) (fun g => { g with held := true }) s.dir.segs }
      let s := refill c s
      let front := s.dir.waitq.filter fun q => q.kind == .atomic && inSeg s g q.line && (atomicRun q.line s.dir.waitq).contains q
      front.foldl (fun s q =>
        let r := joinStroke c q (predict q.line { s with dir.waitq := s.dir.waitq.erase q })
        if r.1 then r.2 else s) s

/-- Clearing DEVICE-OWNED completes when no segment and no stroke runs on the extent any more (R176). -/
def clearCheck (s : State) : State :=
  (s.maps.ext.filter (·.clearJob.isSome)).foldl (fun s x =>
    match s.maps.cur.exts.find? (·.base == x.base) with
    | none => s
    | some e =>
      let runs := s.chans.any fun k => k.running.elim false fun r => r.kind == .atomic && r.reqs.any fun q => inExt e q.line
      if runs || s.dir.segs.any (fun g => inExt e g.first) then s
      else finish? x.clearJob .ok (modExt x.base (fun y => { y with clearJob := none }) s)) s

/-- SEGMENT_ABANDON: at 16 us with a recall unanswered the acquisition is abandoned, with LATE_SEGMENT. -/
def segmentAbandon (c : Nat) (s : State) : State :=
  match s.dir.segs.find? fun g => g.chan == c && !g.held with
  | none => s
  | some g =>
    if s.t < g.at_ + 16000 || segClear s g then s
    else clearCheck (event 0x000F true [] (s.chanOwner c) [c, 64 * g.first] { s with dir.segs := s.dir.segs.filter (· != g) })

/-- SEGMENT_RELEASE: at most 64 us after acquisition started, once no stroke of the range runs; strokes not yet started leave
the unit and wait for the next segment. -/
def segmentRelease (c : Nat) (s : State) : State :=
  match s.dir.segs.find? fun g => g.chan == c && g.held with
  | none => s
  | some g =>
    let mine := fun (x : Stroke) => x.kind == .atomic && x.reqs.any fun q => inSeg s g q.line
    if (s.chan c).running.elim false mine then s
    else
    let keep := fun (f : LineReq → Bool) (x : Stroke) => { x with reqs := x.reqs.filter f }
    let hit := fun (q : LineReq) => inSeg s g q.line
    let rest := fun (l : List Stroke) => (l.map fun x => if mine x then keep (! hit ·) x else x).filter fun x => x.kind != .atomic || !x.reqs.isEmpty
    let s' := modChan c (fun k => { k with
      strokes := rest k.strokes, held := rest k.held,
      segWait := k.segWait ++ ((k.strokes ++ k.held).filter mine).map (keep hit) }) s
    clearCheck { s' with dir.segs := s'.dir.segs.filter (· != g) }

/-! ## CXL hosts (R253, R267, R307, R351) -/

/-- The host's request is charged and never refused; below 0 tokens the port returns no credit (R253). -/
def chargeHost (t raw : Nat) (s : State) : State :=
  let i := subOf s true t 0
  let now := s.ns
  let s := modD true t (fun d => d.modSub i fun x =>
    { x with bw := x.bw.charge now (raw * 256 * 8000), rq := x.rq.charge now 1000000, reqAdm := x.reqAdm + 1 }) s
  let x := (s.dport true t).sub i
  let s := count (s.tray t).owner (fun c => { c with reqAdmitted := c.reqAdmitted + 1 }) s
  modTray t (fun k => { k with creditHeld := !(x.bw.lets now && x.rq.lets now) }) s

/-- TRAY_CREDIT_RESUME (R253). -/
def creditResume (t : Nat) (s : State) : State :=
  let x := (s.dport true t).sub (subOf s true t 0)
  if x.bw.lets s.ns && x.rq.lets s.ns then modTray t (fun k => { k with creditHeld := false }) s else s

/-- An upstream port with its link up and an owner. -/
def hostWorks (s : State) (t : Nat) : Bool := (s.tray t).mode == 2 && (s.tray t).up && (s.tray t).owner.isSome

/-- The offset lies in a released extent that the host of the port has not given back (R275), and no extent has it now. -/
def shedTo (s : State) (t o : Nat) : Bool :=
  (anyExtent s o).isNone && s.maps.shed.any fun x => x.1 == t && x.2.1 ≤ o / 2 ^ 28 && o / 2 ^ 28 < x.2.1 + x.2.2

/-- A host's request, served under the current map (R272, R267). One to capacity that was released ends with EXTENT_GONE (R275). -/
def hostRequest (t tag addr raw : Nat) (kind : ReqKind) (mv : CxlMeta) (mask : BitVec 64) (data : Bytes) (s : State) : State :=
  if !hostWorks s t then s
  else if !trkFree s (s.tray t).owner then s
  else
    let s := chargeHost t raw s
    let q : LineReq := { src := .host t tag mv, kind := kind, line := addr / 64 % 2 ^ 46, agent := agentOn s true t,
                         m := { txn := tag, addr := addr % 2 ^ 52, mask := mask, data := data } }
    if addr % 64 ≠ 0 || 2 ^ 52 ≤ addr || (kind == .wrMask && mask == 0) then answerReq q .badDescriptor 0 0 none none s
    else match accessStatus s s.maps.cur (addr % 2 ^ 52) (s.tray t).owner (storeRuns kind q.m) (some t) with
      | .error st => answerReq q (if shedTo s t (addr % 2 ^ 52) then .extentGone else st) 0 0 none none s
      | .ok e =>
        let (id, s) := takeTrk { part := (s.tray t).owner, port := t, tray := true, txn := tag, epoch := s.maps.cur.epoch,
                                 vc := .req, line := q.line } s
        arrive { q with id := id, part := e.part } s

/-- M2S MemRd (R307). -/
def cxlRead (t : Nat) (mv : CxlMeta) (addr tag : Nat) (s : State) : State :=
  hostRequest t tag addr 1 (match mv with
    | .s => .rdShared
    | .a => .rdOwn
    | .i => .rdNc) mv 0 [] s

/-- M2S MemClnEvct (R307): EVICT_CLEAN and its Cmp. -/
def cxlEvict (t addr tag : Nat) (s : State) : State :=
  if !hostWorks s t then s
  else
    let s := evictFrom (agentsAt s true t) t (addr / 64) (chargeHost t 1 s)
    enqueue true t 0 0 (.tray .cmp tag addr 0 []) s

/-- M2S MemWr and MemWrPtl (R307): WB_DATA from the owner, a store otherwise. -/
def cxlWrite (t addr tag : Nat) (mask : BitVec 64) (data : Bytes) (s : State) : State :=
  if !hostWorks s t then s
  else
    let l := addr / 64
    let d := s.ent l
    match (agentsAt s true t).find? fun a => d.owner == some a with
    | some a =>
      let s := chargeHost t 1 s
      let whole := mask == BitVec.allOnes 64
      let old := if whole then (true, s) else readLine l s
      let bad := !old.1 || (!whole && (anyExtent s (64 * l)).elim false (lineDamaged old.2 · (64 * l)))
      let line := maskMerge (memRead old.2 (64 * l) 64) data mask
      let s := if bad || guarded s (64 * l) 64 then old.2 else writeBack l line old.2
      enqueue true t 1 0 (.tray .cmp tag addr 0 []) (noticed a l (if bad then none else some line) s)
    | none => hostRequest t tag addr 1 (if mask == BitVec.allOnes 64 then .wrLine else .wrMask) .i mask data s

/-- M2S MemSpecRd (R307): accepted, which charges the host (R253), and dropped. -/
def cxlSpecRead (t _addr : Nat) (s : State) : State := if hostWorks s t then chargeHost t 1 s else s

/-- BIRspI or BIRspS (R307): the snoop ends; dirty data, if there was any, came before as MemWr. -/
def cxlBiRsp (t addr : Nat) (shared : Bool) (s : State) : State :=
  let l := addr / 64
  let as := agentsAt s true t
  match s.dir.snoops.find? fun x => as.contains x.agent && x.line == l with
  | none => s
  | some x =>
    let s := dropSnoop x s
    let s := if shared && x.kind ≠ 1 then
        modEnt l (fun d => if x.kind == 2 && d.owner == some x.agent then { d with st := .s, sharers := [x.agent], fwd := 0 }
          else if d.sharers.contains x.agent then d
          else { d with st := if d.st == .i then .s else d.st, sharers := sortBy (fun a b => decide (a ≤ b)) (d.sharers ++ [x.agent]) }) s
      else modEnt l (dropHolder x.agent) s
    progress l s

/-- BIConflict (R307). -/
def biConflict (t addr tag : Nat) (s : State) : State :=
  if hostWorks s t then enqueue true t 1 0 (.tray .biConflictAck tag addr 0 []) s else s

/-- DC_ADD_ACCEPT (R267): the host accepts an extent offered to its port. -/
def dcAccept (t base : Nat) (s : State) : State :=
  match s.maps.cur.exts.find? (·.base == base) with
  | some e =>
    if bit e.hostmask t && !(s.ext base).accepted.contains t then modExt base (fun x => { x with accepted := x.accepted ++ [t] }) s
    else s
  | none => s

/-- DC_RELEASE_RESPONSE (R275): accepted; the release runs as it would without it. The host has given the capacity back. -/
def dcRelease (t base : Nat) (s : State) : State :=
  { s with maps := { s.maps with rels := modWhere (·.ext.base == base) (fun r => { r with back := r.back ++ [t] }) s.maps.rels,
                                 shed := s.maps.shed.filter fun x => !(x.1 == t && x.2.1 == base) } }

/-- A request of the directory ends early: TIMEOUT when its 100 ms are over (R282), DAMAGED when its tracker is lost (R458).
It is never performed later (R278). -/
def dirEnd (id : Nat) (st : Status) (s : State) : State :=
  let no := fun (q : LineReq) (s : State) => answerReq q st 0 0 none none s
  let waiting := s.dir.waitq.filter (·.id == id)
  let txs := s.dir.txs.filter (·.req.id == id)
  let acks := s.dir.acks.filter (·.req.id == id)
  let stroked := strokeReqs (·.id == id) s
  let s := dropStrokeReqs (·.id == id)
    { s with dir := { s.dir with waitq := s.dir.waitq.filter (·.id != id), acks := s.dir.acks.filter (·.req.id != id) } }
  let s := txs.foldl (fun s x => no x.req (endTx x s)) s
  (waiting ++ acks.map (·.req) ++ stroked).foldl (fun s q => no q s) s

/-! ## Mailbox commands (R294, R310, R459, R291, R349, R489) -/

def LineSt.code : LineSt → Nat
  | .i => 0
  | .s => 1
  | .f => 2
  | .e => 3
  | .m => 4

/-- The 16 bytes of a directory entry (R294). -/
def dirBytes (s : State) (d : DirEnt) : Bytes :=
  toLE 16 (2 ^ 17 * b2n d.lost + 2 ^ 18 * b2n (pendLine s d.line) + 2 ^ 19 * d.apred + 2 ^ 21 * d.st.code
    + 2 ^ 24 * d.fwd + 2 ^ 30 * (d.line / 4096 % 2 ^ 34) + 2 ^ 64 * maskOf d.sharers)

/-- DIR_READ: entry `16 set + way` of a slice; an unused way reads as zero. -/
def dirRead (j : Job) (s : State) : End × State :=
  let n := fldLE j.payload 0 1
  let first := fldLE j.payload 2 2
  let cnt := fldLE j.payload 4 2
  if !zeroAt j.payload 1 1 || 95 < n || 256 < cnt || 65536 < first + cnt then (.done .badDescriptor, s)
  else
    let one := fun (i : Nat) =>
      ((s.dir.ents.find? fun d => d.nook == n && d.line % 4096 == i / 16 && d.way == i % 16).map (dirBytes s)).getD (List.replicate 16 0)
    (.done .ok 0 ((List.range cnt).flatMap fun i => one (first + i)), s)

/-- LINE_CLEAR (R310, R459). -/
def lineClear (j : Job) (s : State) : Status × State :=
  let p := fldLE j.payload 0 1
  let all := fldLE j.payload 1 1
  let o := fldLE j.payload 8 8
  if 1 < all || !zeroAt j.payload 2 6 then (.badDescriptor, s)
  else if (s.part? p).isNone then (.noAccess, s)
  else
    let clear := fun (q : DirEnt → Bool) (s : State) =>
      { s with dir.ents := modWhere (fun d => d.lost && q d) (fun d => { d with st := .i, sharers := [], fwd := 0, lost := false }) s.dir.ents }
    if all = 1 then
      let ns := s.nooksOf p
      (.ok, clear (fun d => ns.contains d.nook) { s with dir.setLost := s.dir.setLost.filter fun x => !ns.contains x.1 })
    else match anyExtent s o with
      | some e => if e.part = p then (.ok, clear (fun d => d.line == o / 64) s) else (.noAccess, s)
      | none => (.noAccess, s)

/-- LOSTLOG_READ (R310, R459): lost lines by offset, and set-lost sets as the offset of their first line with bit 0 set. -/
def lostlogRead (j : Job) (s : State) : End × State :=
  let p := fldLE j.payload 0 1
  if !zeroAt j.payload 1 3 then (.done .badDescriptor, s)
  else if (s.part? p).isNone then (.done .noAccess, s)
  else
    let ns := s.nooksOf p
    let ls := (s.dir.ents.filter fun d => d.lost && ns.contains d.nook).map fun d => 64 * d.line
    let sets := (s.dir.setLost.filter fun x => ns.contains x.1).map fun x =>
      let bases := (s.maps.cur.exts.filter (·.nook == x.1)).map (·.base)
      (bases.foldl min (bases.headD 0)) * 2 ^ 28 + 64 * x.2 + 1
    let l := (sortBy (fun a b => decide (a ≤ b)) (ls ++ sets)).drop (fldLE j.payload 4 4)
    (.done .ok 0 ((l.take 511).flatMap (toLE 8)), s)

/-- PEER_ADMIT (R291, R349, R489). -/
def peerAdmit (j : Job) (s : State) : Status × State :=
  let p := fldLE j.payload 0 1
  let c := fldLE j.payload 1 1
  let pt := s.port p
  if 1 < c then (.badDescriptor, s)
  else if pt.kind ≠ 0 || pt.owner ≠ some j.part || pt.sess.phase ≠ 3 then (.noAccess, s)
  else
    let caching := c == 1 && pt.peer.elim false (·.caching)
    let set := fun (s : State) => modPort p (fun x => { x with admitted := true, caching := caching }) s
    if !caching then (.ok, set (startLeave p s))
    else if (agentOn s false p).isSome then (.ok, set s)
    else
      let used := (s.dir.agents.filter (·.part == j.part)).length
      match (List.range 64).find? fun i => !(s.dir.agents.any (·.id == i)) with
      | some i =>
        if (s.part? j.part).elim 0 (·.agents) ≤ used then (.busy, s)
        else (.ok, set { s with dir.agents := s.dir.agents ++ [{ id := i, port := p, part := j.part }] })
      | none => (.busy, s)

/-- PEER_EVICT (R489). -/
def peerEvict (j : Job) (s : State) : Status × State :=
  let p := fldLE j.payload 0 1
  let pt := s.port p
  if pt.kind ≠ 0 || pt.owner ≠ some j.part then (.noAccess, s)
  else (.ok, modPort p (fun x => { x with admitted := false, caching := false }) (startLeave p s))

/-! ## Meanings -/

def execRdShared (port : Nat) (m : LineMsg) (s : State) : Host.Outcome State Fault Refusal :=
  .next (settle s (lineRequest .rdShared 1 port m s))
def execRdOwn (port : Nat) (m : LineMsg) (s : State) : Host.Outcome State Fault Refusal :=
  .next (settle s (lineRequest .rdOwn 2 port m s))
def execUpgrade (port : Nat) (m : LineMsg) (s : State) : Host.Outcome State Fault Refusal :=
  .next (settle s (lineRequest .upgrade 3 port m s))
def execRdNc (port : Nat) (m : LineMsg) (s : State) : Host.Outcome State Fault Refusal :=
  .next (settle s (lineRequest .rdNc 4 port m s))
def execWrLine (port : Nat) (m : LineMsg) (s : State) : Host.Outcome State Fault Refusal :=
  .next (settle s (lineRequest .wrLine 5 port m s))
def execWrMask (port : Nat) (m : LineMsg) (s : State) : Host.Outcome State Fault Refusal :=
  .next (settle s (lineRequest .wrMask 6 port m s))
def execAtomic (port : Nat) (m : LineMsg) (s : State) : Host.Outcome State Fault Refusal :=
  .next (settle s (lineRequest .atomic 7 port m s))
def execFence (port : Nat) (m : LineMsg) (s : State) : Host.Outcome State Fault Refusal :=
  .next (settle s (fenceReq port m s))
def execPlacedWrite (part target addr : Nat) (data : Bytes) (s : State) : Host.Outcome State Fault Refusal :=
  .next (settle s (placedWrite 0 part target addr data s))
def execAckInv (port : Nat) (m : LineMsg) (s : State) : Host.Outcome State Fault Refusal :=
  .next (settle s (sink port m .rsp 1 (snoopAck port m) s))
def execAckShared (port : Nat) (m : LineMsg) (s : State) : Host.Outcome State Fault Refusal :=
  .next (settle s (sink port m .rsp 2 (snoopAck port m) s))
def execNotHeld (port : Nat) (m : LineMsg) (s : State) : Host.Outcome State Fault Refusal :=
  .next (settle s (sink port m .rsp 3 (notHeld port m) s))
def execEvictClean (port : Nat) (m : LineMsg) (s : State) : Host.Outcome State Fault Refusal :=
  .next (settle s (sink port m .rsp 4 (evictClean port m) s))
def execPlaceAck (port : Nat) (m : LineMsg) (s : State) : Host.Outcome State Fault Refusal :=
  .next (settle s (sink port m .rsp 5 (placeAnswer port m true) s))
def execPlaceDecline (port : Nat) (m : LineMsg) (s : State) : Host.Outcome State Fault Refusal :=
  .next (settle s (sink port m .rsp 6 (placeAnswer port m false) s))
def execSnpData (port : Nat) (m : LineMsg) (s : State) : Host.Outcome State Fault Refusal :=
  .next (settle s (sink port m .dat 2 (snpData port m) s))
def execWbData (port : Nat) (m : LineMsg) (s : State) : Host.Outcome State Fault Refusal :=
  .next (settle s (sink port m .dat 3 (wbData port m) s))
def execLineRequestResume (line : Nat) (s : State) : Host.Outcome State Fault Refusal :=
  .next (settle s (resumeLine line s))
def execMemoryAccessDone (line : Nat) (corrected bad : Bool) (s : State) : Host.Outcome State Fault Refusal :=
  .next (settle s (memoryDone line corrected bad s))
def execSnoopTimeout (agent line : Nat) (s : State) : Host.Outcome State Fault Refusal :=
  .next (settle s (snoopTimeout agent line s))
def execWritebackTimeout (agent line : Nat) (s : State) : Host.Outcome State Fault Refusal :=
  .next (settle s (writebackTimeout agent line s))
def execAgentCrash (agent : Nat) (s : State) : Host.Outcome State Fault Refusal :=
  .next (settle s (agentCrash agent s))
def execReclaimWalkEnd (agent : Nat) (s : State) : Host.Outcome State Fault Refusal :=
  .next (settle s (reclaimWalkEnd agent s))
def execAgentReclaimEnd (agent : Nat) (s : State) : Host.Outcome State Fault Refusal :=
  .next (settle s (agentReclaimEnd agent s))
def execLineHoldAtomic (line : Nat) (s : State) : Host.Outcome State Fault Refusal :=
  .next (settle s (holdAtomic line s))
def execHomeAtomic (line : Nat) (s : State) : Host.Outcome State Fault Refusal :=
  .next (settle s (homeAtomic line s))
def execDevownRecallEnd (base : Nat) (s : State) : Host.Outcome State Fault Refusal :=
  .next (settle s (devownRecallEnd base s))
def execSegmentAcquire (chan first lines : Nat) (s : State) : Host.Outcome State Fault Refusal :=
  .next (settle s (segmentAcquire chan first lines s))
def execSegmentAcquired (chan : Nat) (s : State) : Host.Outcome State Fault Refusal :=
  .next (settle s (segmentAcquired chan s))
def execSegmentAbandon (chan : Nat) (s : State) : Host.Outcome State Fault Refusal :=
  .next (settle s (segmentAbandon chan s))
def execSegmentRelease (chan : Nat) (s : State) : Host.Outcome State Fault Refusal :=
  .next (settle s (segmentRelease chan s))
def execCxlMemrd (tray : Nat) (mv : CxlMeta) (addr tag : Nat) (s : State) : Host.Outcome State Fault Refusal :=
  .next (settle s (cxlRead tray mv addr tag s))
def execCxlMeminv (tray addr tag : Nat) (s : State) : Host.Outcome State Fault Refusal :=
  .next (settle s (hostRequest tray tag addr 1 .upgrade .a 0 [] s))
def execCxlMemclnevct (tray addr tag : Nat) (s : State) : Host.Outcome State Fault Refusal :=
  .next (settle s (cxlEvict tray addr tag s))
def execCxlMemspecrd (tray addr : Nat) (s : State) : Host.Outcome State Fault Refusal :=
  .next (settle s (cxlSpecRead tray addr s))
def execCxlMemwr (tray addr tag : Nat) (mask : BitVec 64) (data : Bytes) (s : State) : Host.Outcome State Fault Refusal :=
  .next (settle s (cxlWrite tray addr tag mask data s))
def execCxlBirsp (tray addr : Nat) (shared : Bool) (s : State) : Host.Outcome State Fault Refusal :=
  .next (settle s (cxlBiRsp tray addr shared s))
def execCxlBiconflict (tray addr tag : Nat) (s : State) : Host.Outcome State Fault Refusal :=
  .next (settle s (biConflict tray addr tag s))
def execTrayCreditResume (tray : Nat) (s : State) : Host.Outcome State Fault Refusal :=
  .next (settle s (creditResume tray s))
def execDcAddAccept (tray base : Nat) (s : State) : Host.Outcome State Fault Refusal :=
  .next (settle s (dcAccept tray base s))
def execDcReleaseResponse (tray base : Nat) (s : State) : Host.Outcome State Fault Refusal :=
  .next (settle s (dcRelease tray base s))
def execDirRead (m : MbxId) (s : State) : Host.Outcome State Fault Refusal :=
  .next (settle s (runCmd 0x0408 m dirRead s))
def execLineClear (m : MbxId) (s : State) : Host.Outcome State Fault Refusal :=
  .next (settle s (runCmd 0x0409 m (simply lineClear) s))
def execLostlogRead (m : MbxId) (s : State) : Host.Outcome State Fault Refusal :=
  .next (settle s (runCmd 0x040A m lostlogRead s))
def execPeerAdmit (m : MbxId) (s : State) : Host.Outcome State Fault Refusal :=
  .next (settle s (runCmd 0x0502 m (simply peerAdmit) s))
def execPeerEvict (m : MbxId) (s : State) : Host.Outcome State Fault Refusal :=
  .next (settle s (runCmd 0x0503 m (simply peerEvict) s))

end Sys2Proof.Machine
end

