-- ==== Sys2Proof/Machine/Trays.lean ====
section
/-! DEFINITION. Tray ports: pins, links, failures and failover (R350 to R352, R456, R457, R469). -/

namespace Sys2Proof.Machine

/-- Accesses in flight to an extent end with DAMAGED (R352). -/
def extDamaged (e : Extent) (s : State) : State :=
  (s.dir.txs.filter fun x => x.phase == .memory && inExt e x.line).foldl (fun s x =>
    answerReq x.req .damaged 0 0 none none (abandonTx x s)) s

/-- What a tray failure does to one extent (R352, R456, R457): a mirrored one waits for its failover, a copy that stands
alone and an unmirrored one are lost. The answer says: 0 untouched, 1 fails over, 2 lost. -/
def extFate (s : State) (t : Nat) (e : Extent) : Nat :=
  let x := s.ext e.base
  if !e.tray || x.lost then 0
  else if e.mirror == 2 then
    if e.trayPort == t then (if x.mirrorOnly then 0 else if x.trayOnly || x.copying then 2 else 1)
    else if e.mirrorPort == t then (if x.trayOnly then 0 else if x.mirrorOnly then 2 else 1)
    else 0
  else if e.trayPort == t then 2 else 0

/-- A downstream tray fails (R352, R453, R456, R457): one data fault for each partition it touches. -/
def trayFail (t : Nat) (s : State) : State :=
  let hit := (liveExts s).filter fun e => extFate s t e != 0
  let lost := hit.filter fun e => extFate s t e == 2
  let moved := hit.filter fun e => extFate s t e == 1
  let s := modTray t (fun k => { k with failed := true }) s
  let s := hit.foldl (fun s e => extDamaged e s) s
  let s := lost.foldl (fun s e => modExt e.base (fun x => { x with lost := true, copyBack := false }) s) s
  let s := moved.foldl (fun s e => modExt e.base (fun x => { x with waiting := true }) s) s
  let ps := ((hit.map (·.part)).eraseDups)
  ps.foldl (fun s p =>
    let fail := moved.any (·.part == p)
    let n := (lost.filter (·.part == p)).length
    let s := dataFault p (if fail then 0x0033 else 0x0034) t s
    let s := if n = 0 then s else eventMO 0x0034 (some p) [t, n] s
    if fail then s else endRecovery p 0x0034 t s) s

/-! ## The Cinder queues (R326 to R329) -/

def State.ashTray? (s : State) (t : Nat) : Option AshTray := s.tiers.trays.find? (·.port == t)
def modAsh (t : Nat) (f : AshTray → AshTray) (s : State) : State :=
  { s with tiers.trays := modWhere (·.port == t) f s.tiers.trays }
def modBlock (t ch b : Nat) (f : NBlock → NBlock) (s : State) : State :=
  modAsh t (fun a => { a with blocks := a.blocks.map fun x => if x.1 == ch && x.2.id == b then (x.1, f x.2) else x }) s
def State.nblock (s : State) (t ch b : Nat) : NBlock :=
  ((s.ashTray? t).bind fun a => (a.blocks.find? fun x => x.1 == ch && x.2.id == b).map (·.2)).getD {}

/-- The bridge breaks the protocol (R327, R329). -/
def bridgeEvent (t code : Nat) (s : State) : State := event 0x0018 true [] none [t, code] s

/-- The service of a Cinder command (R242): BULK for a foreground read or write, BKG for wear and read-disturb work. -/
def cinderSvc (c : Cinder) : Nat := if (c.opc = 2 || c.opc = 3) && c.qid % 2 = 1 then 5 else 6

/-- A submission entry (R328). -/
def cinderEntry (a : AshTray) (c : Cinder) : Bytes :=
  toLE 64 (2 ^ 448 * c.buf + 2 ^ 440 * c.ch + 2 ^ 432 * (c.block / a.perDie % 256) + 2 ^ 408 * (c.block % a.perDie) + 2 ^ 392 * c.page
    + 2 ^ 384 * c.npages + 2 ^ 368 * c.arg + 2 ^ 360 * c.argQ + 2 ^ 16 * c.cid + c.opc)

/-- A queue's index, 0 unless listed, and one place further on (R327): rings hold 1,024 entries. -/
def ringAt (q : Nat) (l : List (Nat × Nat)) : Nat := (l.find? (·.1 == q)).elim 0 (·.2)
def ringSet (q n : Nat) (l : List (Nat × Nat)) : List (Nat × Nat) := (q, n) :: l.filter (·.1 != q)
def stepRing (q : Nat) (l : List (Nat × Nat)) : List (Nat × Nat) := ringSet q ((ringAt q l + 1) % 1024) l

/-- A queue exists, and neither of its rings is full (R327). -/
def ringRoom (s : State) (a : AshTray) (q : Nat) : Bool :=
  a.queues.contains q && (ringAt q a.tails + 1) % 1024 != ringAt q a.sqHeads
    && decide ((s.tiers.cmds.filter fun c => c.tray == a.port && c.qid == q && !c.waits).length < 1023)

/-- A waiting command goes into its ring where there is room: its CID is the module's next, its buffer a part of the window of its
own (log entry 9); the queue's tail moves on. -/
def issueCinder (c : Cinder) (s : State) : State :=
  match s.ashTray? c.tray with
  | none => s
  | some a =>
    if !ringRoom s a c.qid then s
    else
      let cid := s.tiers.nextCid
      let c' := { c with cid := cid, buf := if c.len = 0 then 0 else 131072 * (cid + 1), at_ := s.t, waits := false }
      let s := enqueue true c.tray (cinderSvc c) 0 (.tray .cinder cid c'.buf 0 (cinderEntry a c')) s
      modAsh c.tray (fun a => { a with tails := stepRing c.qid a.tails })
        { s with tiers := { s.tiers with nextCid := (cid + 1) % 65536, cmds := s.tiers.cmds.erase c ++ [c'] } }

/-- The commands of a tray that wait for their rings, the oldest first. -/
def pumpCinder (t : Nat) (s : State) : State :=
  (s.tiers.cmds.filter fun c => c.tray == t && c.waits).foldl (fun s c => issueCinder c s) s

/-- Submit a command: it waits for its ring behind the earlier ones. -/
def submitCinder (c : Cinder) (s : State) : State :=
  pumpCinder c.tray { s with tiers.cmds := s.tiers.cmds ++ [{ c with waits := true }] }

/-- The two CREATE_QUEUE of a channel (R327). -/
def createQueues (t c : Nat) (s : State) : State :=
  submitCinder { tray := t, opc := 7, argQ := 2 * c + 2, arg := 1023 } (submitCinder { tray := t, opc := 7, argQ := 2 * c + 1, arg := 1023 } s)

/-- One change of the map goes to the journal (R326); every 32,768 records a checkpoint is written; the twin holds a copy
(R438). -/
def journal (p unit : Nat) (e : AUnit) (s : State) : State :=
  let n := s.tiers.journal + 1
  let s := { s with tiers := if n = 32768 then { s.tiers with journal := 0, checkpoints := s.tiers.checkpoints + 1 } else { s.tiers with journal := n } }
  mirrorState p (.ash unit e.tray e.ch e.block e.off e.len e.wseq e.damaged) s

/-- The entries that a test picks become damaged, which the journal records (R322, R326). -/
def damageUnits (q : AUnit → Bool) (s : State) : State :=
  let hit := s.tiers.units.filter fun u => q u && !u.damaged
  hit.foldl (fun s u => journal u.part u.unit { u with damaged := true } s)
    { s with tiers.units := modWhere q (fun u => { u with damaged := true }) s.tiers.units }

/-- A relocation from a block has found no room: the block is emptied later. -/
def relocStops (u : AUnit) (s : State) : State :=
  modBlock u.tray u.ch u.block (fun x => { x with leaving := false, stuck := true }) s

/-- The token of an Ash command's writes (R292). -/
def ashTok (job : Nat) : Nat := 2 ^ 64 + job

/-- What an ASH_READ's writes came to. -/
def ashStored (s : State) (j : AshJob) : Status :=
  if j.status = .ok then engStatus s (ashTok j.job) j.addr (65536 * j.count) else j.status

/-- One unit of an Ash command has come to its status; the last one ends the command, an ASH_READ once its writes have ended too
(R323). -/
def ashJobUnit (job unit : Nat) (st : Status) (s : State) : State :=
  match s.tiers.jobs.find? (·.job == job) with
  | none => s
  | some j =>
    let left := j.left.filter (· != unit)
    let now := if j.status == .ok then st else j.status
    let upd := fun (j : AshJob) => { j with left := left, status := now }
    let s := { s with tiers.jobs := modWhere (·.job == job) upd s.tiers.jobs }
    if !left.isEmpty then s
    else if engBusy s (ashTok job) then { s with mantel.jobs := modWhere (·.id == job) (fun k => { k with started := false }) s.mantel.jobs }
    else finish job (ashStored s (upd j)) 0 [] (engForget (ashTok job) { s with tiers.jobs := s.tiers.jobs.filter (·.job != job) })

/-- CIN_CTRL.RST is set (R327, R329): every command and queue of the bridge goes, and every unit there is damaged. -/
def ashReset (t : Nat) (s : State) : State :=
    let gone := s.tiers.pendU.filter (·.tray == t)
    let s := damageUnits (·.tray == t) s
    let clear := fun (a : AshTray) =>
      { a with failed := true, ctrlEn := false, ready := false, queues := [0], identified := false, tails := [], heads := [], sqHeads := [], turned := [] }
    let s := { s with tiers := { s.tiers with
      trays := modWhere (·.port == t) clear s.tiers.trays,
      pendU := s.tiers.pendU.filter (·.tray != t), cmds := s.tiers.cmds.filter (·.tray != t),
      reads := modWhere (fun r => r.u.tray == t && r.st.isNone) (fun r => { r with st := some .damaged }) s.tiers.reads } }
    let s := gone.foldl (fun s u => match u.job with
      | some j => ashJobUnit j u.unit .damaged s
      | none => (s.tiers.units.find? fun x => x.part == u.part && x.unit == u.unit).elim s fun o => relocStops o s) s
    let lost := s.tiers.reads.filter fun r => r.u.tray == t && r.st == some .damaged
    lost.foldl (fun s r => match r.who with
      | .job j => ashJobUnit j r.u.unit .damaged { s with tiers.reads := s.tiers.reads.filter (·.id != r.id) }
      | .reloc _ => { s with tiers.reads := s.tiers.reads.filter (·.id != r.id) }
      | .bellows _ _ _ => s) s

/-- A flash tray fails (R329): its partition, where it has channels there, meets a data fault. -/
def ashFail (t : Nat) (s : State) : State :=
  match s.tiers.trays.find? fun a => a.port == t && !a.failed with
  | none => s
  | some a =>
    let s := ashReset t s
    if a.chans.isEmpty then s else endRecovery a.part 0x0034 t (dataFault a.part 0x0034 t s)

/-- TRAY_READ_FAIL (R352): Poison or no completion within 1 ms. The read reaches its requester as DAMAGED and the tray
counts as failed. -/
def trayReadFail (t addr : Nat) (s : State) : State :=
  if (s.tray t).mode ≠ 1 then s
  else
    let s := match s.dir.txs.find? fun x => x.phase == .memory && x.line == addr / 64 with
      | some x => answerReq x.req .damaged 0 0 none none (abandonTx x s)
      | none => s
    trayFail t s

/-- The link of a tray port goes down: a host is crashed (R308), an expander or flash tray has failed (R352, R329). -/
def trayDown (t : Nat) (s : State) : State :=
  let k := s.tray t
  if !k.up then s
  else
    let s := modTray t (fun k => { k with up := false, downs := k.downs + 1, creditHeld := false }) s
    if k.mode = 1 then trayFail t s
    else if k.mode = 2 then crashPort true t s
    else if k.mode = 3 then ashFail t s
    else s

/-- TRAY_PERST_N (R469): an input on upstream ports only; asserted, it takes the link down. A bifurcated pair shares it. -/
def trayPerst (t : Nat) (low : Bool) (s : State) : State :=
  let one := fun (t : Nat) (s : State) =>
    if (s.tray t).mode ≠ 2 then s
    else
      let s := modTray t (fun k => { k with perstLow := low }) s
      if low then trayDown t s else s
  if t < 16 && (s.tray t).x8 then one (t + 16) (one t s) else one t s

/-- TRAY_PRSNT_N (R469): low means a device is present. -/
def trayPrsnt (t : Nat) (low : Bool) (s : State) : State :=
  let one := fun (t : Nat) (s : State) => modTray t (fun k => { k with present := low }) s
  if t < 16 && (s.tray t).x8 then one (t + 16) (one t s) else one t s

/-- A host takes the lowest free agent id of the module, within its partition's quota (R291). -/
def hostAgent (t : Nat) (s : State) : State :=
  match (s.tray t).owner with
  | none => s
  | some p =>
    if (agentOn s true t).isSome || (s.part? p).elim 0 (·.agents) ≤ (s.dir.agents.filter (·.part == p)).length then s
    else match (List.range 64).find? fun i => !(s.dir.agents.any (·.id == i)) with
      | some i => { s with dir.agents := s.dir.agents ++ [{ id := i, tray := true, port := t, part := p }] }
      | none => s

/-- An Ash-mode port comes up: the module sets up the admin rings in the window and finds the bridge's shape
with IDENTIFY (R327, R328; their places are log entry 9). -/
def identify (t : Nat) (s : State) : State :=
  let old := (s.tiers.trays.find? (·.port == t)).getD { port := t }
  let a := { old with ctrlEn := true, ready := true, fatal := false, identified := false, queues := [0], adminSq := 2 ^ 34, adminCq := 2 ^ 34 + 65536,
                      adminSize := 1023 }
  submitCinder { tray := t, opc := 1, len := 4096 } { s with tiers.trays := s.tiers.trays.filter (·.port != t) ++ [a] }

/-- The Ash tray of a port leaves its partition (R320): its channels are no one's, what was mapped there is damaged, and a bridge that
still works starts again. -/
def ashLeave (t : Nat) (s : State) : State :=
  if (s.ashTray? t).isNone then s
  else
    let s := modAsh t (fun a => { a with chans := [], blocks := [] }) (ashReset t s)
    if (s.tray t).up then identify t s else s

/-- The port of a host holds its credits while a bucket of its subscriber is below 0 (R253). -/
def creditCheck (t : Nat) (s : State) : State :=
  let x := (s.dport true t).sub (subOf s true t 0)
  modTray t (fun k => { k with creditHeld := !(x.bw.lets s.ns && x.rq.lets s.ns) }) s

/-- TRAY_LINK_UP (R350, R456): a present device of a working port comes up; a tray that had failed is copied back. -/
def trayLinkUp (t : Nat) (s : State) : State :=
  let k := s.tray t
  if k.mode = 0 || k.up || !k.present || (k.mode = 2 && k.perstLow) || inReset s || !s.power.started
      || s.power.refLost.getD 2 false then s
  else
    let s := modTray t (fun k => { k with up := true, failed := false, perstLow := false }) s
    if k.mode = 2 then hostAgent t (creditCheck t s)
    else if k.mode = 1 then
      (liveExts s).foldl (fun s e =>
        let x := s.ext e.base
        if (x.mirrorOnly && e.trayPort == t) || (x.trayOnly && e.mirrorPort == t) then modExt e.base (fun x => { x with copyBack := true }) s
        else s) s
    else if k.mode = 3 then identify t s
    else s

/-- TRAY_FAILOVER (R456): every write is on the remaining copy, and the extent is served from it alone; one recovery at a
time in a quiesced partition (R464). -/
def trayFailover (base : Nat) (s : State) : State :=
  match (liveExts s).find? (·.base == base) with
  | none => s
  | some e =>
    let x := s.ext base
    let t := if (s.tray e.trayPort).failed then e.trayPort else e.mirrorPort
    if !x.waiting || !recoveryRuns s e.part 0x0033 t then s
    else
      let first := t == e.trayPort
      let s := modExt base (fun x => { x with waiting := false, mirrorOnly := first, trayOnly := !first }) s
      let o := base * 2 ^ 28
      let s := if first then
          { s with mem.bytes := cellsCopy 0 s.mem.mirror s.mem.bytes o o (e.granules * 2 ^ 28) }
        else s
      let s := eventMO 0x0033 (some e.part) [base, t] s
      let left := (liveExts s).any fun y => y.part == e.part && (y.trayPort == t || y.mirrorPort == t) && (s.ext y.base).waiting
      if left then s else endRecovery e.part 0x0033 t s

/-- TRAY_COPY_BACK_END (R456): both copies are current again. -/
def trayCopyBackEnd (base : Nat) (s : State) : State :=
  match (liveExts s).find? (·.base == base) with
  | none => s
  | some e =>
    if !(s.ext base).copyBack then s
    else
      let o := base * 2 ^ 28
      modExt base (fun x => { x with copyBack := false, mirrorOnly := false, trayOnly := false })
        { s with mem.mirror := cellsCopy 0 s.mem.bytes s.mem.mirror o o (e.granules * 2 ^ 28) }

/-! ## Meanings -/

def execTrayReadFail (tray addr : Nat) (s : State) : Host.Outcome State Fault Refusal :=
  .next (settle s (trayReadFail tray addr s))
def execTrayLinkDown (tray : Nat) (s : State) : Host.Outcome State Fault Refusal :=
  .next (settle s (trayDown tray s))
def execTrayPerstN (tray : Nat) (low : Bool) (s : State) : Host.Outcome State Fault Refusal :=
  .next (settle s (trayPerst tray low s))
def execTrayPrsntN (tray : Nat) (low : Bool) (s : State) : Host.Outcome State Fault Refusal :=
  .next (settle s (trayPrsnt tray low s))
def execTrayLinkUp (tray : Nat) (s : State) : Host.Outcome State Fault Refusal :=
  .next (settle s (trayLinkUp tray s))
def execTrayFailover (base : Nat) (s : State) : Host.Outcome State Fault Refusal :=
  .next (settle s (trayFailover base s))
def execTrayCopyBackEnd (base : Nat) (s : State) : Host.Outcome State Fault Refusal :=
  .next (settle s (trayCopyBackEnd base s))

end Sys2Proof.Machine
end

