-- ==== Sys2Proof/Machine/Maps.lean ====
section
/-! DEFINITION. Extents, routes, map epochs and releases (R261 to R276, R286). -/

namespace Sys2Proof.Machine

/-- The pending map is frozen: a MAP_COMMIT waits for its slot (R271). -/
def frozen (s : State) : Bool := s.maps.commit.isSome

/-- The pending map, created as a copy of the current one (R271). -/
def pending (s : State) : MapV := s.maps.pend.getD s.maps.cur

/-- Every extent that holds space: pending, live or being released. -/
def heldExts (s : State) : List Extent :=
  let a := (pending s).exts
  a ++ (liveExts s).filter fun e => !(a.any (·.base == e.base))

/-- Two runs of granules overlap. -/
def granulesMeet (a b : Extent) : Bool := a.base < b.base + b.granules && b.base < a.base + a.granules

/-- 32 MiB units of channel index `k` that an extent takes on its nook (R265). -/
def unitsOn (e : Extent) (k : Nat) : Nat :=
  if e.tray then 0
  else if e.channelMap then 8 * ((List.range e.granules).filter fun g => (e.ch0 + g) % 8 == k).length
  else e.granules

/-- The nook's channels have room for a stacked extent (R265, R266, R455). -/
def nookRoom (s : State) (e : Extent) : Bool :=
  e.tray || (List.range 8).all fun k =>
    let need := unitsOn e k
    let used := ((heldExts s).filter (·.nook == e.nook)).foldl (fun n x => n + unitsOn x k) 0
    let c := s.chan (e.nook / 4 * 32 + 8 * (e.nook % 4) + k)
    need = 0 || (need + used ≤ 64 && !c.retired && c.retiring.isNone)

/-- The slots that granule `g` takes when the pieces in `used` are taken: the lowest free one of each channel, or the eight lowest of
one (R265, log entry 78). -/
def pickSlots (e : Extent) (used : List Nat) (g : Nat) : List Nat :=
  let free := fun (k : Nat) => (List.range 64).filter fun r => !used.contains (8 * r + k)
  if e.channelMap then (free ((e.ch0 + (g - e.base)) % 8)).take 8 else (List.range 8).map fun k => (free k).headD 0

/-- An extent takes its space on its nook's channels (R265, R266). -/
def placeExt (e : Extent) (s : State) : State :=
  if e.tray then s
  else
    let used := ((heldExts s).filter (·.nook == e.nook)).flatMap (extPieces s)
    let gs := (List.range e.granules).map (e.base + ·)
    let r := gs.foldl (fun (a : List Nat × State) g =>
      let sl := pickSlots e a.1 g
      let s : State := { a.2 with maps.places := a.2.maps.places.filter (·.1 != g) ++ [(g, sl)] }
      (a.1 ++ granPieces s e g, s)) (used, s)
    r.2

/-- Twin pairing exists under the profile (R20). -/
def twinProfile (s : State) : Bool := s.flash.prof.sysNooks != 0 && s.flash.prof.twin

/-- The partition's tray port of a mode (R266). -/
def trayRole (s : State) (p t mode : Nat) : Bool := (s.tray t).owner == some p && (s.tray t).mode == mode

/-- A change of a mirrored extent, table, template or group goes to the twin (R438). -/
def mirrorDesc (j : Job) (part : Nat) (s : State) : State := mirrorState part (.desc j.op j.payload) s

/-- The tray memory keys (R388): one for each partition and downstream port with an extent of the partition on it. -/
def trayKeys (s : State) : State :=
  let on := fun (e : Extent) => if e.tray then (e.part, e.trayPort) :: (if e.mirror == 2 then [(e.part, e.mirrorPort)] else []) else []
  let need := ((heldExts s).flatMap on).eraseDups
  let have_ := s.ten.trayKey.filter fun k => need.contains (k.1, k.2.1)
  (need.filter fun n => !(have_.any fun k => (k.1, k.2.1) == n)).foldl (fun s n =>
    let (k, s) := drawKey s
    { s with ten.trayKey := s.ten.trayKey ++ [(n.1, n.2, k)] }) { s with ten.trayKey := have_ }

/-- An extent needs a tray memory key that no one may issue now (R390). -/
def keyMissing (s : State) (e : Extent) : Bool :=
  s.power.trngFail && e.tray && (e.trayPort :: if e.mirror == 2 then [e.mirrorPort] else []).any fun p =>
    !(s.ten.trayKey.any fun k => (k.1, k.2.1) == (e.part, p))

/-- EXTENT_ADD (R25, R264, R266, R271). -/
def extentAdd (j : Job) (s : State) : Status × State :=
  let x := leNat j.payload
  let e := decExtent x
  if extentBad x || (e.trayLd ≠ 0 && !Config.multiLd e.trayPort) then (.badDescriptor, s)
  else if (s.part? e.part).isSome && movingFor s e.part e.nook then (.quiesced, s)
  else if s.nookOwner e.nook != .part e.part || (s.part? e.part).isNone
      || (e.tray && !trayRole s e.part e.trayPort 1) || (e.mirror == 2 && !trayRole s e.part e.mirrorPort 1)
      || !((List.range 32).all fun t => !bit e.hostmask t || trayRole s e.part t 2)
      || (e.mirror == 1 && !twinProfile s) then (.noAccess, s)
  else if frozen s || (heldExts s).any (granulesMeet e) || 65536 ≤ (heldExts s).length || !nookRoom s e || keyMissing s e then (.busy, s)
  else
    let m := pending s
    let s := if e.mirror == 1 then mirrorDesc j e.part s else s
    let s := placeExt e s
    (.ok, trayKeys { s with maps := { s.maps with pend := some { m with exts := m.exts ++ [e] } } })

/-- The extent holds the RIT, the shard map or an update area of a live table, or the ticket area of a running chain
(R274). -/
def extentInUse (s : State) (e : Extent) : Bool :=
  let lo := e.base * 2 ^ 28
  let hi := lo + e.granules * 2 ^ 28
  let meets := fun (a n : Nat) => decide (a % 2 ^ 52 < hi) && decide (lo < a % 2 ^ 52 + n)
  s.tables.any (fun t =>
    let phys := if t.d.storage = 1 then 2 ^ t.d.hbits else t.d.rows
    (t.d.storage != 2 && (meets t.d.rit (16 * phys) || meets t.d.smap (256 * t.d.nspan)))
      || t.u.elim false fun u =>
          let n := u.slots * roundUp (64 + 96 * t.d.elems) 64
          u.uareas.any fun a => a % 2 ^ 52 != 0 && meets a n)
    || s.chains.chains.any fun c => !c.ended && bit (leNat c.hdr) 111 && meets (bits (leNat c.hdr) 383 320) 64

/-- EXTENT_RELEASE (R271, R274). -/
def extentRelease (j : Job) (s : State) : Status × State :=
  let b := fldLE j.payload 0 4
  match s.maps.cur.exts.find? fun e => e.base == b && !s.maps.pendRel.contains b with
  | none => (.noAccess, s)
  | some e =>
    if frozen s || extentInUse s e then (.busy, s)
    else
      let m := pending s
      let s := if e.mirror == 1 then mirrorDesc j e.part s else s
      (.ok, { s with maps := { s.maps with pend := some { m with exts := m.exts.filter (·.base != b) },
                                           pendRel := s.maps.pendRel ++ [b] } })

/-- Change an extent in every map that holds it (R269). -/
def setExtent (base : Nat) (f : Extent → Extent) (s : State) : State :=
  let g := fun (m : MapV) => { m with exts := modWhere (fun (e : Extent) => e.base == base) f m.exts }
  { s with maps := { s.maps with cur := g s.maps.cur, prev := s.maps.prev.map g, pend := s.maps.pend.map g } }

/-- The atomics of an extent in strokes that have not started, and the state without them. -/
def takeStrokes (e : Extent) (s : State) : List LineReq × State :=
  let hit := fun (q : LineReq) => inExt e q.line
  let back := s.chans.flatMap fun k => (k.strokes ++ k.held ++ k.segWait).flatMap fun x => x.reqs.filter hit
  let rest := fun (l : List Stroke) =>
    (l.map fun x => { x with reqs := x.reqs.filter (! hit ·) }).filter fun x => x.kind != .atomic || !x.reqs.isEmpty
  if back.isEmpty then ([], s)
  else (back, { s with chans := s.chans.map fun k => { k with strokes := rest k.strokes, held := rest k.held, segWait := rest k.segWait } })

/-- The waiting atomics of an extent go back to the directory, where they run under line holds (R175, R176). -/
def returnStrokes (e : Extent) (s : State) : State :=
  match takeStrokes e s with
  | ([], _) => s
  | (back, s) => { s with dir.waitq := (back.map fun q => { q with held := true }) ++ s.dir.waitq }

/-- Setting MIRROR starts the copy; clearing it ends mirroring at once (R269). A twin is given the extent, and then its contents
(R438, R444). -/
def setMirror (e : Extent) (mirror port : Nat) (s : State) : State :=
  let new := { e with mirror := mirror, mirrorPort := port }
  let s := setExtent e.base (fun e => { e with mirror := mirror, mirrorPort := port }) s
  let s := if e.mirror = 2 then { s with mem.mirror := cellsClear s.mem.mirror (e.base * 2 ^ 28) (e.granules * 2 ^ 28) } else s
  let twin := s.mirrors && s.twin.primary.contains e.part
  if mirror = 0 then
    modExt e.base (fun x => { x with copying := false, mirrorOnly := false, trayOnly := false, waiting := false, copyBack := false }) s
  else if mirror = 2 then modExt e.base (fun x => { x with copying := true }) s
  else if twin then
    mirrorSend e.part (.desc 0x0401 (encExtent new))
      (modExt e.base (fun x => { x with copying := true }) { s with twin.copying := s.twin.copying ++ [s.twin.nextTxn] })
  else s

/-- EXTENT_SET_ATTR (R176, R269). -/
def extentSetAttr (j : Job) (s : State) : End × State :=
  let b := fldLE j.payload 0 4
  let dv := fldLE j.payload 4 1
  let mi := fldLE j.payload 5 1
  let mp := fldLE j.payload 6 1
  if 1 < dv || 2 < mi || 31 < mp || !zeroAt j.payload 7 1 then (.done .badDescriptor, s)
  else match s.maps.cur.exts.find? (·.base == b) with
  | none => (.done .noAccess, s)
  | some e =>
    if (mi ≠ 2 && mp ≠ 0)
        || (mi = 2 && (!e.tray || mp = e.trayPort)) then (.done .badDescriptor, s)
    else if (mi = 2 && !trayRole s e.part mp 1) || (mi = 1 && !twinProfile s) then (.done .noAccess, s)
    else if (s.ext b).recallJob.isSome || (s.ext b).clearJob.isSome || keyMissing s { e with mirror := mi, mirrorPort := mp } then (.done .busy, s)
    else
      let s := if e.mirror == 1 || mi = 1 then mirrorDesc j e.part s else s
      let s := if mi = e.mirror && mp = e.mirrorPort then s else trayKeys (setMirror e mi mp s)
      if dv = b2n e.devown then (.done .ok, s)
      else if dv = 1 then
        if e.coh then
          (.waits, recallAll (fun d => inExt e d.line && !s.dir.txs.any (·.line == d.line)) (modExt b (fun x => { x with recallJob := some j.id }) s))
        else (.done .ok, setExtent b (fun e => { e with devown := true }) s)
      else
        let s := returnStrokes e (setExtent b (fun e => { e with devown := false }) s)
        let runs := s.chans.any fun k => k.running.elim false fun r => r.kind == .atomic && r.reqs.any fun q => inExt e q.line
        if runs || s.dir.segs.any (fun g => inExt e g.first) then (.waits, modExt b (fun x => { x with clearJob := some j.id }) s)
        else (.done .ok, s)

/-- MIRROR_COPY_END (R269): the copy is complete, that to a twin once it has acknowledged it (R444), and the mirror begins to serve
reads. -/
def mirrorCopyEnd (base : Nat) (s : State) : State :=
  match s.maps.cur.exts.find? (·.base == base) with
  | none => s
  | some e =>
    if !(s.ext base).copying || (e.mirror == 1 && s.mirrors && !s.twin.copying.isEmpty) then s
    else
      let o := base * 2 ^ 28
      let s := modExt base (fun x => { x with copying := false }) s
      if e.mirror == 2 then { s with mem.mirror := cellsCopy 0 s.mem.bytes s.mem.mirror o o (e.granules * 2 ^ 28) } else s

/-- ROUTE_SET (R271, R286). -/
def routeSet (j : Job) (s : State) : Status × State :=
  let n := fldLE j.payload 0 2
  let xs := (List.range n).map fun i => fldLE j.payload (8 + 8 * i) 8
  if j.payload.length ≠ 8 + 8 * n || 511 < n || !zeroAt j.payload 2 6
      || xs.any (fun x => routeBad x || (decRoute x).ports.any fun p => (s.port p).kind != 1) then (.badDescriptor, s)
  else if frozen s then (.busy, s)
  else
    let m := pending s
    let rs := xs.foldl (fun (rs : List Route) x =>
      let r := decRoute x
      rs.filter (fun y => !(y.own == r.own && y.dest == r.dest)) ++ [r]) m.routes
    (.ok, { s with maps.pend := some { m with routes := rs } })

/-- Strokes not yet started on a released extent leave the queue (R274): its atomics end with EXTENT_GONE. Those that read rows of it
never start: their rows are lost when their turn comes. -/
def dropStrokes (e : Extent) (st : Status) (s : State) : State :=
  let r := takeStrokes e s
  r.1.foldl (fun s q => answerReq q st 0 0 none none s) r.2

/-- What a release starts at the commit (R274, R275): hosts are asked, cached lines recalled, strokes dropped. -/
def startRelease (e : Extent) (s : State) : State :=
  let s := { s with maps.rels := s.maps.rels ++ [{ ext := e, at_ := s.t }] }
  let s := ((List.range 32).filter (bit e.hostmask)).foldl (fun s t => enqueue true t 0 0 (.tray .dcRelease 0 (e.base * 2 ^ 28) 0 []) s) s
  let s := dropCached (e.base * 2 ^ 28) (e.granules * 2 ^ 28) s
  dropStrokes e .extentGone (recallAll (fun d => inExt e d.line && !s.dir.txs.any (·.line == d.line)) s)

/-- The commit instant (R271). -/
def commitNow (newEpoch : Nat) (s : State) : State :=
  let m := pending s
  let gone := s.maps.cur.exts.filter fun e => s.maps.pendRel.contains e.base
  let added := m.exts.filter fun e => !(s.maps.cur.exts.any (·.base == e.base))
  let s := { s with maps := { s.maps with cur := { m with epoch := newEpoch }, prev := some s.maps.cur, pend := none,
                                          pendRel := [], commit := none } }
  let s := gone.foldl (fun s e => startRelease e s) s
  added.foldl (fun s e => ((List.range 32).filter (bit e.hostmask)).foldl (fun s t =>
    enqueue true t 0 0 (.tray .dcAdd e.dcRegion (e.base * 2 ^ 28) 0 []) s) s) s

/-- MAP_COMMIT (R271). -/
def mapCommit (j : Job) (s : State) : End × State :=
  let ne := fldLE j.payload 0 4
  let at_ := fldLE j.payload 8 8
  if !zeroAt j.payload 4 4 || ne ≠ (s.maps.cur.epoch + 1) % 2 ^ 32 || (at_ ≠ 0 && at_ * 256 ≤ s.ns) then (.done .badDescriptor, s)
  else if s.maps.prev.isSome || frozen s then (.done .busy, s)
  else if at_ = 0 then (.done .ok, commitNow ne s)
  else (.waits, { s with maps.commit := some { newEpoch := ne, atSlot := at_, job := j.id } })

/-- MAP_COMMIT_ACT: AT_SLOT has come. -/
def mapCommitAct (s : State) : State :=
  match s.maps.commit with
  | some c => if s.slot < c.atSlot then s else finish c.job .ok 0 [] (commitNow c.newEpoch s)
  | none => s

/-- MAP_DISCARD (R271). -/
def mapDiscard (_j : Job) (s : State) : Status × State :=
  if frozen s then (.busy, s) else (.ok, trayKeys { s with maps := { s.maps with pend := none, pendRel := [] } })

/-- MAP_READ (R408). -/
def mapRead (j : Job) (s : State) : End × State :=
  let w := fldLE j.payload 0 1
  if 2 < w || !zeroAt j.payload 1 3 then (.done .badDescriptor, s)
  else
    let es := if w = 0 then s.maps.cur.exts else if w = 1 then s.maps.prev.elim [] (·.exts) else s.maps.pend.elim [] (·.exts)
    (.done .ok 0 (((es.drop (fldLE j.payload 4 4)).take 127).flatMap encExtent), s)

/-- MAP_RETIRE: the previous map leaves once nothing runs under it (R272). -/
def mapRetire (s : State) : State :=
  match s.maps.prev with
  | some m => if inFlight s m.epoch = 0 then { s with maps.prev := none } else s
  | none => s

/-- Hosts that go on caching lines of a released extent receive back-invalidations for them (R275). -/
def invalidateHosts (r : Release) (s : State) : State :=
  let xs := (s.dir.ents.filter fun d => inExt r.ext d.line).flatMap fun d =>
    (s.dir.agents.filter fun g => g.tray && !g.crashed && d.sharers.contains g.id && !r.back.contains g.port).map fun g => (g.port, d.line)
  xs.foldl (fun s x =>
    enqueue true x.1 1 0 (.tray .biSnpInv s.dir.nextSnp (64 * x.2) 0 []) { s with dir.nextSnp := (s.dir.nextSnp + 1) % 2 ^ 20 }) s

/-- RELEASE_DEADLINE: 2 ms after the commit every request still in flight ends with EXTENT_GONE, recalls are closed
without write-back, and the extent's entries and lost lines are cleared (R274). -/
def releaseDeadline (base : Nat) (s : State) : State :=
  match s.maps.rels.find? (·.ext.base == base) with
  | none => s
  | some r =>
    if r.closed || s.t < r.at_ + 2000000 then s
    else
      let e := r.ext
      let hit := fun (q : LineReq) => inExt e q.line
      let out := (s.dir.waitq.filter hit) ++ ((s.dir.txs.map (·.req)).filter hit) ++ ((s.dir.acks.map (·.req)).filter hit)
        ++ strokeReqs hit s
      let keep := fun (l : Nat) => !inExt e l
      let s := (s.dir.txs.filter (hit ·.req)).foldl (fun s x => dropFrames e x.line s) (invalidateHosts r (dropStrokeReqs hit s))
      let s := { s with
        maps.rels := modWhere (·.ext.base == base) (fun r => { r with closed := true }) s.maps.rels
        dir := { s.dir with
          waitq := s.dir.waitq.filter (! hit ·), txs := s.dir.txs.filter (! hit ·.req), acks := s.dir.acks.filter (! hit ·.req),
          snoops := s.dir.snoops.filter (keep ·.line), awaits := s.dir.awaits.filter (keep ·.line),
          wbs := s.dir.wbs.filter (keep ·.line), ents := s.dir.ents.filter (keep ·.line), segs := s.dir.segs.filter (keep ·.first) } }
      out.foldl (fun s q => answerReq q .extentGone 0 0 none none s) s

/-- A nook holds no extent: its channels may zero it with ZERO strokes (R175). -/
def nookBare (s : State) (n : Nat) : Bool := !(heldExts s).any (·.nook == n)

/-- The first line at or after `p` of a channel in a piece that waits to be zeroed. -/
def zeroFrom (s : State) (c p : Nat) : Option Nat :=
  let waits := fun (r : Nat) => s.ten.unzeroed.contains (chanNook c, 8 * r + c % 8)
  if waits (p / 2 ^ 19) then some p
  else (((List.range 64).filter fun r => p / 2 ^ 19 < r).find? waits).map (· * 2 ^ 19)

/-- A channel that has something to zero, on a nook without extents, queues a ZERO stroke while its queue has room (R156, R159,
R175). -/
def moreZero (c : Nat) (s : State) : State :=
  let k := s.chan c
  if k.zeroLine.isNone || !nookBare s (chanNook c) || chanGone k || k.strokes.any (·.kind == .zero) || 32 ≤ k.strokes.length
      || k.running.elim false (·.kind == .zero) then s
  else modChan c (fun k => { k with strokes := k.strokes ++ [{ kind := .zero }] }) s

/-- The zeroing engine starts on a nook: each channel from its first piece that waits (R25, R26). -/
def startZero (n : Nat) (s : State) : State :=
  if !nookBare s n then s
  else (nookChans n).foldl (fun s c => moreZero c (modChan c (fun k =>
    if chanGone k then k else { k with zeroLine := zeroFrom s c 0 }) s)) s

/-- The space behind a released extent waits to be zeroed (R26, R276): it reads as zeros. Its lines keep their places' names in the
damaged-line tables. On a tray it is zero, with the copy. -/
def freeSpace (e : Extent) (s : State) : State :=
  if e.tray then memClear e s
  else
    let o := e.base * 2 ^ 28
    let n := e.granules * 2 ^ 28
    let name := fun (l : Nat) => if inExt e l then bareLine (linePos s e l) else l
    let s := (nookChans e.nook).foldl (fun s c =>
      if (s.chan c).damaged.any (inExt e) then modChan c (fun k => { k with damaged := (k.damaged.map name).eraseDups }) s else s) s
    let ps := (extPieces s e).map fun q => (e.nook, q)
    { dropCached o n s with
      mem := { s.mem with bytes := cellsClear s.mem.bytes o n, weak := s.mem.weak.filter (! inExt e ·.1) }
      ten.unzeroed := s.ten.unzeroed ++ ps.filter (! s.ten.unzeroed.contains ·) }

/-- RELEASE_END: the granules leave the extent table and their space waits to be zeroed (R274, R276). Hosts that have not given the
capacity back are remembered (R275). -/
def releaseEnd (base : Nat) (s : State) : State :=
  match s.maps.rels.find? fun r => r.ext.base == base && r.closed with
  | none => s
  | some r =>
    let s := freeSpace r.ext s
    let still := ((s.ext base).accepted.filter (! r.back.contains ·)).map fun t => (t, base, r.ext.granules)
    let s := { s with maps := { s.maps with
      shed := s.maps.shed ++ still
      rels := s.maps.rels.filter (·.ext.base != base), ext := s.maps.ext.filter (·.base != base),
      prev := s.maps.prev.map fun m => { m with exts := m.exts.filter (·.base != base) } } }
    startZero r.ext.nook (eventMO 0x0011 (some r.ext.part) [base] (trayKeys s))

/-! ## Meanings -/

def execExtentAdd (m : MbxId) (s : State) : Host.Outcome State Fault Refusal :=
  .next (settle s (runCmd 0x0401 m (simply extentAdd) s))
def execExtentRelease (m : MbxId) (s : State) : Host.Outcome State Fault Refusal :=
  .next (settle s (runCmd 0x0402 m (simply extentRelease) s))
def execExtentSetAttr (m : MbxId) (s : State) : Host.Outcome State Fault Refusal :=
  .next (settle s (runCmd 0x0403 m extentSetAttr s))
def execRouteSet (m : MbxId) (s : State) : Host.Outcome State Fault Refusal :=
  .next (settle s (runCmd 0x0404 m (simply routeSet) s))
def execMapCommit (m : MbxId) (s : State) : Host.Outcome State Fault Refusal :=
  .next (settle s (runCmd 0x0405 m mapCommit s))
def execMapDiscard (m : MbxId) (s : State) : Host.Outcome State Fault Refusal :=
  .next (settle s (runCmd 0x0406 m (simply mapDiscard) s))
def execMapRead (m : MbxId) (s : State) : Host.Outcome State Fault Refusal :=
  .next (settle s (runCmd 0x0407 m mapRead s))
def execMapCommitAct (s : State) : Host.Outcome State Fault Refusal :=
  .next (settle s (mapCommitAct s))
def execMapRetire (s : State) : Host.Outcome State Fault Refusal :=
  .next (settle s (mapRetire s))
def execReleaseDeadline (base : Nat) (s : State) : Host.Outcome State Fault Refusal :=
  .next (settle s (releaseDeadline base s))
def execReleaseEnd (base : Nat) (s : State) : Host.Outcome State Fault Refusal :=
  .next (settle s (releaseEnd base s))
def execMirrorCopyEnd (base : Nat) (s : State) : Host.Outcome State Fault Refusal :=
  .next (settle s (mirrorCopyEnd base s))

end Sys2Proof.Machine
end

