-- ==== Sys2Proof/Machine/Msg.lean ====
section
/-! DEFINITION. Messages: their refusal, their way to another endpoint, and the module's own POSTs (R281 to R289, R493). -/

namespace Sys2Proof.Machine

/-- Slots of a received message at its raw size, as the policer charges it (R252, R345). -/
def rawPkt (s : State) (p : Nat) (m : PktMsg) : Nat := rawFlits ((s.port p).sess.phase == 3) (1 + pktLen m.bytes)

/-- Answer a message that is refused: on its own port for an accelerator, by its route otherwise (R493). -/
def refuse (p : Nat) (q : PktMsg) (st : Status) (s : State) : State :=
  if (s.port p).kind == 0 then answerOn p q st s else answerMsg q st s

/-- Steps 0 to 3 of R289 for a message that arrives on a port; `bad` is its own step 1, and `anyEpoch` exempts it from step
2. The message comes back with its payload expanded and its tenant tag stamped (R285, R346). -/
def admitMsg (p : Nat) (m : PktMsg) (bad anyEpoch : Bool) (s : State) : Except Status PktMsg × State :=
  let pt := s.port p
  let s := eatPkt p .msg m s
  if pt.kind = 0 && (m.src ≠ accelEp s p || !pt.admitted) then (.error .noAccess, s)
  else match openPkt m with
    | none => (.error .badDescriptor, fluxEvent p m s)
    | some m =>
      if m.rsv || bad || m.bytes = 0 || 2048 < m.bytes || pt.kind = 3 then (.error .badDescriptor, s)
      else match (if anyEpoch then .ok s.maps.cur else mapFor s m.epoch : Except Status MapV) with
        | .error st => (.error st, s)
        | .ok _ =>
          match police p m.src (rawPkt s p m) true s with
          | (false, _, s) => (.error .retry, s)
          | (true, h, s) =>
            (.ok (if pt.kind = 0 then { m with tenant := tagOf s pt.owner, hops := 0, heat := h } else { m with heat := 0 }), s)

/-- A message takes a tracker of the partition of the port it came in, and with it the Heat sampled at the policer (R255, R281). -/
def trackMsg (p : Nat) (m : PktMsg) (s : State) : State :=
  (takeTrk { part := (s.port p).owner, port := p, txn := m.txn, src := m.src, epoch := m.epoch, vc := .msg,
             svc := msgSvc m.opc m.tag, opc := m.opc, tag := m.tag, heat := m.heat } s).2

/-- A message that its port's partition, or for a stage link the system, has no tracker for waits there: nothing changes
(R281). -/
def waitsTrk (s : State) (p : Nat) : Bool := !trkFree s (s.port p).owner

/-- The tenant tag matches the owner of the accelerator's port (R285). -/
def tagFits (s : State) (tenant p : Nat) : Bool :=
  tenant == 0 || ((s.port p).owner.isSome && tenant == tagOf s (s.port p).owner)

/-- What keeps a message from its destination (R284 to R287), or the port it leaves by and its HOPS. -/
def wayOut (s : State) (m : PktMsg) : Except Status (Nat × Nat) :=
  match leave s (routeMap s m.epoch) m with
  | .here => .error .noAccess
  | .accel p => if tagFits s m.tenant p && attested s p then .ok (p, m.hops) else .error .noAccess
  | .out p => if linkAlive s p && (s.port p).sess.phase == 3 then .ok (p, m.hops + 1) else .error .noAccess
  | .loop => .error .timeout
  | .nowhere => .error .noAccess

/-- A hop count that would reach 16 is reported (R287). -/
def loopEvent (m : PktMsg) (st : Status) (s : State) : State :=
  if st = .timeout then loopReport m s else s

/-- A message goes on toward its destination, or is answered with what keeps it (R284 to R287). -/
def passOn (svc : Nat) (m : PktMsg) (s : State) : State :=
  match wayOut s m with
  | .error st => answerMsg m st (loopEvent m st s)
  | .ok (p, hops) => enqueue false p svc m.dst (.pkt .msg { m with hops := hops, heat := 0 }) s

/-- A message in transit holds a tracker of the system until its answer passes back, in its service, or 100 ms are over (R243,
R281, R282). A RESULT is not answered and holds none. -/
def noteTransit (p : Nat) (q : PktMsg) (s : State) : State :=
  if q.opc = 6 && fldLE q.body 1 1 % 16 = 2 then s
  else
    let s := (msgTrk s q.src q.txn).elim s fun k => if s.mem.transit.contains k.id then freeTrk k.id s else s
    { trackMsg p q s with mem.transit := s.mem.transit ++ [s.mem.nextTrk] }

/-- The partition that keeps a POST or COLLECT is quiesced (R289 step 5): the owner of the accelerator port it came in by, or of
the one it is delivered to. -/
def quietMsg (p : Nat) (q : PktMsg) (s : State) : Option Status :=
  let ports := (if (s.port p).kind = 0 then [p] else []) ++ (if namesMyAccel s q.dst then [epPort q.dst] else [])
  let owners := ports.filterMap fun k => (s.port k).owner
  if q.opc = 1 || q.opc = 2 then (owners.find? s.isQuiesced).map s.quiesceStatus else none

/-- A message for another endpoint that came in on a stage link or from an accelerator: it is passed on, and holds a tracker
until its answer (R281, R282). One that has a way, from or to a quiesced partition, is answered with that status (R289). -/
def forward (p : Nat) (m : PktMsg) (bad : Bool) (s : State) : State :=
  match admitMsg p m bad false s with
  | (.error st, s) => refuse p m st s
  | (.ok q, t) =>
    if waitsTrk s p then s
    else
      let t := if (s.port p).kind == 0 then trackMsg p q t else noteTransit p q t
      match wayOut t q, quietMsg p q t with
      | .ok _, some st => answerMsg q st t
      | _, _ => passOn (msgSvc q.opc q.tag) q t

/-- A message of the module itself that is answered: its TXN is its tracker's number; an answer already decided comes back
at once, and one that leaves for an accelerator of the module has none to wait for. -/
def ownMsg (opc : Nat) (part : Option Nat) (svc dst tag : Nat) (epoch : Nat) (body : Bytes) (s : State) :
    Except Status (Option Nat) × State :=
  let m : PktMsg := { dst := dst, src := ownId s, opc := opc, epoch := epoch, tenant := tagOf s part, tag := tag,
                      bytes := body.length, body := body }
  match wayOut s m with
  | .error st => (.error st, loopEvent m st s)
  | .ok (p, hops) =>
    if isAccel s p then (.ok none, enqueue false p svc dst (.pkt .msg { m with hops := hops }) s)
    else
      let wait := !trkFree s part
      let (id, s) := takeTrk { part := part, port := p, src := ownId s, epoch := epoch, vc := .msg, svc := svc, opc := opc, tag := tag } s
      let m := { m with txn := id % 2 ^ 20 }
      let s := { s with mem.trks := modWhere (·.id == id) (fun k => { k with txn := m.txn, own := some m, waits := wait, hops := hops }) s.mem.trks }
      (.ok (some id), if wait then s else enqueue false p svc dst (.pkt .msg { m with hops := hops }) s)

/-- A POST of the module itself. -/
def ownPost (part : Option Nat) (svc dst tag : Nat) (epoch : Nat) (body : Bytes) (s : State) : Except Status (Option Nat) × State :=
  ownMsg 1 part svc dst tag epoch body s

/-- A message of the module itself that is not answered (R493): one that cannot be delivered is discarded. -/
def ownQuiet (opc : Nat) (part : Option Nat) (svc dst tag : Nat) (epoch : Nat) (body : Bytes) (s : State) : State :=
  let m : PktMsg := { dst := dst, src := ownId s, opc := opc, epoch := epoch, tenant := tagOf s part, tag := tag,
                      bytes := body.length, body := body }
  match wayOut s m with
  | .error st => loopEvent m st s
  | .ok (p, hops) => enqueue false p svc dst (.pkt .msg { m with hops := hops }) s

end Sys2Proof.Machine
end

