-- ==== Sys2Proof/Machine/ChainBase.lean ====
section
/-! DEFINITION. Chains: headers, stage descriptors, their static checks, what a chain needs, tables by name, how a chain
stops (R65 to R96). -/

namespace Sys2Proof.Machine

/-! ## Headers and stage descriptors (R67, R76, R79) -/

def Chain.h (c : Chain) (hi lo : Nat) : Nat := bits (leNat c.hdr) hi lo
def Chain.last (c : Chain) : Nat := c.h 107 104
def Chain.lostAddr (c : Chain) : Nat := c.h 511 448
def Chain.dest (c : Chain) : Nat := c.h 447 384
def Chain.byMsg (c : Chain) : Bool := c.h 112 112 == 1
def Chain.ticketed (c : Chain) : Bool := c.h 111 111 == 1
def Chain.ticketAddr (c : Chain) : Nat := c.h 383 320

/-- The common part of a stage descriptor (R76). -/
structure Desc where
  op : Nat := 0
  stage : Nat := 0
  exact : Bool := false
  rtz : Bool := false
  inF : Nat := 0
  outF : Nat := 0
  srcA : Option Nat := none
  srcB : Option Nat := none
  phaseEnd : Bool := false
  count : Nat := 0
  elems : Nat := 0
  b : Bytes := []
  deriving DecidableEq, Repr, Inhabited

def desc (b : Bytes) : Desc :=
  let x := leNat b
  { op := bits x 7 0, stage := bits x 11 8, exact := bit x 13, rtz := bit x 14, inF := bits x 19 16, outF := bits x 23 20,
    srcA := if bit x 33 then some (bits x 32 29) else none, srcB := if bit x 38 then some (bits x 37 34) else none,
    phaseEnd := bit x 39, count := bits x 95 64, elems := bits x 127 112, b := b }

/-- An operand field: `n` bytes at byte `off` of the descriptor (R79). -/
def Desc.f (d : Desc) (off n : Nat) : Nat := fldLE d.b off n

def Desc.src (d : Desc) : Nat := d.f 48 8
def Desc.stride (d : Desc) : Nat := d.f 56 4

/-- The descriptors of a chain. -/
def Chain.ds (c : Chain) : List Desc := c.descs.map desc

def Chain.d (c : Chain) (i : Nat) : Desc := desc (c.descs.getD i [])

/-- Stages that consume stage `i`. -/
def consumers (ds : List Desc) (i : Nat) : List Desc := ds.filter fun d => d.srcA == some i || d.srcB == some i

/-- A stage's output is a stream of (score, index) pairs. -/
def pairsOut (d : Desc) : Bool := d.op == 4 || d.op == 5 || d.op == 6

/-- Bytes of a row of `n` elements, with partials: 16 bytes a W128 value, 96 a melt image (R47, R57, R102). -/
def rowSize (fmt n : Nat) : Nat := if fmt = 8 then 16 * n else if fmt = 9 then 96 * n else rowBytes fmt n

/-- The operation names table rows, rows of a memory source or a queue: it has the field M (R79). -/
def hasM (op : Nat) : Bool := op ∈ [2, 3, 4, 5, 7, 9, 10, 11]

/-! ## Static checks (R5, R70, R76 to R87, R96, R111, R189, R206) -/

/-- Bytes 16 to 63 of a descriptor that its operation does not define must be zero: the mask of defined bits (R79). -/
def operandMask (op : Nat) : Nat :=
  let run := fun (lo hi : Nat) => 2 ^ (8 * (hi + 1)) - 2 ^ (8 * lo)
  let m := run 48 59
  match op with
  | 1 => run 16 17 + 15 * 2 ^ 144 + run 20 23 + run 24 47
  | 2 => run 16 17 + run 20 31 + m
  | 3 => run 16 17 + 7 * 2 ^ 144 + run 20 21 + run 24 39 + m
  | 4 => run 16 23 + 0xF1 * 2 ^ 192 + run 28 31 + m
  | 5 => run 16 27 + m
  | 6 => run 16 17 + 2 ^ 144
  | 7 => m
  | 8 => 3 * 2 ^ 128 + run 18 19
  | 9 => run 16 31 + 3 * 2 ^ 256 + m
  | 10 => run 16 23 + m
  | 11 => run 16 19 + run 24 31 + m
  | _ => 0

/-- Reserved bits of a descriptor (R5, R76, R79). -/
def descRsv (d : Desc) : Bool :=
  let x := leNat d.b
  bit x 12 || bit x 15 || bits x 28 24 != 0 || bits x 63 40 != 0 || bits x 111 96 != 0
    || bits x 511 128 * 2 ^ 128 &&& operandMask d.op != bits x 511 128 * 2 ^ 128

/-- A 64-bit pour address has zero in bits [63:52] (R67). -/
def addrBad (a : Nat) : Bool := a / 2 ^ 52 != 0

/-- Pour addresses among a descriptor's operands. -/
def descAddrs (d : Desc) : List Nat :=
  (match d.op with
   | 1 => [d.f 24 8, d.f 32 8, d.f 40 8]
   | 2 => [d.f 24 8]
   | 3 => [d.f 24 8, d.f 32 8]
   | 4 => [d.f 16 8]
   | 5 => [d.f 16 8]
   | 10 => [d.f 16 8]
   | 11 => [d.f 24 8]
   | _ => []) ++ (if hasM d.op then [d.src] else [])

def fin3 (f : Nat) : Bool := f ≤ 2

/-- What an operation requires of its own operands (R77 to R87, R206). DESIGN CHOICE where the manual states no status (log
entry 76): a MEAN pool of REDUCE read out as W128 or as a melt image, and a WSUM of partials, which have no weights, are
refused; an FP16 query of SCORE is accepted on Q8, Q4 and INT8 candidates; a nonzero COUNT of a stage that a queue feeds
is ignored; COMPOSE writes FP32, BF16 and FP16 only, COPY and PUSH take every code (log entry 95). -/
def opBad (d : Desc) : Bool :=
  match d.op with
  | 1 =>
    let pool := d.f 18 1 % 4
    let idx := d.f 24 8
    (idx = 0) != d.srcA.isSome || (idx = 0 && pool != 0) || d.count > 65536 || (pool == 2) != (d.f 40 8 != 0)
      || d.inF > 6 || (if pool = 0 then !(fin3 d.outF) && d.outF != d.inF else !(fin3 d.outF) || d.f 22 2 = 0 || d.f 22 2 > 256)
  | 2 => !d.exact || !(d.inF ≤ 4) || d.outF != d.inF || d.f 24 8 = 0
  | 3 =>
    let pool := d.f 18 1 % 4
    if d.f 16 2 = 0 then
      pool = 0 || d.inF > 9 || (8 ≤ d.inF && (!d.exact || pool == 2))
        || !(fin3 d.outF || ((d.outF == 8 || d.outF == 9) && d.exact && pool != 3))
        || (pool == 2) != (d.f 32 8 != 0) || d.f 20 2 = 0 || d.f 20 2 > 256
    else d.elems != 256 || d.f 20 2 != 0 || d.f 24 8 != 0 || d.f 32 8 != 0
  | 4 => d.inF > 7 || !(fin3 d.outF) || d.f 24 1 / 16 > 2
  | 5 =>
    let r := d.f 24 4
    r < 8 || 4096 < r || r % 8 != 0 || d.elems != 1
      || (if d.srcA.isSome then d.inF != 0 || d.outF != 0 else d.inF != 7 || d.stride < r)
  | 6 => d.f 16 2 = 0 || d.f 16 2 > 1024 || d.elems != 1 || !(fin3 d.inF) || d.outF != d.inF
  | 7 => !(d.inF == 5 || d.inF == 6) || !(fin3 d.outF)
  | 8 =>
    let cop := d.f 16 1 % 4
    cop = 3 || d.inF > 6 || !(fin3 d.outF) || (if cop = 2 then d.f 18 2 = 0 || d.elems ≤ d.f 18 2 else d.f 18 2 != d.elems)
  | 9 =>
    let lo := fp32.dec (d.f 24 4)
    let hi := fp32.dec (d.f 28 4)
    d.inF > 7 || d.outF > 6 || d.f 32 1 % 4 = 3 || lo.isNan || hi.isNan || Num.lt hi lo
  | 10 => d.inF > 7 || d.outF > 9 || (d.srcA.isNone && d.count % 64 != 0)
  | 11 => d.inF > 7 || d.outF > 9 || d.f 16 2 = 0 || d.f 16 2 > 16
  | _ => true

/-- Sources that the operation requires, and no other (R70 rule 8, R78). -/
def srcsBad (d : Desc) : Bool :=
  if d.op = 8 then d.srcA.isNone || d.srcB.isNone
  else if d.srcB.isSome then true
  else if d.op = 6 then d.srcA.isNone
  else if d.op = 1 then false
  else (d.src != 0) == d.srcA.isSome

/-- A stage breaks a rule that its chain alone decides. -/
def stageBad (c : Chain) (ds : List Desc) (i : Nat) (d : Desc) : Bool :=
  let srcs := d.srcA.toList ++ d.srcB.toList
  let sink := (consumers ds i).isEmpty
  d.stage != i || srcs.any (i ≤ ·) || 4 < (consumers ds i).length
    || srcs.any (fun k => let x := ds.getD k {}
        (x.op == 2 || x.op == 10 || x.op == 11) || x.outF != d.inF
          || pairsOut x != (d.op == 5 || d.op == 6 || (d.op == 1 && d.f 24 8 == 0)) && !(d.op == 10 || d.op == 11))
    || (sink && c.byMsg && d.outF == 9)
    || (sink && !(d.op == 2 || d.op == 10 || d.op == 11)
        && (List.range i).any fun k => (consumers ds k).isEmpty && !((ds.getD k {}).op ∈ [2, 10, 11]))
    || ((d.op == 1 || d.op == 2 || d.op == 3) && c.lostAddr == 0)
    || srcsBad d || descRsv d || d.elems = 0 || 2048 < d.elems || (descAddrs d).any addrBad
    || ((d.op ∈ [5, 6, 10, 11]) && (d.exact || d.rtz))
    || (d.phaseEnd && (!c.ticketed || !(d.op ∈ [1, 3, 6])))
    || (d.op == 5 && (if sink && d.srcA.isNone then d.outF != 7 else d.outF != 0)) && !(d.srcA.isSome)
    || opBad d

/-- The chain header breaks R5 or R67, or a HOME of 96 to 126 (R68). -/
def headerBad (c : Chain) : Bool :=
  c.h 239 120 != 0 || c.h 110 108 != 0 || c.h 99 64 != 0 || (96 ≤ c.h 119 113 && c.h 119 113 ≤ 126)
    || addrBad c.lostAddr || addrBad c.ticketAddr || (!c.ticketed && c.ticketAddr != 0)
    || (if c.byMsg then c.h 447 432 != 0 || c.h 415 406 != 0 else addrBad c.dest)

/-- The lowest stage that breaks a static rule. -/
def firstBad (c : Chain) : Option Nat :=
  let ds := c.ds
  if headerBad c then some 0 else (List.range ds.length).find? fun i => stageBad c ds i (ds.getD i {})

/-! ## Needs (R66, R72, R73, R189) -/

/-- A tile-queue slot of a producer (R72): the header, which also holds that of a Q8 or Q4 row (R71), and 256 elements or
pairs. -/
def slotBytes (d : Desc) : Nat :=
  64 + (if pairsOut d then 2048 else if d.outF = 6 then 128 else if d.outF = 5 then 256 else 256 * rowSize d.outF 1)

def State.group? (s : State) (p g : Nat) : Option Group := s.groups.groups.find? fun x => x.part == p && x.id == g

/-- The group of a REDUCE stage. -/
def groupOf (s : State) (c : Chain) (d : Desc) : Option Group :=
  if d.op = 3 && d.f 16 2 != 0 then s.group? c.part (d.f 16 2) else none

/-- Melt sets of a stage: one output row, or 256 candidates, in progress at a time; WINDOW + 1 for a group (R66, R189). -/
def stageSets (s : State) (c : Chain) (d : Desc) : Nat :=
  if !d.exact then 0
  else if d.op = 1 then (if d.f 18 1 % 4 = 0 then 0 else (d.elems + 255) / 256)
  else if d.op = 3 then (match groupOf s c d with
    | some g => g.window + 1
    | none => (d.elems + 255) / 256)
  else if d.op = 4 then 1
  else 0

/-- Tile-queue area of a chain: four slots for each edge, and the buffers of an ORDERED group (R72, R189, R194). -/
def queueArea (s : State) (c : Chain) : Nat :=
  let ds := c.ds
  (ds.map fun d =>
    ((d.srcA.toList ++ d.srcB.toList).map fun k => 4 * slotBytes (ds.getD k {})).sum
      + (match groupOf s c d with
         | some g => if d.exact then 0 else (g.window + 1) * (g.members.length + g.children.length + 1) * 1088
         | none => 0)).sum

/-- Threads, melt sets and queue area that a chain takes. -/
def needs (s : State) (c : Chain) : Nat × Nat × Nat := (c.descs.length, (c.ds.map (stageSets s c)).sum, queueArea s c)

/-- A chain holds its resources: admitted and neither stopped nor ended (R93). -/
def Chain.holds (c : Chain) : Bool := c.admitted && c.status.isNone && !c.ended

/-- A chain waits in its nook's chain queue (R73). -/
def Chain.waits (c : Chain) : Bool := !c.admitted && c.status.isNone && !c.ended

/-! ## Threads and melt sets of a cluster (R61, R65, R66, R69, R73) -/

/-- Numbers from `lo` below `hi` that are not taken, lowest first. -/
def freeNos (used : List Nat) (lo hi : Nat) : List Nat := ((List.range (hi - lo)).map (lo + ·)).filter (! used.contains ·)

/-- Free threads of a nook: 0 to 47 for home stages, 48 to 63 for spread instances (R65). -/
def freeThreads (s : State) (nook lo hi : Nat) : List Nat :=
  freeNos ((s.chains.threads.filter (·.nook == nook)).map (·.no)) lo hi

/-- Free melt sets of a nook (R61). -/
def freeSets (s : State) (nook : Nat) : List Nat := freeNos ((s.chains.sets.filter (·.nook == nook)).map (·.no)) 0 16

/-- Queue area that a spread instance draws in its own nook: the edge to the home stage (R72). -/
def spreadArea (s : State) (t : Thread) : Nat :=
  if t.no < 48 then 0
  else ((s.chains.chains.find? (·.cid == t.cid)).map fun c => 4 * slotBytes (c.d t.stage)).getD 0

/-- Queue area taken on a nook (R72). -/
def areaUsed (s : State) (nook : Nat) : Nat :=
  ((s.chains.chains.filter fun x => x.holds && x.home == nook).map (queueArea s)).sum
    + ((s.chains.threads.filter (·.nook == nook)).map (spreadArea s)).sum

/-- The nook has what a chain needs free at once (R73). -/
def hasRoom (s : State) (nook : Nat) (c : Chain) : Bool :=
  let n := needs s c
  n.1 ≤ (freeThreads s nook 0 48).length && n.2.1 ≤ (freeSets s nook).length && areaUsed s nook + n.2.2 ≤ 2 ^ 20

/-- The home stages of an admitted chain take their threads and melt sets, the lowest that are free (log entry 77). -/
def takeHome (c : Chain) (s : State) : State :=
  let ts := ((freeThreads s c.home 0 48).zip (List.range c.descs.length)).map fun x =>
    ({ nook := c.home, no := x.1, cid := c.cid, stage := x.2,
       st := if (c.d x.2).srcA.isSome || (c.d x.2).srcB.isSome then .waitTile else .run } : Thread)
  let users := c.ds.zipIdx.flatMap fun x => List.replicate (stageSets s c x.1) x.2
  let ms := ((freeSets s c.home).zip users).map fun x => ({ nook := c.home, no := x.1, cid := c.cid, stage := x.2 } : MeltSet)
  { s with chains := { s.chains with threads := s.chains.threads ++ ts, sets := s.chains.sets ++ ms } }

/-- A stage runs a spread instance in a nook (R69). -/
def hasSpread (s : State) (cid i nook : Nat) : Bool :=
  s.chains.threads.any fun t => t.nook == nook && t.cid == cid && t.stage == i && 48 ≤ t.no

/-- A spread instance starts in a nook (R65, R66, R69): it takes a thread, and the melt sets of an EXACT stage where enough
are free; without them its rows go to the home stage unpooled. None where no thread or queue area is free: the stage's work
in that nook waits (log entry 77). -/
def takeSpread (c : Chain) (i nook : Nat) (s : State) : Option State :=
  if hasSpread s c.cid i nook then some s
  else match freeThreads s nook 48 64 with
    | [] => none
    | k :: _ =>
      if 2 ^ 20 < areaUsed s nook + 4 * slotBytes (c.d i) then none
      else
        let n := stageSets s c (c.d i)
        let fs := (freeSets s nook).take n
        let ms := if fs.length = n then fs.map fun m => ({ nook := nook, no := m, cid := c.cid, stage := i, spread := true } : MeltSet) else []
        some { s with chains := { s.chains with threads := s.chains.threads ++ [{ nook := nook, no := k, cid := c.cid, stage := i }],
                                                sets := s.chains.sets ++ ms } }

/-- Spread instances start in every nook of a list, or in none. -/
def takeSpreads (c : Chain) (i : Nat) (nooks : List Nat) (s : State) : Option State :=
  nooks.foldlM (fun s n => takeSpread c i n s) s

/-! ## Lanes (R62) -/

/-- Where element `e` of an output row lies in a stage's allocation: melt set, lane. -/
def laneOf (e : Nat) : Nat × Nat := (e / 256, e % 256)

/-- Where candidate `c` of a tile of SCORE lies: its lane. -/
def candLane (c : Nat) : Nat := c % 256

/-- Registers of a row by melt set and lane. -/
def inLanes (regs : List Melt) : List (List Melt) :=
  (List.range ((regs.length + 255) / 256)).map fun k => (regs.drop (256 * k)).take 256

/-- A stage's melt sets on a nook, those of the home stage or of a spread instance, hold the registers of a row: set `k` of the
allocation those of its lanes. -/
def putLanes (spread : Bool) (cid i nook : Nat) (regs : List Melt) (s : State) : State :=
  let mine := fun (m : MeltSet) => m.nook == nook && m.cid == cid && m.stage == i && m.spread == spread
  let nos := (s.chains.sets.filter mine).map (·.no)
  let rows := inLanes regs
  { s with chains.sets := modWhere mine (fun m => { m with regs := rows.getD (nos.idxOf m.no) [] }) s.chains.sets }

/-- Set `k` of a stage's allocation at home holds the registers of a tile (R62, R189). -/
def putSet (cid i nook k : Nat) (regs : List Melt) (s : State) : State :=
  let mine := fun (m : MeltSet) => m.nook == nook && m.cid == cid && m.stage == i && !m.spread
  match ((s.chains.sets.filter mine).map (·.no))[k]? with
  | some n => { s with chains.sets := modWhere (fun m => mine m && m.no == n) (fun m => { m with regs := regs }) s.chains.sets }
  | none => s

/-- The thread of an ORDERED stage holds the FP32 values of the row it has accumulated (R61). -/
def putFp (cid i nook : Nat) (xs : List Num) (s : State) : State :=
  let mine := fun (t : Thread) => t.nook == nook && t.cid == cid && t.stage == i && t.no < 48
  { s with chains.threads := modWhere mine (fun t => { t with fp := xs.map (fp32.enc false true) }) s.chains.threads }

/-- The spread instance of a stage in a nook ends once no row of it is being read there and no leaf of it is held on the nook's
channels: what it has pooled goes to the home stage (R65, R66, R123). -/
def spreadIdle (cid i nook : Nat) (s : State) : State :=
  let reads := (s.chains.chains.find? (·.cid == cid)).elim false fun c =>
    (c.stages.getD i {}).rows.any fun r => r.nook == nook && (r.state == 1 || r.state == 3)
  if reads || (nookChans nook).any (fun k => (s.chan k).leaves.any fun l => l.cid == cid && l.stage == i) then s
  else
    let ts := s.chains.threads.filter fun t => !(t.nook == nook && t.cid == cid && t.stage == i && 48 ≤ t.no)
    let ms := s.chains.sets.filter fun m => !(m.nook == nook && m.cid == cid && m.stage == i && m.spread)
    { s with chains := { s.chains with threads := ts, sets := ms } }

/-- The spread instances of a stage have read its sources: they end (R69). -/
def spreadsDone (cid i : Nat) (s : State) : State :=
  let ts := s.chains.threads.filter fun t => !(t.cid == cid && t.stage == i && 48 ≤ t.no)
  let ms := s.chains.sets.filter fun m => !(m.cid == cid && m.stage == i && m.spread)
  { s with chains := { s.chains with threads := ts, sets := ms } }

/-! ## Tiles and tile queues (R71, R72) -/

/-- The elements `256 g` to `256 g + 255` of a row in a format; a Q8 or Q4 row's header travels apart. -/
def tileData (fmt : Nat) (row : Bytes) (g : Nat) : Bytes :=
  if fmt = 6 then ((row.drop 4).drop (128 * g)).take 128
  else if fmt = 5 then ((row.drop 4).drop (256 * g)).take 256
  else (row.drop (256 * rowSize fmt 1 * g)).take (256 * rowSize fmt 1)

/-- The tiles of one row (R71). -/
def rowTiles (d : Desc) (x : Item) : List Tile :=
  (List.range ((d.elems + 255) / 256)).map fun g =>
    { seq := x.seq, seg := g, valid := min 256 (d.elems - 256 * g),
      qhdr := if d.outF = 5 || d.outF = 6 then fldLE x.data 0 4 else 0, lost := x.lost, data := tileData d.outF x.data g }

/-- A pair joins the last tile while it has room; a LOST pair travels alone, since a tile has one LOST flag. -/
def addPair (l : List Tile) (x : Item) : List Tile :=
  match l with
  | t :: r => if !t.lost && !x.lost && t.valid < 256 then { t with valid := t.valid + 1, data := t.data ++ x.data } :: r
    else { seq := x.seq, valid := 1, lost := x.lost, data := x.data } :: t :: r
  | [] => [{ seq := x.seq, valid := 1, lost := x.lost, data := x.data }]

/-- A stage's output as tiles, in the order it is emitted (R71). -/
def tilesOf (d : Desc) (out : List Item) : List Tile :=
  if pairsOut d then (out.foldl addPair []).reverse else out.flatMap (rowTiles d)

/-- The needs exceed a nook's limits (R73). -/
def tooBig (s : State) (c : Chain) : Bool :=
  let n := needs s c
  48 < n.1 || 16 < n.2.1 || 2 ^ 20 < n.2.2

/-- A nook is being moved (R25). -/
def moving (s : State) (n : Nat) : Bool := s.ten.moves.any (·.nook == n)

/-- The nook of HOME 0x7F (R68). -/
def chooseHome (s : State) (c : Chain) : Nat :=
  let ns := (s.nooksOf c.part).filter (! moving s ·)
  match ns.find? fun n => hasRoom s n c with
  | some n => n
  | none =>
    let w := fun (n : Nat) => (s.chains.chains.filter fun x => x.waits && x.home == n).length
    ns.foldl (fun a n => if w n < w a then n else a) (ns.headD 0)

/-! ## Tables by name (R97, R101, R128) -/

def State.table? (s : State) (p t : Nat) : Option Table := s.tables.find? fun x => x.d.part == p && x.d.id == t

def modTable (p t : Nat) (f : Table → Table) (s : State) : State :=
  { s with tables := modWhere (fun x => x.d.part == p && x.d.id == t) f s.tables }

/-- The sub-tables of a COMPOSED table; the table itself otherwise. -/
def partsOf (t : Table) : List Nat := if t.d.storage = 2 then [t.d.subQ, t.d.subR].eraseDups else [t.d.id]

/-- A generation may be pinned (R144). -/
def genLive (t : Table) (g : Nat) : Bool := g == t.d.gen || (t.genState == 3 && g == (t.d.gen + 1) % 65536)

/-! ## Stopping a chain (R93, R95) -/

def State.chain? (s : State) (cid : Nat) : Option Chain := s.chains.chains.find? (·.cid == cid)
def modChain (cid : Nat) (f : Chain → Chain) (s : State) : State :=
  { s with chains.chains := modWhere (·.cid == cid) f s.chains.chains }

def Chain.st (c : Chain) (i : Nat) : StageRun := c.stages.getD i {}
def modStage (cid i : Nat) (f : StageRun → StageRun) (s : State) : State :=
  modChain cid (fun c => { c with stages := c.stages.modify i f }) s

/-- A look-up stage of a chain has still to read rows of a table (R147). -/
def readsTable (s : State) (c : Chain) (t i : Nat) : Bool :=
  c.status.isNone && (c.d i).op == 1 && (c.st i).phase < 5
    && ((c.st i).phase == 0 || (c.st i).rows.any fun r => r.table == t && r.state != 2)
    && (s.table? c.part ((c.d i).f 16 2)).elim false fun x => (partsOf x).contains t

/-- Each look-up leaves a table's in-flight counter when its last row read has completed (R147). -/
def leaveWaves (cid : Nat) (s : State) : State :=
  match s.chain? cid with
  | none => s
  | some c => { s with tables := s.tables.map fun t =>
      if t.d.part == c.part then
        { t with inflight := t.inflight.filter fun f => f.1 / 16 != cid || readsTable s c t.d.id (f.1 % 16) }
      else t }

/-- Tiles of a stage's output. -/
def Chain.tiles (c : Chain) (k : Nat) : Nat := (tilesOf (c.d k) (c.st k).out).length

/-- Tiles of stage `k` that every consumer has taken. -/
def Chain.taken (c : Chain) (k : Nat) : Nat :=
  ((List.range c.descs.length).flatMap fun i =>
    (if (c.d i).srcA == some k then [(c.st i).gotA] else []) ++ (if (c.d i).srcB == some k then [(c.st i).gotB] else [])).foldl min (c.tiles k)

/-- A stage puts tiles into its queues of four slots while every one has a slot free (R72). -/
def Chain.emit (c : Chain) : Chain :=
  { c with stages := c.stages.zipIdx.map fun x =>
      if x.1.phase = 5 then { x.1 with sent := max x.1.sent (min (c.tiles x.2) (c.taken x.2 + 4)) } else x.1 }

/-- A stage takes the tiles that wait in its queues. -/
def Chain.take (i : Nat) (c : Chain) : Chain :=
  let n := fun (k : Option Nat) => (k.map fun k => (c.st k).sent).getD 0
  { c with stages := c.stages.modify i fun x => { x with gotA := n (c.d i).srcA, gotB := n (c.d i).srcB } }

/-- The stages that feed a stage have put their whole output into its queues (R71, R72). -/
def fed (c : Chain) (i : Nat) : Bool :=
  ((c.d i).srcA.toList ++ (c.d i).srcB.toList).all fun k => (c.st k).phase == 5 && (c.st k).sent == c.tiles k

/-- The state of a thread of a stage (R63): that of a spread instance waits for the rows of its nook. -/
def threadSt (s : State) (c : Chain) (t : Thread) : ThreadSt :=
  let i := t.stage
  let spread := decide (48 ≤ t.no)
  if !spread && ((c.st i).phase = 5 || !fed c i) then .waitTile
  else if engBusy s (stageTok c.cid i) || engBusy s (writeTok c.cid i) || (c.st i).rows.any (fun r => r.state != 2 && (!spread || (r.nook == t.nook && r.state != 0))) then .waitMem
  else .run

/-- Tiles move, the threads of a chain take their states, an ended stage frees its melt sets (R66) and its spread instances, and its
home thread once its tiles are out. -/
def syncThreads (cid : Nat) (s : State) : State :=
  let s := modChain cid Chain.emit s
  match s.chain? cid with
  | none => s
  | some c =>
    let over_ := fun (i : Nat) => (c.st i).phase == 5
    let s := { s with chains := { s.chains with
      threads := s.chains.threads.filter fun t => !(t.cid == cid && over_ t.stage && (48 ≤ t.no || (c.st t.stage).sent == c.tiles t.stage)),
      sets := s.chains.sets.filter fun m => !(m.cid == cid && over_ m.stage) } }
    { s with chains.threads := modWhere (·.cid == cid) (fun t => { t with st := threadSt s c t }) s.chains.threads }

/-- An aborting status stops a chain (R93). -/
def abort (cid : Nat) (st : Status) (stage : Nat) (s : State) : State := halt cid st stage s

/-- Every chain that meets a test stops. -/
def abortWhere (q : Chain → Bool) (st : Status) (s : State) : State :=
  (s.chains.chains.filter q).foldl (fun s c => abort c.cid st 0 s) s

/-! ## Pour addresses (R75, R93) -/

/-- What an access of `n` bytes at a pour address comes to under a map (R75): the first line that is not OK. Pours may write
a RIT, a shard map and an update area (R100). -/
def pourAccess (s : State) (map : MapV) (part : Nat) (store : Bool) (o n : Nat) : Status :=
  if o / 2 ^ 52 ≠ 0 then .badDescriptor
  else (linesOf o n).foldl (fun st l =>
    if st ≠ .ok then st
    else match extentAt s map (64 * l) with
      | .error st => st
      | .ok e =>
        if e.part ≠ part then .noAccess
        else if heldForTwin s e then .quiesced
        else if releasing s e then .extentGone
        else if e.tray && !s.power.readyFull then .busy
        else lineStatus s e { src := .engine 0, kind := if store then .wrLine else .rdNc, line := l, part := part }) .ok

/-- The map of a chain (R74). -/
def Chain.map (s : State) (c : Chain) : MapV := routeMap s c.epoch

/-- The endpoint id of a chain's requester (R132); the module's own where it has none. -/
def Chain.requester (s : State) (c : Chain) : Nat :=
  match c.asker with
  | .msg _ src _ _ _ _ _ => src
  | .mbx j => ((s.mantel.jobs.find? fun k => k.id == j && (mbxTenant k.mbx).isSome).map (·.src)).getD (ownId s)
  | .template _ _ => ownId s

/-- Read runs of bytes for a mailbox command (R292): it goes on with them once all have come, and ends with the status of the
first that fails. -/
def jobRead (j : Job) (part : Nat) (runs : List (Nat × Nat)) (k : (Nat → Nat → Bytes) → State → End × State) (s : State) : End × State :=
  let tok := 2 ^ 48 + j.id
  let st := runs.foldl (fun st r => if st = .ok then pourAccess s s.maps.cur part false r.1 r.2 else st) Status.ok
  if st ≠ .ok then (.done st, s)
  else
    let s := runs.foldl (fun s r => engRead tok part r.1 r.2 s) s
    if engBusy s tok then (.again, s)
    else
      let got := runs.foldl (fun (a : Bool × State) r => let g := engLines tok r.1 r.2 a.2; (a.1 && g.1, g.2)) (true, s)
      let st := runs.foldl (fun st r => if st = .ok then engStatus s tok r.1 r.2 else st) (if got.1 then Status.ok else .damaged)
      let s := got.2
      if st ≠ .ok then (.done st, engForget tok s) else k (fun o n => engBytes s tok o n) (engForget tok s)

/-- Read runs of bytes for a stage (R63, R75, R292): the chain stops at the first that fails; otherwise the state, with
the reads issued, and whether all have come back. -/
def fetch (c : Chain) (i : Nat) (runs : List (Nat × Nat)) (s : State) : Status × Bool × State :=
  let tok := stageTok c.cid i
  let st := runs.foldl (fun st r => if st = .ok then pourAccess s (c.map s) c.part false r.1 r.2 else st) Status.ok
  if st ≠ .ok then (st, false, s)
  else
    let s := runs.foldl (fun s r => engRead tok c.part r.1 r.2 s) s
    if engBusy s tok then (.ok, false, s)
    else
      let got := runs.foldl (fun (a : Bool × State) r => let g := engLines tok r.1 r.2 a.2; (a.1 && g.1, g.2)) (true, s)
      (runs.foldl (fun st r => if st = .ok then engStatus s tok r.1 r.2 else st) (if got.1 then Status.ok else .damaged), true, got.2)

end Sys2Proof.Machine
end

