-- ==== Sys2Proof/Machine/Compute.lean ====
section
/-! DEFINITION. What the operations of a chain compute from rows and pairs (R80 to R88, R110, R121, R140, R141, R203 to R208). -/

namespace Sys2Proof.Machine

/-- The weight 1, with the significand of a normal number, so that R54 leaves it as it is in every format. -/
def numOne : Num := .fin false (2 ^ 23) (-23)
def numZero : Num := .fin false 0 0

/-- Elements written in an output format (R49, R51, R53). -/
def outElems (fmt : Nat) (rtz flush : Bool) (l : List Num) : Bytes :=
  match fpOf fmt with
  | some f => l.flatMap fun x => toLE (elemBytes fmt) (f.enc rtz flush x)
  | none => []

/-! ## Bags (R80) -/

/-- Bag offsets start at 0, do not decrease and end at the count. -/
def offsOk (offs : List Nat) (n : Nat) : Bool :=
  offs.headD 1 == 0 && offs.getLastD 1 == n && (offs.zip (offs.drop 1)).all fun x => decide (x.1 ≤ x.2)

/-- The positions of each bag. -/
def bagsOf (offs : List Nat) : List (List Nat) :=
  (offs.zip (offs.drop 1)).map fun x => (List.range (x.2 - x.1)).map (x.1 + ·)

/-- Weight `k` of a list in a weight format (R79). -/
def weightAt (fp : Bool) (ws : Bytes) (k : Nat) : Num :=
  if fp then fp32.dec (fldLE ws (4 * k) 4) else bf16.dec (fldLE ws (2 * k) 2)

def weightFlush (fp : Bool) (x : Num) : Num := if fp then fp32.flush x else bf16.flush x

/-! ## Rows as pooling sees them (R43, R53, R110) -/

/-- A stored row, or a composed one: its rule, the Q row with its elements, and the R row. -/
inductive RowV where
  | row (fmt : Nat) (d : Bytes)
  | comp (cop fq : Nat) (dq : Bytes) (nq fr : Nat) (dr : Bytes)
  deriving DecidableEq, Repr, Inhabited

/-- The exact value of an element (R41, R110). -/
def RowV.exact (rtz : Bool) (x : RowV) (j : Nat) : Num :=
  match x with
  | .row f d => elemValue f d j
  | .comp 0 fq dq _ fr dr => fp32.dec (fp32.enc rtz false (Num.mul (elemValue fq dq j) (elemValue fr dr j)))
  | .comp 1 fq dq _ fr dr => fp32.dec (fp32.enc rtz false (Num.add (elemValue fq dq j) (elemValue fr dr j)))
  | .comp _ fq dq nq fr dr => if j < nq then elemValue fq dq j else elemValue fr dr (j - nq)

/-- The terms of an element under a weight (R43, R110). -/
def RowV.terms (rtz : Bool) (w : Num) (x : RowV) (j : Nat) : Num × Num :=
  match x with
  | .row f d => exactTerms f w d j
  | .comp 0 _ _ _ _ _ => (Num.mul w (x.exact rtz j), numZero)
  | .comp 1 _ _ _ _ _ => (Num.mul w (x.exact rtz j), numZero)
  | .comp _ fq dq nq fr dr => if j < nq then exactTerms fq w dq j else exactTerms fr w dr (j - nq)

/-- An element as ORDERED mode reads it (R53, R54, R110). -/
def RowV.ordered (x : RowV) (j : Nat) : Num :=
  match x with
  | .row f d => elemOrdered f d j
  | .comp 0 fq dq _ fr dr => rne32 true (Num.mul (elemOrdered fq dq j) (elemOrdered fr dr j))
  | .comp 1 fq dq _ fr dr => rne32 true (Num.add (elemOrdered fq dq j) (elemOrdered fr dr j))
  | .comp _ fq dq nq fr dr => if j < nq then elemOrdered fq dq j else elemOrdered fr dr (j - nq)

/-- One row in another format (R85): the exact value rounded once, or the element as ORDERED reads it. DESIGN CHOICE (log entry 95):
a zero keeps its sign. -/
def RowV.emit (x : RowV) (n fmt : Nat) (exact rtz : Bool) : Bytes :=
  outElems fmt rtz (!exact) ((List.range n).map fun j => if exact then x.exact rtz j else x.ordered j)

/-- One row converted without pooling (R111): the exact value rounded once, or R53 with one term and weight 1. -/
def RowV.convert (x : RowV) (n fmt : Nat) (exact rtz : Bool) : Bytes :=
  outElems fmt rtz (!exact) ((List.range n).map fun j =>
    if exact then x.exact rtz j else fma numOne (x.ordered j) numZero)

/-- The row of an index under POOL = NONE (R111): passed on unchanged where OUT_FMT is its format, a composed row being one
of FP32 elements, and converted otherwise. -/
def RowV.pass (x : RowV) (inF n fmt : Nat) (exact rtz : Bool) : Bytes :=
  match x with
  | .row _ b => if inF = fmt then b else x.convert n fmt exact rtz
  | _ => if inF = fmt then x.emit n fmt exact rtz else x.convert n fmt exact rtz

/-! ## Pooling -/

/-- Enter terms one lane cycle each (R45). -/
def cycles (r : Option Melt) (ts : List (Num × Num)) : Option Melt := ts.foldl (fun r t => r.bind fun r => r.cycle t.1 t.2) r

/-- The melt registers of weighted rows pooled in one place, one for each element (R52); none when a counter would pass
2^40. -/
def poolRegs (rows : List (Num × RowV)) (elems : Nat) (rtz : Bool) : Option (List Melt) :=
  (List.range elems).mapM fun j => cycles (some {}) (rows.map fun x => x.2.terms rtz x.1 j)

/-- Melt images added element by element (R47): the registers, and whether one was malformed. -/
def addRegs (a : List Melt × Bool) (b : List Melt) : Option (List Melt × Bool) :=
  ((a.1.zip b).mapM fun (x : Melt × Melt) => x.1.addImage x.2).map fun l => (l.map (·.1), a.2 || l.any (·.2))

/-- An EXACT pool whose rows are resolved by several nooks (R123): each nook's spread instance pools its own rows, and the
home stage adds their melt images. -/
def poolSpread (rows : List (Nat × Num × RowV)) (elems : Nat) (rtz : Bool) : Option (List Melt × Bool) :=
  ((rows.map (·.1)).eraseDups).foldlM (fun a n =>
    (poolRegs ((rows.filter (·.1 == n)).map (·.2)) elems rtz).bind (addRegs a)) (List.replicate elems {}, false)

/-- Registers read out as a row (R49, R50). -/
def readRegs (fmt : Nat) (rtz : Bool) (n : Nat) (rs : List Melt) : Bytes :=
  match fpOf fmt with
  | some f => rs.flatMap fun r => toLE (elemBytes fmt) (r.read f rtz n)
  | none => []

/-- The leaves of an element: for each shard its running FMA, in list order (R121). -/
def leafStep (l : List (Nat × Num)) (x : Nat × Num × Num) : List (Nat × Num) :=
  match l.find? (·.1 == x.1) with
  | some a => modWhere (·.1 == x.1) (fun y => (y.1, fma x.2.1 x.2.2 a.2)) l
  | none => l ++ [(x.1, fma x.2.1 x.2.2 numZero)]

/-- combine(a, b) of R121 over the leaves that are not empty. -/
def combine : Nat → Nat → Nat → List (Nat × Num) → Option Num
  | 0, _, _, _ => none
  | fuel + 1, a, b, l =>
    let l := l.filter fun x => a ≤ x.1 && x.1 < b
    if l.isEmpty then none
    else if b - a ≤ 1 then l.head?.map (·.2)
    else
      let h := a + 2 ^ Nat.log2 (b - a - 1)
      match combine fuel a h l, combine fuel h b l with
      | none, r => r
      | l, none => l
      | some x, some y => some (rne32 true (Num.add x y))

/-- The accumulators of an ORDERED pool over shards (R53, R121): rows with their shard and weight, in list order. -/
def poolAccs (shards : Nat) (rows : List (Nat × Num × RowV)) (elems : Nat) : List Num :=
  (List.range elems).map fun j =>
    (combine 64 0 shards ((rows.map fun x => (x.1, x.2.1, x.2.2.ordered j)).foldl leafStep [])).getD numZero

/-- The mean of `n` rows, or the sum itself (R50). -/
def meanOf (mean : Bool) (n : Nat) (acc : Num) : Num := if mean && n != 0 then fdiv true acc (Num.ofInt n) else acc

/-- An ORDERED pool (R53, R121). -/
def poolOrdered (shards : Nat) (rows : List (Nat × Num × RowV)) (elems fmt : Nat) (rtz mean : Bool) : Bytes :=
  outElems fmt rtz true ((poolAccs shards rows elems).map (meanOf mean rows.length))

/-- Partials in a bag (R47, R59): the register, and whether a word was malformed; none past 2^40. -/
def addPartials (fmt : Nat) (words : List Bytes) : Option (Melt × Bool) :=
  words.foldl (fun a w => a.bind fun a =>
    (if fmt = 8 then a.1.addW128 (leNat w) else a.1.addImage (Melt.ofImage w)).map fun x => (x.1, a.2 || x.2)) (some ({}, false))

/-- A melt register written out in FP32, BF16, FP16, W128 or as an image (R48). -/
def meltOut (fmt : Nat) (rtz : Bool) (n : Nat) (r : Melt) : Bytes :=
  if fmt = 8 then toLE 16 r.w128
  else if fmt = 9 then r.image
  else match fpOf fmt with
    | some f => toLE (elemBytes fmt) (r.read f rtz n)
    | none => []

/-- The melt registers of one bag of an EXACT REDUCE stage within its chain (R82), and whether a partial was malformed. -/
def reduceRegs (inF elems : Nat) (rows : List (Num × Bytes)) : Option (List Melt × Bool) :=
  if 8 ≤ inF then
    let size := if inF = 8 then 16 else 96
    ((List.range elems).mapM fun j =>
      addPartials inF (rows.map fun x => (x.2.drop (size * j)).take size)).map fun rs => (rs.map (·.1), rs.any (·.2))
  else
    ((List.range elems).mapM fun j => cycles (some {}) (rows.map fun x => exactTerms inF x.1 x.2 j)).map fun rs => (rs, false)

/-- The accumulators of one bag of an ORDERED REDUCE stage (R53, R82). -/
def reduceAccs (inF elems : Nat) (rows : List (Num × Bytes)) : List Num :=
  (List.range elems).map fun j => rows.foldl (fun acc x => fma x.1 (elemOrdered inF x.2 j) acc) numZero

/-- One bag of an ORDERED REDUCE stage (R53, R82). -/
def reduceOrdered (inF outF : Nat) (rtz mean : Bool) (elems : Nat) (rows : List (Num × Bytes)) : Bytes :=
  outElems outF rtz true ((reduceAccs inF elems rows).map (meanOf mean rows.length))

/-- One bag: its row, its melt registers (none under ORDERED), and whether a partial was malformed. -/
def reduceBag (inF outF : Nat) (exact rtz mean : Bool) (elems : Nat) (rows : List (Num × Bytes)) :
    Option (Bytes × List Melt × Bool) :=
  if exact then
    (reduceRegs inF elems rows).map fun x =>
      (x.1.flatMap (meltOut outF rtz (if mean then rows.length else 1)), x.1, x.2)
  else some (reduceOrdered inF outF rtz mean elems rows, [], false)

/-! ## SCORE and TOPK (R83, R84, R208) -/

/-- A pair: score word, index. -/
def pairBytes (score idx : Nat) : Bytes := toLE 4 score ++ toLE 4 idx
def pairScore (b : Bytes) : Nat := fldLE b 0 4
def pairIdx (b : Bytes) : Nat := fldLE b 4 4

/-- A value in a narrower format as the FP32 word of a pair (R83). -/
def pairWord (fmt x : Nat) : Nat :=
  match fpOf fmt with
  | some f => fp32.enc false false (f.dec x)
  | none => 0

/-- The FP32 accumulator of a candidate's score under ORDERED (R83). -/
def scoreAcc (l2 : Bool) (qf inF elems : Nat) (q row : Bytes) : Num :=
  (List.range elems).foldl (fun acc j =>
    let a := elemOrdered qf q j
    let x := elemOrdered inF row j
    if l2 then
      let d := rne32 true (Num.add x (Num.negate a))
      fma d d acc
    else fma a x acc) numZero

/-- The score of a candidate (R83, R210) and its lane's melt register; none when a counter would pass 2^40. -/
def scoreOf (l2 exact rtz : Bool) (qf inF outF elems : Nat) (q row : Bytes) : Option (Nat × Melt) :=
  match fpOf outF with
  | none => none
  | some f =>
    if exact then
      let ts := (List.range elems).flatMap fun j =>
        let a := fpElem qf q j
        if l2 then
          [exactTerms inF (elemValue inF row j) row j, exactTerms inF (Num.mul (Num.ofInt (-2)) a) row j, (Num.mul a a, numZero)]
        else [exactTerms inF a row j]
      (cycles (some {}) ts).map fun r => (pairWord outF (r.read f rtz 1), r)
    else some (pairWord outF (f.enc rtz true (scoreAcc l2 qf inF elems q row)), {})

/-- Pair `a` ranks at or before `b` (R84, R208): by score, then lower index, then lower score word. -/
def pairBefore (smallest : Bool) (a b : Bytes) : Bool :=
  let x := fp32.dec (pairScore a)
  let y := fp32.dec (pairScore b)
  if Num.lt x y then smallest
  else if Num.lt y x then !smallest
  else if pairIdx a ≠ pairIdx b then decide (pairIdx a < pairIdx b)
  else decide (pairScore a ≤ pairScore b)

/-- TOPK over the pairs that are not LOST (R84, R94, R208). -/
def topk (k : Nat) (smallest : Bool) (l : List Item) : List Item :=
  let ps := (l.filter fun x => !x.lost && !(fp32.dec (pairScore x.data)).isNan).map (·.data)
  let best := ((sortBy (pairBefore smallest) ps.eraseDups).take k)
  best.zipIdx.map fun x => { seq := x.2, data := x.1 }

/-! ## COMPOSE and TRANSFORM (R86, R87, R140) -/

/-- Row `j` of A with row `j` of B (R86). -/
def composeRow (cop inF outF elems nb : Nat) (exact rtz : Bool) (a b : Bytes) : Bytes :=
  outElems outF rtz (!exact) ((List.range elems).map fun j =>
    let va := fun (k : Nat) => if exact then elemValue inF a k else elemOrdered inF a k
    let vb := fun (k : Nat) => if exact then elemValue inF b k else elemOrdered inF b k
    if cop = 2 then (if j < elems - nb then va j else vb (j - (elems - nb)))
    else
      let v := if cop = 0 then Num.mul (va j) (vb j) else Num.add (va j) (vb j)
      if exact then v else rne32 true v)

/-- Clamp to [lo, hi]; a NaN stays (R87). -/
def clampNum (lo hi x : Num) : Num := if x.isNan then x else if Num.lt x lo then lo else if Num.lt hi x then hi else x

/-- m of ADAGRAD (R140): the exact sum of squares over ELEMS, read as FP32. -/
def meanSquare (l : List Num) : Num :=
  match cycles (some {}) (l.map fun g => (Num.mul g g, numZero)) with
  | some r => fp32.dec (r.read fp32 false l.length)
  | none => .nan

/-- The ADAGRAD step of a row (R140): d of each element and h'. Its FP32 steps flush nothing. -/
def adagrad (lr eps h : Num) (g : List Num) : List Num × Num :=
  let h' := rne32 false (Num.add h (meanSquare g))
  let q := rne32 false (Num.add (fsqrt false h') eps)
  (g.map fun x => fdiv false (rne32 false (Num.mul (Num.negate lr) x)) q, h')

/-- The dither of R141, in units of 2^-24. -/
def dither (table r step k : Nat) : Nat :=
  let m := 2 ^ 64
  let z := (r ^^^ (table * 2 ^ 44) ^^^ (step * 0x9E3779B97F4A7C15 % m)) % m
  let y := (z + (k + 1) * 0xBF58476D1CE4E5B9) % m
  let y := (y ^^^ (y / 2 ^ 31)) * 0x94D049BB133111EB % m
  let y := y ^^^ (y / 2 ^ 29)
  y / 2 ^ 40

/-- A finite value's floor of x + u/2^24. -/
def floorAdd (x : Num) (u : Nat) : Int :=
  match x with
  | .fin neg m e =>
    let k := e + 24
    let v := Num.int neg m
    if 0 ≤ k then (v * 2 ^ k.toNat + u) / 2 ^ 24 else (v + u * 2 ^ (-k).toNat) / 2 ^ ((-k).toNat + 24)
  | _ => 0

def fpFinite : Num → Bool
  | .fin _ _ _ => true
  | _ => false

/-- A Q8 or Q4 row from its FP32 values (R141); none when it is not stored. `u` gives the dither of an element. -/
def requant (q4 : Bool) (u : Nat → Nat) (xs : List Num) : Option Bytes :=
  if !(xs.all fpFinite) || xs.isEmpty then none
  else
    let lo := xs.foldl (fun a x => if Num.lt x a then x else a) (xs.headD numZero)
    let hi := xs.foldl (fun a x => if Num.lt a x then x else a) (xs.headD numZero)
    let (cmin, cmax, n, half) : Int × Int × Int × Int := if q4 then (-8, 7, 15, 8) else (-128, 127, 255, 128)
    let sb := bf16.enc false false (fdiv false (rne32 false (Num.add hi (Num.negate lo))) (Num.ofInt n))
    let scale := bf16.dec sb
    if !fpFinite scale then none
    else
      let ob := if scale.isZero then bf16.enc false false lo
        else bf16.enc false false (rne32 false (Num.add lo (rne32 false (Num.mul (Num.ofInt half) scale))))
      let offset := bf16.dec ob
      if !fpFinite offset then none
      else
        let ts := if scale.isZero then xs.map (fun _ => numZero)
          else xs.map fun x => fdiv false (rne32 false (Num.add x (Num.negate offset))) scale
        if !(ts.all fpFinite) then none
        else
          let cs := ts.zipIdx.map fun t => if scale.isZero then 0 else max cmin (min cmax (floorAdd t.1 (u t.2)))
          let codes := if q4 then
              (List.range ((cs.length + 1) / 2)).map fun i =>
                BitVec.ofNat 8 (unsigned 4 (cs.getD (2 * i) 0) + 16 * unsigned 4 (cs.getD (2 * i + 1) 0))
            else cs.map fun c => BitVec.ofNat 8 (unsigned 8 c)
          some (toLE 2 sb ++ toLE 2 ob ++ codes)

/-- A·x + B as melt-register terms (R87, R43): the value that the register holds. -/
def affineExact (a b : Num) (inF : Nat) (row : Bytes) (j : Nat) : Num :=
  let t := exactTerms inF a row j
  (((({} : Melt).enter t.1).enter t.2).enter b).value

/-- The FP32 values that a TRANSFORM gives before conversion (R87, R140). Under EXACT an AFFINE value is not yet rounded. LR
and EPS are not flushed, as in an apply (log entry 73). -/
def transformVals (kind : Nat) (exact : Bool) (a b lo hi : Num) (inF elems : Nat) (row : Bytes) : List Num :=
  let x := fun (j : Nat) => if exact then elemValue inF row j else elemOrdered inF row j
  let vs := if kind = 0 then (List.range elems).map fun j =>
      if exact then affineExact a b inF row j else fma (fp32.flush a) (x j) (fp32.flush b)
    else if kind = 1 then (List.range elems).map fun j =>
      if exact then Num.mul (Num.negate a) (x j) else rne32 false (Num.mul (Num.negate a) (x j))
    else (adagrad a b numZero ((List.range elems).map x)).1
  vs.map (clampNum lo hi)

/-! ## FILTER (R203 to R206) -/

/-- Bytes of a field type (R204); 0 for a reserved one. -/
def fieldBytes (t : Nat) : Nat := if t = 8 then 4 else if t = 9 || t = 10 then 2 else if t < 8 then 2 ^ (t % 4) else 0

/-- A field as an integer or as a number (R204). -/
def fieldVal (t : Nat) (b : Bytes) : Int ⊕ Num :=
  let x := leNat b
  if t < 4 then .inl x
  else if t < 8 then .inl (signed (8 * fieldBytes t) x)
  else .inr (if t = 8 then fp32.dec x else if t = 9 then bf16.dec x else fp16.dec x)

/-- Compare two values: less, equal, or neither ordered. -/
def cmpVal (t : Nat) (f : Int ⊕ Num) (v : Nat) : Option Ordering :=
  match f with
  | .inl i => some (compare i (if t < 4 then (v : Int) else signed 64 v))
  | .inr x =>
    let y := fp32.dec (v % 2 ^ 32)
    if x.isNan || y.isNan then none
    else if Num.lt x y then some .lt else if Num.lt y x then some .gt else some .eq

/-- A term of the predicate on a record (R204). `score` and `idx` are those of a pair, and `bm` gives a bitmap's bit. -/
def termTrue (t : Nat) (rec_ : Bytes) (score idx : Nat) (bm : Nat → Nat → Bool) : Bool :=
  let off := bits t 47 32
  let ty := if off = 0xFFFF then 8 else if off = 0xFFFE then 2 else bits t 31 28
  let f := if off = 0xFFFF then fieldVal 8 (toLE 4 score) else if off = 0xFFFE then fieldVal 2 (toLE 4 idx)
    else fieldVal ty ((rec_.drop off).take (fieldBytes ty))
  let v1 := bits t 191 128
  let v2 := bits t 255 192
  let c := cmpVal ty f v1
  let r := match bits t 23 20 with
    | 0 => c == some .eq
    | 1 => c != some .eq
    | 2 => c == some .lt
    | 3 => c == some .lt || c == some .eq
    | 4 => c == some .gt
    | 5 => c == some .gt || c == some .eq
    | 6 => (c == some .gt || c == some .eq) && (cmpVal ty f v2 == some .lt || cmpVal ty f v2 == some .eq)
    | _ => match f with
      | .inl i => decide (0 ≤ i) && decide (i.toNat < v1) && bm v2 i.toNat
      | .inr _ => false
  r != bit t 16

/-- A record passes: every clause holds a true term (R204). -/
def passes (clauses : Nat) (ts : List Bool) : Bool :=
  (List.range 8).all fun c =>
    let m := bits clauses (8 * c + 7) (8 * c)
    m = 0 || ts.zipIdx.any fun x => x.1 && bit m x.2

/-- The conditions of R205 on a predicate header and its terms. -/
def predBad (pairs : Bool) (recBytes hdr : Nat) (ts : List Nat) : Bool :=
  let n := bits hdr 23 20
  let key := bits hdr 31 28
  let clauses := bits hdr 383 320
  n = 0 || 8 < n || bits hdr 223 48 != 0 || bits hdr 27 24 != 0 || bits hdr 19 0 != 0 || clauses = 0
    || (List.range 8).any (fun c => bits clauses (8 * c + 7) (8 * c) / 2 ^ n != 0)
    || addrBad (bits hdr 447 384) || addrBad (bits hdr 511 448)
    || (if pairs then false
        else bits hdr 511 448 != 0 || (key != 0xF && decide (recBytes < bits hdr 47 32 + fieldBytes key)))
    || (key != 0xF && fieldBytes key == 0)
    || ts.any (fun t =>
        let off := bits t 47 32
        let ty := bits t 31 28
        let op := bits t 23 20
        bits t 127 48 != 0 || bits t 27 24 != 0 || bits t 19 17 != 0 || bits t 15 0 != 0 || 7 < op
          || (if pairs && 0xFFFE ≤ off then op == 7 && off == 0xFFFF else fieldBytes ty = 0 || recBytes < off + fieldBytes ty)
          || (op == 7 && (addrBad (bits t 255 192) || (!(pairs && off == 0xFFFE) && 4 ≤ ty))))
    || 2097152 < (ts.map fun t => if bits t 23 20 = 7 then bits t 191 128 else 0).sum
where
  addrBad (a : Nat) : Bool := a / 2 ^ 52 != 0

/-- The key of a record as an FP32 word (R206). -/
def keyWord (hdr : Nat) (rec_ : Bytes) : Nat :=
  let k := bits hdr 31 28
  if k = 0xF then 0
  else match fieldVal k ((rec_.drop (bits hdr 47 32)).take (fieldBytes k)) with
    | .inl i => fp32.enc false false (Num.ofInt i)
    | .inr x => fp32.enc false false x

end Sys2Proof.Machine
end

