-- ==== Sys2Proof/Machine/Sink.lean ====
section
/-! DEFINITION. What a stage writes and sends: rows at DEST, POST messages, the lost-index bitmap, pour tickets (R88, R94,
R96, R114, R115, R206). -/

namespace Sys2Proof.Machine

/-- A stage writes a run of bytes (R75): the chain stops where the address does not allow it, or a line refuses the write. -/
def stageWrite (cid i o : Nat) (d : Bytes) (s : State) : State :=
  match s.chain? cid with
  | none => s
  | some c =>
    if c.status.isSome then s
    else match pourAccess s (c.map s) c.part true o d.length with
      | .ok =>
        let s := engWrite (writeTok cid i) c.part o d s
        match engStatus s (writeTok cid i) o d.length with
        | .ok => s
        | st => abort cid st i s
      | st => abort cid st i s

/-- A stage sends a POST (R88, R115): an endpoint that cannot take it stops the chain; a message that leaves over a stage
link is answered later. -/
def stagePost (cid i svc dst tag : Nat) (body : Bytes) (s : State) : State :=
  match s.chain? cid with
  | none => s
  | some c =>
    if c.status.isSome then s
    else match ownPost (some c.part) svc dst tag c.epoch body s with
      | (.error st, s) => abort cid st i s
      | (.ok none, s) => s
      | (.ok (some id), s) => modChain cid (fun c => { c with pushes := c.pushes ++ [id] }) s

/-- Count what a sink has written or sent (R92). -/
def addUnits (cid n : Nat) (s : State) : State := modChain cid (fun c => { c with units := c.units + n }) s

/-! ## Output rows (R114, R115) -/

/-- The parts of a row that does not fit in one message. -/
def rowParts (t : Nat) : Nat → Nat → Bytes → List (Nat × Nat × Nat × Bytes)
  | 0, _, _ => []
  | fuel + 1, off, d => if d.isEmpty then [] else (t, 0, off, d.take 2040) :: rowParts t fuel (off + 2040) (d.drop 2040)

/-- Add row `t` to the messages formed so far, the last one first (R115): first row, rows, offset, bytes. -/
def addRow (l : List (Nat × Nat × Nat × Bytes)) (x : Nat × Bytes) : List (Nat × Nat × Nat × Bytes) :=
  let (t, d) := x
  if 2040 < d.length then (rowParts t (d.length / 2040 + 1) 0 d).reverse ++ l
  else match l with
    | (f, n, 0, b) :: r => if n ≠ 0 && f + n = t && b.length + d.length ≤ 2040 then (f, n + 1, 0, b ++ d) :: r else (t, 1, 0, d) :: l
    | _ => (t, 1, 0, d) :: l

/-- The payloads of a sink's messages (R115), each with the rows that it ends. -/
def resultMsgs (fmt : Nat) (rows : List (Nat × Bytes)) : List (Bytes × Nat) :=
  let ms := (rows.foldl addRow []).reverse
  ms.zipIdx.map fun m =>
    let (x, k) := m
    let goesOn := (ms[k + 1]?).elim false fun y => y.2.1 == 0 && y.1 == x.1
    (toLE 8 (x.1 % 65536 + 65536 * (x.2.1 % 65536) + 2 ^ 32 * (x.2.2.1 % 65536) + 2 ^ 48 * (fmt % 16)
      + 2 ^ 52 * b2n (k + 1 == ms.length)) ++ x.2.2.2, if x.2.1 ≠ 0 then x.2.1 else if goesOn then 0 else 1)

/-- A write or a message of a sink counts once it has been made (R92). -/
def counted (cid n : Nat) (f : State → State) (s : State) : State :=
  let s := f s
  if (s.chain? cid).elim false (·.status.isNone) then addUnits cid n s else s

/-- The sink writes its rows at DEST with a stride, or sends them (R114, R115); a LOST row is withheld (R94). -/
def sinkRows (cid i fmt stride : Nat) (rows : List Item) (s : State) : State :=
  match s.chain? cid with
  | none => s
  | some c =>
    let live := rows.zipIdx.filterMap fun x => if x.1.lost then none else some (x.2, x.1.data)
    if c.byMsg then
      (resultMsgs fmt live).foldl (fun s b => counted cid b.2 (stagePost cid i 2 (bits c.dest 21 0) (bits c.dest 47 32) b.1) s) s
    else live.foldl (fun s x => counted cid 1 (stageWrite cid i (c.dest + x.1 * stride) x.2) s) s

/-! ## Lost positions (R94, R95) -/

/-- Set the bits at LOST_ADDR that are still to be set (R94): their bytes are read as a thread reads (R75, R292), and written with the
bits of every lost position in them; until the reads have come the bits wait. -/
def writeMarks (cid i : Nat) (s : State) : State :=
  match s.chain? cid with
  | none => s
  | some c =>
    let tok := lostTok cid
    if c.unmarked.isEmpty || engBusy s tok then s
    else
      let bs := (c.unmarked.map (· / 8)).eraseDups
      let run := fun (b : Nat) => pourAccess s (c.map s) c.part true (c.lostAddr + b) 1
      let done := fun (s : State) => modChain cid (fun c => { c with unmarked := [] }) s
      match bs.find? fun b => run b != .ok with
      | some b => abort cid (run b) i (done s)
      | none =>
        let s := bs.foldl (fun s b => engRead tok c.part (c.lostAddr + b) 1 s) s
        let st := fun (b : Nat) => engStatus s tok (c.lostAddr + b) 1
        if engBusy s tok then s
        else match bs.find? fun b => st b != .ok with
        | some b => abort cid (st b) i (engForget tok (done s))
        | none =>
          let old := fun (b : Nat) => leNat (engBytes s tok (c.lostAddr + b) 1)
          let new := fun (b : Nat) => ((c.lost.filter (· / 8 == b)).map fun k => 2 ^ (k % 8)).foldl (· ||| ·) 0
          engForget tok (bs.foldl (fun s b => engWrite (writeTok cid i) c.part (c.lostAddr + b) (toLE 1 (old b ||| new b)) s) (done s))

/-- Positions of a chain are lost (R94): they count, and their bits at LOST_ADDR are set. -/
def markLost (cid i : Nat) (ks : List Nat) (s : State) : State :=
  match s.chain? cid with
  | none => s
  | some c =>
    let fresh := (ks.filter fun k => !c.lost.contains k).eraseDups
    if fresh.isEmpty then s
    else
      let todo := if c.lostAddr = 0 then [] else fresh
      writeMarks cid i (modChain cid (fun c => { c with
        lost := sortBy (fun a b => decide (a ≤ b)) (c.lost ++ fresh), unmarked := c.unmarked ++ todo }) s)

/-- A boundary output as the ticket area holds it: its stage, its length, each item's sequence number, LOST flag and bytes (log
entry 13). -/
def boundary (i : Nat) (l : List Item) : Bytes :=
  let b := toLE 4 l.length ++ toLE 4 i ++ l.flatMap fun x =>
    toLE 4 x.seq ++ toLE 4 (x.data.length + 2 ^ 31 * b2n x.lost) ++ x.data ++ List.replicate (roundUp x.data.length 8 - x.data.length) 0
  b ++ List.replicate (roundUp b.length 64 - b.length) 0

/-- Run what writes a ticket without mirroring it: it is mirrored later (R439). -/
def notMirrored (p : Nat) (f : State → State) (s : State) : State :=
  let was := s.twin.primary
  let s := f { s with twin.primary := was.filter (· != p) }
  { s with twin.primary := was }

/-- A phase ends (R96): its output, then the ticket. The area must lie in one extent and hold them. -/
def writeTicket (cid i : Nat) (out : List Item) (s : State) : State :=
  match s.chain? cid with
  | none => s
  | some c =>
    if c.status.isSome || !(c.d i).phaseEnd then s
    else
      let b := boundary i out
      let a := c.ticketAddr
      let ok := match extIn (c.map s).exts (a / 2 ^ 28) with
        | some e => e.part == c.part && decide (a + c.ticketUsed + b.length ≤ (e.base + e.granules) * 2 ^ 28)
        | none => true
      if !ok then abort cid .badDescriptor i s
      else
        let s := stageWrite cid i (a + c.ticketUsed) b s
        let tk := toLE 8 c.reqId ++ toLE 8 (c.tickets + 1) ++ toLE 8 s.ns ++ toLE 4 (crc32 b) ++ toLE 4 i
          ++ toLE 8 c.ticketUsed ++ List.replicate 24 0
        let s := (if c.mirrored then notMirrored c.part else id) (stageWrite cid i a tk) s
        let used := c.ticketUsed + b.length
        let k : HeldTicket := { part := c.part, cid := cid, phase := c.tickets + 1, addr := a, bytes := tk, used := used }
        let s := modChain cid (fun c => { c with tickets := c.tickets + 1, ticketUsed := used }) s
        if c.mirrored then ticketsGo { s with twin.tickets := s.twin.tickets ++ [k] } else s

/-- A stage has its whole output (R71): it is kept for its consumers, or written by the sink; a phase that ends writes its
ticket. -/
def stageDone (cid i stride : Nat) (out : List Item) (s : State) : State :=
  match s.chain? cid with
  | none => s
  | some c =>
    let d := c.d i
    let s := modStage cid i (fun x => { x with phase := 5, out := out, rows := [], ws := [], ups := [] }) s
    let s := if (consumers c.ds i).isEmpty && !(d.op == 2 || d.op == 10 || d.op == 11) then sinkRows cid i d.outF stride out s else s
    syncThreads cid (writeTicket cid i out s)

/-- Input rows of a stage: those of its queue, in sequence. -/
def Chain.inA (c : Chain) (i : Nat) : List Item := ((c.d i).srcA.map fun k => (c.st k).out).getD []
def Chain.inB (c : Chain) (i : Nat) : List Item := ((c.d i).srcB.map fun k => (c.st k).out).getD []

/-- The runs of a memory source of `n` rows (R78). -/
def rowRuns (d : Desc) (n size : Nat) : List (Nat × Nat) := (List.range n).map fun j => (d.src + j * d.stride, size)

end Sys2Proof.Machine
end

