-- ==== Sys2Proof/Machine/Lookup.lean ====
section
/-! DEFINITION. Tables, the row cache, Ladle engines and the look-up stage (chapter 04). -/

namespace Sys2Proof.Machine

/-! ## Table descriptors (R97 to R101, R109, R128) -/

def decTable (x : Nat) : TDesc :=
  { rit := bits x 511 448, smap := bits x 447 384, ha := bits x 383 320, hb := bits x 319 256, rows := bits x 255 212,
    subQ := bits x 191 176, subR := bits x 175 160, gen := bits x 159 144, nspan := bits x 134 128, elems := bits x 123 112,
    fmt := bits x 111 108, hbits := bits x 107 102, cop := bits x 101 100, storage := bits x 99 98, cache := bits x 97 96,
    coord := bits x 95 89, part := bits x 87 84, id := bits x 15 0 }

/-- Check 1 of R99. -/
def tableBad (x : Nat) : Bool :=
  let d := decTable x
  bits x 211 192 != 0 || bits x 143 135 != 0 || bits x 127 124 != 0 || bit x 88 || bits x 83 16 != 0
    || d.elems = 0 || 2048 < d.elems || 6 < d.fmt || 2 < d.cache || 95 < d.coord || 2 < d.storage
    || addrBad d.rit || addrBad d.smap || d.rit % 64 != 0
    || (if d.storage = 2 then
          d.rit != 0 || d.smap != 0 || d.ha = 0 || d.hb != 0 || d.rows = 0 || d.nspan != 0 || d.fmt != 0 || d.hbits != 0 || 2 < d.cop
        else
          d.subQ != 0 || d.subR != 0 || d.cop != 0 || d.nspan = 0 || 96 < d.nspan
            || (if d.storage = 0 then d.ha != 0 || d.hb != 0 || d.rows = 0 || 2 ^ 42 < d.rows || d.hbits != 0
                else d.ha % 2 = 0 || d.rows != 0 || d.hbits = 0 || 42 < d.hbits))

/-- A COMPOSED table names a sub-table that is being destroyed (R128). -/
def composedGone (s : State) (d : TDesc) : Bool :=
  [d.subQ, d.subR].any fun k => (s.table? d.part k).elim false (·.destroyJob.isSome)

/-- A COMPOSED table breaks a rule of R109. -/
def composedBad (s : State) (d : TDesc) : Bool :=
  match s.table? d.part d.subQ, s.table? d.part d.subR with
  | some q, some r =>
    q.d.storage = 2 || r.d.storage = 2
      || (if d.cop = 2 then q.d.elems + r.d.elems != d.elems else q.d.elems != d.elems || r.d.elems != d.elems)
      || (r.d.storage = 0 && r.d.rows < d.ha) || (q.d.storage = 0 && d.ha * q.d.rows < d.rows)
  | _, _ => true

/-- A run lies wholly in extents of the partition in the current map, none being released (R99, R136). -/
def inExtents (s : State) (part o n : Nat) : Bool :=
  n = 0 || (List.range ((o + n - 1) / 2 ^ 28 + 1 - o / 2 ^ 28)).all fun k =>
    match extIn s.maps.cur.exts (o / 2 ^ 28 + k) with
    | some e => e.part == part && !releasing s e
    | none => false

/-- The table's RIT, shard map and update areas lie in MIRROR = 1 extents (R438). -/
def tableMirrored (s : State) (t : Table) : Bool :=
  let m := fun (o : Nat) => (anyExtent s (o % 2 ^ 52)).elim false (·.mirror == 1)
  (t.d.storage = 2 || (m t.d.rit && m t.d.smap)) && t.u.elim true fun u => (u.uareas.filter (· != 0)).all m

/-- An accepted command for a table is mirrored (R438). -/
def mirrorTable (j : Job) (p t : Nat) (s : State) : State :=
  if (s.table? p t).elim false (tableMirrored s) then mirrorDesc j p s else s

/-- TABLE_CREATE (R97, R99). DESIGN CHOICE where R99 gives no place (log entry 83): NO_ACCESS for a sub-table being destroyed
(R128) stands with check 2, QUIESCED for a COORD that is being moved, from either owner (R25), before check 3; a shard map that names a
nook being moved is no name for it in the command. The shard map is read as an engine reads (R155, R292). -/
def tableCreate (j : Job) (s : State) : End × State :=
  let x := leNat j.payload
  let d := decTable x
  if tableBad x then (.done .badDescriptor, s)
  else if (s.part? d.part).isNone || (!j.manager && d.part != j.part) then (.done .noAccess, s)
  else if d.storage = 2 && composedGone s d then (.done .noAccess, s)
  else if movingFor s d.part d.coord then (.done .quiesced, s)
  else if s.nookOwner d.coord != .part d.part || (d.storage = 2 && composedBad s d) then (.done .badDescriptor, s)
  else if d.storage != 2 && !(inExtents s d.part d.rit (16 * d.phys) && inExtents s d.part d.smap d.shards) then (.done .noAccess, s)
  else
    let make := fun (s : State) =>
      if (s.table? d.part d.id).isSome || 4096 ≤ (s.tables.filter (·.d.part == d.part)).length then (End.done .busy, s)
      else (.done .ok, mirrorTable j d.part d.id { s with tables := s.tables ++ [{ d := d }] })
    if d.storage = 2 then make s
    else jobRead j d.part [(d.smap, d.shards)] (fun rd s =>
      if (rd d.smap d.shards).any (fun b => s.nookOwner b.toNat != .part d.part) then (.done .badDescriptor, s) else make s) s

/-- A table a command may name: it exists, is not being destroyed and its descriptor is not damaged (R101, R128, R458). -/
def useTable (s : State) (p t : Nat) : Except Status Table :=
  match s.table? p t with
  | none => .error .noAccess
  | some x => if x.destroyJob.isSome then .error .noAccess else if x.damaged then .error .damaged else .ok x

/-- An admitted chain names the table (R128). -/
def namesTable (c : Chain) (p t : Nat) : Bool :=
  c.part == p && c.admitted && !c.ended && c.ds.any fun d => (d.op == 1 || d.op == 2) && d.f 16 2 == t

/-- A table being destroyed goes when no admitted chain names it (R128). -/
def destroyCheck (s : State) : State :=
  let gone := s.tables.filter fun t => t.destroyJob.isSome && !s.chains.chains.any fun c => namesTable c t.d.part t.d.id
  gone.foldl (fun s t => finish? t.destroyJob .ok
    { s with tables := s.tables.filter fun x => !(x.d.part == t.d.part && x.d.id == t.d.id) }) s

/-- TABLE_DESTROY (R109, R128): its cached rows go with its descriptor, when no admitted chain names it any more. -/
def tableDestroy (j : Job) (s : State) : End × State :=
  let id := fldLE j.payload 0 2
  match s.table? j.part id with
  | none => (.done .noAccess, s)
  | some t =>
    if t.destroyJob.isSome || s.tables.any (fun x => x.d.part == j.part && x.d.storage = 2 && (x.d.subQ == id || x.d.subR == id)) then
      (.done .busy, s)
    else
      let s := mirrorTable j j.part id s
      let s := modTable j.part id (fun t => { t with destroyJob := some j.id }) s
      (.waits, destroyCheck s)

/-! ## Finding the row (R106 to R108) -/

/-- The index is valid (R106). -/
def idxValid (d : TDesc) (i : Nat) : Bool := d.storage = 1 || decide (i < d.rows)

/-- The physical row of an index (R106). -/
def physRow (d : TDesc) (i : Nat) : Nat := if d.storage = 1 then (i * d.ha + d.hb) % 2 ^ 64 / 2 ^ (64 - d.hbits) else i

/-- The rows that an index needs: its own, or the Q row and the R row (R106, R117). -/
def rowsOf (s : State) (t : Table) (i : Nat) : List (Nat × Nat) :=
  if t.d.storage = 2 then
    match s.table? t.d.part t.d.subQ, s.table? t.d.part t.d.subR with
    | some q, some r => [(q.d.id, physRow q.d (i / t.d.ha)), (r.d.id, physRow r.d (i % t.d.ha))]
    | _, _ => []
  else [(t.d.id, physRow t.d i)]

/-- The nook that resolves a shard (R108). -/
def shardNook (s : State) (d : TDesc) (shard : Nat) : Nat := memNat s (d.smap + shard) 1

/-! ## The row cache (R125 to R127) -/

/-- Lines of the row cache that a partition's rows take on a nook; AUTO rows counted or not. A PINNED row keeps its place
while a write has taken its copy (log entry 80). -/
def cacheLines (s : State) (p nook : Nat) (auto : Bool) : Nat :=
  ((s.tables.filter (·.d.part == p)).map fun t =>
    rowLines t.d * ((t.pinned.filter fun r => shardNook s t.d (t.d.shardOf r) == nook).length
      + (if auto then (t.auto.filter fun x => x.nook == nook).length else 0))).sum

def cacheCap (s : State) (p : Nat) : Nat := (s.part? p).elim 0 fun x => x.cacheKib * 16

/-- Evict the least recently used AUTO row of the partition on a nook. -/
def evictOne (p nook : Nat) (s : State) : State :=
  let all := (s.tables.filter (·.d.part == p)).flatMap fun t => (t.auto.filter fun x => x.nook == nook).map fun x => (x.used, t.d.id, x.row)
  match all with
  | [] => s
  | a :: r =>
    let v := r.foldl (fun m x => if x.1 < m.1 then x else m) a
    modTable p v.2.1 (fun t => { t with auto := t.auto.filter fun x => !(x.row == v.2.2 && x.nook == nook) }) s

/-- Make room for AUTO or PINNED lines by evicting AUTO rows. -/
def makeRoom (p nook lines : Nat) : Nat → State → State
  | 0, s => s
  | k + 1, s => if cacheLines s p nook true + lines ≤ cacheCap s p then s else makeRoom p nook lines k (evictOne p nook s)

/-- The nook's filter of 4,096 recent misses takes one more (R126). -/
def addMiss (m : Miss) (s : State) : State :=
  let mine := s.chains.misses.filter (·.nook == m.nook)
  { s with chains.misses := (m :: mine).take 4096 ++ s.chains.misses.filter (·.nook != m.nook) }

/-- A look-up misses a row (R126): the nook's filter takes it, and the row is to enter the cache at its second miss within a window of
1 ms, or as a hot row of R149; a PINNED row whose place is empty gets its copy. The answer says whether it is to. -/
def noteMiss (p tid row nook shard addr : Nat) (s : State) : Bool × State :=
  match s.table? p tid with
  | none => (false, s)
  | some t =>
    if t.cold.contains row then (true, s)
    else if t.d.cache ≠ 1 || t.auto.any (fun x => x.row == row && x.nook == nook && x.addr == addr) then (false, s)
    else
      let m : Miss := { nook := nook, part := p, table := tid, row := row, window := s.ns / 1000000 }
      (s.chains.misses.contains m || (t.hot.contains shard && t.u.elim false (·.hotcache)), addMiss m s)

/-- A row that is to enter the cache has been read (R126): it evicts the least recently used AUTO rows of its partition in the nook. -/
def fillRow (p tid row nook addr : Nat) (s : State) : State :=
  match s.table? p tid with
  | none => s
  | some t =>
    if t.cold.contains row then modTable p tid (fun t => { t with cold := t.cold.filter (· != row) }) s
    else
      let n := rowLines t.d
      if t.d.cache ≠ 1 || t.auto.any (fun x => x.row == row && x.nook == nook && x.addr == addr)
          || cacheCap s p < n + cacheLines s p nook false then s
      else
        let s := makeRoom p nook n (cacheLines s p nook true) s
        let k := s.dir.stamp
        modTable p tid (fun t => { t with auto := t.auto ++ [{ row := row, nook := nook, used := k, addr := addr }] })
          { s with dir.stamp := k + 1 }

/-- The row cache of a nook holds the row whose first line is at `addr` (R126, R127). -/
def cacheHit (s : State) (t : Table) (row nook addr : Nat) : Bool :=
  (t.pinned.contains row && !t.cold.contains row && entAddr (memNat s (t.d.ritAt t.d.gen row) 8) == addr)
    || t.auto.any fun a => a.row == row && a.nook == nook && a.addr == addr

/-- TABLE_CACHE_PIN and TABLE_CACHE_UNPIN (R126). DESIGN CHOICE (log entry 80): a pin reads nothing; the row takes its place, and its
copy comes with its first read, absent, outside the partition or unreadable as it may be until then. -/
def cachePin (pin : Bool) (j : Job) (s : State) : Status × State :=
  let id := fldLE j.payload 0 2
  let n := fldLE j.payload 2 2
  if !zeroAt j.payload 4 4 || j.payload.length ≠ 8 + 8 * n || 511 < n then (.badDescriptor, s)
  else match useTable s j.part id with
    | .error st => (st, s)
    | .ok t =>
      let is := (List.range n).map fun k => fldLE j.payload (8 + 8 * k) 8
      if t.d.cache ≠ 2 || t.d.storage = 2 || is.any (! idxValid t.d ·) then (.badDescriptor, s)
      else
        let rows := (is.map (physRow t.d)).eraseDups
        if !pin then (.ok, modTable j.part id (fun t => { t with pinned := t.pinned.filter (! rows.contains ·),
                                                                 cold := t.cold.filter (! rows.contains ·) }) s)
        else
          let fresh := rows.filter (! t.pinned.contains ·)
          let nookOf := fun (r : Nat) => shardNook s t.d (t.d.shardOf r)
          let ns := (fresh.map nookOf).eraseDups
          let need := fun (k : Nat) => rowLines t.d * (fresh.filter (nookOf · == k)).length
          if ns.any fun k => cacheCap s j.part < cacheLines s j.part k false + need k then (.busy, s)
          else
            let s := ns.foldl (fun s k => makeRoom j.part k (need k) (cacheLines s j.part k true) s) s
            (.ok, modTable j.part id (fun t => { t with pinned := t.pinned ++ fresh, cold := t.cold ++ fresh }) s)

/-! ## The look-up stage: lists and checks (R80, R111 to R113) -/

/-- Does the stage pool at Anvils where it can (R124)? -/
def leafMode (d : Desc) (t : Table) : Bool := !d.exact && t.d.storage != 2 && d.f 18 1 % 4 != 0

/-- The position an index list gives, with its LOST pairs (R80). -/
def listIdx (c : Chain) (i : Nat) (idx : Bytes) : List Item :=
  let d := c.d i
  if d.srcA.isSome then (c.inA i).map fun x => { seq := x.seq, lost := x.lost, data := toLE 8 (pairIdx x.data) }
  else (List.range d.count).map fun k => { seq := k, data := (idx.drop (8 * k)).take 8 }

/-- Start a look-up: read its lists, check them, and want its rows once each (R80, R112, R113). -/
def gatherStart (cid i : Nat) (s : State) : State :=
  match s.chain? cid with
  | none => s
  | some c =>
    let d := c.d i
    let pool := d.f 18 1 % 4
    let bags := d.f 22 2
    let wb := if bit (d.f 18 1) 2 then 4 else 2
    let runs := (if d.srcA.isSome then [] else [(d.f 24 8, 8 * d.count)])
      ++ (if pool = 0 then [] else [(d.f 32 8, 4 * (bags + 1))]) ++ (if pool = 2 then [(d.f 40 8, wb * d.count)] else [])
    match fetch c i runs s with
    | (.ok, true, s) =>
      let tok := stageTok cid i
      let rd := fun (o n : Nat) => engBytes s tok o n
      let idxs := listIdx c i (if d.srcA.isSome then [] else rd (d.f 24 8) (8 * d.count))
      let offs := if pool = 0 then [] else (List.range (bags + 1)).map fun k => fldLE (rd (d.f 32 8) (4 * (bags + 1))) (4 * k) 4
      let ws := if pool = 2 then rd (d.f 40 8) (wb * d.count) else []
      let s := engForget tok s
      match s.table? c.part (d.f 16 2) with
      | none => abort cid .noAccess i s
      | some t =>
        if (pool ≠ 0 && !offsOk offs idxs.length) || idxs.any (fun x => !x.lost && !idxValid t.d (leNat x.data)) then
          abort cid .badDescriptor i s
        else
          let want := ((idxs.filter (! ·.lost)).flatMap fun x => rowsOf s t (leNat x.data)).eraseDups
          let refs := want.map fun (w : Nat × Nat) =>
            ({ table := w.1, row := w.2, shard := (s.table? c.part w.1).elim 0 fun x => x.d.shardOf w.2 } : RowRef)
          modStage cid i (fun x => { x with phase := 1, idxs := idxs, offs := offs, ws := ws, rows := refs }) s
    | (.ok, false, s) => s
    | (st, _, s) => abort cid st i s

/-! ## Ladle engines (R116 to R120) -/

/-- The generation a stage reads a table in, and with it the plane (R104). -/
def Chain.genOf (c : Chain) (i t : Nat) : Nat := ((c.gens.find? fun g => g.1 == i && g.2.1 == t).map (·.2.2)).getD 0

/-- Read trackers of a Ladle engine in use, and of a partition's share of the tray pool (R118). -/
def ladleUsed (s : State) (nook : Nat) : Nat :=
  (s.chains.chains.flatMap fun c => c.stages.flatMap fun x => x.rows.filter fun r => (r.state == 1 || r.state == 3) && !r.tray && r.nook == nook).length
def trayUsed (s : State) (p : Nat) : Nat :=
  ((s.chains.chains.filter (·.part == p)).flatMap fun c => c.stages.flatMap fun x => x.rows.filter fun r => r.state == 1 && r.tray).length

def modRow (cid i r : Nat) (f : RowRef → RowRef) (s : State) : State :=
  modStage cid i (fun x => { x with rows := x.rows.modify r f }) s

/-- A position of the list is lost (R119). -/
def posLost (s : State) (t : Table) (st : StageRun) (k : Nat) : Bool :=
  match st.idxs[k]? with
  | none => true
  | some p => p.lost || st.lostAt.contains k || (rowsOf s t (leNat p.data)).any fun w =>
      st.rows.any fun x => (x.table, x.row) == w && x.lost

/-- The row of a position as pooling sees it, with the shard of its place in the ORDERED tree (R117, R121). -/
def posRow (s : State) (t : Table) (st : StageRun) (k : Nat) : Nat × RowV :=
  let ws := ((st.idxs[k]?).map fun p => rowsOf s t (leNat p.data)).getD []
  let find := fun (w : Nat × Nat) => (st.rows.find? fun x => (x.table, x.row) == w).getD {}
  let fmt := fun (x : RowRef) => (s.table? t.d.part x.table).elim 0 (·.d.fmt)
  match ws with
  | [q, r] =>
    let a := find q
    let b := find r
    (a.shard, .comp t.d.cop (fmt a) a.data ((s.table? t.d.part a.table).elim 0 (·.d.elems)) (fmt b) b.data)
  | w :: _ => ((find w).shard, .row (fmt (find w)) (find w).data)
  | [] => (0, .row 0 [])

/-- The nook whose spread instance has the row of a position: for a composed index, that of its Q row (R117, R123). -/
def posNook (s : State) (t : Table) (st : StageRun) (k : Nat) : Nat :=
  let ws := ((st.idxs[k]?).map fun p => rowsOf s t (leNat p.data)).getD []
  (ws.head?.bind fun w => st.rows.find? fun x => (x.table, x.row) == w).elim 0 (·.nook)

/-- Bags that name a row, by its positions. -/
def bagsOfRow (s : State) (t : Table) (st : StageRun) (x : RowRef) : List Nat :=
  ((bagsOf st.offs).zipIdx.filter fun b => b.1.any fun k =>
    (st.idxs[k]?).elim false fun p => !p.lost && (rowsOf s t (leNat p.data)).contains (x.table, x.row)).map (·.2)

/-- The weight of a position: WSUM only. -/
def posWeight (d : Desc) (st : StageRun) (k : Nat) : Num :=
  if d.f 18 1 % 4 = 2 then weightAt (bit (d.f 18 1) 2) st.ws k else numOne

/-- A spread instance of an EXACT pool enters a row that has come into its melt sets (R66, R123): they hold what it has pooled of the
row's bag (R62). -/
def enterRow (cid i nook : Nat) (x : RowRef) (s : State) : State :=
  match s.chain? cid with
  | none => s
  | some c =>
    let d := c.d i
    if !d.exact || d.f 18 1 % 4 = 0 || !(s.chains.sets.any fun m => m.spread && m.cid == cid && m.stage == i && m.nook == nook) then s
    else match s.table? c.part (d.f 16 2) with
      | none => s
      | some t =>
        let st := c.st i
        let came := fun (k : Nat) => posNook s t st k == nook && !posLost s t st k
          && (((st.idxs[k]?).map fun p => rowsOf s t (leNat p.data)).getD []).all fun w =>
            (st.rows.find? fun x => (x.table, x.row) == w).elim false (·.state == 2)
        match bagsOfRow s t st x with
        | [] => s
        | b :: _ =>
          match poolSpread ((((bagsOf st.offs).getD b []).filter came).map fun k => (nook, posWeight d st k, (posRow s t st k).2)) d.elems d.rtz with
          | some r => putLanes true cid i nook r.1 s
          | none => s

/-- The row is delivered, or lost (R116, R119): the spread instance of its nook has it, and ends with its last row there; with its
last row read a look-up leaves its counter (R147). -/
def deliver (cid i r : Nat) (data : Option Bytes) (s : State) : State :=
  let x := ((s.chain? cid).bind fun c => (c.st i).rows[r]?).getD {}
  let s := leaveWaves cid (modRow cid i r (fun x => { x with state := 2, data := data.getD [], lost := x.lost || data.isNone }) s)
  spreadIdle cid i x.nook (if data.isSome then enterRow cid i x.nook x s else s)

/-- A line of a row cannot be read (R119). -/
def rowLost (s : State) (e : Extent) (addr lines : Nat) : Bool :=
  releasing s e || (List.range lines).any fun k =>
    let l := addr / 64 + k
    lineStatus s e { src := .engine 0, kind := .rdNc, line := l, part := e.part } != .ok

/-- A malformed entry is reported to the fabric manager (R119, R120). -/
def malformed (p table row : Nat) (s : State) : State := event 0x000B true [] (some p) [table, row] s

/-- The last lines of a row have been read: it is delivered, or lost where a line did not come or its extent is being
released (R116, R119, R174). A line that a request or an owner holds comes through the directory (R292). -/
def deliverMem (cid i r : Nat) (s : State) : State :=
  match s.chain? cid with
  | none => s
  | some c =>
    match (c.st i).rows[r]? with
    | none => s
    | some x =>
      if x.state = 2 then s
      else if 1 < x.wait then modRow cid i r (fun x => { x with wait := x.wait - 1 }) s
      else match s.table? c.part x.table, anyExtent s x.addr with
      | some t, some e =>
        let n := 64 * rowLines t.d
        let tok := rowTok cid i r
        if releasing s e then deliver cid i r none (malformed c.part x.table x.row s)
        else if rowLost s e x.addr (rowLines t.d) then deliver cid i r none s
        else
          let s := askLines dirQuiet tok c.part x.addr n s
          if engBusy s tok then modRow cid i r (fun x => { x with wait := 0 }) s
          else
            let g := engLines tok x.addr n s
            let ok := g.1 && engStatus s tok x.addr n == .ok
            let data := (engBytes g.2 tok x.addr n).take (rowBytes t.d.fmt t.d.elems)
            let s := deliver cid i r (if ok then some data else none) (engForget tok g.2)
            if ok && x.fill then fillRow c.part x.table x.row x.nook x.addr s else s
      | some _, none => deliver cid i r none (malformed c.part x.table x.row s)
      | _, _ => deliver cid i r none s

/-- The channels that hold the lines of a row (R265): a row of a STRIPED extent that crosses a 4 KiB block lies on several. -/
def rowChans (e : Extent) (a lines : Nat) : List Nat :=
  ((List.range lines).filterMap fun k => chanOf e (a + 64 * k)).eraseDups

/-- The row lies in shards that a migration has released (R153): it is lost to chains that began later. -/
def shardGone (t : Table) (cid shard : Nat) : Bool :=
  t.migr.any fun m => m.released && !m.before.contains cid && m.first ≤ shard && shard < m.first + m.count

/-- The row cache has the row that a sample at this moment would give (R116 step 2, R127), and no agent owns a line of it. -/
def hitNow (s : State) (c : Chain) (i nook : Nat) (x : RowRef) (t : Table) : Bool :=
  let e := memNat s (t.d.ritAt (c.genOf i x.table) x.row) 8
  entValid e && cacheHit s t x.row nook (entAddr e)
    && (linesOf (entAddr e) (64 * rowLines t.d)).all fun l => (s.ent l).owner.isNone

/-- The run of a wanted row's RIT entry, where the engine is to read it (R116 step 3). -/
def entryRun (s : State) (c : Chain) (i nook : Nat) (x : RowRef) : List (Nat × Nat) :=
  match s.table? c.part x.table with
  | none => []
  | some t =>
    let at_ := t.d.ritAt (c.genOf i x.table) x.row
    if shardGone t c.cid x.shard || hitNow s c i nook x t || pourAccess s (c.map s) c.part false at_ 8 != .ok then [] else [(at_, 8)]

/-- The row's reads start (R116 step 5): strokes of its channels are to read it where memory alone has it; through the directory
where it lies on a tray, on a channel that its twin stands for, or where a request or an owner holds a line (R292, R460). -/
def readRow (cid i r : Nat) (c : Chain) (x : RowRef) (t : Table) (e : Extent) (s : State) : State :=
  let ls := linesOf x.addr (64 * rowLines t.d)
  let m := noteMiss c.part x.table x.row x.nook x.shard x.addr s
  let chs := rowChans e x.addr (rowLines t.d)
  let direct := !e.tray && ls.all (dirQuiet m.2) && chs.all fun k => !chanGone (m.2.chan k)
  let chs := if direct then chs else []
  let s := modRow cid i r (fun x => { x with state := 1, tray := e.tray, chans := chs, wait := chs.length, fill := m.1 }) m.2
  if direct then s else engRead (rowTok cid i r) c.part x.addr (64 * rowLines t.d) s

/-- Sample the RIT entry of one wanted row, which has come (R113, R116 steps 2 to 5). The engine has a tracker for it. DESIGN
CHOICE (log entry 96): an entry that cannot be read loses the row's positions (R119) and does not end the chain (R120). -/
def sampleRow (cid i r nook : Nat) (s : State) : State :=
  match s.chain? cid with
  | none => s
  | some c =>
    match (c.st i).rows[r]? with
    | none => s
    | some x =>
      match s.table? c.part x.table with
      | none => abort cid .noAccess i s
      | some t =>
        let at_ := t.d.ritAt (c.genOf i x.table) x.row
        let bytes := rowBytes t.d.fmt t.d.elems
        if shardGone t cid x.shard then deliver cid i r none (modRow cid i r (fun x => { x with nook := nook }) s)
        else if hitNow s c i nook x t then
          let e := memNat s at_ 8
          let k := s.dir.stamp
          let mine := fun (b : CRow) => b.row == x.row && b.nook == nook && b.addr == entAddr e
          let s := modTable c.part x.table (fun t => { t with auto := modWhere mine (fun b => { b with used := k }) t.auto }) s
          let s := modRow cid i r (fun x => { x with nook := nook, entry := e, addr := entAddr e, cached := true }) s
          deliver cid i r (some (memRead s (entAddr e) bytes)) { s with dir.stamp := k + 1 }
        else
          let tok := rowTok cid i r
          let st := pourAccess s (c.map s) c.part false at_ 8
          let g := if st = .ok then engLines tok at_ 8 s else (true, s)
          let st := if st != .ok then st else if g.1 then engStatus g.2 tok at_ 8 else .damaged
          let e := leNat (engBytes g.2 tok at_ 8)
          let a := entAddr e
          let x := { x with nook := nook, entry := e, addr := a }
          let s := modRow cid i r (fun _ => x) (engForget tok g.2)
          match st with
          | .lineLost => deliver cid i r none s
          | .damaged => deliver cid i r none s
          | .extentGone => deliver cid i r none (malformed c.part x.table x.row s)
          | .ok =>
            if !entValid e then deliver cid i r (some (List.replicate bytes 0)) s
            else
              match extentAt s (c.map s) a with
              | .error .epochStale => s
              | .error _ => abort cid .noAccess i (eventMO 0x000B (some c.part) [x.table, x.row] s)
              | .ok ex =>
                if ex.part ≠ c.part then abort cid .noAccess i (eventMO 0x000B (some c.part) [x.table, x.row] s)
                else if (ex.base + ex.granules) * 2 ^ 28 < a + 64 * rowLines t.d then deliver cid i r none (malformed c.part x.table x.row s)
                else if ex.tray && !s.power.readyFull then abort cid .busy i s
                else if heldForTwin s ex then abort cid .quiesced i s
                else if releasing s ex then deliver cid i r none (malformed c.part x.table x.row s)
                else if rowLost s ex a (rowLines t.d) then deliver cid i r none s
                else readRow cid i r c x t ex s
          | st => abort cid st i s

/-! ## Handing rows to the Anvil units (R123, R124, R158 to R160) -/

/-- Cut rows of `lines` lines into strokes: positions of the rows that end in each. DESIGN CHOICE (log entry 82): a row takes one row
activation. -/
def cutStrokes (cols acts lines : Nat) : List Nat → List (List Nat × Nat)
  | [] => []
  | r :: rs =>
    if cols < lines then
      List.replicate ((lines + cols - 1) / cols - 1) ([], cols) ++ ([r], (lines - 1) % cols + 1) :: cutStrokes cols acts lines rs
    else match cutStrokes cols acts lines rs with
      | (g, n) :: t => if g ≠ [] && g.length < acts && n + lines ≤ cols then (r :: g, n + lines) :: t else ([r], lines) :: (g, n) :: t
      | [] => [([r], lines)]

/-- Strokes that their engine holds enter the unit's queue of 32 while it has room (R156, R160). -/
def feedChan (c : Nat) (s : State) : State :=
  let n := 32 - (s.chan c).strokes.length
  if (s.chan c).held.isEmpty || n = 0 then s
  else modChan c (fun k => { k with strokes := k.strokes ++ k.held.take n, held := k.held.drop n }) s

/-- Queue the strokes of rows on their channel. -/
def queueStrokes (kind : StrokeKind) (c : Chain) (i bag shard chan lines : Nat) (rs : List Nat) (s : State) : State :=
  let xs := (cutStrokes (strokeCols s) (strokeActs s) lines rs).map fun (x : List Nat × Nat) =>
    ({ kind := kind, part := c.part, cid := c.cid, stage := i, rows := x.1, bag := bag, shard := shard, cols := x.2 } : Stroke)
  feedChan chan (modChan chan (fun k => { k with held := k.held ++ xs }) s)

/-- The rows of a bag that lie in a shard, as positions in the row list, in list order. -/
def leafRows (s : State) (t : Table) (st : StageRun) (bag shard : Nat) : List Nat :=
  let ks := (bagsOf st.offs).getD bag []
  (ks.filterMap fun k => (st.idxs[k]?).bind fun p =>
    if p.lost then none
    else st.rows.findIdx? fun x => x.shard == shard && (rowsOf s t (leNat p.data)).contains (x.table, x.row)).eraseDups

/-- Lines of a row that lie on a channel. -/
def linesOn (s : State) (x : RowRef) (lines ch : Nat) : Nat :=
  ((List.range lines).filter fun k => onChan s ch (x.addr / 64 + k)).length

/-- FORWARD strokes for rows being read from the channels (R123, R159): those of one channel together, a row that lies on
several on each. -/
def forwardRows (c : Chain) (i lines : Nat) (rows : List (Nat × RowRef)) (s : State) : State :=
  let live := rows.filter fun x => x.2.state == 1 && !x.2.tray
  let s := (live.filter fun x => 1 < x.2.chans.length).foldl (fun s x =>
    x.2.chans.foldl (fun s ch => queueStrokes .forward c i 0 0 ch (linesOn s x.2 lines ch) [x.1] s) s) s
  let one := live.filter fun x => x.2.chans.length == 1
  ((one.flatMap (·.2.chans)).eraseDups).foldl (fun s ch =>
    queueStrokes .forward c i 0 0 ch lines ((one.filter fun x => x.2.chans.contains ch).map (·.1)) s) s

/-- Look-ups count in their shard's load (R148). -/
def addLoad (p tid shard n : Nat) (s : State) : State :=
  modTable p tid (fun y =>
    let l := match y.loads.find? (·.1 == shard) with
      | some z => (z.1, z.2.modify 0 (· + n))
      | none => (shard, n :: List.replicate 8 0)
    { y with loads := l :: y.loads.filter (·.1 != shard) }) s

/-- The leaf of a bag in a shard goes to an Anvil unit (R124, R158): it takes its accumulators at its first stroke. The rows
serve further bags as FORWARD strokes. -/
def leafStrokes (c : Chain) (i bag shard ch lines : Nat) (grp : List Nat) (more : Bool) (s : State) : State :=
  let cut := cutStrokes (strokeCols s) (strokeActs s) lines grp
  let l : Leaf := { cid := c.cid, stage := i, bag := bag, shard := shard, rows := grp, accs := (c.d i).elems, left := cut.length }
  let s := modChan ch (fun k => { k with leaves := k.leaves ++ [l] }) (queueStrokes .leaf c i bag shard ch lines grp s)
  if more then queueStrokes .forward c i 0 0 ch lines grp s else s

/-- The rows that a Ladle engine resolves together: those of a leaf that an Anvil unit may evaluate (log entry 14), or one. -/
def indexGroup (s : State) (c : Chain) (i r : Nat) (t : Table) (x : RowRef) : List Nat :=
  let st := c.st i
  match (if leafMode (c.d i) t then bagsOfRow s t st x else []) with
  | b :: _ =>
    let l := leafRows s t st b x.shard
    if l.length ≤ 2048 && l.all (fun k => (st.rows.getD k {}).state == 0 || (st.rows.getD k {}).state == 3) then l else [r]
  | [] => [r]

/-- The gather had started on a nook before its move was accepted (R25): it may go on there. -/
def startedOn (st : StageRun) (nook : Nat) : Bool := st.rows.any fun x => x.nook == nook && x.state != 0

/-- The leaf of sampled rows that an Anvil unit may evaluate (R124): all of a bag's rows in the shard, read from one channel and none
from the cache; with its bag, its channel, and whether the rows serve further bags. -/
def leafOf (s : State) (c : Chain) (i : Nat) (t : Table) (shard : Nat) (rows : List (Nat × RowRef)) (bags : List Nat) : Option (Nat × Nat × Bool) :=
  match bags, rows with
  | b :: more, (_, y) :: _ =>
    if rows.length == (leafRows s t (c.st i) b shard).length && rows.all (fun z => z.2.state == 1 && z.2.chans == y.chans)
        && y.chans.length == 1 then y.chans.head?.map fun ch => (b, ch, !more.isEmpty)
    else none
  | _, _ => none

/-- Sampled rows go to the Anvil units (R123, R124): as a leaf, whose value needs a spread instance in its channel's nook or the home
stage in its stack (R167), or forwarded. -/
def handOver (c : Chain) (i lines : Nat) (t : Table) (shard : Nat) (rows : List (Nat × RowRef)) (bags : List Nat) (s : State) : State :=
  match leafOf s c i t shard rows bags with
  | none => forwardRows c i lines rows s
  | some (b, ch, more) =>
    match (if c.home / 4 = ch / 32 then some s else takeSpread c i (chanNook ch) s) with
    | some s => leafStrokes c i b shard ch lines (rows.map (·.1)) more s
    | none => forwardRows c i lines rows s

/-- LADLE_INDEX: the engine that the shard map names takes a tracker for a wanted row and resolves it, for the spread instance
of its nook (R69, R116). It reads the RIT entry first, and goes on when it has come. With no free tracker, no tray share, no thread for
the spread instance or a nook that is being moved (R25), the index is held: nothing changes (R118). -/
def ladleIndex (cid i r : Nat) (s : State) : State :=
  match s.chain? cid with
  | none => s
  | some c =>
    let st := c.st i
    match st.rows[r]?, s.table? c.part ((c.d i).f 16 2) with
    | some x, some t =>
      match s.table? c.part x.table with
      | none => abort cid .noAccess i s
      | some tx =>
        if !c.holds || st.phase ≠ 1 || !(x.state == 0 || x.state == 3) then s
        else match pourAccess s (c.map s) c.part false (tx.d.smap + x.shard) 1 with
          | .ok =>
            let m := readLines (linesOf (tx.d.smap + x.shard) 1) s
            let nook := shardNook s tx.d x.shard
            let grp := indexGroup s c i r t x
            let fresh := grp.filter fun k => (st.rows.getD k {}).state == 0
            if !m.1 then abort cid .damaged i m.2
            else if 2048 < ladleUsed s nook + fresh.length || (moving s nook && !startedOn st nook) then s
            else match takeSpread c i nook m.2 with
            | none => s
            | some s0 =>
              let s0 := grp.foldl (fun s k =>
                (entryRun s c i nook (st.rows.getD k {})).foldl (fun s e => engRead (rowTok cid i k) c.part e.1 e.2 s) s) s0
              if grp.any fun k => engBusy s0 (rowTok cid i k) then
                syncThreads cid (fresh.foldl (fun s k => modRow cid i k (fun x => { x with state := 3, nook := nook }) s) s0)
              else
                let n := ((st.idxs.filter fun p => !p.lost && (rowsOf s t (leNat p.data)).any fun w =>
                  grp.any fun k => ((st.rows.getD k {}).table, (st.rows.getD k {}).row) == w).length)
                let s1 := grp.foldl (fun s k => sampleRow cid i k nook s) s0
                match s1.chain? cid with
                | none => s1
                | some c1 =>
                  let rows := grp.map fun k => (k, (c1.st i).rows.getD k {})
                  if c1.status.isSome then s1
                  else if 682 * (s.nooksOf c.part).length < trayUsed s1 c.part && rows.any (·.2.tray) then s
                  else
                    let bags := if leafMode (c.d i) t then bagsOfRow s t st x else []
                    let s2 := syncThreads cid (handOver c1 i (rowLines tx.d) t x.shard rows bags s1)
                    if tx.d.storage = 2 then s2 else addLoad c.part x.table x.shard n s2
          | st => abort cid st i s
    | _, _ => s

/-- ROW_READ_DONE: the last line of a row that is read through the directory arrives, from a tray, a holder or the twin (R116 step 6);
a row whose tray waits for its failover waits (R456). -/
def rowReadDone (cid i r : Nat) (s : State) : State :=
  match s.chain? cid with
  | none => s
  | some c =>
    match (c.st i).rows[r]? with
    | none => s
    | some x =>
      if x.state ≠ 1 || x.wait ≠ 0 || c.status.isSome || engBusy s (rowTok cid i r) then s
      else if (anyExtent s x.addr).elim false fun e => (s.ext e.base).waiting then s
      else deliverMem cid i r s

/-! ## Pooling a look-up (R80, R94, R121, R123) -/

/-- Shards of the tree of R121: those of the table, of a composed one its Q table's. -/
def treeShards (s : State) (t : Table) : Nat :=
  if t.d.storage = 2 then ((s.table? t.d.part t.d.subQ).map (·.d.shards)).getD 256 else t.d.shards

/-- The rows of an ORDERED bag with their shards and weights (R121). -/
def bagRows (s : State) (c : Chain) (i : Nat) (t : Table) (b : List Nat) : List (Nat × Num × RowV) :=
  let d := c.d i
  b.map fun k =>
    let p := posRow s t (c.st i) k
    (p.1, weightFlush (bit (d.f 18 1) 2) (posWeight d (c.st i) k), p.2)

/-- The accumulators of the last bag that an ORDERED look-up pools (R61). -/
def gatherAccs (s : State) (c : Chain) (i : Nat) (t : Table) : List Num :=
  let d := c.d i
  if d.exact || d.f 18 1 % 4 = 0 then []
  else (((bagsOf (c.st i).offs).filter fun b => !b.any (posLost s t (c.st i))).getLast?).elim [] fun b =>
    poolAccs (treeShards s t) (bagRows s c i t b) d.elems

/-- The output rows of a look-up whose rows have all come, each with the home stage's melt registers; none when a counter
would pass 2^40. -/
def gatherOut (s : State) (c : Chain) (i : Nat) (t : Table) : Option (List (Item × List Melt)) :=
  let d := c.d i
  let st := c.st i
  let pool := d.f 18 1 % 4
  if pool = 0 then
    some (st.idxs.zipIdx.map fun p =>
      if posLost s t st p.2 then ({ seq := p.1.seq, lost := true }, [])
      else ({ seq := p.1.seq, data := (posRow s t st p.2).2.pass d.inF d.elems d.outF d.exact d.rtz }, []))
  else
    (bagsOf st.offs).zipIdx.mapM fun b =>
      if b.1.any (posLost s t st) then some ({ seq := b.2, lost := true }, [])
      else
        if d.exact then
          (poolSpread (b.1.map fun k => (posNook s t st k, posWeight d st k, (posRow s t st k).2)) d.elems d.rtz).map fun x =>
            ({ seq := b.2, data := readRegs d.outF d.rtz (if pool = 3 then b.1.length else 1) x.1 }, x.1)
        else
          some ({ seq := b.2, data := poolOrdered (treeShards s t) (bagRows s c i t b.1) d.elems d.outF d.rtz (pool == 3) }, [])

/-- A look-up ends once every row has come and every leaf has left its unit (R80, R94). -/
def gatherEnd (cid i : Nat) (s : State) : State :=
  match s.chain? cid with
  | none => s
  | some c =>
    let st := c.st i
    if st.rows.any (·.state != 2) || s.chans.any (fun k => k.leaves.any fun l => l.cid == cid && l.stage == i) then s
    else match s.table? c.part ((c.d i).f 16 2) with
      | none => abort cid .noAccess i s
      | some t =>
        match gatherOut s c i t with
        | none => abort cid .badDescriptor i s
        | some out =>
          let ks := (List.range st.idxs.length).filter fun k => posLost s t st k && !((st.idxs.getD k {}).lost)
          let s := out.foldl (fun s x => if x.2.isEmpty then s else putLanes false cid i c.home x.2 s) (markLost cid i ks s)
          let s := if (c.d i).exact then s else putFp cid i c.home (gatherAccs s c i t) s
          leaveWaves cid (stageDone cid i (roundUp (rowSize (c.d i).outF (c.d i).elems) 64) (out.map (·.1)) s)

/-! ## Meanings -/

def execTableCreate (m : MbxId) (s : State) : Host.Outcome State Fault Refusal :=
  .next (settle s (runCmd 0x0801 m Sys2Proof.Machine.tableCreate s))
def execTableDestroy (m : MbxId) (s : State) : Host.Outcome State Fault Refusal :=
  .next (settle s (runCmd 0x0802 m Sys2Proof.Machine.tableDestroy s))
def execTableCachePin (m : MbxId) (s : State) : Host.Outcome State Fault Refusal :=
  .next (settle s (runCmd 0x0803 m (simply (cachePin true)) s))
def execTableCacheUnpin (m : MbxId) (s : State) : Host.Outcome State Fault Refusal :=
  .next (settle s (runCmd 0x0804 m (simply (cachePin false)) s))
def execLadleIndex (cid stage row : Nat) (s : State) : Host.Outcome State Fault Refusal :=
  .next (settle s (Sys2Proof.Machine.ladleIndex cid stage row s))
def execRowReadDone (cid stage row : Nat) (s : State) : Host.Outcome State Fault Refusal :=
  .next (settle s (Sys2Proof.Machine.rowReadDone cid stage row s))

end Sys2Proof.Machine
end

