-- ==== Sys2Proof/Machine/Groups.lean ====
section
/-! DEFINITION. Reduction groups and the instances of collectives (R186 to R202). -/

namespace Sys2Proof.Machine

/-! ## Group descriptors (R187, R188) -/

/-- A group descriptor's header, children and members. -/
def decGroup (b : Bytes) : Group :=
  let x := leNat (b.take 64)
  let nc := bits x 287 282
  let nl := bits x 295 288
  let self := bits x 391 368
  { id := bits x 15 0, part := bits x 59 56, elems := bits x 511 480, localDl := bits x 479 448, resultDl := bits x 447 416,
    nranks := bits x 415 392, selfRank := if self = 0xFFFFFF then none else some self, selfW := bits x 367 352,
    parent := bits x 351 330, ctag := bits x 327 312, rtag := bits x 311 296, window := bits x 63 60, outFmt := bits x 55 52,
    inFmt := bits x 51 48, root := bit x 47, exact := bit x 46, rtz := bit x 45, coll := bits x 42 40, pool := bits x 39 38,
    children := (List.range nc).map fun k =>
      let y := fldLE b (64 + 16 * k) 16
      (bits y 103 80, bits y 79 56, bits y 21 0),
    members := (List.range nl).map fun k =>
      let y := fldLE b (64 + 16 * nc + 8 * k) 8
      (bits y 63 48, bits y 47 24, bits y 21 0) }

/-- BROADCAST and ALL_GATHER forward elements and compute nothing. -/
def Group.moves (g : Group) : Bool := g.coll == 3 || g.coll == 4

/-- The module's own part of the subtree: rank and weight, in increasing rank. -/
def Group.own (g : Group) : List (Nat × Nat) :=
  sortBy (fun a b => decide (a.1 ≤ b.1)) ((match g.selfRank with
    | some r => [(r, g.selfW)]
    | none => []) ++ g.members.map fun m => (m.2.1, m.1))

/-- The subtree as runs of ranks, in increasing order (R188). -/
def Group.runs (g : Group) : List (Nat × Nat) :=
  sortBy (fun a b => decide (a.1 ≤ b.1)) (g.own.map (fun (x : Nat × Nat) => (x.1, 1)) ++ g.children.map fun (c : Nat × Nat × Nat) => (c.1, c.2.1))

/-- Lowest rank of the subtree and the one past its highest. -/
def Group.low (g : Group) : Nat := (g.runs.headD (0, 0)).1
def Group.high (g : Group) : Nat := let x := g.runs.getLastD (0, 0); x.1 + x.2

/-- Reserved bits of a group descriptor. -/
def groupRsv (b : Bytes) (g : Group) : Bool :=
  let x := leNat (b.take 64)
  bits x 329 328 != 0 || bits x 281 64 != 0 || bits x 44 43 != 0 || bits x 37 16 != 0
    || (List.range g.children.length).any (fun k => let y := fldLE b (64 + 16 * k) 16; bits y 127 104 != 0 || bits y 55 22 != 0)
    || (List.range g.members.length).any fun k => bits (fldLE b (64 + 16 * g.children.length + 8 * k) 8) 23 22 != 0

/-- The BAD_DESCRIPTOR conditions of R188. -/
def groupBad (b : Bytes) : Bool :=
  let g := decGroup b
  let rs := g.runs
  groupRsv b g || b.length != 64 + 16 * g.children.length + 8 * g.members.length || 32 < g.children.length || g.id = 0
    || g.elems = 0 || 2 ^ 31 < g.elems || g.nranks = 0 || 4 < g.coll || 4 < g.inFmt
    || (g.root && (g.parent != 0 || g.resultDl != 0)) || g.children.any (·.2.1 == 0)
    || (g.pool != 2 && (g.selfW != 0 || g.members.any (·.1 != 0))) || (g.selfRank.isNone && g.selfW != 0)
    || rs.isEmpty || g.nranks < g.high || (rs.zip (rs.drop 1)).any (fun p => p.1.1 + p.1.2 != p.2.1)
    || (g.root && (g.low != 0 || g.high != g.nranks))
    || (!g.root && (g.parent = 0 || g.resultDl ≤ g.localDl))
    || (if g.moves then g.exact || g.pool != 0 || g.outFmt != g.inFmt else g.pool = 0 || !fin3 g.outFmt)
    || (g.coll == 4 && 2 ^ 32 < g.nranks * g.elems) || (g.coll == 3 && g.root && g.low != 0)
    || (!g.exact && 960 < (g.window + 1) * (g.members.length + g.children.length + 1))

/-- GROUP_CREATE (R186, R188). -/
def groupCreate (j : Job) (s : State) : Status × State :=
  let g := decGroup j.payload
  if groupBad j.payload then (.badDescriptor, s)
  else if (s.part? g.part).isNone || (!j.manager && g.part != j.part) then (.noAccess, s)
  else if (s.group? g.part g.id).isSome || 256 ≤ (s.groups.groups.filter (·.part == g.part)).length then (.busy, s)
  else (.ok, mirrorDesc j g.part { s with groups.groups := s.groups.groups ++ [g] })

def Inst.of (i : Inst) (p g : Nat) : Bool := i.part == p && i.group == g

/-- An instance runs: its chain has neither stopped nor ended (R202). -/
def liveInst (s : State) (i : Inst) : Bool := !i.ended && (s.chain? i.cid).elim false (·.status.isNone)

/-- GROUP_DESTROY (R408). -/
def groupDestroy (j : Job) (s : State) : Status × State :=
  let id := fldLE j.payload 0 2
  if (s.group? j.part id).isNone then (.noAccess, s)
  else if s.groups.insts.any fun i => i.of j.part id && liveInst s i then (.busy, s)
  else (.ok, mirrorDesc j j.part { s with groups := {
    groups := s.groups.groups.filter fun g => !(g.part == j.part && g.id == id),
    insts := s.groups.insts.filter (! ·.of j.part id) } })

/-! ## Instances: sources of elements, tiles, the window (R190, R192, R194, R195) -/

/-- Elements that FIRST counts over (R192). -/
def Group.range (g : Group) : Nat := if g.coll = 4 then g.nranks * g.elems else g.elems

def Group.tiles (g : Group) : Nat := (g.range + 255) / 256

/-- The rank's elements (R195): what it contributes. -/
def Group.gives (g : Group) (rank k : Nat) : Bool :=
  if g.coll = 3 then rank == 0 else if g.coll = 4 then k / g.elems == rank else true

/-- A range of ranks gives an element. -/
def Group.rangeGives (g : Group) (lo n k : Nat) : Bool :=
  if g.coll = 3 then lo == 0 else if g.coll = 4 then lo ≤ k / g.elems && k / g.elems < lo + n else true

/-- The sources of an element on this module: ranks of its own part, and children by position. -/
def Group.sources (g : Group) (k : Nat) : List (Bool × Nat) :=
  (g.own.filter fun r => g.gives r.1 k).map (fun r => (false, r.1))
    ++ (g.children.zipIdx.filter fun c => g.rangeGives c.1.1 c.1.2.1 k).map fun c => (true, c.2)

/-- The elements of a tile. -/
def Group.tileElems (g : Group) (t : Nat) : List Nat := (List.range (min 256 (g.range - 256 * t))).map (256 * t + ·)

/-- Has an element come from a source? -/
def Inst.has (i : Inst) (src : Bool × Nat) (k : Nat) : Bool := i.got.any fun x => x.child == src.1 && x.who == src.2 && x.idx == k

def Inst.val (i : Inst) (src : Bool × Nat) (k : Nat) : Bytes :=
  ((i.got.find? fun x => x.child == src.1 && x.who == src.2 && x.idx == k).map (·.val)).getD []

def Inst.lostSrc (i : Inst) (src : Bool × Nat) : Bool := if src.1 then i.lostKids.contains src.2 else i.lostRanks.contains src.2

/-- A tile is complete on the module (R194). -/
def tileComplete (g : Group) (i : Inst) (t : Nat) : Bool := (g.tileElems t).all fun k => (g.sources k).all (i.has · k)

/-- A tile lacks an element of a lost rank or the partial of a lost child (R198). -/
def tileLacks (g : Group) (i : Inst) (t : Nat) : Bool :=
  (g.tileElems t).any fun k => (g.sources k).any fun src => i.lostSrc src && !i.has src k

/-- The window (R194): the lowest WINDOW + 1 tiles not finished. -/
def windowOf (g : Group) (i : Inst) : List Nat := ((List.range g.tiles).filter (! i.tiles.contains ·)).take (g.window + 1)

def State.inst? (s : State) (cid : Nat) : Option Inst := s.groups.insts.find? (·.cid == cid)
def modInst (cid : Nat) (f : Inst → Inst) (s : State) : State :=
  { s with groups.insts := modWhere (·.cid == cid) f s.groups.insts }

/-! ## Combining a tile (R194, R196, R197) -/

/-- The weight of a rank: WSUM only. -/
def Group.weight (g : Group) (w : Nat) : Num := if g.pool = 2 then bf16.dec w else numOne

/-- A W128 word is malformed in itself (R59); it is reported when its message comes (R193). -/
def badWord (w : Nat) : Bool := (({} : Melt).addW128 w).elim false (·.2)

/-- The melt register of an element under EXACT, over the sources that have come; `true` when a partial was not added because the sum
would reach 2^304 (R46). -/
def exactElem (g : Group) (i : Inst) (k : Nat) : Option (Melt × Bool) :=
  let r := cycles (some {}) ((g.own.filter fun x => g.gives x.1 k && i.has (false, x.1) k).map fun x => exactTerms g.inFmt (g.weight x.2) (i.val (false, x.1) k) 0)
  ((List.range g.children.length).filter fun c => i.has (true, c) k).foldl (fun a c =>
    let w := leNat (i.val (true, c) k)
    a.bind fun a => (a.1.addW128 w).map fun y => (y.1, a.2 || (y.2 && !badWord w))) (r.map (·, false))

/-- The value of an element under ORDERED (R196). -/
def orderedElem (g : Group) (i : Inst) (k : Nat) : Num :=
  let acc := g.own.foldl (fun acc x => fma (weightFlush false (g.weight x.2)) (elemOrdered g.inFmt (i.val (false, x.1) k) 0) acc) numZero
  (List.range g.children.length).foldl (fun acc c => rne32 true (Num.add acc (elemOrdered 0 (i.val (true, c) k) 0))) acc

/-- A moved element: from the one source that gives it. -/
def movedElem (g : Group) (i : Inst) (k : Nat) : Option Bytes := ((g.sources k).head?).map (i.val · k)

/-- The format of a partial, and its bytes with the flag of R46 (R196); none when a counter would pass 2^40. -/
def Group.partFmt (g : Group) : Nat := if g.moves then g.inFmt else if g.exact then 8 else 0

def partialElem (g : Group) (i : Inst) (k : Nat) : Option (Bytes × Bool) :=
  if g.moves then some ((movedElem g i k).getD [], false)
  else if g.exact then (exactElem g i k).map fun r => (toLE 16 r.1.w128, r.2)
  else some (toLE 4 (fp32.enc false true (orderedElem g i k)), false)

/-- The root's result for an element, with the flag of R46 (R197). -/
def resultElem (g : Group) (i : Inst) (k : Nat) : Option (Bytes × Bool) :=
  let n := if g.pool = 3 then g.nranks else 1
  if g.moves then some ((movedElem g i k).getD [], false)
  else match fpOf g.outFmt with
    | none => some ([], false)
    | some f =>
      if g.exact then (exactElem g i k).map fun r => (toLE (elemBytes g.outFmt) (r.1.read f g.rtz n), r.2)
      else
        let v := orderedElem g i k
        some (toLE (elemBytes g.outFmt) (f.enc g.rtz true (if g.pool = 3 then fdiv true v (Num.ofInt n) else v)), false)

/-! ## Messages of a collective (R192, R199) -/

def collHdr (group inst first count rank kind fmt : Nat) : Bytes :=
  toLE 16 (fmt % 16 + 2 ^ 8 * kind + 2 ^ 12 * (rank % 2 ^ 24) + 2 ^ 36 * (count % 2 ^ 12) + 2 ^ 48 * (first % 2 ^ 32)
    + 2 ^ 80 * (inst % 2 ^ 32) + 2 ^ 112 * (group % 2 ^ 16))

/-- Bytes of one element of a collective's message. -/
def collBytes (fmt : Nat) : Nat := if fmt = 8 then 16 else elemBytes fmt

/-- Runs of consecutive elements, each at most `n` long. -/
def runsOf (n : Nat) (l : List (Nat × Bytes)) : List (Nat × List Bytes) :=
  (l.foldl (fun acc x => match acc with
    | (f, vs) :: r => if f + vs.length = x.1 && vs.length < n then (f, vs ++ [x.2]) :: r else (x.1, [x.2]) :: (f, vs) :: r
    | [] => [(x.1, [x.2])]) []).reverse

/-- The payloads that carry elements, in increasing FIRST order. -/
def elemMsgs (g : Group) (inst rank kind fmt : Nat) (l : List (Nat × Bytes)) : List Bytes :=
  (runsOf (2032 / collBytes fmt) l).map fun r => collHdr g.id inst r.1 r.2.length rank kind fmt ++ r.2.flatten

/-- The module's own place among its parent's children (log entry 15). -/
def Group.place (g : Group) : Nat := Config.childPos g.parent g.id % 32

def epochOf (s : State) (cid : Nat) : Nat := (s.chain? cid).elim s.maps.cur.epoch (·.epoch)

/-- Send a PARTIAL or END to the parent (R194, R199); it is answered (R493). -/
def sendUp (g : Group) (cid : Nat) (body : Bytes) (s : State) : State :=
  (ownMsg 6 (some g.part) 3 g.parent g.ctag (epochOf s cid) body s).2

/-- Send a RESULT or END downward; it is not answered (R493). -/
def sendDown (g : Group) (cid dst : Nat) (body : Bytes) (s : State) : State :=
  ownQuiet 6 (some g.part) 3 dst g.rtag (epochOf s cid) body s

/-- The block of a rank (R195), as first element and the one past its last. -/
def Group.block (g : Group) (rank : Nat) : Nat × Nat :=
  let b := (g.elems + g.nranks - 1) / g.nranks
  (min (rank * b) g.elems, min ((rank + 1) * b) g.elems)

/-- An element is due to a rank (R195). -/
def Group.due (g : Group) (rank k : Nat) : Bool :=
  if g.coll = 0 then false else if g.coll = 2 then (g.block rank).1 ≤ k && k < (g.block rank).2 else true

/-- An element is due to some rank of a range. -/
def Group.rangeDue (g : Group) (lo n k : Nat) : Bool :=
  if g.coll = 2 then (g.block lo).1 ≤ k && k < (g.block (lo + n - 1)).2 else g.coll != 0

/-- The elements that the stage itself delivers: SELF_RANK's, or the whole vector at the root of a REDUCE. -/
def Group.mine (g : Group) (k : Nat) : Bool :=
  if g.coll = 0 then g.root else g.selfRank.elim false (g.due · k)

/-- First element of the part that the stage delivers. -/
def Group.base (g : Group) : Nat := if g.coll = 2 then g.selfRank.elim 0 fun r => (g.block r).1 else 0

def Group.mineEnd (g : Group) : Nat :=
  if g.coll = 0 then (if g.root then g.elems else 0)
  else match g.selfRank with
    | none => 0
    | some r => if g.coll = 2 then (g.block r).2 else g.range

/-- The rows of 256 elements that the stage has delivered; one that is not whole is LOST. -/
def instRows (g : Group) (i : Inst) : List Item :=
  let n := g.mineEnd - g.base
  (List.range ((n + 255) / 256)).map fun t =>
    let ks := (List.range (min 256 (n - 256 * t))).map (g.base + 256 * t + ·)
    let vs := ks.filterMap fun k => (i.mine.find? (·.1 == k)).map (·.2)
    if vs.length = ks.length then { seq := t, data := vs.flatten } else { seq := t, lost := true }

/-- How many of them are whole. -/
def wholeRows (g : Group) (cid : Nat) (s : State) : Nat := (s.inst? cid).elim 0 fun i => (instRows g i).countP (! ·.lost)

/-- Results go to children, members and the stage's own DEST (R195, R197); OUT_UNITS counts the rows written (R92). -/
def deliverDown (g : Group) (cid : Nat) (l : List (Nat × Bytes)) (s : State) : State :=
  match s.inst? cid with
  | none => s
  | some i =>
    let s := g.children.foldl (fun s c =>
      if l.any fun x => g.rangeDue c.1 c.2.1 x.1 then
        (elemMsgs g i.inst 0 2 g.outFmt l).foldl (fun s b => sendDown g cid c.2.2 b s) s
      else s) s
    let s := g.members.foldl (fun s m =>
      (elemMsgs g i.inst 0 2 g.outFmt (l.filter fun x => g.due m.2.1 x.1)).foldl (fun s b => sendDown g cid m.2.2 b s) s) s
    let mine := l.filter fun x => g.mine x.1
    match s.chain? cid with
    | none => s
    | some c =>
      let keep := fun (l : List (Nat × Bytes)) (s : State) => modInst cid (fun i => { i with mine := i.mine ++ l }) s
      if c.byMsg || !(consumers c.ds i.stage).isEmpty then keep mine s
      else (runsOf 256 mine).foldl (fun s r =>
        let n := wholeRows g cid s
        let s := stageWrite cid i.stage (c.dest + (r.1 - g.base) * elemBytes g.outFmt) r.2.flatten s
        let s := keep (r.2.zipIdx.map fun x => (r.1 + x.2, x.1)) s
        if (s.chain? cid).elim false (·.status.isNone) then addUnits cid (wholeRows g cid s - n) s else s) s

/-! ## How an instance goes on and ends (R197 to R202) -/

/-- Ranks lost, as runs, lowest first. -/
def rankRuns (l : List Nat) : List (Nat × Nat) :=
  ((sortBy (fun a b => decide (a ≤ b)) l.eraseDups).foldl (fun acc x => match acc with
    | (f, n) :: r => if f + n = x then (f, n + 1) :: r else (x, 1) :: (f, n) :: r
    | [] => [(x, 1)]) []).reverse

/-- The END payload of R199: the lost ranks known by name, and how many more there are. -/
def endBody (g : Group) (inst rank : Nat) (st : Nat) (lost : List Nat) (more : Nat) : Bytes :=
  let rs := (rankRuns lost).take 253
  collHdr g.id inst 0 0 rank 3 0
    ++ toLE 8 (st % 2 ^ 16 + 2 ^ 16 * ((lost.eraseDups.length + more) % 2 ^ 24) + 2 ^ 40 * rs.length)
    ++ rs.flatMap fun r => toLE 8 (r.2 % 2 ^ 24 + 2 ^ 24 * r.1)

/-- END goes to children and members. -/
def endDown (g : Group) (cid : Nat) (body : Bytes) (s : State) : State :=
  (g.children.map (·.2.2) ++ g.members.map (·.2.2)).foldl (fun s e => sendDown g cid e body s) s

/-- The stage ends with the instance (R200): bits of lost ranks, LOST_COUNT, its rows. -/
def instEnd (g : Group) (cid : Nat) (lost : List Nat) (count : Nat) (s : State) : State :=
  match s.inst? cid with
  | none => s
  | some i =>
    let s := modInst cid (fun i => { i with ended := true, got := [], mine := [] }) s
    let s := markLost cid i.stage lost s
    let s := modChain cid (fun c => { c with lostCount := some count }) s
    let rows := instRows g i
    let s := modStage cid i.stage (fun x => { x with phase := 5, out := rows }) s
    let s := if (s.chain? cid).elim false fun c => (consumers c.ds i.stage).isEmpty && c.byMsg then sinkRows cid i.stage g.outFmt 0 rows s else s
    writeTicket cid i.stage rows s

/-- The instance stops with its chain (R202). -/
def instStop (cid : Nat) (s : State) : State := modInst cid (fun i => { i with ended := true, got := [], mine := [] }) s

/-- The elements of one tile, computed, each with the flag of R46; none when a counter would pass 2^40. -/
def tileOut (g : Group) (i : Inst) (t : Nat) : Option (List (Nat × Bytes × Bool)) :=
  if g.root then (g.tileElems t).mapM fun k => (resultElem g i k).map fun b => (k, b)
  else ((g.tileElems t).filter fun k => !(g.sources k).isEmpty).mapM fun k => (partialElem g i k).map fun b => (k, b)

/-- Finish one tile of the window, if one may be: a complete one goes up, or down at the root in order; one that lacks an
element of a lost rank is withheld. -/
def finishTile (g : Group) (cid : Nat) (s : State) : Option State :=
  match s.inst? cid with
  | none => none
  | some i =>
    let w := windowOf g i
    let ready := fun (t : Nat) => tileComplete g i t && (!g.root || w.head? == some t)
    match w.find? fun t => ready t || tileLacks g i t with
    | none => none
    | some t =>
      let s := modInst cid (fun i => { i with tiles := i.tiles ++ [t] }) s
      if !ready t then some s
      else match tileOut g i t with
        | none => some (instStop cid (abort cid .badDescriptor i.stage s))
        | some xs =>
          let l := xs.map fun x => (x.1, x.2.1)
          let s := if xs.any (·.2.2) then event 0x000A true [] (some g.part) [g.id, i.inst] s else s
          let s := if g.exact || g.moves then s
            else putFp cid i.stage ((s.chain? cid).elim 0 (·.home)) ((g.tileElems t).map (orderedElem g i)) s
          some (if g.root then deliverDown g cid l s
                else (elemMsgs g i.inst g.place 1 g.partFmt l).foldl (fun s b => sendUp g cid b s) s)

def finishTiles (g : Group) (cid : Nat) : Nat → State → State
  | 0, s => s
  | n + 1, s => match finishTile g cid s with
    | none => s
    | some s => finishTiles g cid n s

/-- The module's END, when its conditions hold (R199, R200). -/
def tryEnd (g : Group) (cid : Nat) (s : State) : State :=
  match s.inst? cid with
  | none => s
  | some i =>
    if i.ended || i.endUp then s
    else
      let all := (List.range g.tiles).all fun t => i.tiles.contains t
      let lost := i.lostRanks.eraseDups
      let st := if lost.isEmpty && i.unnamed = 0 && all then 0 else 7
      if g.root then
        (if all then instEnd g cid lost (lost.length + i.unnamed) (endDown g cid (endBody g i.inst 0 st lost i.unnamed) s) else s)
      else if all || i.dlPast then
        sendUp g cid (endBody g i.inst g.place st lost i.unnamed) (modInst cid (fun i => { i with endUp := true }) s)
      else s

/-- The melt sets of an EXACT instance hold the tiles of its window, the lowest first (R62, R189): what has come of each. -/
def fillSets (g : Group) (cid : Nat) (s : State) : State :=
  match s.inst? cid, s.chain? cid with
  | some i, some c =>
    if !g.exact || !liveInst s i then s
    else (windowOf g i).zipIdx.foldl (fun s t =>
      putSet cid i.stage c.home t.2 ((g.tileElems t.1).map fun k => ((exactElem g i k).map (·.1)).getD {}) s) s
  | _, _ => s

/-- An instance goes on after something has come. -/
def advanceInst (g : Group) (cid : Nat) (s : State) : State :=
  if (s.inst? cid).elim true (! liveInst s ·) then s else fillSets g cid (tryEnd g cid (finishTiles g cid (g.tiles + 1) s))

/-- The instance of a chain starts at admission (R190). -/
def startInst (c : Chain) (stage start inst : Nat) (s : State) : State :=
  let d := c.d stage
  { s with groups.insts := s.groups.insts ++ [{ part := c.part, group := d.f 16 2, inst := inst % 2 ^ 32, start := start,
                                                cid := c.cid, stage := stage }] }

/-- Elements of one source enter the instance: those already received are discarded (R193). Those of a withheld tile are
taken too, so that their rank has delivered them (R198). -/
def takeElems (cid : Nat) (src : Bool × Nat) (l : List (Nat × Bytes)) (s : State) : State :=
  modInst cid (fun i => { i with got := i.got ++ ((l.filter fun x => !i.has src x.1).map fun x =>
    { child := src.1, who := src.2, idx := x.1, val := x.2 }) }) s

/-- The module's own contribution comes from its source (R189): the elements that the row of 256 gives from element `256 t` on. -/
def selfElems (g : Group) (t : Nat) (b : Bytes) : List (Nat × Bytes) :=
  let n := elemBytes g.inFmt
  (List.range (min (b.length / n) (g.elems - 256 * t))).map fun k => (256 * t + k, (b.drop (n * k)).take n)

/-- The elements of SELF_RANK enter the instance (R189, R195). -/
def feedSelf (g : Group) (cid : Nat) (l : List (Nat × Bytes)) (s : State) : State :=
  match g.selfRank with
  | none => s
  | some r =>
    if g.coll = 3 && r != 0 then s
    else
      let off := if g.coll = 4 then r * g.elems else 0
      advanceInst g cid (takeElems cid (false, r) (l.map fun x => (off + x.1, x.2)) s)

/-! ## Messages that arrive (R193, R197, R199) -/

structure CollHdr where
  group : Nat := 0
  inst : Nat := 0
  first : Nat := 0
  count : Nat := 0
  rank : Nat := 0
  kind : Nat := 0
  rsv : Bool := false
  fmt : Nat := 0
  deriving DecidableEq, Repr

def decColl (b : Bytes) : CollHdr :=
  let x := fldLE b 0 16
  { group := bits x 127 112, inst := bits x 111 80, first := bits x 79 48, count := bits x 47 36, rank := bits x 35 12,
    kind := bits x 11 8, rsv := bits x 7 4 != 0, fmt := bits x 3 0 }

/-- The partition that R186 names for a message. -/
def collPart (s : State) (p : Nat) (m : PktMsg) : Option Nat :=
  if (s.port p).kind = 0 then (s.port p).owner else if m.tenant = 0 then none else partOfTag s m.tenant

/-- The source a message comes from (R193): the listed member with its rank, or the listed child at its position. -/
def collSrc (s : State) (g : Group) (m : PktMsg) (rank : Nat) : Option (Bool × Nat) :=
  if g.members.any fun x => x.2.1 == rank && x.2.2 == m.src then some (false, rank)
  else match g.children[rank]? with
    | some c => if sameEp s c.2.2 m.src then some (true, rank) else none
    | none => none

/-- The elements a message carries. -/
def collElems (h : CollHdr) (b : Bytes) : List (Nat × Bytes) :=
  let n := collBytes h.fmt
  (List.range h.count).map fun k => (h.first + k, ((b.drop 16).drop (n * k)).take n)

/-- The header does not fit what the source may send (R193). -/
def collBad (g : Group) (src : Bool × Nat) (h : CollHdr) (b : Bytes) : Bool :=
  h.rsv || b.length < 16
    || (if h.kind = 3 then
          !src.1 || h.count != 0 || b.length < 24 || b.length != 24 + 8 * fldLE b 21 1 || fldLE b 22 2 != 0
            || (List.range (fldLE b 21 1)).any fun k => fldLE b (24 + 8 * k + 6) 2 != 0
        else
          h.kind != b2n src.1 || h.fmt != (if src.1 then g.partFmt else g.inFmt) || h.count = 0
            || b.length != 16 + h.count * collBytes h.fmt || g.range < h.first + h.count
            || (List.range h.count).any fun k => !((g.sources (h.first + k)).contains src))

/-- The ranks that an END names. -/
def endRanks (b : Bytes) : List Nat :=
  (List.range (fldLE b 21 1)).flatMap fun k =>
    let y := fldLE b (24 + 8 * k) 8
    (List.range (bits y 23 0)).map (bits y 47 24 + ·)

/-- The outcome of a contribution, a partial or an END from a child (R193). -/
def collIn (p : Nat) (m : PktMsg) (s : State) : Status × State :=
  let h := decColl m.body
  match (collPart s p m).bind fun q => (s.group? q h.group).map fun g => (q, g) with
  | none => (.noAccess, s)
  | some (q, g) =>
    match collSrc s g m h.rank with
    | none => (.noAccess, s)
    | some src =>
      if collBad g src h m.body then (.badDescriptor, if src.1 then event 0x000A true [] (some q) [h.group, h.inst] s else s)
      else match s.groups.insts.find? fun i => i.of q g.id && i.inst == h.inst && liveInst s i with
        | none => (if s.groups.insts.any fun i => i.of q g.id && i.inst == h.inst then .timeout else .retry, s)
        | some i =>
          if i.start + g.localDl ≤ s.ns then (.timeout, s)
          else if h.kind = 3 then
            let lost := endRanks m.body
            let s := modInst i.cid (fun i => { i with
              endKids := (i.endKids ++ [src.2]).eraseDups,
              lostRanks := (i.lostRanks ++ lost).eraseDups,
              unnamed := i.unnamed + (if i.endKids.contains src.2 then 0 else fldLE m.body 18 3 - lost.eraseDups.length),
              lostKids := if fldLE m.body 18 3 = 0 then i.lostKids else (i.lostKids ++ [src.2]).eraseDups }) s
            (.ok, advanceInst g i.cid s)
          else
            let w := windowOf g i
            if (List.range h.count).any fun k => let t := (h.first + k) / 256; !w.contains t && !i.tiles.contains t then (.retry, s)
            else
              let l := collElems h m.body
              let s := if src.1 && g.exact && l.any (fun x => badWord (leNat x.2)) then
                  event 0x000A true [] (some q) [h.group, h.inst] s
                else s
              (.ok, advanceInst g i.cid (takeElems i.cid src l s))

/-- A RESULT from the parent (R197): late, for an ended instance or from another sender, it is discarded (R201). -/
def resultIn (p : Nat) (m : PktMsg) (s : State) : State :=
  let h := decColl m.body
  match (collPart s p m).bind fun q => (s.group? q h.group).map fun g => (q, g) with
  | none => s
  | some (q, g) =>
    match s.groups.insts.find? fun i => i.of q g.id && i.inst == h.inst && liveInst s i with
    | none => s
    | some i =>
      if g.root || !sameEp s g.parent m.src || i.start + g.resultDl ≤ s.ns || h.rsv || h.fmt != g.outFmt
          || m.body.length != 16 + h.count * collBytes h.fmt || g.range < h.first + h.count then s
      else deliverDown g i.cid (collElems h m.body) s

/-- The chain of an instance ends with TIMEOUT (R200, R201): the bits of the ranks that the module declared lost are set, and the END
goes to children and members. It alone follows the stop; what the chain still had to send does not (R202). -/
def instTimeout (g : Group) (i : Inst) (lost : List Nat) (count : Nat) (body : Bytes) (s : State) : State :=
  let s := modChain i.cid (fun c => { c with lostCount := some count }) s
  let s := markLost i.cid i.stage lost (abort i.cid .timeout i.stage s)
  instStop i.cid (endDown g i.cid body s)

/-- An END from the parent (R199, R200): it goes on unchanged, and the chain completes with its status. -/
def endIn (p : Nat) (m : PktMsg) (s : State) : State :=
  let h := decColl m.body
  match (collPart s p m).bind fun q => (s.group? q h.group).map fun g => (q, g) with
  | none => s
  | some (q, g) =>
    match s.groups.insts.find? fun i => i.of q g.id && i.inst == h.inst && liveInst s i with
    | none => s
    | some i =>
      if g.root || i.start + g.resultDl ≤ s.ns || m.body.length < 24 then s
      else
        let lost := (i.lostRanks ++ endRanks m.body).eraseDups
        let n := fldLE m.body 18 3
        if fldLE m.body 16 2 = 8 then instTimeout g i lost n m.body s else instEnd g i.cid lost n (endDown g i.cid m.body s)

/-- An END comes from the parent of its group. -/
def fromParent (s : State) (p : Nat) (m : PktMsg) : Bool :=
  ((collPart s p m).bind fun q => s.group? q (decColl m.body).group).elim false fun g => !g.root && sameEp s g.parent m.src

/-- A collective message that reaches a port (R193, R289): one for another module goes on; a twin link carries none (R28). -/
def collective (row : Nat → Bool) (p : Nat) (m : PktMsg) (s : State) : State :=
  let k := ((openPkt m).elim 0 fun q => (decColl q.body).kind)
  let twin := (s.port p).kind == 2
  if !row k || m.opc ≠ 6 then s
  else if !namesMe s m.dst then forward p m twin s
  else
    let quiet := k = 2 || (k = 3 && (openPkt m).elim false fun q => fromParent s p q)
    match admitMsg p m twin false s with
    | (.error st, s) => if quiet then s else refuse p m st s
    | (.ok q, s) =>
      let part := collPart s p q
      let stop : Option Status := if !s.power.readyFull then some .busy
        else match part with
          | none => some .noAccess
          | some x => if s.isQuiesced x then some (s.quiesceStatus x) else none
      match stop with
      | some st => if quiet then s else refuse p q st s
      | none =>
        if k = 2 then resultIn p q s
        else if quiet then endIn p q s
        else match collIn p q s with
          | (st, s) => refuse p q st s

/-! ## Deadlines (R198, R201) -/

/-- T + LOCAL_DL passes (R198): ranks of the own part that have not delivered every element, and children without END, are
lost. -/
def localDeadline (p gid n : Nat) (s : State) : State :=
  match s.group? p gid, s.groups.insts.find? fun i => i.of p gid && i.inst == n && liveInst s i with
  | some g, some i =>
    if s.ns < i.start + g.localDl || i.dlPast then s
    else
      let own := (g.own.filter fun r => (List.range g.range).any fun k => g.gives r.1 k && !i.has (false, r.1) k).map (·.1)
      let kids := (List.range g.children.length).filter fun c => !i.endKids.contains c
      let ranks := kids.flatMap fun c => let x := g.children.getD c (0, 0, 0); (List.range x.2.1).map (x.1 + ·)
      advanceInst g i.cid (modInst i.cid (fun i => { i with
        dlPast := true, lostRanks := (i.lostRanks ++ own ++ ranks).eraseDups, lostKids := (i.lostKids ++ kids).eraseDups }) s)
  | _, _ => s

/-- T + RESULT_DL passes with no END from the parent (R201). -/
def resultDeadline (p gid n : Nat) (s : State) : State :=
  match s.group? p gid, s.groups.insts.find? fun i => i.of p gid && i.inst == n && liveInst s i with
  | some g, some i =>
    if g.root || s.ns < i.start + g.resultDl then s
    else instTimeout g i i.lostRanks 0 (endBody g i.inst 0 8 [] 0) s
  | _, _ => s

/-! ## Meanings -/

def execGroupCreate (m : MbxId) (s : State) : Host.Outcome State Fault Refusal :=
  .next (settle s (runCmd 0x0904 m (simply Sys2Proof.Machine.groupCreate) s))
def execGroupDestroy (m : MbxId) (s : State) : Host.Outcome State Fault Refusal :=
  .next (settle s (runCmd 0x0905 m (simply Sys2Proof.Machine.groupDestroy) s))
def execContrib (port : Nat) (m : PktMsg) (s : State) : Host.Outcome State Fault Refusal :=
  .next (settle s (collective (fun k => k != 1 && k != 2 && k != 3) port m s))
def execPartialMsg (port : Nat) (m : PktMsg) (s : State) : Host.Outcome State Fault Refusal :=
  .next (settle s (collective (· == 1) port m s))
def execResult (port : Nat) (m : PktMsg) (s : State) : Host.Outcome State Fault Refusal :=
  .next (settle s (collective (· == 2) port m s))
def execEndMsg (port : Nat) (m : PktMsg) (s : State) : Host.Outcome State Fault Refusal :=
  .next (settle s (collective (· == 3) port m s))
def execCollectiveLocalDeadline (part group inst : Nat) (s : State) : Host.Outcome State Fault Refusal :=
  .next (settle s (localDeadline part group inst s))
def execCollectiveResultDeadline (part group inst : Nat) (s : State) : Host.Outcome State Fault Refusal :=
  .next (settle s (resultDeadline part group inst s))

end Sys2Proof.Machine
end

