-- ==== Sys2Proof/Machine/Update.lean ====
section
/-! DEFINITION. Updating, replacing and rebalancing tables (R129 to R153). -/

namespace Sys2Proof.Machine

/-! ## Update descriptors (R135, R136) -/

def decUpdate (x : Nat) : UDesc :=
  { stateAddr := bits x 511 448, lr := bits x 383 352, eps := bits x 351 320, lo := bits x 319 288, hi := bits x 287 256,
    slots := if bits x 255 232 = 0 then 2 ^ 24 else bits x 255 232, rule := bits x 47 46, exact := bit x 45, rtz := bit x 44,
    hotcache := bit x 41, move := bit x 40 }

/-- Bytes of an update area (R135). -/
def areaBytes (d : TDesc) (u : UDesc) : Nat := u.slots * roundUp (64 + 96 * d.elems) 64

/-- A step is closed (R138). -/
def stepClosed (c step : Nat) : Bool := decide ((c + 2 ^ 32 - step % 2 ^ 32) % 2 ^ 32 < 2 ^ 31)

/-- Some step of the table is open: it has contributions, or a close runs. -/
def stepOpen (t : Table) : Bool :=
  t.close.isSome || t.accs.any (fun a => !stepClosed t.closed a.step) || t.receipts.any fun r => !stepClosed t.closed r.step

/-- A run lies wholly in one extent of the partition, not being released, that fits a test. -/
def inOneExtent (s : State) (part o n : Nat) (q : Extent → Bool) : Bool :=
  match extIn s.maps.cur.exts (o / 2 ^ 28) with
  | some e => e.part == part && !releasing s e && q e && decide (o + n ≤ (e.base + e.granules) * 2 ^ 28)
  | none => false

/-- TABLE_UPDATE_SET (R136): the list of update areas is read as an engine reads (R292). -/
def tableUpdateSet (j : Job) (s : State) : End × State :=
  let x := leNat j.payload
  let u := decUpdate x
  let list := bits x 447 384
  let lo := fp32.dec u.lo
  let hi := fp32.dec u.hi
  let id := bits x 15 0
  if bits x 199 48 != 0 || bits x 43 42 != 0 || bits x 39 16 != 0 || u.rule = 3 || addrBad u.stateAddr || addrBad list
      || (if u.rule = 2 then u.stateAddr = 0 else u.stateAddr != 0) || lo.isNan || hi.isNan || Num.lt hi lo then (.done .badDescriptor, s)
  else match useTable s j.part id with
    | .error st => (.done st, s)
    | .ok t =>
      if t.d.storage = 2 then (.done .badDescriptor, s)
      else if !inExtents s j.part list 768 || (u.rule = 2 && !inExtents s j.part u.stateAddr (4 * t.d.phys)) then (.done .noAccess, s)
      else jobRead j j.part [(list, 768), (t.d.smap, t.d.shards)] (fun rd s =>
        let raw := rd list 768
        let as := (List.range 96).map fun n => fldLE raw (8 * n) 8
        let u := { u with uareas := as }
        let named := rd t.d.smap t.d.shards
        if as.zipIdx.any (fun a => a.1 != 0 && (addrBad a.1 || !inOneExtent s j.part a.1 (areaBytes t.d u) fun e =>
              !e.tray && !e.coh && e.devown && e.nook == a.2))
            || named.any (fun b => as.getD b.toNat 0 == 0) then (.done .badDescriptor, s)
        else if stepOpen t then (.done .busy, s)
        else
          let j' := { j with payload := j.payload ++ raw }
          (.done .ok, mirrorTable j' j.part id (modTable j.part id (fun t => { t with u := some u, closed := bits x 231 200 }) s))) s

/-! ## Row slots (R137, R142, R147) -/

/-- A slot's place: a stacked slot's nook; none for a tray slot. -/
def slotNook (s : State) (a : Nat) : Option Nat := (anyExtent s a).bind fun e => (chanOf e a).map chanNook

/-- Put a slot into its list. -/
def freeSlot (s : State) (t : Table) (a : Nat) : Table :=
  match slotNook s a with
  | some n => { t with free := t.free ++ [(n, a)] }
  | none => { t with freeTray := t.freeTray ++ [a] }

/-- TABLE_SLOTS_ADD (R137). -/
def tableSlotsAdd (j : Job) (s : State) : Status × State :=
  let id := fldLE j.payload 0 2
  let n := fldLE j.payload 4 4
  let a := fldLE j.payload 8 8
  if !zeroAt j.payload 2 2 then (.badDescriptor, s)
  else match useTable s j.part id with
  | .error st => (st, s)
  | .ok t =>
    let size := 64 * rowLines t.d
    if n = 0 || a % 64 != 0 || addrBad a || t.d.storage = 2 then (.badDescriptor, s)
    else if !inOneExtent s j.part a (n * size) (fun e => !e.coh && e.devown) then (.noAccess, s)
    else
      let add := fun (t : Table) => (List.range n).foldl (fun t k => freeSlot s t (a + k * size)) t
      (.ok, mirrorTable j j.part id (modTable j.part id add s))

/-- Take a slot (R137): of the tier of the slot it replaces; a stacked one from the home nook's list, else from the list of
the lowest nook that has one. -/
def takeSlot (t : Table) (tray : Bool) (home : Nat) : Option (Nat × Table) :=
  if tray then
    match t.freeTray with
    | [] => none
    | a :: r => some (a, { t with freeTray := r })
  else
    let ns := t.free.map (·.1)
    let n := if ns.contains home then home else ns.foldl min 96
    (t.free.find? (·.1 == n)).map fun x => (x.2, { t with free := t.free.erase x })

/-- An entry of the table, and a write of it; the write also shows in every cache (R127). -/
def entryOf (s : State) (t : Table) (plane r : Nat) : Nat := memNat s (t.d.ritAt plane r) 8
def setEntry (t : Table) (plane r e : Nat) (s : State) : State := memWrite (t.d.ritAt plane r) (toLE 8 e) s

/-- A generation is staged: its plane follows shared slots (R142, R145). -/
def staged (t : Table) : Bool := 1 ≤ t.genState && t.genState ≤ 3

/-- Replace a row's entry in the live plane, and in the staging plane where it shares the slot (R142, R151); `gen` gives the
new GEN of each. DESIGN CHOICE (log entry 85): two entries with VALID 0 name the same slot where their addresses agree. -/
def swapEntry (t : Table) (r a gen : Nat) (s : State) : State :=
  let g := t.d.gen
  let old := entryOf s t g r
  let stg := entryOf s t (g + 1) r
  let shared := staged t && entValid stg == entValid old && entAddr stg == entAddr old
  let s := setEntry t g r (ritEntry gen true false (a / 64)) s
  if shared then setEntry t (g + 1) r (ritEntry gen true false (a / 64)) s else s

/-- Retire a slot on the list of the current wave (R147). -/
def retire (p t a : Nat) (s : State) : State := modTable p t (fun t => { t with retired := t.retired ++ [(t.wave, a)] }) s

/-- W advances by one for each batch of writes that is done, while no slot of the previous wave waits (R147). -/
def Table.advance : Nat → Table → Table
  | 0, t => t
  | n + 1, t => if t.retired.all (fun r => t.wave ≤ r.1) then Table.advance n { t with wave := t.wave + 1, batches := t.batches - 1 } else t

def advanceWave (p t : Nat) (s : State) : State := modTable p t (fun t => t.advance t.batches) s

/-- A batch of writes is done. -/
def batchEnd (p t : Nat) (s : State) : State := advanceWave p t (modTable p t (fun t => { t with batches := t.batches + 1 }) s)

/-- SLOT_WAVE_FREE (R147): slots of the previous wave are freed once its counters read zero. -/
def slotWaveFree (p t : Nat) (s : State) : State :=
  match s.table? p t with
  | none => s
  | some x =>
    if x.wave = 0 || x.inflight.any (fun f => f.2.2 == (x.wave - 1) % 2) then s
    else
      let gone := (x.retired.filter fun r => decide (r.1 < x.wave)).map (·.2)
      advanceWave p t (modTable p t (fun y => gone.foldl (freeSlot s) { y with retired := y.retired.filter fun r => decide (y.wave ≤ r.1) }) s)

/-! ## Migration between modules: what is sent (R153; the messages' form is log entry 16) -/

/-- Tag of migration messages, and the bytes of data in one. -/
def migData : Nat := 1984

/-- A migration message's header: destination table, kind (0 open, 1 row, 2 accumulator, 3 batch), element format, step, row or
count, REQ_ID, source endpoint, total bytes. -/
def migHdr (dtable kind fmt step row reqId src total : Nat) : Bytes :=
  toLE 2 dtable ++ toLE 1 kind ++ toLE 1 fmt ++ toLE 4 step ++ toLE 8 row ++ toLE 8 reqId ++ toLE 4 src ++ toLE 4 total

/-- Data cut into messages of one transfer. -/
def migParts (hdr : Bytes) : Nat → Bytes → List Bytes
  | 0, _ => []
  | n + 1, d => (hdr ++ d.take migData) :: (if d.length ≤ migData then [] else migParts hdr n (d.drop migData))

/-- Send a transfer in the BULK service; the trackers of its messages, or the status that stopped it. -/
def migSend (part : Nat) (dest : Nat) (hdr d : Bytes) (s : State) : Except Status (List Nat) × State :=
  (migParts hdr (d.length / migData + 1) d).foldl (fun a b =>
    match a with
    | (.error st, s) => (.error st, s)
    | (.ok l, s) => match ownPost (some part) 5 dest migTag s.maps.cur.epoch b s with
      | (.error st, s) => (.error st, s)
      | (.ok none, s) => (.ok l, s)
      | (.ok (some id), s) => (.ok (l ++ [id]), s)) (.ok [], s)

def Migr.has (m : Migr) (shard : Nat) : Bool := m.first ≤ shard && shard < m.first + m.count

def modMigr (t : Table) (m : Migr) (f : Migr → Migr) (s : State) : State :=
  modTable t.d.part t.d.id (fun t => { t with migr := modWhere (fun x => x.first == m.first && x.count == m.count && !x.released) f t.migr }) s

/-- The row lies in shards that have been released (R153): its slot is retired. -/
def Table.gone (t : Table) (r : Nat) : Bool := t.migr.any fun m => m.released && m.has (t.d.shardOf r)

/-- Send the row's current content (R153), or say what stopped it. A row that cannot be read is not sent (log entry 16). -/
def migRow (t : Table) (m : Migr) (r : Nat) (s : State) : Status × State :=
  let e := entryOf s t t.d.gen r
  let n := rowBytes t.d.fmt t.d.elems
  let g := readLines (if entValid e then linesOf (entAddr e) n else []) s
  let lost := !g.1 || (anyExtent g.2 (entAddr e)).elim true fun ex => rowLost g.2 ex (entAddr e) (rowLines t.d)
  if !entValid e || lost then (.ok, g.2)
  else
    let d := memRead g.2 (entAddr e) n
    match migSend t.d.part m.dest (migHdr m.dtable 1 t.d.fmt 0 r 0 (ownId g.2) d.length) d g.2 with
    | (.ok l, s) => (.ok, modMigr t m (fun m => { m with waits := m.waits ++ l.map fun k => (k, r, none) }) s)
    | (.error st, s) => (st, s)

/-- Send rows in order, up to the first that cannot go. -/
def migRows (t : Table) (m : Migr) (rs : List Nat) (s : State) : Status × State :=
  rs.foldl (fun a r => if a.1 = .ok then migRow t m r a.2 else a) (.ok, s)

/-- A row that a migration has sent, and that has changed, is sent again (R153); where it cannot go now, at the commit. -/
def resendRow (p tid r : Nat) (s : State) : State :=
  match s.table? p tid with
  | none => s
  | some t => match t.migr.find? fun m => m.has (t.d.shardOf r) && m.trk.isNone && !m.committed with
    | some m => match migRow t m r s with
      | (.ok, s) => s
      | (_, s) => modMigr t m (fun m => { m with again := (m.again ++ [r]).eraseDups }) s
    | none => s

/-- The rows of a run of shards, in order. -/
def rowsIn (d : TDesc) (first count : Nat) : List Nat :=
  let lo := (first * d.phys + d.shards - 1) / d.shards
  let hi := ((first + count) * d.phys + d.shards - 1) / d.shards
  (List.range (hi - lo)).map (lo + ·)

/-! ## Contributions at a home (R131 to R134) -/

/-- Update slots taken on a nook. -/
def slotsUsed (t : Table) (nook : Nat) : Nat := (t.accs.filter (·.nook == nook)).length

/-- Add one row's elements to the accumulator of (row, step) on a nook (R131); none when a counter would pass 2^40. -/
def addRowTo (t : Table) (nook step r fmt : Nat) (row : Bytes) : Option Table :=
  let cur := t.accs.find? fun a => a.row == r && a.step == step && a.nook == nook
  let acc := (cur.map (·.acc)).getD (List.replicate t.d.elems {})
  let new := acc.zipIdx.mapM fun m => let p := exactTerms fmt numOne row m.2; Melt.cycle m.1 p.1 p.2
  new.map fun l => { t with accs :=
    if cur.isSome then modWhere (fun a => a.row == r && a.step == step && a.nook == nook) (fun a => { a with acc := l }) t.accs
    else t.accs ++ [{ row := r, step := step, nook := nook, acc := l }] }

/-- What becomes of a batch at its home. -/
inductive Batch where
  | held | late | again | bad
  | taken (t : Table)
  deriving DecidableEq, Repr

/-- A home takes a whole batch or none of it (R131 to R134): rows with their elements, under a receipt key. -/
def takeBatch (s : State) (t : Table) (nook step src reqId fmt : Nat) (rows : List (Nat × Bytes)) : Batch :=
  if stepClosed t.closed step then .late
  else if t.receipts.any fun r => r.src == src && r.reqId == reqId && r.step == step && r.nook == nook then .again
  else
    let fresh := ((rows.map (·.1)).eraseDups).filter fun r => !t.accs.any fun a => a.row == r && a.step == step && a.nook == nook
    let recs := ((s.tables.map fun x => (x.receipts.filter (·.nook == nook)).length)).sum
    if t.u.elim 0 (·.slots) < slotsUsed t nook + fresh.length || 65536 ≤ recs then .held
    else match rows.foldlM (fun t x => addRowTo t nook step x.1 fmt x.2) t with
      | none => .bad
      | some t => .taken { t with receipts := t.receipts ++ [{ src := src, reqId := reqId, step := step, nook := nook }] }

/-- Positions whose shards have been migrated go to the destination module with their receipt keys (R153); those of a batch that a home
here has a receipt for were added before the commit, and do not go again (R132). -/
def forwardBatch (cid i : Nat) (t : Table) (m : Migr) (rows : List (Nat × Bytes)) (s : State) : State :=
  match s.chain? cid with
  | none => s
  | some c =>
    let d := c.d i
    let had := fun (r : Nat) => t.receipts.any fun x =>
      x.src == c.requester s && x.reqId == c.reqId && x.step == d.f 20 4 && x.nook == shardNook s t.d (t.d.shardOf r)
    let rows := rows.filter (! had ·.1)
    if rows.isEmpty then s
    else if m.released && m.relStep != t.closed then abort cid .noAccess i s
    else
      let data := rows.flatMap fun x => toLE 8 x.1 ++ x.2
      match migSend c.part m.dest (migHdr m.dtable 3 d.inF (d.f 20 4) rows.length c.reqId (c.requester s) data.length) data s with
      | (.error st, s) => abort cid st i s
      | (.ok l, s) => modChain cid (fun c => { c with pushes := c.pushes ++ l }) s

/-- SCATTER_BATCH: the batch of one home (R131); a batch that must wait changes nothing. Rows whose shards have been committed
to another module since they were routed go there (R153). DESIGN CHOICE (log entry 95): its rows count in no OUT_UNITS. -/
def scatterBatch (cid i home : Nat) (s : State) : State :=
  match s.chain? cid with
  | none => s
  | some c =>
    let d := c.d i
    let st := c.st i
    if !c.holds || d.op ≠ 2 || st.phase ≠ 2 || !st.homes.contains home then s
    else match s.table? c.part (d.f 16 2) with
      | none => abort cid .noAccess i s
      | some t =>
        let rows := (st.rows.zipIdx.filter fun r => r.1.nook == home && !r.1.lost && r.1.state == 1).map fun r =>
          (r.1.row, (st.ups.getD r.2 {}).data)
        let gone := t.migr.filter (·.committed)
        let rest := rows.filter fun x => !gone.any (·.has (t.d.shardOf x.1))
        let away := fun (s : State) => gone.foldl (fun s m =>
          let mine := rows.filter fun x => m.has (t.d.shardOf x.1)
          if mine.isEmpty then s else forwardBatch cid i t m mine s) s
        let done := fun (late : Bool) (s : State) =>
          let s := modStage cid i (fun x => { x with homes := x.homes.filter (· != home), late := x.late || late }) s
          if (st.homes.filter (· != home)).isEmpty then
            (if st.late || late then abort cid .timeout i s else stageDone cid i 0 [] s)
          else s
        if rest.isEmpty && !rows.isEmpty then done false (away s)
        else match takeBatch s t home (d.f 20 4) (c.requester s) c.reqId d.inF rest with
        | .held => s
        | .late => done true (away s)
        | .again => done false (away s)
        | .bad => abort cid .badDescriptor i s
        | .taken t' => done false (away (modTable c.part t.d.id (fun _ => t') s))

/-! ## Closing a step (R138 to R143) -/

/-- A row of a shard that has been committed to another module (R153): the copy here does not change any more. -/
def migrated (t : Table) (r : Nat) : Bool := t.migr.any fun m => m.committed && m.has (t.d.shardOf r)

/-- Accumulators that a close applies: not those of shards that leave for another module (R153). -/
def Table.due (t : Table) (step : Nat) : List Accum := t.accs.filter fun a => stepClosed step a.step && !migrated t a.row

/-- A close starts, or waits for the one in progress; its mark holds at once (R138). -/
def startClose (p tid : Nat) (c : Close) (s : State) : State :=
  modTable p tid (fun t =>
    let t := { t with closed := if stepClosed t.closed c.step then t.closed else c.step }
    if t.close.isSome then { t with closeWait := t.closeWait ++ [c] } else { t with close := some c }) s

/-- STEP_CLOSE (R138, R143). -/
def stepClose (j : Job) (s : State) : End × State :=
  let id := fldLE j.payload 0 2
  let step := fldLE j.payload 4 4
  if !zeroAt j.payload 2 2 then (.done .badDescriptor, s)
  else match useTable s j.part id with
    | .error st => (.done st, s)
    | .ok t =>
      if t.u.isNone then (.done .badDescriptor, s)
      else if stepClosed t.closed step && (t.due step).isEmpty && t.close.isNone then (.done .ok, s)
      else if stepClosed t.closed step && t.close.isSome then (.done .ok, s)
      else (.waits, mirrorTable j j.part id (startClose j.part id { step := step, job := some j.id } s))

/-- A close ends, and the next one may start. -/
def endClose (p tid : Nat) (st : Status) (s : State) : State :=
  match s.table? p tid with
  | none => s
  | some t =>
    let job := t.close.bind (·.job)
    let s := modTable p tid (fun t => { t with close := t.closeWait.head?, closeWait := t.closeWait.drop 1,
                                               receipts := t.receipts.filter fun r => !stepClosed t.closed r.step }) s
    finish? job st (batchEnd p tid s)

/-- CLOSE_COMPLETE (R139). -/
def closeComplete (p tid : Nat) (s : State) : State :=
  match s.table? p tid with
  | none => s
  | some t => match t.close with
    | none => s
    | some c => if (t.due c.step).isEmpty then endClose p tid .ok s else s

/-- APPLY_SLOT_TIMEOUT (R143). -/
def applySlotTimeout (p tid : Nat) (s : State) : State :=
  match s.table? p tid with
  | none => s
  | some t =>
    if t.close.elim false fun c => c.waits.any fun w => decide (w.2 + 10000000 ≤ s.t) then endClose p tid .busy (eventMO 0x000D (some p) [tid] s)
    else s

/-- One element of an apply (R140): its new FP32 value before the clamp, from x, the melt register S and, for ADAGRAD, d. -/
def applyElem (u : UDesc) (x : Num) (m : Melt) (d : Num) : Num :=
  let r := fun (v : Num) => if v.isZero then numZero else fp32.dec (fp32.enc u.rtz false v)
  let g := fp32.dec (m.read fp32 false 1)
  let lr := Num.negate (fp32.dec u.lr)
  if u.exact then
    r (Num.add x (match u.rule with
      | 0 => m.value
      | 1 => Num.mul lr g
      | _ => d))
  else match u.rule with
    | 0 => rne32 true (Num.add x (fp32.flush g))
    | 1 => fma lr (fp32.flush g) x
    | _ => rne32 true (Num.add x d)

/-- The new row of an apply (R140, R141) and the new ADAGRAD state; no row when it is not stored. -/
def applyRow (t : Table) (u : UDesc) (r step h : Nat) (acc : List Melt) (old : Bytes) : Option Bytes × Nat :=
  let d := t.d
  let g := acc.map fun m => let v := fp32.dec (m.read fp32 false 1); if u.exact then v else fp32.flush v
  let ag := if u.rule = 2 then adagrad (fp32.dec u.lr) (fp32.dec u.eps) (fp32.dec h) g else ([], numZero)
  let xs := acc.zipIdx.map fun m =>
    let x := if u.exact then elemValue d.fmt old m.2 else elemOrdered d.fmt old m.2

    clampNum (fp32.dec u.lo) (fp32.dec u.hi) (applyElem u x m.1 (ag.1.getD m.2 numZero))
  let h' := if u.rule = 2 then fp32.enc false false ag.2 else h
  if d.fmt = 5 || d.fmt = 6 then (requant (d.fmt == 6) (dither d.id r step) xs, h')
  else (some (outElems d.fmt u.rtz (!u.exact) xs), h')

/-- The token of the directory requests of an apply (R140, R292). -/
def applyTok (p tid r : Nat) : Nat := 2 ^ 66 + (p * 2 ^ 16 + tid) * 2 ^ 44 + r

/-- The lowest closed step of a row that a close has still to apply. -/
def applyStep (t : Table) : List Accum → Option Nat
  | [] => none
  | a :: l =>
    let age := fun (a : Accum) => (a.step + 2 ^ 32 - (t.closed + 2 ^ 31 + 1) % 2 ^ 32) % 2 ^ 32
    some (l.foldl (fun m x => if age x < age m then x else m) a).step

/-- The accumulators of several homes added exactly (R152), with the flag of R46; none when a counter would pass 2^40. -/
def sumAccs (elems : Nat) (l : List Accum) : Option (List (Melt × Bool)) :=
  (List.range elems).mapM fun k =>
    l.foldlM (fun (m : Melt × Bool) x => (m.1.addImage (x.acc.getD k {})).map fun y => (y.1, m.2 || y.2)) (({} : Melt), false)

/-- The new row of an apply goes to a free slot and its entry is swapped (R137, R140, R142); with no free slot the apply waits (R143). -/
def applyStore (p tid r e : Nat) (t : Table) (drop : State → State) (new : Bytes) (state : State → State) (s : State) : State :=
  match takeSlot t (entValid e && (slotNook s (entAddr e)).isNone) (shardNook s t.d (t.d.shardOf r)) with
  | none =>
    let wait := fun (c : Close) => if c.waits.any (·.1 == r) then c else { c with waits := c.waits ++ [(r, s.t)] }
    modTable p tid (fun t => { t with close := t.close.map wait }) s
  | some (a, t') =>
    let s := modTable p tid (fun _ => { t' with close := t'.close.map fun c => { c with waits := c.waits.filter (·.1 != r) } }) s
    let s := state (swapEntry t r a t.d.gen (memWrite a new s))
    resendRow p tid r (drop (if entValid e then retire p tid (entAddr e) s else s))

/-- STEP_APPLY (R139 to R142, R152): the lowest closed step of a row, all its homes' accumulators together. The row and ADAGRAD's state
are read as a thread reads (R292), and the apply goes on when they have come. With no free slot the apply waits (R143). DESIGN CHOICE
(log entry 85): a row whose entry has VALID 0, which replaces no slot, takes a stacked one (R137); (log entry 92): where the counters of
several homes together would pass 2^40, the accumulators are dropped and the row stays, with event 0x000C, as for a row that is not
stored. -/
def stepApply (p tid r : Nat) (s : State) : State :=
  match s.table? p tid with
  | none => s
  | some t => match t.close, t.u with
    | some c, some u =>
      let mine := (t.due c.step).filter (·.row == r)
      match applyStep t mine with
      | none => s
      | some step =>
        let now := mine.filter (·.step == step)
        let drop := modTable p tid (fun t => { t with accs := t.accs.filter fun x => !(x.row == r && x.step == step) })
        let bad := fun (s : State) => drop (eventMO 0x000C (some p) [tid, r] s)
        let e := entryOf s t t.d.gen r
        let size := rowBytes t.d.fmt t.d.elems
        let tok := applyTok p tid r
        let runs := (if entValid e then [(entAddr e, size)] else []) ++ (if u.rule = 2 then [(u.stateAddr + 4 * r, 4)] else [])
        let gone := entValid e && (anyExtent s (entAddr e)).elim true fun ex => rowLost s ex (entAddr e) (rowLines t.d)
        let s := if gone then s else runs.foldl (fun s x => engRead tok p x.1 x.2 s) s
        if engBusy s tok then s
        else
          let got := runs.foldl (fun (a : Bool × State) x => let g := engLines tok x.1 x.2 a.2; (a.1 && g.1, g.2)) (true, s)
          let lost := gone || !got.1 || runs.any fun x => engStatus got.2 tok x.1 x.2 != .ok
          let old := if entValid e then engBytes got.2 tok (entAddr e) size else List.replicate size 0
          let h := if u.rule = 2 then leNat (engBytes got.2 tok (u.stateAddr + 4 * r) 4) else 0
          let s := engForget tok got.2
          match sumAccs t.d.elems now with
          | none => bad s
          | some flagged =>
            let s := if flagged.any (·.2) then event 0x000A true [] (some p) [tid, r] s else s
            if lost then bad s
            else
              let res := applyRow t u r step h (flagged.map (·.1)) old
              let state := fun (s : State) => if u.rule = 2 then engWrite tok p (u.stateAddr + 4 * r) (toLE 4 res.2) s else s
              match res.1 with
              | none => bad (state s)
              | some new => applyStore p tid r e t drop new state s
    | _, _ => s

/-! ## Row writes and generations (R142, R145) -/

/-- TABLE_ROW_WRITE (R142, R145): its new row is read as an engine reads (R292). A row of a migrated shard is BUSY (log entry
85). -/
def tableRowWrite (j : Job) (s : State) : End × State :=
  let id := fldLE j.payload 0 2
  let stg := fldLE j.payload 2 1
  let r := fldLE j.payload 8 8
  let src := fldLE j.payload 16 8
  if 1 < stg || !zeroAt j.payload 3 5 then (.done .badDescriptor, s)
  else match useTable s j.part id with
  | .error st => (.done st, s)
  | .ok t =>
    let size := rowBytes t.d.fmt t.d.elems
    if t.d.storage = 2 || t.d.phys ≤ r then (.done .badDescriptor, s)
    else if (stg = 1 && t.genState ≠ 2) || migrated t r then (.done .busy, s)
    else jobRead j j.part [(src, size)] (fun rd s =>
          let new := rd src size
          let plane := t.d.gen + stg
          let e := entryOf s t plane r
          match takeSlot t (entValid e && (slotNook s (entAddr e)).isNone) (shardNook s t.d (t.d.shardOf r)) with
          | none => (.done .busy, s)
          | some (a, t') =>
            let s := memWrite a new (modTable j.part id (fun _ => t') s)
            let s := if stg = 1 then
                let s := setEntry t plane r (ritEntry (t.d.gen + 1) true false (a / 64)) s
                if entValid e && entGen e == (t.d.gen + 1) % 65536 then retire j.part id (entAddr e) s else s
              else
                let s := swapEntry t r a t.d.gen s
                if entValid e then retire j.part id (entAddr e) s else s
            (.done .ok, resendRow j.part id r (batchEnd j.part id s))) s

/-- Copy a run of memory inside the module: cached rows leave, whole lines are good again, as `memWrite` does. -/
def memCopy (o o' n : Nat) (s : State) : State :=
  let s := healRun o' n (dropCached o' n s)
  let s := { s with mem := { s.mem with bytes := cellsCopy 0 s.mem.bytes s.mem.bytes o o' n } }
  match anyExtent s o' with
  | some e =>
    let s := zeroFirst e o' s
    let s := if e.mirror == 2 then { s with mem.mirror := cellsCopy 0 s.mem.bytes s.mem.mirror o o' n } else s
    if e.mirror == 1 && s.mirrors && s.twin.primary.contains e.part then mirrorOut o' (memRead s o' n) s else s
  | none => s

/-- A TABLE_GEN command for a table that it names. -/
def genCmd (j : Job) (ok : Table → Bool) (f : Nat → Table → State → End × State) (s : State) : End × State :=
  let id := fldLE j.payload 0 2
  match useTable s j.part id with
  | .error st => (.done st, s)
  | .ok t =>
    if t.d.storage = 2 then (.done .badDescriptor, s)
    else if !ok t then (.done .busy, s)
    else f id t (mirrorTable j j.part id s)

/-- TABLE_GEN_BEGIN (R145): the plane is copied now, and the command completes at GEN_COPY_END. -/
def tableGenBegin (j : Job) (s : State) : End × State :=
  genCmd j (·.genState == 0) (fun id t s =>
    (.waits, modTable j.part id (fun t => { t with genState := 1, genJob := some j.id })
      (memCopy (t.d.ritAt t.d.gen 0) (t.d.ritAt (t.d.gen + 1) 0) (8 * t.d.phys) s))) s

/-- GEN_COPY_END. -/
def genCopyEnd (p tid : Nat) (s : State) : State :=
  match s.table? p tid with
  | none => s
  | some t =>
    if t.genState ≠ 1 then s
    else finish? t.genJob .ok (batchEnd p tid (modTable p tid (fun t => { t with genState := 2, genJob := none }) s))

/-- TABLE_GEN_SEAL (R145), a batch of no writes (R147). A generation is Begun once TABLE_GEN_BEGIN has completed (log entry 85). -/
def tableGenSeal (j : Job) (s : State) : End × State :=
  genCmd j (·.genState == 2) (fun id _ s => (.done .ok, batchEnd j.part id (modTable j.part id (fun t => { t with genState := 3 }) s))) s

/-- TABLE_GEN_COMMIT (R145): CUR_GEN advances at once; the command waits for the look-ups of the old one. -/
def tableGenCommit (j : Job) (s : State) : End × State :=
  genCmd j (·.genState == 3) (fun id t s => (.waits, modTable j.part id (fun x =>
    { x with d := { t.d with gen := (t.d.gen + 1) % 65536 }, genState := 4, genJob := some j.id, auto := [] }) s)) s

/-- TABLE_GEN_ABORT (R145). -/
def tableGenAbort (j : Job) (s : State) : End × State :=
  genCmd j (fun t => t.genState == 2 || t.genState == 3) (fun id _ s =>
    (.waits, modTable j.part id (fun t => { t with genState := 5, genJob := some j.id }) s)) s

/-- GEN_DRAIN_END (R145): the old or aborted generation is read no longer; its slots are retired. -/
def genDrainEnd (p tid : Nat) (s : State) : State :=
  match s.table? p tid with
  | none => s
  | some t =>
    let old := if t.genState = 4 then t.d.gen + 65535 else t.d.gen + 1
    if (t.genState ≠ 4 && t.genState ≠ 5) || t.inflight.any (fun f => f.2.1 == old % 65536) then s
    else
      let gone := ((List.range t.d.phys).filter (! t.gone ·)).filterMap fun r =>
        let a := entryOf s t old r
        let b := entryOf s t t.d.gen r
        if t.genState = 4 then (if entValid a && !(entValid b && entAddr b == entAddr a) then some (entAddr a) else none)
        else (if entValid a && entGen a == old % 65536 then some (entAddr a) else none)
      let s := gone.foldl (fun s a => retire p tid a s) s
      finish? t.genJob .ok (batchEnd p tid (modTable p tid (fun t => { t with genState := 0, genJob := none }) s))

/-! ## Loads and the balancer (R148 to R151) -/

/-- The load of a shard: its last eight full buckets. -/
def shardLoad (t : Table) (q : Nat) : Nat := ((t.loads.find? (·.1 == q)).elim 0 fun x => (x.2.drop 1).sum)

def rollTable (k : Nat) (t : Table) : Table :=
  let ls := (t.loads.map fun (x : Nat × List Nat) => (x.1, (List.replicate (min k 9) 0 ++ x.2).take 9)).filter fun x => x.2.any (· != 0)
  let t := { t with loads := ls }
  let now := if t.d.cache = 1 && t.u.elim false (·.hotcache) then t.loads.filterMap fun x => if 262144 ≤ shardLoad t x.1 then some x.1 else none else []
  { t with hot := ((t.hot.filter fun q => 131072 ≤ shardLoad t q) ++ now).eraseDups }

/-- LOAD_BUCKET_TICK (R148, R149). -/
def loadBucketTick (s : State) : State :=
  let k := s.ns / 125000
  if k ≤ s.loadTick then s else { s with loadTick := k, tables := s.tables.map (rollTable (k - s.loadTick)) }

/-- TABLE_SHARD_LOAD (R148). -/
def tableShardLoad (j : Job) (s : State) : End × State :=
  let id := fldLE j.payload 0 2
  let first := fldLE j.payload 2 2
  let n := fldLE j.payload 4 2
  match useTable s j.part id with
  | .error st => (.done st, s)
  | .ok t =>
    if 1023 < n || t.d.shards < first + n then (.done .badDescriptor, s)
    else (.done .ok 0 ((List.range n).flatMap fun k => toLE 4 (sat32 (shardLoad t (first + k)))), s)

/-- Tables whose shards the balancer may move. -/
def balanced (s : State) (p : Nat) : List Table := s.tables.filter fun t => t.d.part == p && t.u.elim false (·.move)

/-- The load of a nook (R148). -/
def nookLoad (s : State) (p n : Nat) : Nat :=
  ((balanced s p).map fun t => ((t.loads.filter fun x => shardNook s t.d x.1 == n).map fun x => shardLoad t x.1).sum).sum

/-- A TABLE_GEN_BEGIN copy runs in the partition. -/
def copying (s : State) (p : Nat) : Bool := s.tables.any fun x => x.d.part == p && x.genState == 1

/-- The move that a partition's balancer starts (R150). -/
def chooseMove (s : State) (p : Nat) : Option ShardMove :=
  match (s.nooksOf p).filter (! moving s ·) with
  | [] => none
  | n :: ns =>
    let ld := nookLoad s p
    let hot := ns.foldl (fun a b => if ld a < ld b then b else a) n
    let cool := ns.foldl (fun a b => if ld b < ld a then b else a) n
    if ld hot < 2 * ld cool + 65536 then none
    else
      let all := (balanced s p).flatMap fun t => ((List.range t.d.shards).filter fun q => shardNook s t.d q == hot).map fun q => (shardLoad t q, t, q)
      let fit := all.filter fun x =>
        let t := x.2.1
        2 * x.1 ≤ ld hot - ld cool && t.destroyJob.isNone && !(t.migr.any fun m => m.released && m.has x.2.2)
          && !(t.moved.any fun m => m.1 == x.2.2 && s.ns < m.2 + 100000000)
          && (rowsIn t.d x.2.2 1).length ≤ (t.free.filter (·.1 == cool)).length
          && t.u.elim true fun u => u.uareas.getD cool 0 != 0
      let best := sortBy (fun a b => if a.1 ≠ b.1 then decide (b.1 < a.1)
        else if a.2.1.d.id ≠ b.2.1.d.id then decide (a.2.1.d.id < b.2.1.d.id) else decide (a.2.2 ≤ b.2.2)) fit
      best.head?.map fun x => { part := p, table := x.2.1.d.id, shard := x.2.2, dst := cool, next := (rowsIn x.2.1.d x.2.2 1).headD 0 }

/-- BALANCER_TICK (R150). -/
def balancerTick (s : State) : State :=
  let k := s.ns / 1000000
  if k ≤ s.balTick then s
  else (s.ten.parts.map (·.id)).foldl (fun s p =>
    if s.moves.any (·.part == p) || copying s p then s
    else match chooseMove s p with
      | some m => { s with moves := s.moves ++ [m] }
      | none => s) { s with balTick := k }

def modMove (p : Nat) (f : ShardMove → ShardMove) (s : State) : State := { s with moves := modWhere (·.part == p) f s.moves }

/-- SHARD_MOVE_ROW (R151): one row's lines are copied and its entry written; FWD is set and cleared within the step. A row
that cannot be read stays where it lies, so that look-ups find it lost as before (log entry 85). -/
def shardMoveRow (p : Nat) (s : State) : State :=
  match s.moves.find? (·.part == p) with
  | none => s
  | some m => match s.table? p m.table with
    | none => { s with moves := s.moves.filter (·.part != p) }
    | some t =>
      if !(rowsIn t.d m.shard 1).contains m.next || copying s p then s
      else
        let e := entryOf s t t.d.gen m.next
        let size := 64 * rowLines t.d
        let g := readLines (if entValid e then linesOf (entAddr e) size else []) s
        let s := g.2
        let lost := t.gone m.next || !g.1 || (anyExtent s (entAddr e)).elim true fun ex => rowLost s ex (entAddr e) (rowLines t.d)
        if !entValid e || lost then modMove p (fun m => { m with next := m.next + 1 }) s
        else match t.free.find? (·.1 == m.dst) with
          | none => s
          | some x =>
            let d := memRead s (entAddr e) size
            let s := modTable p m.table (fun t => { t with free := t.free.erase x }) s
            let s := swapEntry t m.next x.2 (entGen e) (memWrite x.2 d s)
            modMove p (fun m => { m with next := m.next + 1 }) (retire p m.table (entAddr e) s)

/-- SHARD_MOVE_END (R150, R151). -/
def shardMoveEnd (p : Nat) (s : State) : State :=
  match s.moves.find? (·.part == p) with
  | none => s
  | some m => match s.table? p m.table with
    | none => { s with moves := s.moves.filter (·.part != p) }
    | some t =>
      if (rowsIn t.d m.shard 1).contains m.next || copying s p then s
      else
        let s := memWrite (t.d.smap + m.shard) (toLE 1 m.dst) { s with moves := s.moves.filter (·.part != p) }
        let now := s.ns
        batchEnd p m.table (modTable p m.table (fun t => { t with moved := (m.shard, now) :: t.moved.filter (·.1 != m.shard) }) s)

/-! ## Migration between modules (R153) -/

/-- What the destination's table must share with the source's. -/
def migShape (d : TDesc) : Bytes :=
  toLE 1 d.storage ++ toLE 1 d.fmt ++ toLE 2 d.elems ++ toLE 8 d.phys ++ toLE 8 d.ha ++ toLE 8 d.hb ++ toLE 1 d.nspan

/-- TABLE_MIGRATE_OUT: the destination is asked first; its answer decides the command. -/
def tableMigrateOut (j : Job) (s : State) : End × State :=
  let b := j.payload
  let p := fldLE b 0 1
  let id := fldLE b 2 2
  let first := fldLE b 6 2
  let n := fldLE b 8 2
  let dest := fldLE b 12 4
  if !zeroAt b 1 1 || !zeroAt b 10 2 || 15 < p || 2 ^ 22 ≤ dest then (.done .badDescriptor, s)
  else match useTable s p id with
    | .error st => (.done st, s)
    | .ok t =>
      if t.d.storage = 2 || n = 0 || t.d.shards < first + n then (.done .badDescriptor, s)
      else if t.migr.any (fun m => !m.released && m.first < first + n && first < m.first + m.count) then (.done .busy, s)
      else
        let sh := migShape t.d
        match migSend p dest (migHdr (fldLE b 4 2) 0 t.d.fmt 0 first 0 (ownId s) sh.length) sh s with
        | (.error st, s) => (.done st, s)
        | (.ok l, s) => (.waits, modTable p id (fun t => { t with migr := t.migr ++ [{
            first := first, count := n, dest := dest, dtable := fldLE b 4 2, job := some j.id, trk := l.head? }] }) s)

/-- A migration whose messages have all been answered ends its command: OUT or COMMIT completes; where an answer was a failure, OUT is
undone, and a COMMIT leaves the shards here (log entry 16). -/
def migDone (p tid first : Nat) (s : State) : State :=
  match (s.table? p tid).bind fun t => (t.migr.find? fun m => m.first == first && !m.released).map fun m => (t, m) with
  | none => s
  | some (t, m) =>
    if m.job.isNone || !m.waits.isEmpty then s
    else match m.fail with
      | none => finish? m.job .ok (modMigr t m (fun m => { m with job := none }) s)
      | some st =>
        let drop := modTable p tid (fun t => { t with migr := t.migr.filter (· != m) })
        let undo := modMigr t m (fun m => { m with job := none, fail := none, committed := false })
        finish? m.job st (if m.committed then undo s else drop s)

/-- An accumulator has been taken by the destination: it is dropped here. -/
def dropAcc (p tid row : Nat) (k : Nat × Nat) (s : State) : State :=
  modTable p tid (fun t => { t with accs := t.accs.filter fun a => !(a.row == row && a.step == k.1 && a.nook == k.2) }) s

/-- The answer to a row or an accumulator that a migration has sent: one that fails is a row to send again, and the first failure is
kept for the command that waits. -/
def migSent (trk : Nat) (st : Status) (s : State) : State :=
  match s.tables.findSome? fun t => (t.migr.find? fun m => !m.released && m.waits.any (·.1 == trk)).map fun m => (t, m) with
  | none => s
  | some (t, m) =>
    let w := (m.waits.find? (·.1 == trk)).getD (0, 0, none)
    let ok := decide (st = .ok)
    let s := modMigr t m (fun m => { m with
      waits := m.waits.filter (·.1 != trk), fail := if ok || m.job.isNone then m.fail else m.fail.or (some st),
      again := if ok || w.2.2.isSome then m.again else (m.again ++ [w.2.1]).eraseDups }) s
    let s := if ok then w.2.2.elim s fun k => dropAcc t.d.part t.d.id w.2.1 k s else s
    migDone t.d.part t.d.id m.first s

/-- The destination's answer to the opening message: the rows follow in row order, or the command ends. -/
def migAnswer (trk : Nat) (st : Status) (s : State) : State :=
  match s.tables.find? fun t => t.migr.any (·.trk == some trk) with
  | none => migSent trk st s
  | some t => match t.migr.find? (·.trk == some trk) with
    | none => s
    | some m =>
      if st = .ok then
        let m' := { m with trk := none }
        let s' := modTable t.d.part t.d.id (fun t => { t with migr := modWhere (·.trk == some trk) (fun _ => m') t.migr }) s
        match migRows t m' (rowsIn t.d m.first m.count) s' with
        | (.ok, s) => migDone t.d.part t.d.id m.first s
        | (st, s) => migDone t.d.part t.d.id m.first (modMigr t m' (fun m => { m with fail := some st }) s)
      else finish? m.job st (modTable t.d.part t.d.id (fun t => { t with migr := t.migr.filter (·.trk != some trk) }) s)

/-- TABLE_MIGRATE_COMMIT and TABLE_MIGRATE_RELEASE name a migration that OUT has started. -/
def migCmd (j : Job) (ok : Migr → Bool) (f : Table → Migr → State → End × State) (s : State) : End × State :=
  let b := j.payload
  let p := fldLE b 0 1
  let id := fldLE b 2 2
  if !zeroAt b 1 1 || 15 < p then (.done .badDescriptor, s)
  else match useTable s p id with
    | .error st => (.done st, s)
    | .ok t => match t.migr.find? fun m => m.first == fldLE b 4 2 && m.count == fldLE b 6 2 && !m.released with
      | none => (.done .badDescriptor, s)
      | some m => if m.job.isNone && ok m then f t m s else (.done .busy, s)

/-- Send an open accumulator as melt images. -/
def migAcc (t : Table) (m : Migr) (a : Accum) (s : State) : Status × State :=
  let d := a.acc.flatMap Melt.image
  match migSend t.d.part m.dest (migHdr m.dtable 2 9 a.step a.row 0 (ownId s) d.length) d s with
  | (.error st, s) => (st, s)
  | (.ok l, s) =>
    let k := (a.step, a.nook)
    if l.isEmpty then (.ok, dropAcc t.d.part t.d.id a.row k s)
    else (.ok, modMigr t m (fun m => { m with waits := m.waits ++ l.map fun x => (x, a.row, if l.getLast? == some x then some k else none) }) s)

/-- TABLE_MIGRATE_COMMIT (R153): rows changed since they were sent go again, open accumulators leave as melt images, which R153
sends to another module though R47 says that melt images never leave one (log entry 16). The command completes when all have been
answered. Where something cannot be sent it ends with what stopped it, and the shards stay. -/
def tableMigrateCommit (j : Job) (s : State) : End × State :=
  migCmd j (! ·.committed) (fun t m s =>
    let mine := t.accs.filter fun a => m.has (t.d.shardOf a.row)
    let sent := mine.foldl (fun (x : Status × State) a => if x.1 ≠ .ok then x else migAcc t m a x.2) (migRows t m m.again s)
    match sent with
    | (.ok, s) =>
      (.waits, migDone t.d.part t.d.id m.first (modMigr t m (fun m => { m with committed := true, again := [], job := some j.id }) s))
    | (st, s) => (.done st, s)) s

/-- TABLE_MIGRATE_RELEASE (R153): positions of the shards become lost in every later look-up, their slots are retired. -/
def tableMigrateRelease (j : Job) (s : State) : End × State :=
  migCmd j (·.committed) (fun t m s =>
    let live := (rowsIn t.d m.first m.count).filter (! t.gone ·)
    let slots := live.filterMap fun r => let e := entryOf s t t.d.gen r; if entValid e then some (entAddr e) else none
    let s := slots.foldl (fun s a => retire t.d.part t.d.id a s) s
    let now := (s.chains.chains.filter fun c => c.admitted && !c.ended).map (·.cid)
    (.done .ok, batchEnd t.d.part t.d.id (modMigr t m (fun m => { m with released := true, relStep := t.closed, before := now }) s))) s

/-- A migrated row is installed by one entry write (R142, R153); with no free slot it waits. -/
def installRow (t : Table) (r : Nat) (d : Bytes) (s : State) : Option State :=
  let e := entryOf s t t.d.gen r
  (takeSlot t (entValid e && (slotNook s (entAddr e)).isNone) (shardNook s t.d (t.d.shardOf r))).map fun x =>
    let s := memWrite x.1 d (modTable t.d.part t.d.id (fun _ => x.2) s)
    let s := swapEntry t r x.1 t.d.gen s
    batchEnd t.d.part t.d.id (if entValid e && !t.gone r then retire t.d.part t.d.id (entAddr e) s else s)

/-- A migrated accumulator is added exactly (R47, R153): a counter that would pass 2^40 refuses it (R45), a partial that is not
added is reported (R46). -/
def installAcc (t : Table) (step r : Nat) (d : Bytes) (s : State) : Option (Status × State) :=
  let home := shardNook s t.d (t.d.shardOf r)
  let cur := t.accs.find? fun a => a.row == r && a.step == step && a.nook == home
  if cur.isNone && t.u.elim 0 (·.slots) ≤ slotsUsed t home then none
  else
    let old := (cur.map (·.acc)).getD (List.replicate t.d.elems {})
    match old.zipIdx.mapM fun m => m.1.addImage (Melt.ofImage ((d.drop (96 * m.2)).take 96)) with
    | none => some (.badDescriptor, s)
    | some new =>
      let l := new.map (·.1)
      let accs := if cur.isSome then modWhere (fun a => a.row == r && a.step == step && a.nook == home) (fun a => { a with acc := l }) t.accs
        else t.accs ++ [{ row := r, step := step, nook := home, acc := l }]
      let s := if new.any (·.2) then event 0x000A true [] (some t.d.part) [t.d.id, r] s else s
      some (.ok, modTable t.d.part t.d.id (fun t => { t with accs := accs }) s)

/-- A forwarded batch, cut by the homes of its rows (R132, R153): a status, or none while it must wait. -/
def installBatch (t : Table) (hdr d : Bytes) (s : State) : Option (Status × State) :=
  let n := fldLE hdr 8 8
  let fmt := fldLE hdr 3 1
  let size := rowBytes fmt t.d.elems
  let rows := (List.range n).map fun k => (fldLE d (k * (8 + size)) 8, (d.drop (k * (8 + size) + 8)).take size)
  let homes := (rows.map fun x => shardNook s t.d (t.d.shardOf x.1)).eraseDups
  homes.foldlM (fun (a : Status × State) h =>
    match a.2.table? t.d.part t.d.id with
    | none => some (.noAccess, a.2)
    | some t =>
      match takeBatch a.2 t h (fldLE hdr 4 4) (fldLE hdr 24 4) (fldLE hdr 16 8) fmt (rows.filter fun x => shardNook s t.d (t.d.shardOf x.1) == h) with
      | .held => none
      | .late => some (.timeout, a.2)
      | .again => some a
      | .bad => some (.badDescriptor, a.2)
      | .taken t' => some (a.1, modTable t.d.part t.d.id (fun _ => t') a.2)) (.ok, s)

/-- MIGRATION_ROW_ARRIVAL (R153): at the destination, in the partition whose TENANT_TAG the message carries. -/
def migrationArrival (p : Nat) (m : PktMsg) (s : State) : State :=
  if m.opc ≠ 1 || m.tag ≠ migTag || !namesMe s m.dst then s
  else match admitMsg p m ((s.port p).kind == 0) false s with
    | (.error st, s') => refuse p m st s'
    | (.ok q, s') =>
      let hdr := q.body.take 32
      let part := if q.tenant = 0 then none else partOfTag s q.tenant
      match part with
      | none => refuse p q .noAccess s'
      | some pt =>
        if s.isQuiesced pt then refuse p q (s.quiesceStatus pt) s'
        else match useTable s pt (fldLE hdr 0 2) with
          | .error st => refuse p q st s'
          | .ok t =>
            let d := q.body.drop 32
            let k := fldLE hdr 2 1
            let r := fldLE hdr 8 8
            let sofar := ((t.inbox.find? (·.key == hdr)).map (·.bytes)).getD [] ++ d
            let total := fldLE hdr 28 4
            let put := fun (b : Option Bytes) (l : List Transfer) =>
              l.filter (·.key != hdr) ++ (b.map fun b => ({ key := hdr, bytes := b } : Transfer)).toList
            let keep := fun (b : Option Bytes) => modTable pt t.d.id (fun t => { t with inbox := put b t.inbox })
            if q.body.length < 32 || total < sofar.length || 3 < k || t.d.storage = 2 then refuse p q .badDescriptor s'
            else if k = 0 then refuse p q (if d = migShape t.d then .ok else .badDescriptor) s'
            else if sofar.length < total then refuse p q .ok (keep (some sofar) s')
            else if k = 3 then match installBatch t hdr sofar s' with
              | none => s
              | some (st, s'') => refuse p q st (keep none s'')
            else if t.d.phys ≤ r || total ≠ (if k = 1 then rowBytes t.d.fmt t.d.elems else 96 * t.d.elems) then
              refuse p q .badDescriptor (keep none s')
            else match (if k = 1 then (installRow t r sofar s').map fun s => (Status.ok, s) else installAcc t (fldLE hdr 4 4) r sofar s') with
              | none => s
              | some (st, s'') => refuse p q st (keep none s'')

/-! ## Meanings -/

def execTableUpdateSet (m : MbxId) (s : State) : Host.Outcome State Fault Refusal :=
  .next (settle s (runCmd 0x0805 m Sys2Proof.Machine.tableUpdateSet s))
def execTableSlotsAdd (m : MbxId) (s : State) : Host.Outcome State Fault Refusal :=
  .next (settle s (runCmd 0x0806 m (simply Sys2Proof.Machine.tableSlotsAdd) s))
def execStepClose (m : MbxId) (s : State) : Host.Outcome State Fault Refusal :=
  .next (settle s (runCmd 0x0807 m Sys2Proof.Machine.stepClose s))
def execTableRowWrite (m : MbxId) (s : State) : Host.Outcome State Fault Refusal :=
  .next (settle s (runCmd 0x0808 m Sys2Proof.Machine.tableRowWrite s))
def execTableGenBegin (m : MbxId) (s : State) : Host.Outcome State Fault Refusal :=
  .next (settle s (runCmd 0x0809 m Sys2Proof.Machine.tableGenBegin s))
def execTableGenSeal (m : MbxId) (s : State) : Host.Outcome State Fault Refusal :=
  .next (settle s (runCmd 0x080A m Sys2Proof.Machine.tableGenSeal s))
def execTableGenCommit (m : MbxId) (s : State) : Host.Outcome State Fault Refusal :=
  .next (settle s (runCmd 0x080B m Sys2Proof.Machine.tableGenCommit s))
def execTableGenAbort (m : MbxId) (s : State) : Host.Outcome State Fault Refusal :=
  .next (settle s (runCmd 0x080C m Sys2Proof.Machine.tableGenAbort s))
def execTableMigrateOut (m : MbxId) (s : State) : Host.Outcome State Fault Refusal :=
  .next (settle s (runCmd 0x080D m Sys2Proof.Machine.tableMigrateOut s))
def execTableMigrateCommit (m : MbxId) (s : State) : Host.Outcome State Fault Refusal :=
  .next (settle s (runCmd 0x080E m Sys2Proof.Machine.tableMigrateCommit s))
def execTableMigrateRelease (m : MbxId) (s : State) : Host.Outcome State Fault Refusal :=
  .next (settle s (runCmd 0x080F m Sys2Proof.Machine.tableMigrateRelease s))
def execTableShardLoad (m : MbxId) (s : State) : Host.Outcome State Fault Refusal :=
  .next (settle s (runCmd 0x0810 m Sys2Proof.Machine.tableShardLoad s))
def execScatterBatch (cid stage home : Nat) (s : State) : Host.Outcome State Fault Refusal :=
  .next (settle s (Sys2Proof.Machine.scatterBatch cid stage home s))
def execStepApply (part table row : Nat) (s : State) : Host.Outcome State Fault Refusal :=
  .next (settle s (Sys2Proof.Machine.stepApply part table row s))
def execApplySlotTimeout (part table : Nat) (s : State) : Host.Outcome State Fault Refusal :=
  .next (settle s (Sys2Proof.Machine.applySlotTimeout part table s))
def execCloseComplete (part table : Nat) (s : State) : Host.Outcome State Fault Refusal :=
  .next (settle s (Sys2Proof.Machine.closeComplete part table s))
def execSlotWaveFree (part table : Nat) (s : State) : Host.Outcome State Fault Refusal :=
  .next (settle s (Sys2Proof.Machine.slotWaveFree part table s))
def execGenDrainEnd (part table : Nat) (s : State) : Host.Outcome State Fault Refusal :=
  .next (settle s (Sys2Proof.Machine.genDrainEnd part table s))
def execGenCopyEnd (part table : Nat) (s : State) : Host.Outcome State Fault Refusal :=
  .next (settle s (Sys2Proof.Machine.genCopyEnd part table s))
def execLoadBucketTick (s : State) : Host.Outcome State Fault Refusal :=
  .next (settle s (Sys2Proof.Machine.loadBucketTick s))
def execBalancerTick (s : State) : Host.Outcome State Fault Refusal :=
  .next (settle s (Sys2Proof.Machine.balancerTick s))
def execShardMoveRow (part : Nat) (s : State) : Host.Outcome State Fault Refusal :=
  .next (settle s (Sys2Proof.Machine.shardMoveRow part s))
def execShardMoveEnd (part : Nat) (s : State) : Host.Outcome State Fault Refusal :=
  .next (settle s (Sys2Proof.Machine.shardMoveEnd part s))
def execMigrationRowArrival (port : Nat) (m : PktMsg) (s : State) : Host.Outcome State Fault Refusal :=
  .next (settle s (migrationArrival port m s))

end Sys2Proof.Machine
end

