-- ==== Sys2Proof/Machine/Stages.lean ====
section
/-! DEFINITION. The stages of a chain as their operands come (R63, R77 to R88, R203 to R207). -/

namespace Sys2Proof.Machine

/-! ## Operands -/

/-- Reads of a stage of which some may be lost: the `must` runs stop the chain where they fail; each of `may` becomes none
where its lines are damaged or lost (R94). -/
def fetchEach (c : Chain) (i : Nat) (must may : List (Nat × Nat)) (s : State) : Status × Bool × List (Option Bytes) × State :=
  let soft := fun (st : Status) => st == .damaged || st == .lineLost
  let pre := may.map fun r => (r, pourAccess s (c.map s) c.part false r.1 r.2)
  match pre.find? fun x => x.2 != .ok && !soft x.2 with
  | some x => (x.2, false, [], s)
  | none =>
    let live := (pre.filter (·.2 == .ok)).map (·.1)
    let tok := stageTok c.cid i
    match fetch c i must s with
    | (.ok, _, s) =>
      let s := live.foldl (fun s r => engRead tok c.part r.1 r.2 s) s
      if engBusy s tok then (.ok, false, [], s)
      else
        let st := fun (r : Nat × Nat) => engStatus s tok r.1 r.2
        match live.find? fun r => st r != .ok && !soft (st r) with
        | some r => (st r, false, [], s)
        | none =>
          let one := fun (a : List (Option Bytes) × State) (x : (Nat × Nat) × Status) =>
            if x.2 == .ok && st x.1 == .ok then
              let g := engLines tok x.1.1 x.1.2 a.2
              (a.1 ++ [if g.1 then some (engBytes g.2 tok x.1.1 x.1.2) else none], g.2)
            else (a.1 ++ [none], a.2)
          let r := pre.foldl one ([], s)
          (.ok, true, r.1, r.2)
    | (st, _, s) => (st, false, [], s)

/-- Run a stage once its operands have come: `f` gets the chain, a reader of bytes, and the state with the reads forgotten. -/
def withRuns (cid i : Nat) (runs : List (Nat × Nat)) (f : Chain → (Nat → Nat → Bytes) → State → State) (s : State) : State :=
  match s.chain? cid with
  | none => s
  | some c =>
    match fetch c i runs s with
    | (.ok, true, s') =>
      let tok := stageTok cid i
      f c (fun o n => engBytes s' tok o n) (engForget tok s')
    | (.ok, false, s') => s'
    | (st, _, s') => abort cid st i s'

/-- The rows a stage takes, from its queue or from memory (R78). -/
def inRows (c : Chain) (i size : Nat) (rd : Nat → Nat → Bytes) : List Item :=
  let d := c.d i
  if d.srcA.isSome then c.inA i
  else (rowRuns d d.count size).zipIdx.map fun r => { seq := r.2, data := rd r.1.1 r.1.2 }

/-- The runs of a memory source; none for a queue. -/
def srcRuns (d : Desc) (size : Nat) : List (Nat × Nat) := if d.srcA.isSome then [] else rowRuns d d.count size

/-- Apply a function to each row; a LOST row stays LOST (R94). -/
def mapRows (f : Bytes → Bytes) (l : List Item) : List Item := l.map fun x => if x.lost then x else { x with data := f x.data }

def rowStride (d : Desc) : Nat := roundUp (rowSize d.outF d.elems) 64

/-! ## SCATTER_ADD (R81, R130, R131, R153) -/

/-- Nooks whose channels hold rows of a memory source (R69). -/
def sourceNooks (s : State) (runs : List (Nat × Nat)) : List Nat :=
  (runs.flatMap fun r => (linesOf r.1 r.2).filterMap fun l =>
    (anyExtent s (64 * l)).bind fun e => (chanOf e (64 * l)).map chanNook).eraseDups

/-- A SCATTER_ADD stage reads its indices and rows and routes them (R81, R131); rows that lie in other nooks are read there by spread
instances (R69). -/
def scatterStart (cid i : Nat) (s : State) : State :=
  match s.chain? cid with
  | none => s
  | some c =>
    let d := c.d i
    let size := rowSize d.inF d.elems
    match takeSpreads c i (sourceNooks s (srcRuns d size)) s with
    | none => s
    | some s =>
    withRuns cid i ((d.f 24 8, 8 * d.count) :: srcRuns d size) (fun c rd s =>
      let s := spreadsDone cid i s
      match s.table? c.part (d.f 16 2) with
      | none => abort cid .noAccess i s
      | some t =>
        let ups := inRows c i size rd
        let idx := (List.range d.count).map fun k => fldLE (rd (d.f 24 8) (8 * d.count)) (8 * k) 8
        if ups.length ≠ d.count || idx.any (! idxValid t.d ·) then abort cid .badDescriptor i s
        else
          let rows := idx.map (physRow t.d)
          match rows.foldl (fun st r => if st = .ok then pourAccess s (c.map s) c.part false (t.d.smap + t.d.shardOf r) 1 else st) Status.ok with
          | .ok =>
            let refs := rows.zipIdx.map fun r =>
              let q := t.d.shardOf r.1
              ({ table := t.d.id, row := r.1, shard := q, nook := shardNook s t.d q, lost := (ups.getD r.2 {}).lost,
                 state := if t.migr.any fun m => m.committed && m.has q then 2 else 1 } : RowRef)
            let away := fun (m : Migr) => (refs.zipIdx.filter fun r => !r.1.lost && m.has r.1.shard).map fun r => (r.1.row, (ups.getD r.2 {}).data)
            let homes := ((refs.filter fun r => !r.lost && r.state == 1).map (·.nook)).eraseDups
            let lost := (List.range d.count).filter fun k => (ups.getD k {}).lost
            let s := modStage cid i (fun x => { x with phase := 2, rows := refs, ups := ups, homes := homes }) s
            let s := markLost cid i lost s
            let s := (t.migr.filter (·.committed)).foldl (fun s m => if (away m).isEmpty then s else forwardBatch cid i t m (away m) s) s
            if homes.isEmpty && (s.chain? cid).elim false (·.status.isNone) then stageDone cid i 0 [] s else s
          | st => abort cid st i s) s

/-! ## REDUCE (R82, R189) -/

def reduceRun (cid i : Nat) (s : State) : State :=
  match s.chain? cid with
  | none => s
  | some c =>
    let d := c.d i
    let size := rowSize d.inF d.elems
    let pool := d.f 18 1 % 4
    let fp := bit (d.f 18 1) 2
    let wb := if fp then 4 else 2
    let n := if d.srcA.isSome then (c.inA i).length else d.count
    let bags := d.f 20 2
    let offRun := if d.f 24 8 = 0 then [] else [(d.f 24 8, 4 * (bags + 1))]
    let wRun := if pool = 2 then [(d.f 32 8, wb * n)] else []
    withRuns cid i (srcRuns d size ++ offRun ++ wRun) (fun c rd s =>
      let rows := inRows c i size rd
      let offs := if d.f 24 8 = 0 then [0, n] else (List.range (bags + 1)).map fun k => fldLE (rd (d.f 24 8) (4 * (bags + 1))) (4 * k) 4
      let ws := rd (d.f 32 8) (wb * n)
      let w := fun (k : Nat) => if pool ≠ 2 then numOne else if d.exact then weightAt fp ws k else weightFlush fp (weightAt fp ws k)
      if !offsOk offs n then abort cid .badDescriptor i s
      else
        let outs := (bagsOf offs).zipIdx.mapM fun b =>
          if b.1.any fun k => (rows.getD k {}).lost then some (({ seq := b.2, lost := true } : Item), ([] : List Melt), false)
          else (reduceBag d.inF d.outF d.exact d.rtz (pool == 3) d.elems (b.1.map fun k => (w k, (rows.getD k {}).data))).map fun x =>
            ({ seq := b.2, data := x.1 }, x.2)
        match outs with
        | none => abort cid .badDescriptor i s
        | some l =>
          let s := if l.any (·.2.2) then event 0x000A true [] (some c.part) [i] s else s
          let s := l.foldl (fun s x => if x.1.lost then s else putLanes false cid i c.home x.2.1 s) s
          let last := ((bagsOf offs).filter fun b => !b.any fun k => (rows.getD k {}).lost).getLast?
          let s := if d.exact then s else putFp cid i c.home
            (last.elim [] fun b => reduceAccs d.inF d.elems (b.map fun k => (w k, (rows.getD k {}).data))) s
          stageDone cid i (rowStride d) (l.map (·.1)) s) s

/-- The module's own contribution to an instance (R189): the elements of LOST rows do not come (R94); too few rows break the
stage. -/
def groupRun (cid i : Nat) (s : State) : State :=
  match s.chain? cid with
  | none => s
  | some c =>
    let d := c.d i
    match groupOf s c d with
    | none => abort cid .noAccess i s
    | some g =>
      let n := elemBytes g.inFmt
      let runs := if g.selfRank.isNone || d.srcA.isSome then [] else [(d.src, n * g.elems)]
      withRuns cid i runs (fun c rd s =>
        let rows := c.inA i
        let own := if d.srcA.isSome then (rows.zipIdx.filter (! ·.1.lost)).flatMap fun x => selfElems g x.2 x.1.data
          else (List.range ((g.elems + 255) / 256)).flatMap fun t => selfElems g t ((rd d.src (n * g.elems)).drop (256 * n * t))
        if d.srcA.isSome && g.selfRank.isSome && rows.length < (g.elems + 255) / 256 then abort cid .badDescriptor i s
        else advanceInst g cid (feedSelf g cid own (modStage cid i (fun x => { x with phase := 2 }) s))) s

/-! ## SCORE, FILTER, TOPK (R83, R84, R203 to R207) -/

/-- SCORE: its candidates are read by a spread instance in each nook that holds some (R69); a candidate's register lies in
its lane (R62). -/
def scoreRun (cid i : Nat) (s : State) : State :=
  match s.chain? cid with
  | none => s
  | some c =>
    let d := c.d i
    let size := rowSize d.inF d.elems
    let qf := d.f 24 1 / 16
    let qn := d.elems * elemBytes qf
    match takeSpreads c i (sourceNooks s (srcRuns d size)) s with
    | none => s
    | some s =>
      withRuns cid i ((d.f 16 8, qn) :: srcRuns d size) (fun c rd s =>
        let q := rd (d.f 16 8) qn
        let outs := (inRows c i size rd).zipIdx.mapM fun x =>
          if x.1.lost then some (({ seq := x.2, lost := true } : Item), ({} : Melt))
          else (scoreOf (bit (d.f 24 1) 0) d.exact d.rtz qf d.inF d.outF d.elems q x.1.data).map fun w =>
            ({ seq := x.2, data := pairBytes w.1 ((d.f 28 4 + x.2) % 2 ^ 32) }, w.2)
        match outs with
        | none => abort cid .badDescriptor i s
        | some l =>
          let last := (l.map (·.2)).drop (256 * ((l.length - 1) / 256))
          let s := if d.exact then putLanes false cid i c.home last s
            else putFp cid i c.home ((((inRows c i size rd).filter (! ·.lost)).getLast?).elim [] fun x =>
              [scoreAcc (bit (d.f 24 1) 0) qf d.inF d.elems q x.data]) s
          stageDone cid i 8 (l.map (·.1)) s) s

/-- The terms of a predicate. -/
def predTerms (n : Nat) (b : Bytes) : List Nat := (List.range n).map fun k => leNat ((b.drop (32 * k)).take 32)

/-- FILTER: the header first, then its terms, bitmaps and records. -/
def filterRun (cid i : Nat) (s : State) : State :=
  match s.chain? cid with
  | none => s
  | some c =>
    let d := c.d i
    let a := d.f 16 8
    let rec_ := d.f 24 4
    let pairs := d.srcA.isSome
    match fetch c i [(a, 64)] s with
    | (.ok, true, s1) =>
      let tok := stageTok cid i
      let hdr := leNat (engBytes s1 tok a 64)
      let n := bits hdr 23 20
      match fetch c i [(a, 64 + 32 * min n 8)] s1 with
      | (.ok, true, s2) =>
        let ts := predTerms (min n 8) (engBytes s2 tok (a + 64) (32 * min n 8))
        if predBad pairs rec_ hdr ts then abort cid .badDescriptor i (engForget tok s2)
        else
          let maps := (ts.filter fun t => bits t 23 20 = 7).map fun t => (bits t 255 192, (bits t 191 128 + 7) / 8)
          let lo := bits hdr 287 256
          let cnt := bits hdr 319 288
          let attr := bits hdr 511 448
          let inp := c.inA i
          let live := fun (x : Item) => !x.lost && lo ≤ pairIdx x.data && pairIdx x.data < lo + cnt
          let runs := if pairs then (inp.filter live).map fun x => (attr + (pairIdx x.data - lo) * rec_, rec_) else rowRuns d d.count rec_
          match takeSpreads c i (sourceNooks s2 runs) s2 with
          | none => s2
          | some s2 =>
          match fetchEach c i ((a, 64 + 32 * min n 8) :: maps) runs s2 with
          | (.ok, true, recs, s3) =>
            let bm := fun (o k : Nat) => bit (leNat (engBytes s3 tok (o + k / 8) 1)) (k % 8)
            let s := engForget tok s3
            let pass := fun (r : Bytes) (score idx : Nat) => passes (bits hdr 383 320) (ts.map fun t => termTrue t r score idx bm)
            let sinkHere := (consumers c.ds i).isEmpty
            let base := bits hdr 255 224
            let cand : List (Option Bytes × Item) :=
              if pairs then (recs.zip (inp.filter live)).map fun x => (x.1, x.2)
              else recs.zipIdx.map fun x => (x.1, { seq := x.2, data := pairBytes 0 ((base + x.2) % 2 ^ 32) })
            let good := cand.filterMap fun x => match x.1 with
              | none => none
              | some r => if pass r (pairScore x.2.data) (pairIdx x.2.data) then some (r, x.2.data) else none
            let out := good.zipIdx.map fun x =>
              ({ seq := x.2, data := if pairs then x.1.2 else if sinkHere then x.1.1 else pairBytes (keyWord hdr x.1.1) (pairIdx x.1.2) } : Item)
            let lost := (cand.filter (·.1.isNone)).map (·.2.seq)
            let s := if pairs && inp.any fun x => !x.lost && !live x then event 0x0019 false [c.part] (some c.part) [i] s else s
            let s := markLost cid i lost s
            let pos := bits hdr 447 384
            let s := if sinkHere && pos != 0 then
                good.zipIdx.foldl (fun s x => stageWrite cid i (pos + 4 * x.2) (toLE 4 (pairIdx x.1.2)) s) s
              else s
            stageDone cid i (if pairs then 8 else rec_) out s
          | (.ok, false, _, s3) => s3
          | (st, _, _, s3) => abort cid st i s3
      | (.ok, false, s2) => s2
      | (st, _, s2) => abort cid st i s2
    | (.ok, false, s1) => s1
    | (st, _, s1) => abort cid st i s1

def topkRun (cid i : Nat) (s : State) : State :=
  match s.chain? cid with
  | none => s
  | some c =>
    let d := c.d i
    stageDone cid i 8 (topk (d.f 16 2) (bit (d.f 18 1) 0) (c.inA i)) s

/-! ## DEQUANT, COMPOSE, TRANSFORM (R85 to R87) -/

def dequantRun (cid i : Nat) (s : State) : State :=
  match s.chain? cid with
  | none => s
  | some c =>
    let d := c.d i
    let size := rowSize d.inF d.elems
    withRuns cid i (srcRuns d size) (fun c rd s =>
      stageDone cid i (rowStride d) (mapRows (fun b => (RowV.row d.inF b).emit d.elems d.outF d.exact d.rtz) (inRows c i size rd)) s) s

/-- COMPOSE (R86). DESIGN CHOICE (log entry 95): rows of the longer stream beyond the other's end are dropped. -/
def composeRun (cid i : Nat) (s : State) : State :=
  match s.chain? cid with
  | none => s
  | some c =>
    let d := c.d i
    let out := ((c.inA i).zip (c.inB i)).zipIdx.map fun x =>
      if x.1.1.lost || x.1.2.lost then ({ seq := x.2, lost := true } : Item)
      else { seq := x.2, data := composeRow (d.f 16 1 % 4) d.inF d.outF d.elems (d.f 18 2) d.exact d.rtz x.1.1.data x.1.2.data }
    stageDone cid i (rowStride d) out s

/-- Row `seq` of a TRANSFORM. R141 names no dither for it, and says nothing of a row that it would not store: both are free
functions of the row's contents and place, so that R55 holds (log entry 4). -/
def transformRow (d : Desc) (seq : Nat) (b : Bytes) : Bytes :=
  let xs := transformVals (d.f 32 1 % 4) d.exact (fp32.dec (d.f 16 4)) (fp32.dec (d.f 20 4)) (fp32.dec (d.f 24 4))
    (fp32.dec (d.f 28 4)) d.inF d.elems b
  if d.outF = 5 || d.outF = 6 then
    (requant (d.outF == 6) (fun k => Config.transformDither b seq k % 2 ^ 24)
      (xs.map fun x => fp32.dec (fp32.enc d.rtz (!d.exact) x))).getD (toLE (rowSize d.outF d.elems) (Config.unstoredRow b seq))
  else outElems d.outF d.rtz (!d.exact) xs

def transformRun (cid i : Nat) (s : State) : State :=
  match s.chain? cid with
  | none => s
  | some c =>
    let d := c.d i
    let size := rowSize d.inF d.elems
    withRuns cid i (srcRuns d size) (fun c rd s =>
      stageDone cid i (rowStride d) ((inRows c i size rd).map fun x =>
        if x.lost then x else { x with data := transformRow d x.seq x.data }) s) s

/-! ## COPY and PUSH (R88) -/

/-- COPY (R88): lines from memory one by one, rows of a queue one behind the other; a LOST row or pair keeps its place
unwritten (R94). OUT_UNITS counts what has been written (R92). -/
def copyRun (cid i : Nat) (s : State) : State :=
  match s.chain? cid with
  | none => s
  | some c =>
    let d := c.d i
    let dst := d.f 16 8
    withRuns cid i (if d.srcA.isSome then [] else [(d.src, d.count)]) (fun c rd s =>
      if d.srcA.isNone then
        let b := rd d.src d.count
        stageDone cid i 0 [] ((List.range (d.count / 64)).foldl (fun s k =>
          counted cid 1 (stageWrite cid i (dst + 64 * k) ((b.drop (64 * k)).take 64)) s) s)
      else
        let pairs := (d.srcA.map fun k => pairsOut (c.d k)).getD false
        let len := fun (x : Item) => if !x.lost then x.data.length else if pairs then 8 else rowSize d.inF d.elems
        let (_, n, s) := (c.inA i).foldl (fun (a : Nat × Nat × State) x =>
          if x.lost then (a.1 + len x, a.2.1, a.2.2)
          else
            let s := stageWrite cid i (dst + a.1) x.data a.2.2
            (a.1 + len x, if (s.chain? cid).elim false (·.status.isNone) then a.2.1 + len x else a.2.1, s)) (0, 0, s)
        stageDone cid i 0 [] (addUnits cid ((n + 63) / 64) s)) s

/-- A row in POST payloads of at most 2 KiB. -/
def chunks : Nat → Bytes → List Bytes
  | 0, _ => []
  | n + 1, b => if b.isEmpty then [] else b.take 2048 :: chunks n (b.drop 2048)

/-- PUSH (R88). A word at EP_ADDR whose reserved bits are not zero breaks R5 (R79). -/
def pushRun (cid i : Nat) (s : State) : State :=
  match s.chain? cid with
  | none => s
  | some c =>
    let d := c.d i
    let size := rowSize d.inF d.elems
    let n := d.f 16 2
    withRuns cid i ((d.f 24 8, 4 * n) :: srcRuns d size) (fun c rd s =>
      let ws := (List.range n).map fun k => fldLE (rd (d.f 24 8) (4 * n)) (4 * k) 4
      if ws.any (2 ^ 22 ≤ ·) then abort cid .badDescriptor i s
      else
        let rows := (inRows c i size rd).filter (! ·.lost)
        stageDone cid i 0 [] (rows.foldl (fun s x => counted cid 1 (fun s => ws.foldl (fun s e =>
          (chunks (x.data.length / 2048 + 1) x.data).foldl (fun s b => stagePost cid i 5 e (d.f 18 2) b s) s) s) s) s)) s

/-! ## MEMORY_RESPONSE -/

/-- What is written of a chain's ticket area has a line that memory cannot give (R461). -/
def ticketLost (s : State) (c : Chain) : Bool :=
  0 < c.tickets && (linesOf c.ticketAddr c.ticketUsed).any fun l => (anyExtent s (64 * l)).elim false fun e => lineDamaged s e (64 * l)

/-- The first stage of the phase after the last ticket written. -/
def ticketStage (c : Chain) : Nat :=
  let ends := (List.range c.descs.length).filter fun i => (c.d i).phaseEnd
  min (c.descs.length - 1) ((ends[c.tickets - 1]?).elim 0 (· + 1))

/-- What a stage does once its inputs are there. -/
def runStage (c : Chain) (i : Nat) (s : State) : State :=
  let cid := c.cid
  let d := c.d i
  let ph := (c.st i).phase
  match d.op with
  | 1 => if ph = 0 then gatherStart cid i s else gatherEnd cid i s
  | 2 => if ph = 0 then scatterStart cid i s else s
  | 3 => if d.f 16 2 = 0 then reduceRun cid i s else if ph = 0 then groupRun cid i s else s
  | 4 => scoreRun cid i s
  | 5 => filterRun cid i s
  | 6 => topkRun cid i s
  | 7 => dequantRun cid i s
  | 8 => composeRun cid i s
  | 9 => transformRun cid i s
  | 10 => copyRun cid i s
  | 11 => pushRun cid i s
  | _ => s

/-- A stage goes on as its operands come back (R63): it takes the tiles that wait in its queues, and runs once it has all; a
chain that has lost its tickets stops (R461), as does one of whose writes has failed (R93, R95). -/
def memoryResponse (cid i : Nat) (s : State) : State :=
  let s := writeMarks cid i s
  match s.chain? cid with
  | none => s
  | some c =>
    if !c.holds || c.descs.length ≤ i then s
    else match engFail s c with
      | some x => abort cid x.1 x.2 s
      | none =>
        if ticketLost s c then abort cid .damaged (ticketStage c) s
        else if (c.st i).phase = 5 then syncThreads cid s
        else
          let s := modChain cid (Chain.take i) s
          syncThreads cid (if fed c i then runStage c i s else s)

def execMemoryResponse (cid stage : Nat) (s : State) : Host.Outcome State Fault Refusal :=
  .next (settle s (Sys2Proof.Machine.memoryResponse cid stage s))

end Sys2Proof.Machine
end

