-- ==== Sys2Proof/Machine/Chains.lean ====
section
/-! DEFINITION. Chains from acceptance to completion, and templates (R67, R68, R73, R74, R89 to R96). -/

namespace Sys2Proof.Machine

/-! ## Acceptance (R68, R70, R73, R89, R91, R423) -/

/-- A chain of bytes: its header and descriptors, when its length is right (R67). -/
def chainOf (b : Bytes) : Option (Bytes × List Bytes) :=
  let last := bits (leNat (b.take 64)) 107 104
  if b.length ≠ 64 + 64 * (last + 1) then none
  else some (b.take 64, (List.range (last + 1)).map fun k => (b.drop (64 + 64 * k)).take 64)

/-- A chain as it arrives. -/
def newChain (a : Asker) (x : Bytes × List Bytes) : Chain :=
  let h := leNat x.1
  { asker := a, hdr := x.1, descs := x.2, reqId := bits h 63 0, part := bits h 103 100, home := bits h 119 113, epoch := bits h 287 256 }

/-- Two chains have the same requester (R91). DESIGN CHOICE (log entry 85): a POUR message and a pour through the tenant mailbox
are different requesters, whichever endpoint sent them. -/
def sameAsker (s : State) (a b : Chain) : Bool :=
  match a.asker, b.asker with
  | .msg _ x _ _ _ _ _, .msg _ y _ _ _ _ _ => x == y
  | .template n i, .template m j => n == m && i == j
  | .mbx i, .mbx j =>
    let f := fun (k : Nat) => (s.mantel.jobs.find? (·.id == k)).map fun x => (x.mbx, x.src)
    (f i).isSome && f i == f j
  | _, _ => false

/-- A chain that may run before READY_FULL (R423): a single ORDERED GATHER_POOL. -/
def earlyChain (c : Chain) : Bool := c.descs.length == 1 && (c.d 0).op == 1 && !(c.d 0).exact

/-- What stops a chain at acceptance, with its stage: a malformed one before all else (R5, R93). `may` says that the requester may name PART. -/
def acceptStop (s : State) (c : Chain) (may : Bool) : Option (Status × Nat) :=
  let tid := c.h 255 240
  let isT := match c.asker with
    | .template _ _ => true
    | _ => false
  match firstBad c with
    | some i => some (.badDescriptor, i)
    | none =>
      if isT != (tid != 0xFFFF) || tooBig s c then some (.badDescriptor, 0)
      else if !may || (s.part? c.part).isNone then some (.noAccess, 0)
      else if s.isQuiesced c.part then some (s.quiesceStatus c.part, 0)
      else if !s.power.readyFull && !earlyChain c then some (.busy, 0)
      else if c.home ≠ 0x7F && movingFor s c.part c.home then some (.quiesced, 0)
      else if c.home ≠ 0x7F && s.nookOwner c.home != .part c.part then some (.noAccess, 0)
      else if (s.nooksOf c.part).isEmpty then some (.noAccess, 0)
      else if s.chains.chains.any (fun x => x.reqId == c.reqId && x.status.isNone && !x.ended && sameAsker s x c) then some (.busy, 0)
      else
        let home := if c.home = 0x7F then chooseHome s c else c.home
        if moving s home then some (.quiesced, 0)
        else if 256 ≤ (s.chains.chains.filter fun x => x.waits && x.home == home).length then some (.busy, 0)
        else none

/-- Accept a chain: it waits in its nook's queue, or has already come to its status and awaits CHAIN_COMPLETE. -/
def acceptChain (c : Chain) (may : Bool) (s : State) : State :=
  let home := if c.home = 0x7F then chooseHome s c else c.home
  let c := { c with cid := s.chains.nextCid, home := home, acceptedAt := s.t, stages := c.descs.map fun _ => {},
                    status := acceptStop s c may }
  { s with chains := { s.chains with chains := s.chains.chains ++ [c], nextCid := s.chains.nextCid + 1 } }

/-- POUR on a mailbox (R89). -/
def pourCmd (j : Job) (s : State) : End × State :=
  match chainOf j.payload with
  | none => (.done .badDescriptor, s)
  | some x =>
    let c := newChain (.mbx j.id) x
    (.waits, acceptChain c (j.manager || c.part == j.part) s)

/-- POUR as a message (R89, R289): the message's tracker is freed at acceptance (R282). A twin link carries none (R28). -/
def pourMsg (p : Nat) (m : PktMsg) (s : State) : State :=
  if m.opc ≠ 4 then s
  else if !namesMe s m.dst then forward p m ((s.port p).kind == 2) s
  else match admitMsg p m ((s.port p).kind == 2 || ((openPkt m).bind fun q => chainOf q.body).isNone) false s with
    | (.error st, s) => refuse p m st s
    | (.ok q, s') =>
      if waitsTrk s p then s
      else match chainOf q.body with
        | none => refuse p q .badDescriptor s'
        | some x =>
          let c := newChain (.msg p q.src q.txn q.epoch q.tag q.tenant q.heat) x
          let may := if (s.port p).kind = 0 then (s.port p).owner == some c.part
            else q.tenant == 0 || (s.part? c.part).elim false fun y => y.tag == q.tenant
          acceptChain c may s'

def pour (src : PourSrc) (s : State) : State :=
  match src with
  | .mbx m => runCmd 0x0901 m pourCmd s
  | .msg p m => pourMsg p m s

/-! ## Admission (R74, R111, R130, R189, R205) -/

/-- A table held for the twin (R437): this module is the secondary of its partition. -/
def tableHeld (s : State) (t : Table) : Bool :=
  s.twin.twinned.contains t.d.part && (faultN s || !s.twin.primary.contains t.d.part) && tableMirrored s t

/-- Checks of a look-up at admission (R74, R111), and the generations it reads. -/
def gatherAdmit (s : State) (c : Chain) (i : Nat) : Except Status (List (Nat × Nat × Nat)) :=
  let d := c.d i
  let pool := d.f 18 1 % 4
  match useTable s c.part (d.f 16 2) with
  | .error st => .error st
  | .ok t =>
    let ts := (partsOf t).filterMap fun k => s.table? c.part k
    let pin := if bit (d.f 18 1) 3 then some (d.f 20 2) else none
    if ts.any (·.damaged) then .error .damaged
    else if tableHeld s t || ts.any (tableHeld s ·) then .error .quiesced
    else if d.elems != t.d.elems || d.inF != t.d.fmt || (pool != 2 && d.f 40 8 != 0) || (pool != 0 && !fin3 d.outF)
        || ts.length != (partsOf t).length then .error .badDescriptor
    else match pin with
      | some g => if ts.all (genLive · g) then .ok (ts.map fun x => (i, x.d.id, g)) else .error .genConflict
      | none => .ok (ts.map fun x => (i, x.d.id, x.d.gen))

/-- Checks of a SCATTER_ADD at admission (R130): its indices too, where they can be read (R75, R292); the stage checks again what
it reads when it runs. -/
def scatterAdmit (s : State) (c : Chain) (i : Nat) : Status :=
  let d := c.d i
  match useTable s c.part (d.f 16 2) with
  | .error st => st
  | .ok t =>
    let ahead := (d.f 20 4 + 2 ^ 32 - t.closed) % 2 ^ 32
    let o := d.f 24 8
    if tableHeld s t then .quiesced
    else if t.u.isNone || t.d.storage = 2 || d.elems != t.d.elems || ahead = 0 || 8 < ahead then .badDescriptor
    else if pourAccess s (c.map s) c.part false o (8 * d.count) != .ok then .ok
    else
      let b := engBytes s (stageTok c.cid i) o (8 * d.count)
      if (List.range d.count).any fun k => !idxValid t.d (fldLE b (8 * k) 8) then .badDescriptor else .ok

/-- Checks of a group stage at admission (R189). -/
def groupAdmit (s : State) (c : Chain) (i : Nat) : Status :=
  let d := c.d i
  match s.group? c.part (d.f 16 2) with
  | none => .noAccess
  | some g =>
    if d.f 18 1 % 4 != g.pool || d.exact != g.exact || d.rtz != g.rtz || d.inF != g.inFmt || d.outF != g.outFmt
        || (d.srcA.isNone && d.count != (if g.selfRank.isNone then 0 else g.elems)) || (d.srcA.isSome && g.selfRank.isNone) then .badDescriptor
    else .ok

/-- Checks of a FILTER's predicate at admission (R205), where it can be read. -/
def filterAdmit (s : State) (c : Chain) (i : Nat) : Status :=
  let d := c.d i
  let a := d.f 16 8
  if pourAccess s (c.map s) c.part false a 64 != .ok then .ok
  else
    let tok := stageTok c.cid i
    let hdr := leNat (engBytes s tok a 64)
    let n := min 8 (bits hdr 23 20)
    if pourAccess s (c.map s) c.part false (a + 64) (32 * n) != .ok then .ok
    else if predBad d.srcA.isSome (d.f 24 4) hdr (predTerms n (engBytes s tok (a + 64) (32 * n))) then .badDescriptor else .ok

/-- The lists that admission checks: the indices of SCATTER_ADD, and a predicate's header and, once that has come, its terms. -/
def admitRuns (s : State) (c : Chain) : List (Nat × Nat × Nat) :=
  let ok := fun (x : Nat × Nat × Nat) => pourAccess s (c.map s) c.part false x.2.1 x.2.2 == .ok
  ((List.range c.descs.length).flatMap fun i =>
    let d := c.d i
    if d.op = 2 && d.count ≤ 65536 then [(i, d.f 24 8, 8 * d.count)]
    else if d.op = 5 then
      let a := d.f 16 8
      let n := min 8 (bits (leNat (engBytes s (stageTok c.cid i) a 64)) 23 20)
      [(i, a, 64 + 32 * n), (i, a, 64)]
    else []).filter ok

/-- Admission reads its lists as any thread does (R75, R292): whether all have come. -/
def admitRead (c : Chain) (s : State) : Bool × State :=
  let ask := fun (s : State) => (admitRuns s c).foldl (fun s x => engRead (stageTok c.cid x.1) c.part x.2.1 x.2.2 s) s
  let busy := fun (s : State) => (List.range c.descs.length).any fun i => engBusy s (stageTok c.cid i)
  let s := ask s
  if busy s then (false, s)
  else
    let s := ask s
    if busy s then (false, s)
    else (true, (admitRuns s c).foldl (fun s x => (engLines (stageTok c.cid x.1) x.2.1 x.2.2 s).2) s)

/-- What a stage comes to at admission, and the generations it reads. -/
def stageAdmit (s : State) (c : Chain) (i : Nat) : Except Status (List (Nat × Nat × Nat)) :=
  let d := c.d i
  let plain := fun (st : Status) => if st = .ok then .ok [] else (.error st : Except Status (List (Nat × Nat × Nat)))
  match d.op with
  | 1 => gatherAdmit s c i
  | 2 => plain (scatterAdmit s c i)
  | 3 => if d.f 16 2 = 0 then .ok [] else plain (groupAdmit s c i)
  | 5 => plain (filterAdmit s c i)
  | _ => .ok []

/-- The lowest stage that stops a chain, or every generation it reads. -/
def chainAdmits (s : State) (c : Chain) : Except (Status × Nat) (List (Nat × Nat × Nat)) :=
  match mapFor s c.epoch with
  | .error _ => .error (.epochStale, 0)
  | .ok _ => (List.range c.descs.length).foldl (fun a i => match a with
      | .error e => .error e
      | .ok l => match stageAdmit s c i with
        | .error st => .error (st, i)
        | .ok gs => .ok (l ++ gs)) (.ok [])

/-- The chain's ticket area lies in a MIRROR = 1 extent of a twinned partition (R439). -/
def ticketMirrored (s : State) (c : Chain) : Bool :=
  c.ticketed && s.mirrors && s.twin.primary.contains c.part && (anyExtent s c.ticketAddr).elim false (·.mirror == 1)

/-- Let a chain run: it takes its threads and melt sets (R73), counts in its tables' counters (R147), and its instances open
(R190). A calendar start that waited for room is reported late with its delay (R35). -/
def letRun (c : Chain) (gs : List (Nat × Nat × Nat)) (s : State) : State :=
  let start := if c.act.isSome then c.start else s.ns
  let inst := if c.act.isSome then start / 256 else c.reqId
  let mir := ticketMirrored s c
  let s := modChain c.cid (fun c => { c with admitted := true, start := start, gens := gs, mirrored := mir }) s
  let s := match c.act with
    | some a => if c.late then lateAction (some c.part) 2 c.home (s.ns - a.due) a s else s
    | none => s
  let s := takeHome c s
  let s := gs.foldl (fun s g => modTable c.part g.2.1 (fun t => { t with inflight := t.inflight ++ [(stageTok c.cid g.1, g.2.2, t.wave % 2)] }) s) s
  let s := ((List.range c.descs.length).filter fun i => (c.d i).op == 3 && (c.d i).f 16 2 != 0).foldl (fun s i => startInst c i start inst s) s
  if mir then mirrorState c.part (.chain c.cid (c.requester s) (c.hdr ++ c.descs.flatten)) s else s

/-- CHAIN_ADMIT: the first chain of the nook's queue, calendar starts ahead, once what it needs is free (R73) and the lists that
admission checks have come. A calendar start that finds no room is late (R35). -/
def chainAdmit (nook : Nat) (s : State) : State :=
  let q := s.chains.chains.filter fun c => c.waits && c.home == nook && !(s.twin.giving.elim false fun g => g.1 == c.part)
  match (q.find? (·.act.isSome)).or q.head? with
  | none => s
  | some c =>
    if !hasRoom s nook c then (if c.act.isSome && !c.late then modChain c.cid (fun c => { c with late := true }) s else s)
    else
      let r := admitRead c s
      if !r.1 then r.2
      else
        let forget := fun (s : State) => (List.range c.descs.length).foldl (fun s i => engForget (stageTok c.cid i) s) s
        match chainAdmits r.2 c with
        | .error e => abort c.cid e.1 e.2 (forget r.2)
        | .ok gs => letRun c gs (forget r.2)

/-! ## Completion (R92, R95) -/

/-- The 32-byte completion. -/
def chainCmpl (c : Chain) (st : Status) (stage lost : Nat) (now : Nat) : Bytes :=
  toLE 8 c.reqId ++ toLE 2 st.code ++ toLE 2 (stage % 16) ++ toLE 4 (sat32 lost) ++ toLE 4 (sat32 c.units) ++ toLE 4 0 ++ toLE 8 now

/-- The requester learns how the chain ended (R92): each gets the 32-byte completion, a template's owner as the four items of an
event. -/
def answerChain (c : Chain) (st : Status) (stage lost : Nat) (s : State) : State :=
  let b := chainCmpl c st stage lost s.ns
  match c.asker with
  | .msg _ src txn epoch tag tenant ht =>
    sendQuiet .msg 2 { dst := src, src := ownId s, txn := txn, opc := 5, status := st.code % 256, heat := ht, epoch := epoch,
                       tenant := tenant, tag := tag, bytes := 32, body := b } s
  | .mbx j => finish j st 0 b s
  | .template _ _ => event 0x0002 (st != .ok) [c.part] (some c.part) ((List.range 4).map fun k => fldLE b (8 * k) 8) s

/-- A chain leaves the module, and its threads and melt sets are free. -/
def dropChain (cid : Nat) (s : State) : State :=
  let s := freeUnits (fun x _ => x == cid) s
  { s with chains := { s.chains with chains := s.chains.chains.filter (·.cid != cid) },
           dir := { s.dir with eng := s.dir.eng.filter fun r => !chainTok cid r.tok } }

/-- The engine requests of a chain are done. -/
def engQuiet (s : State) (c : Chain) : Bool := (List.range c.descs.length).all fun i => !engBusy s (stageTok c.cid i) && !engBusy s (writeTok c.cid i)

/-- A PARTITION_QUIESCE ends once every chain of the partition has ended (R408). -/
def quiesceCheck (p : Nat) (s : State) : State :=
  match s.part? p with
  | none => s
  | some x =>
    if x.quiesceJobs.isEmpty || s.chains.chains.any (·.part == p) then s
    else x.quiesceJobs.foldl (fun s j => finish j .ok 0 [] s) (modPart p (fun x => { x with quiesceJobs := [] }) s)

/-- CHAIN_COMPLETE (R92): every stage has ended, its stores are done and its messages answered, or the chain has stopped. -/
def chainComplete (cid : Nat) (s : State) : State :=
  match s.chain? cid with
  | none => s
  | some c =>
    let fin := c.admitted && c.stages.all (·.phase == 5) && engQuiet s c && c.pushes.isEmpty
    if (c.status.isNone && !fin) || !c.unmarked.isEmpty then s
    else
      let lost := max (c.lostCount.getD 0) c.lost.length
      let end_ := (c.status.or (engFail s c)).getD (if lost = 0 then .ok else .partialLost, 0)
      let st := end_.1
      let at_ := fun (q : Nat → Bool) => (List.range c.descs.length).find? q
      let lostAt := (at_ fun i => (c.st i).out.any (·.lost)).or (at_ fun i => (c.d i).op ∈ [2, 3, 5])
      let stage := if st = .partialLost && c.status.isNone then lostAt.getD 0 else end_.2
      let s := instStop cid (leaveChans cid (leaveWaves cid s))
      let s := answerChain c st stage lost s
      let s := count (some c.part) (fun t => { t with chainsDone := t.chainsDone + 1, chainsNotOk := t.chainsNotOk + b2n (st != .ok) }) s
      let s := if c.mirrored then mirrorState c.part (.chainEnd cid) s else s
      fencesGo (quiesceCheck c.part (destroyCheck (dropChain cid s)))

/-- CHAIN_TIMEOUT (R93). -/
def chainTimeout (cid : Nat) (s : State) : State :=
  match s.chain? cid with
  | none => s
  | some c =>
    let lim := c.h 319 288
    if lim = 0 || s.t < c.acceptedAt + 1000 * lim then s
    else abort cid .timeout (((List.range c.stages.length).find? fun i => (c.st i).phase != 5).getD 0) s

/-! ## Templates (R90) -/

def State.template? (s : State) (nook id : Nat) : Option Template := s.chains.templates.find? fun t => t.nook == nook && t.id == id

/-- An instance of a template runs or waits for admission. -/
def templateRuns (s : State) (nook id : Nat) : Bool := s.chains.chains.any fun c => c.asker == .template nook id

/-- TEMPLATE_REGISTER (R25, R90, R408). -/
def templateRegister (j : Job) (s : State) : Status × State :=
  let id := fldLE j.payload 0 2
  match chainOf (j.payload.drop 8) with
  | none => (.badDescriptor, s)
  | some x =>
    let c := newChain (.template 0 id) x
    if !zeroAt j.payload 2 6 || c.h 255 240 != id || id = 0xFFFF || 95 < c.home || (firstBad c).isSome || tooBig s c then (.badDescriptor, s)
    else if c.part != j.part then (.noAccess, s)
    else if movingFor s c.part c.home then (.quiesced, s)
    else if s.nookOwner c.home != .part c.part then (.noAccess, s)
    else if (s.template? c.home id).isSome || 64 ≤ (s.chains.templates.filter (·.nook == c.home)).length then (.busy, s)
    else (.ok, mirrorDesc j c.part { s with chains.templates := s.chains.templates ++
      [{ part := c.part, id := id, nook := c.home, bytes := j.payload.drop 8 }] })

/-- An armed or running calendar names the template. -/
def calendarNames (s : State) (nook id : Nat) : Bool :=
  let q := fun (v : CalEv) => v.kind == 2 && v.target == nook && v.arg == id
  (s.cal.running && (evsAll (activeImg s.cal) s.cal.hdr).any q) || s.cal.armed.elim false fun h => (evsAll (shadowImg s.cal) h).any q

/-- TEMPLATE_REMOVE (R408). -/
def templateRemove (j : Job) (s : State) : Status × State :=
  let id := fldLE j.payload 0 2
  let nook := fldLE j.payload 2 1
  match s.template? nook id with
  | none => (.noAccess, s)
  | some t =>
    if t.part != j.part then (.noAccess, s)
    else if calendarNames s nook id || templateRuns s nook id then (.busy, s)
    else (.ok, mirrorDesc j t.part { s with chains.templates := s.chains.templates.filter fun t => !(t.nook == nook && t.id == id) })

def modTemplate (nook id : Nat) (f : Template → Template) (s : State) : State :=
  { s with chains.templates := modWhere (fun t => t.nook == nook && t.id == id) f s.chains.templates }

/-- Launch an instance of a template: REQ_ID is the Ember time of its slot boundary. -/
def launch (t : Template) (a : CalAct) (s : State) : State :=
  match chainOf t.bytes with
  | none => s
  | some x =>
    let c := newChain (.template t.nook t.id) (toLE 8 a.due ++ x.1.drop 8, x.2)
    let c := { c with act := some a, start := a.due, late := !hasRoom s t.nook c }
    if t.damaged then
      let c := { c with cid := s.chains.nextCid, acceptedAt := s.t, stages := c.descs.map fun _ => {}, status := some (.damaged, 0) }
      { s with chains := { s.chains with chains := s.chains.chains ++ [c], nextCid := s.chains.nextCid + 1 } }
    else acceptChain c true s

/-- A start falls due (R90): it runs, waits for the running instance, or is dropped. -/
def startTemplate (nook id : Nat) (a : CalAct) (s : State) : State :=
  match s.template? nook id with
  | none => s
  | some t =>
    if !templateRuns s nook id then launch t a s
    else if t.waiting.isSome then missedAction (some t.part) 2 nook a s
    else modTemplate nook id (fun t => { t with waiting := some a }) s

/-- TEMPLATE_DEFERRED_START: a start that waited runs, and its delay is reported (R90), at its admission where it now waits for
room (R35). -/
def deferredStart (part id : Nat) (s : State) : State :=
  match s.chains.templates.find? fun t => t.part == part && t.id == id && t.waiting.isSome && !templateRuns s t.nook id with
  | none => s
  | some t =>
    let a := t.waiting.getD {}
    let s := modTemplate t.nook id (fun t => { t with waiting := none }) s
    let s := launch t a s
    if s.chains.chains.getLast?.elim false (fun c => c.late && c.status.isNone) then s
    else lateAction (some part) 2 t.nook (s.ns - a.due) a s

/-! ## Meanings -/

def execPour (src : PourSrc) (s : State) : Host.Outcome State Fault Refusal :=
  .next (settle s (Sys2Proof.Machine.pour src s))
def execTemplateRegister (m : MbxId) (s : State) : Host.Outcome State Fault Refusal :=
  .next (settle s (runCmd 0x0902 m (simply Sys2Proof.Machine.templateRegister) s))
def execTemplateRemove (m : MbxId) (s : State) : Host.Outcome State Fault Refusal :=
  .next (settle s (runCmd 0x0903 m (simply Sys2Proof.Machine.templateRemove) s))
def execChainAdmit (nook : Nat) (s : State) : Host.Outcome State Fault Refusal :=
  .next (settle s (Sys2Proof.Machine.chainAdmit nook s))
def execChainComplete (cid : Nat) (s : State) : Host.Outcome State Fault Refusal :=
  .next (settle s (Sys2Proof.Machine.chainComplete cid s))
def execChainTimeout (cid : Nat) (s : State) : Host.Outcome State Fault Refusal :=
  .next (settle s (Sys2Proof.Machine.chainTimeout cid s))
def execTemplateDeferredStart (part id : Nat) (s : State) : Host.Outcome State Fault Refusal :=
  .next (settle s (deferredStart part id s))

end Sys2Proof.Machine
end

