-- ==== Sys2Proof/Machine/Anvil.lean ====
section
/-! DEFINITION. Anvil units and channel controllers: strokes, refresh, patrol scrub, the bench chain (R156 to R169, R181 to R185). -/

namespace Sys2Proof.Machine

/-! ## Strokes -/

/-- An atomic of a stroke may run where it stands (R175). -/
def atomicStays (s : State) (q : LineReq) : Bool := (anyExtent s (64 * q.line)).elim false fun e => e.devown && !e.tray

/-- It needs a segment that is not held. -/
def atomicWaits (s : State) (q : LineReq) : Bool :=
  (anyExtent s (64 * q.line)).elim false fun e => e.coh && !(segAt s q.line).elim false (·.held)

/-- Row reads cut to the limits that now hold (R160): the brake may have come after the stroke was formed. -/
def recutRows (s : State) (x : Stroke) : List Stroke :=
  let m := strokeCols s
  if x.cols ≤ m && x.rows.length ≤ strokeActs s then [x]
  else
    let n := (x.cols + m - 1) / m
    let cut := match x.rows with
      | [] => (List.range n).map fun k => (([] : List Nat), min m (x.cols - m * k))
      | rs => cutStrokes m (strokeActs s) (x.cols / rs.length) rs
    cut.map fun p => { x with rows := p.1, cols := p.2 }

/-- The atomics of a stroke that the limits which now hold admit, and the others (R159, R160). -/
def recutAtomics (s : State) (qs : List LineReq) : List LineReq × List LineReq :=
  qs.foldl (fun a q =>
    if a.2.isEmpty && a.1.length < strokeAtomics s && atomicActs (a.1 ++ [q]) ≤ strokeActs s then (a.1 ++ [q], a.2)
    else (a.1, a.2 ++ [q])) ([], [])

/-- The leaf of a LEAF stroke. -/
def Stroke.isLeaf (x : Stroke) (l : Leaf) : Bool := l.cid == x.cid && l.stage == x.stage && l.bag == x.bag && l.shard == x.shard

/-- A leaf's first stroke starts (R158): it takes its accumulators, or, where too few are free, the unit forwards its rows and
the spread instance evaluates it. -/
def takeLeaf (c : Nat) (x : Stroke) (s : State) : State :=
  match (s.chan c).leaves.find? x.isLeaf with
  | none => s
  | some l =>
    if l.taken then s
    else if (s.chan c).leafUsed + l.accs ≤ 16384 then
      let take := fun (l : Leaf) => { l with taken := true }
      modChan c (fun k => { k with leafUsed := k.leafUsed + l.accs, leaves := modWhere x.isLeaf take k.leaves }) s
    else
      let mine := fun (y : Stroke) => y.kind == .leaf && y.isLeaf l
      let fwd := fun (y : Stroke) => { y with kind := .forward }
      modChan c (fun k => { k with leaves := k.leaves.filter (! x.isLeaf ·), strokes := modWhere mine fwd k.strokes,
                                   held := modWhere mine fwd k.held }) s

/-- A stroke of a leaf has ended, or has left the queue without rows. -/
def leafLess (c : Nat) (x : Stroke) (s : State) : State :=
  let less := fun (l : Leaf) => { l with left := l.left - 1 }
  if x.kind == .leaf then modChan c (fun k => { k with leaves := modWhere x.isLeaf less k.leaves }) s else s

/-- Rows of an extent that is being released leave a stroke that has not started (R274): they are lost. -/
def shedRows (x : Stroke) (s : State) : Stroke × State :=
  let gone := fun (r : Nat) => ((s.chain? x.cid).bind fun c => (c.st x.stage).rows[r]?).elim true fun y =>
    (anyExtent s y.addr).elim true (releasing s ·)
  let live := x.rows.filter (! gone ·)
  if live.length = x.rows.length then (x, s)
  else ({ x with rows := live, cols := if live.isEmpty then 0 else x.cols / x.rows.length * live.length },
        (x.rows.filter gone).foldl (fun s r => deliverMem x.cid x.stage r s) s)

/-- A LEAF or FORWARD stroke at the head of the queue starts, cut to the limits that hold. Pieces for which the queue has no place are
held as its Ladle engine holds strokes (R156). -/
def startRows (c : Nat) (s : State) : State :=
  match (s.chan c).strokes with
  | [] => s
  | x0 :: rest =>
    let r := shedRows x0 s
    let x := r.1
    let s := r.2
    if x.cols = 0 then feedChan c (leafLess c x (modChan c (fun k => { k with strokes := rest }) s))
    else match recutRows s x with
    | [] => s
    | y :: ys =>
      let more := fun (l : Leaf) => { l with left := l.left + ys.length }
      let q := ys ++ rest
      feedChan c (modChan c (fun k => { k with
        strokes := q.take 32, held := q.drop 32 ++ k.held, running := some y, strokeAt := s.t,
        leaves := if x.kind == .leaf then modWhere x.isLeaf more k.leaves else k.leaves }) s)

/-- STROKE_START (R159 to R164): the next queued stroke, once the atomics under a line hold (R180) and the accesses of the
request queue that come first have run. Atomics whose extent is no longer DEVICE-OWNED go back to the directory, which
dispatches each under a line hold (R175); a stroke with no held segment waits for the next one. -/
def strokeStart (c : Nat) (s : State) : State :=
  if !strokeFree s c || !(chanHolds s c).isEmpty || ((queueHead s c).isSome && (s.chan c).served < 32) then s
  else match (s.chan c).strokes with
  | [] => s
  | x :: rest =>
    match x.kind with
    | .forward => startRows c s
    | .leaf => startRows c (takeLeaf c x s)
    | .zero =>
      if !nookBare s (chanNook c) then feedChan c (modChan c (fun k => { k with strokes := rest, zeroLine := none }) s)
      else modChan c (fun k => { k with strokes := rest, running := some { x with cols := strokeCols s }, strokeAt := s.t }) s
    | .atomic =>
      let back := (x.reqs.filter (! atomicStays s ·)).map fun q => { q with held := true }
      let mine := x.reqs.filter (atomicStays s ·)
      let s := feedChan c { modChan c (fun k => { k with strokes := rest }) s with dir.waitq := back ++ s.dir.waitq }
      let rest := (s.chan c).strokes
      if mine.isEmpty then s
      else if mine.any (atomicWaits s ·) then modChan c (fun k => { k with segWait := k.segWait ++ [{ x with reqs := mine }] }) s
      else
        let cut := recutAtomics s mine
        let q := if cut.2.isEmpty then rest else { x with reqs := cut.2 } :: rest
        modChan c (fun k => { k with strokes := q.take 32, held := q.drop 32 ++ k.held, running := some { x with reqs := cut.1 }, strokeAt := s.t }) s

/-- One atomic of an ATOMIC stroke (R172, R181). -/
def strokeAtomic (q : LineReq) (s : State) : State :=
  match anyExtent s (64 * q.line) with
  | none => answerReq q .extentGone 0 0 none none s
  | some e =>
    if releasing s e then answerReq q .extentGone 0 0 none none s
    else
      let g := readLine q.line s
      let s := g.2
      if !g.1 || lineDamaged s e (64 * q.line) then answerReq q .damaged 0 0 none none s
      else
        let n := s.twin.nextTxn
        let r := applyAtomic q.m (memRead s (64 * q.line) 64)
        storeDone n q r.2 (storeLine q.line r.1 s)

/-! ## Lines of a channel by place, and zeroing (R26, R159, R182) -/

/-- A ZERO stroke ends (R26, R159): its lines are whole and zero, but for pieces that an extent added meanwhile covers, which it does
not touch (R175). The memory of the region already reads as zeros. -/
def zeroEnd (c cols : Nat) (s : State) : State :=
  match (s.chan c).zeroLine.bind (zeroFrom s c) with
  | none => modChan c (fun k => { k with zeroLine := none }) s
  | some p =>
    let n := min cols (2 ^ 19 - p % 2 ^ 19)
    let taken := (heldExts s).any fun e => e.nook == chanNook c && (extPieces s e).contains (8 * (p / 2 ^ 19) + c % 8)
    let gone := fun (l : Nat) => !taken && decide (bareLine p ≤ l && l < bareLine (p + n))
    modChan c (fun k => { k with zeroLine := zeroFrom s c (p + n), damaged := k.damaged.filter (! gone ·) }) s

/-- A refresh begins. -/
def startRefresh (c : Nat) (s : State) : State :=
  modChan c (fun k => { k with refPend := false, refBusy := true, refLast := s.t }) s

/-- STROKE_END (R161): what the stroke read is delivered, a leaf has one stroke fewer to wait for, a due refresh is issued, and
the request queue has its turn. -/
def strokeEnd (c : Nat) (s : State) : State :=
  match (s.chan c).running with
  | none => s
  | some x =>
    let now := s.t
    let s := modChan c (fun k => { k with running := none, strokeAt := now, served := 0 }) s
    let s := match x.kind with
      | .atomic => x.reqs.foldl (fun s q => strokeAtomic q s) s
      | .forward => x.rows.foldl (fun s r => deliverMem x.cid x.stage r s) s
      | .leaf => leafLess c x (x.rows.foldl (fun s r => deliverMem x.cid x.stage r s) s)
      | .zero => zeroEnd c x.cols s
    let s := moreZero c (refill c (feedChan c (clearCheck s)))
    if (s.chan c).refPend then startRefresh c s else s

/-! ## Refresh (R163, R165) -/

def tRefi (k : Chan) : Nat := if k.hot then 1950 else 3900

/-- A refresh is due: issued at once unless a stroke runs. -/
def dueRefresh (c : Nat) (s : State) : State :=
  if (s.chan c).running.isSome then modChan c (fun k => { k with refPend := true }) s else startRefresh c s

/-- REFRESH_DUE (R163). -/
def refreshDue (c : Nat) (s : State) : State :=
  let k := s.chan c
  if 768 ≤ c || k.retired || scheduled s c || s.t < k.refDue || k.refPend || k.refBusy then s
  else dueRefresh c (modChan c (fun k => { k with refDue := k.refDue + tRefi k }) s)

/-- REFRESH_FALLBACK (R165). -/
def refreshFallback (c : Nat) (s : State) : State :=
  let k := s.chan c
  let lim := k.refLast + tRefi k + 600
  if 768 ≤ c || k.retired || !scheduled s c || s.t < lim || k.refPend || k.refBusy then s
  else dueRefresh c (lateAction (s.chanOwner c) 4 (c / 32) (s.t - lim + 600) (actAt s s.slot) s)

/-- REFRESH_END (R161). -/
def refreshEnd (c : Nat) (s : State) : State := modChan c (fun k => { k with refBusy := false }) s

/-! ## Patrol scrub (R182 to R185) -/

/-- SCRUB_DUE (R184). -/
def scrubDue (c : Nat) (s : State) : State :=
  let k := s.chan c
  if 768 ≤ c || k.retired || scheduled s c || s.t < k.scrubDue || k.scrubPend then s
  else modChan c (fun k => { k with scrubPend := true, scrubDue := k.scrubDue + 64000000 }) s

/-- SCRUB_FALLBACK (R184). -/
def scrubFallback (c : Nat) (s : State) : State :=
  let k := s.chan c
  let lim := k.scrubLast + 64000600
  if 768 ≤ c || k.retired || !scheduled s c || s.t < lim || k.scrubPend then s
  else modChan c (fun k => { k with scrubPend := true }) (lateAction (s.chanOwner c) 5 (c / 32) (s.t - lim + 600) (actAt s s.slot) s)

/-- A line stands in the damaged-line table of its channel, by its own name or by its place (R172). -/
def inTable (s : State) (c l : Nat) : Bool :=
  if 2 ^ 46 ≤ l then (s.chan c).damaged.contains l else (anyExtent s (64 * l)).elim false (tabled s c · l)

/-- One line of a scrub burst (R183): a line of the damaged-line table is skipped; a corrected one is written back, and one
that cannot be corrected is handled as R172 states. -/
def scrubLine (c l : Nat) (fixed bad : Bool) (s : State) : State :=
  let err := (s.mem.weak.find? (·.1 == l)).map (·.2)
  if inTable s c l then s
  else if bad || err == some true then (if 2 ^ 46 ≤ l then addDamaged c l s else (badRead l s).2)
  else if fixed || err == some false then corrected c 1 { s with mem.weak := s.mem.weak.filter (·.1 != l) }
  else s

/-- SCRUB_BURST (R182, R183): the 32 lines at the channel's place in its pass; `fixed` and `bad` name those of them, 0 to 31,
that the ECC is seen to correct or not to correct. A line that no extent holds is scrubbed too. -/
def scrubBurst (c : Nat) (fixed bad : List Nat) (s : State) : State :=
  let k := s.chan c
  if !k.scrubPend || k.running.isSome || k.refPend || k.refBusy || windowOpen s c then s
  else
    let p := k.scrubNext
    let s := modChan c (fun k => { k with scrubPend := false, scrubLast := s.t, scrubNext := (p + 32) % 2 ^ 25 }) s
    (List.range 32).foldl (fun s j =>
      let ls := linesAt s c (p + j)
      (if ls.isEmpty then [bareLine (p + j)] else ls).foldl (fun s l => scrubLine c l (fixed.contains j) (bad.contains j) s) s) s

/-! ## The bench chain (R166 to R169) -/

/-- Positions of a leaf's bag that its shard covers. -/
def leafPositions (s : State) (l : Leaf) : List Nat :=
  match s.chain? l.cid with
  | none => []
  | some c =>
    let st := c.st l.stage
    match s.table? c.part ((c.d l.stage).f 16 2) with
    | none => []
    | some t => ((bagsOf st.offs).getD l.bag []).filter fun k => (st.idxs[k]?).elim false fun p =>
        !p.lost && (rowsOf s t (leNat p.data)).any fun w => l.rows.any fun r => let x := st.rows.getD r {}; (x.table, x.row) == w

/-- A leaf's value has left, or is given up: its accumulators are free, and the spread instance of its nook ends when it has no
more to do there (R123). -/
def dropLeaf (c : Nat) (l : Leaf) (s : State) : State :=
  spreadIdle l.cid l.stage (chanNook c)
    (modChan c (fun k => { k with leaves := k.leaves.erase l, leafUsed := k.leafUsed - (if l.taken && !l.sent then l.accs else 0) }) s)

/-- Every position that a leaf covers is lost (R168). -/
def loseLeaf (c : Nat) (l : Leaf) (s : State) : State :=
  let ks := leafPositions s l
  dropLeaf c l (modStage l.cid l.stage (fun x => { x with lostAt := x.lostAt ++ ks }) s)

/-- The leaves of a leaf's bag that the units of its base die hold, with their channels. -/
def dieLeaves (s : State) (c : Nat) (l : Leaf) : List (Nat × Leaf) :=
  (List.range 32).flatMap fun i =>
    let k := c / 32 * 32 + i
    ((s.chan k).leaves.filter fun x => x.cid == l.cid && x.stage == l.stage && x.bag == l.bag).map fun x => (k, x)

/-- The shards whose leaves of a bag are not empty, and whether every row of the bag has been sampled (R121, R167). -/
def bagShards (s : State) (l : Leaf) : List Nat × Bool :=
  match s.chain? l.cid with
  | none => ([], true)
  | some c =>
    let st := c.st l.stage
    match s.table? c.part ((c.d l.stage).f 16 2) with
    | none => ([], true)
    | some t =>
      let rs := st.rows.filter fun x => (bagsOfRow s t st x).contains l.bag
      ((rs.map (·.shard)).eraseDups, rs.all (·.state != 0))

/-- The largest node of R121's tree over `a` to `b - 1` that covers a shard and meets a test. -/
def treeNode (q : Nat → Nat → Bool) (shard : Nat) : Nat → Nat → Nat → Nat × Nat
  | 0, _, _ => (shard, shard + 1)
  | fuel + 1, a, b =>
    if q a b || b - a ≤ 1 then (a, b)
    else
      let h := a + 2 ^ Nat.log2 (b - a - 1)
      if shard < h then treeNode q shard fuel a h else treeNode q shard fuel h b

/-- The maximal marked combine step of a leaf (R167): the leaves below the largest node of the tree whose non-empty leaves all
lie in the base die, with their channels (log entry 81). -/
def benchStep (s : State) (c : Nat) (l : Leaf) : List (Nat × Leaf) :=
  let here := dieLeaves s c l
  let all := (bagShards s l).1
  let node := treeNode (fun a b => all.all fun q => q < a || b ≤ q || here.any (·.2.shard == q)) l.shard 64 0 65536
  here.filter fun x => node.1 ≤ x.2.shard && x.2.shard < node.2

/-- A leaf whose step is whole (R167): every row of the bag has been sampled and every leaf of the step evaluated. -/
def stepWhole (s : State) (c : Nat) (l : Leaf) : Bool :=
  l.taken && !l.sent && (bagShards s l).2 && (benchStep s c l).all fun x => x.2.taken && x.2.left == 0

/-- The unit holds the lowest shard of the leaf's step: the others send it their partial sums, and it sends the step's value. -/
def lowest (s : State) (c : Nat) (l : Leaf) : Bool := (benchStep s c l).all fun x => l.shard ≤ x.2.shard

/-- The bench-chain slot of now, counted from reset at 1.8 GHz (R166): the first within this nanosecond that belongs to the channel's
nook and lies behind those that its units have used. -/
def benchSlot (s : State) (c : Nat) : Option Nat :=
  let lo := (9 * s.t + 4) / 5
  let hi := (9 * (s.t + 1) + 4) / 5
  ((List.range (hi - lo)).map (lo + ·)).find? fun n =>
    n % 32 / 8 == c / 8 % 4 && (nookChans (chanNook c)).all fun k => (s.chan k).slotUsed.elim true (· < n)

/-- The spread instance of the nook, or the home stage in the same stack, takes the value (R167, R169). -/
def benchTaker (s : State) (c : Nat) (l : Leaf) : Bool :=
  hasSpread s l.cid l.stage (chanNook c) || (s.chain? l.cid).elim false fun x => x.home / 4 == c / 32

/-- The leaf whose value the unit sends next (R166 to R169): one whose transfer has failed once goes before all others of the nook
(R168); the unit of a step's lowest shard sends the step's value when the partial sums of the others have come and a taker is there. -/
def benchNext (s : State) (c : Nat) : Option Leaf :=
  if (nookChans (chanNook c)).any fun k => k != c && (s.chan k).leaves.any (·.resent) then none
  else
    let ready := fun (l : Leaf) => stepWhole s c l
      && (!lowest s c l || ((benchStep s c l).all (fun x => x.2 == l || x.2.sent) && benchTaker s c l))
    ((s.chan c).leaves.find? fun l => l.resent && ready l).or ((s.chan c).leaves.find? ready)

/-- The last 512 bytes of a leaf's value have left (R166, R167): the partial sum of a step's other unit is with the lowest one, and
its accumulators are free; the value of the step ends its leaves. -/
def benchLast (c : Nat) (l : Leaf) (s : State) : State :=
  if lowest s c l then (benchStep s c l).foldl (fun s x => dropLeaf x.1 x.2 s) s
  else
    let gone := fun (x : Leaf) => { x with sent := true, resent := false }
    modChan c (fun k => { k with leaves := modWhere (· == l) gone k.leaves, leafUsed := k.leafUsed - l.accs }) s

/-- The leaves behind a transfer (R168): the unit's own for a partial sum, the whole step for the value of the step. -/
def behind (s : State) (c : Nat) (l : Leaf) : List (Nat × Leaf) := if lowest s c l then benchStep s c l else [(c, l)]

/-- BENCH_TRANSFER (R166 to R169): in a slot of its nook, a unit sends the next 512 bytes of a partial sum to the unit of the step's
lowest shard, or of the step's value to its taker. A transfer whose check fails is sent again in the next slot of its nook; at the
second failure every position of the leaves behind it is lost. -/
def benchTransfer (c : Nat) (ok : Bool) (s : State) : State :=
  match benchSlot s c, benchNext s c with
  | some n, some l =>
    let upd := fun (f : Leaf → Leaf) (s : State) => modChan c (fun k => { k with leaves := modWhere (· == l) f k.leaves }) s
    let s := modChan c (fun k => { k with slotUsed := some n }) s
    if ok then
      if (l.accs + 127) / 128 ≤ l.hops + 1 then benchLast c l s
      else upd (fun l => { l with hops := l.hops + 1, resent := false }) s
    else if !l.resent then upd (fun l => { l with resent := true }) s
    else event 0x000E true [] ((s.chain? l.cid).map (·.part)) [c, l.cid, l.stage] ((behind s c l).foldl (fun s x => loseLeaf x.1 x.2 s) s)
  | _, _ => s

/-! ## Meanings -/

def execStrokeStart (chan : Nat) (s : State) : Host.Outcome State Fault Refusal :=
  .next (settle s (Sys2Proof.Machine.strokeStart chan s))
def execStrokeEnd (chan : Nat) (s : State) : Host.Outcome State Fault Refusal :=
  .next (settle s (Sys2Proof.Machine.strokeEnd chan s))
def execRefreshDue (chan : Nat) (s : State) : Host.Outcome State Fault Refusal :=
  .next (settle s (Sys2Proof.Machine.refreshDue chan s))
def execRefreshFallback (chan : Nat) (s : State) : Host.Outcome State Fault Refusal :=
  .next (settle s (Sys2Proof.Machine.refreshFallback chan s))
def execRefreshEnd (chan : Nat) (s : State) : Host.Outcome State Fault Refusal :=
  .next (settle s (Sys2Proof.Machine.refreshEnd chan s))
def execScrubDue (chan : Nat) (s : State) : Host.Outcome State Fault Refusal :=
  .next (settle s (Sys2Proof.Machine.scrubDue chan s))
def execScrubFallback (chan : Nat) (s : State) : Host.Outcome State Fault Refusal :=
  .next (settle s (Sys2Proof.Machine.scrubFallback chan s))
def execScrubBurst (chan : Nat) (corrected bad : List Nat) (s : State) : Host.Outcome State Fault Refusal :=
  .next (settle s (Sys2Proof.Machine.scrubBurst chan corrected bad s))
def execBenchTransfer (chan : Nat) (checkOk : Bool) (s : State) : Host.Outcome State Fault Refusal :=
  .next (settle s (Sys2Proof.Machine.benchTransfer chan checkOk s))

end Sys2Proof.Machine
end

