-- ==== Sys2Proof/Machine/Calendar.lean ====
section
/-! DEFINITION. Calendar commands, calendar events, swaps and stops, the slot boundary (R227 to R241). -/

namespace Sys2Proof.Machine

/-! ## Banks (R227, R238, R408) -/

def calBytes : Nat := 4194304

def setShadow (img : List Host.Cell) (s : State) : State :=
  { s with cal := if s.cal.active1 then { s.cal with bank0 := img } else { s.cal with bank1 := img } }

/-- CAL_WRITE. -/
def calWrite (j : Job) (s : State) : Status × State :=
  let off := fldLE j.payload 0 4
  let d := j.payload.drop 8
  if !zeroAt j.payload 4 4 || calBytes < off + d.length then (.badDescriptor, s)
  else if s.cal.armed.isSome then (.busy, s)
  else (.ok, setShadow (cellsWrite 0 (shadowImg s.cal) off d) s)

/-- CAL_COPY: SRC is an offset in the image area of the system nooks (R19); a module with no system nook holds none. -/
def calCopy (j : Job) (s : State) : Status × State :=
  let src := fldLE j.payload 0 8
  let len := fldLE j.payload 8 4
  if calBytes < len || s.flash.prof.sysNooks = 0 || calBytes < src + len then (.badDescriptor, s)
  else if s.cal.armed.isSome then (.busy, s)
  else (.ok, setShadow (cellsCopy 0 s.twin.calImage (shadowImg s.cal) src 0 len) s)

/-- CAL_READ. -/
def calRead (j : Job) (s : State) : End × State :=
  let bank := fldLE j.payload 0 1
  let off := fldLE j.payload 4 4
  let len := fldLE j.payload 8 4
  if 1 < bank || !zeroAt j.payload 1 3 || 4096 < len || calBytes < off + len then (.done .badDescriptor, s)
  else (.done .ok 0 (cellsRead 0 (if bank = 0 then activeImg s.cal else shadowImg s.cal) off len), s)

/-! ## Arming (R230, R231, R238) -/

/-- The header of R227, and its reserved bits. -/
def decCalHdr (x : Nat) : CalHdr :=
  { startSlot := bits x 503 448, swapSlot := bits x 439 384, crc := bits x 383 352, nEntries := bits x 351 320,
    calId := bits x 63 48, periodM1 := bits x 15 0 }

def calHdrRsv (x : Nat) : Bool := bits x 511 504 != 0 || bits x 447 440 != 0 || bits x 319 64 != 0 || bits x 47 16 != 0

/-- The CRC of a bank: the whole slot index, then the entries. -/
def calCrc (img : List Host.Cell) (n : Nat) : Nat := crc32 (cellsRead 0 img 0 (262144 + 16 * n))

/-- The lowest offending index position, if there is one. -/
def badPosition (img : List Host.Cell) (h : CalHdr) : Option Nat :=
  let go := (List.range h.period).foldl (fun (a : Nat × Option Nat) p => match a.2 with
    | some _ => a
    | none => if idxFirst img p ≠ a.1 || 1024 < idxNum img p then (a.1, some p) else (a.1 + idxNum img p, none)) (0, none)
  match go.2 with
  | some p => some p
  | none =>
    match img.find? fun c => decide (4 * h.period ≤ c.1 && c.1 < 262144) with
    | some c => some (c.1 / 4)
    | none => if go.1 = h.nEntries then none else some h.periodM1

/-- A gate TARGET names a port that exists, works, and is a stage link or a partition's (R229, R230). -/
def gatePort (s : State) (v : CalEv) : Bool :=
  let p := bits v.target 7 0
  bits v.target 14 8 == 0 &&
  (if v.onTray then decide (p < 32) && portWorks s true p
   else (p % 4 == 0 || !(s.port (p / 4 * 4)).wide) && portWorks s false p && (s.port p).kind != 2)

/-- What an entry's own bits break (R228 to R230). -/
def eventBad (s : State) (v : CalEv) : Bool :=
  v.rsv || (2 ≤ v.kind && (v.offset != 0 || v.svc != 0)) ||
  (match v.kind with
   | 0 => !gatePort s v || v.svc == 0 || bit v.svc 7 || v.arg == 0 || 16 < v.arg
   | 1 => !gatePort s v || v.svc == 0 || bit v.svc 7 || v.arg != 0
   | 2 => 95 < v.target || 65535 < v.arg || (s.template? v.target v.arg).isNone
   | 3 => v.arg != 0 || !s.tables.any fun t => t.d.id == v.target && t.u.isSome
   | 4 => 23 < v.target || 2 ^ 32 ≤ v.arg
   | 5 => 23 < v.target || 2 ^ 32 ≤ v.arg
   | 6 => v.target != 0 || !s.flash.prof.secure
   | 7 => false
   | _ => true)

/-- The gate events of one port and service: an event of the same kind as the one before it around the period, or a window
shorter than its guard band (R230, R234). -/
def gateBad (s : State) (h : CalHdr) (all : List CalEv) (v : CalEv) (svc : Nat) : Bool :=
  let mine := all.filter fun x => x.gates v.onTray (bits v.target 7 0) svc
  let len := h.period * 256
  match mine.findIdx? (·.e == v.e) with
  | none => false
  | some i =>
    let before := mine.getD ((i + mine.length - 1) % mine.length) v
    let next := mine.getD ((i + 1) % mine.length) v
    let end_ := if i + 1 < mine.length then next.time else next.time + len
    before.kind == v.kind ||
      (v.kind == 0 && decide (end_ - v.time < guardBand s v.onTray (bits v.target 7 0) v.arg))

/-- The positions a window of a REFRESH or SCRUB event covers, with its channels. -/
def calWindow (h : CalHdr) (v : CalEv) : List Nat := if v.kind = 4 then [v.pos, (v.pos + 1) % h.period] else [v.pos]

/-- A window meets an earlier entry's on one of its channels, or its own next one (R230). -/
def windowsMeet (h : CalHdr) (all : List CalEv) (v : CalEv) : Bool :=
  (v.kind == 4 || v.kind == 5) && v.arg != 0 &&
  ((v.kind == 4 && h.period == 1) ||
   all.any fun x => x.e < v.e && (x.kind == 4 || x.kind == 5) && x.target == v.target && (x.arg &&& v.arg) != 0
     && (calWindow h x).any (calWindow h v).contains)

/-- The lowest offending entry, if there is one. -/
def badEntry (s : State) (img : List Host.Cell) (h : CalHdr) : Option Nat :=
  let all := evsAll img h
  (all.find? fun v =>
    eventBad s v || ((evsOf img v.pos).any fun x => x.e < v.e && v.offset < x.offset) || windowsMeet h all v
      || (v.isGate && ((List.range 8).filter (bit v.svc)).any (gateBad s h all v))).map (·.e)

/-- What CAL_ARM finds wrong with the shadow bank, as its DETAIL (R230). A secure calendar with no XBAR_SHARE at all has no entry
to name (log entry 46). -/
def calFault (s : State) (x : Nat) : Option Nat :=
  let h := decCalHdr x
  let img := shadowImg s.cal
  if calHdrRsv x || 245760 < h.nEntries || h.swapSlot < s.slot + 4096 || h.swapSlot < h.startSlot
      || calCrc img h.nEntries ≠ h.crc then some 0xFFFFFFFF
  else match badPosition img h with
    | some p => some (2 ^ 31 + p)
    | none => match badEntry s img h with
      | some e => some e
      | none => if s.flash.prof.secure && !(evsAll img h).any (·.kind == 6) then some 0xFFFFFFFF else none

/-- A calendar may run (R215, R231). -/
def calState (s : State) : Bool := s.ember.st == .locked || s.ember.st == .master || s.ember.st == .holdover

/-- The 64 bytes of a calendar header. -/
def encCalHdr (h : CalHdr) : Bytes :=
  toLE 64 (2 ^ 448 * h.startSlot + 2 ^ 384 * h.swapSlot + 2 ^ 352 * h.crc + 2 ^ 320 * h.nEntries + 2 ^ 48 * h.calId + h.periodM1)

/-- A calendar is staged in the twin (R438). -/
def mirrorCal (h : CalHdr) (img : List Host.Cell) (s : State) : State :=
  if s.mirrors && !s.twin.primary.isEmpty then
    mirrorSend 16 (.calendar (encCalHdr h ++ cellsRead 0 img 0 (262144 + 16 * h.nEntries))) s
  else s

/-- The shadow bank is armed with its header (R227, R238). -/
def Calendar.arm (c : Calendar) (h : CalHdr) : Calendar :=
  if c.active1 then { c with hdr0 := h, isArmed := true } else { c with hdr1 := h, isArmed := true }

/-- CAL_ARM (R230, R231, R238). Reserved bits of the header come first (R5). -/
def calArm (j : Job) (s : State) : End × State :=
  let x := leNat j.payload
  if calHdrRsv x then (.done .badDescriptor 0xFFFFFFFF, s)
  else if !calState s || s.cal.armed.isSome then (.done .busy, s)
  else match calFault s x with
    | some d => (.done .badDescriptor d, s)
    | none => (.done .ok, mirrorCal (decCalHdr x) (shadowImg s.cal) { s with cal := s.cal.arm (decCalHdr x) })

/-- CAL_CANCEL (R238). -/
def calCancel (_j : Job) (s : State) : Status × State :=
  match s.cal.armed with
  | none => (.ok, s)
  | some h => if s.ns + 512 ≤ 256 * h.swapSlot then (.ok, { s with cal.isArmed := false }) else (.busy, s)

/-- CAL_STOP (R238). -/
def calStop (j : Job) (s : State) : Status × State :=
  let at_ := fldLE j.payload 0 8
  if at_ < s.slot + 4096 then (.badDescriptor, s) else (.ok, { s with cal.stopAt := some at_ })

/-! ## Swap and stop (R231, R235, R237 to R239) -/

/-- Channels that a calendar puts into scheduled mode (R235). -/
def scheduledBy (evs : List CalEv) : List Nat :=
  (List.range 768).filter fun c => evs.any fun v => v.onChan 4 c

/-- A channel leaves scheduled mode: its next refresh and burst count from the last ones. -/
def unschedule (cs : List Nat) (s : State) : State :=
  cs.foldl (fun s c => modChan c (fun k => { k with refDue := k.refLast + tRefi k, scrubDue := k.scrubLast + 64000000 }) s) s

/-- The calendar that runs ends (R231, R238). -/
def stopCalendar (s : State) : State :=
  let gone := s.cal.scheduled
  unschedule gone { s with cal := { s.cal with running := false, gates := [], scheduled := [], xbar := List.range 16, done := [] } }

/-- The sub-slot owners of an XBAR_SHARE event. -/
def xbarOf (v : CalEv) : List Nat := (List.range 16).map fun j => bits v.arg (4 * j + 3) (4 * j)

/-- CAL_SWAP: the armed bank becomes active (R238, R239); a stop of the same boundary or an earlier one acts first. It runs only
in the states of R231; in another it is active and does not run (log entry 47). -/
def calSwap (s : State) : State :=
  match s.cal.armed with
  | none => s
  | some h =>
    if s.slot < h.swapSlot then s
    else
      let stop := s.cal.stopAt.elim false (· ≤ h.swapSlot)
      let s := if stop then { stopCalendar s with cal.stopAt := none } else s
      let img := shadowImg s.cal
      let pos := posAt h h.swapSlot
      let evs := evsAll img h
      let sched := scheduledBy evs
      let x := gateAt (evs.filter (·.kind == 6)) (pos * 256)
      let gone := s.cal.scheduled.filter (! sched.contains ·)
      let now := { s.cal with active1 := !s.cal.active1, isArmed := false, done := [] }
      event 0x0006 true [] none [h.calId] (if calState s then
          { unschedule gone s with cal := { now with
            running := true, gates := gatesAt img h pos, scheduled := sched, xbar := x.elim (List.range 16) xbarOf } }
        else stopCalendar { s with cal := now })

/-- CAL_STOP_ACT: a pending stop acts at its boundary, after any swap of an earlier one (R238). -/
def calStopAct (s : State) : State :=
  match s.cal.stopAt with
  | none => s
  | some a =>
    if s.slot < a || s.cal.armed.elim false (·.swapSlot < a) then s
    else { (if s.cal.running then stopCalendar s else s) with cal.stopAt := none }

/-! ## Events (R231, R232, R235 to R237, R240) -/

/-- How late DRAFT_SLOT makes the events of a slot (R418). -/
def stretch (s : State) (slot : Nat) : Nat :=
  let r := (draftReg s 0x3500).toNat
  if slot % (bits r 23 8 + 1) = 0 then bits r 7 0 else 0

/-- Ember time in 2^-16 ns. -/
def State.fine (s : State) : Nat := 65536 * s.ns + s.frac

/-- Entry `e` of a kind is due in a slot: its position stands there, its time has come within 1 ns (a nanosecond of the local clock is
at most 1.0001 ns, so that one such instant falls between 8 units of 2^-16 ns before it and 1 ns after it), it has not acted, and the
unit actions before it in its position have (R232, R240). Events at or after an armed swap or a pending stop are dropped (R238,
R239). -/
def dueIn (s : State) (e kind slot : Nat) : Option CalEv :=
  let img := activeImg s.cal
  let p := posAt s.cal.hdr slot
  let v := evAt img p e
  let first := idxFirst img p
  if slot < s.cal.hdr.swapSlot || e < first || first + idxNum img p ≤ e || v.kind ≠ kind || s.cal.done.contains (slot, e)
      || s.fine + 8 < 65536 * (256 * slot + 8 * v.offset + stretch s slot)
      || 65536 * (256 * slot + 8 * v.offset + stretch s slot + 1) < s.fine
      || s.cal.armed.elim false (·.swapSlot ≤ slot) || s.cal.stopAt.elim false (· ≤ slot)
      || (2 ≤ kind && (evsOf img p).any fun x => x.e < e && 2 ≤ x.kind && !s.cal.done.contains (slot, x.e)) then none
  else some v

/-- The slot in which entry `e` of the running calendar acts now: this one, the one about to begin or, behind a stretch, one of the last
two. -/
def dueEvent (s : State) (e kind : Nat) : Option (Nat × CalEv) :=
  if !s.cal.running then none
  else [s.slot - 2, s.slot - 1, s.slot, s.slot + 1].findSome? fun k => (dueIn s e kind k).map fun v => (k, v)

/-- A calendar event acts once, when it is due. -/
def calEvent (e kind : Nat) (f : Nat → CalEv → State → State) (s : State) : State :=
  match dueEvent s e kind with
  | none => s
  | some (k, v) =>
    let now := s.slot
    f k v { s with cal.done := (k, e) :: s.cal.done.filter fun x => decide (now ≤ x.1 + 3) }

/-- GATE_OPEN and GATE_CLOSE (R231). -/
def setGates (v : CalEv) (s : State) : State :=
  let mine := fun (g : Gate) => v.gates g.tray g.port g.svc
  let upd := fun (g : Gate) => if v.kind = 0 then { g with open_ := true, maxFrame := v.arg } else { g with open_ := false }
  { s with cal.gates := modWhere mine upd s.cal.gates }

def gateOpen (e : Nat) (s : State) : State := calEvent e 0 (fun _ v s => setGates v s) s
def gateClose (e : Nat) (s : State) : State := calEvent e 1 (fun _ v s => setGates v s) s

/-- CHAIN_START (R236, R90). -/
def chainStart (e : Nat) (s : State) : State := calEvent e 2 (fun k v s => startTemplate v.target v.arg (actAt s k) s) s

/-- A calendar close of one table (R138): its next step, unless another close of the table already waits. -/
def calClose (slot : Nat) (t : Table) (s : State) : State :=
  if !t.closeWait.isEmpty then missedAction (some t.d.part) 3 t.d.id (actAt s slot) s
  else
    let step := (t.closed + 1) % 2 ^ 32
    let s := startClose t.d.part t.d.id { step := step } s
    if tableMirrored s t then mirrorState t.d.part (.desc 0x0807 (toLE 2 t.d.id ++ [0, 0] ++ toLE 4 step)) s else s

/-- STEP_CLOSE of the calendar: its target is a table id, and every table of that id with an update descriptor closes
(R229, R236). -/
def calStepClose (e : Nat) (s : State) : State :=
  calEvent e 3 (fun k v s => (s.tables.filter fun t => t.d.id == v.target && t.u.isSome).foldl (fun s t => calClose k t s) s) s

/-- The channels of a REFRESH or SCRUB event. -/
def CalEv.chans (v : CalEv) : List Nat := ((List.range 32).filter (bit v.arg)).map (32 * v.target + ·)

/-- REFRESH opens a two-slot window for each channel, in which it refreshes (R164, R235). -/
def refresh (e : Nat) (s : State) : State :=
  calEvent e 4 (fun _ v s => v.chans.foldl (fun s c =>
    let now := s.t
    let busy := (s.chan c).refBusy || (s.chan c).refPend
    let s := modChan c (fun k => { k with winRef := some now }) s
    if busy then s else dueRefresh c s) s) s

/-- SCRUB opens a one-slot window for each channel, in which a burst runs (R184, R235). -/
def scrub (e : Nat) (s : State) : State :=
  calEvent e 5 (fun _ v s => v.chans.foldl (fun s c => modChan c (fun k => { k with scrubPend := true }) s) s) s

/-- XBAR_SHARE (R237). -/
def xbarShare (e : Nat) (s : State) : State := calEvent e 6 (fun _ v s => { s with cal.xbar := xbarOf v }) s

/-- MARK (R236). -/
def mark (e : Nat) (s : State) : State :=
  calEvent e 7 (fun _ v s => event 0x0005 true [] none [s.cal.hdr.calId, v.pos, v.target, v.arg] s) s

/-! ## The slot boundary (R232, R478) -/

/-- The settings of R477 apply while PWR_BRAKE_N is low or its latch holds (R431). -/
def brakeWanted (s : State) : Bool := s.power.brakeLow || s.power.brakeLatch

/-! ## Meanings -/

def execCalWrite (m : MbxId) (s : State) : Host.Outcome State Fault Refusal :=
  .next (settle s (runCmd 0x0704 m (simply Sys2Proof.Machine.calWrite) s))
def execCalCopy (m : MbxId) (s : State) : Host.Outcome State Fault Refusal :=
  .next (settle s (runCmd 0x0705 m (simply Sys2Proof.Machine.calCopy) s))
def execCalArm (m : MbxId) (s : State) : Host.Outcome State Fault Refusal :=
  .next (settle s (runCmd 0x0706 m Sys2Proof.Machine.calArm s))
def execCalCancel (m : MbxId) (s : State) : Host.Outcome State Fault Refusal :=
  .next (settle s (runCmd 0x0707 m (simply Sys2Proof.Machine.calCancel) s))
def execCalStop (m : MbxId) (s : State) : Host.Outcome State Fault Refusal :=
  .next (settle s (runCmd 0x0708 m (simply Sys2Proof.Machine.calStop) s))
def execCalRead (m : MbxId) (s : State) : Host.Outcome State Fault Refusal :=
  .next (settle s (runCmd 0x0709 m Sys2Proof.Machine.calRead s))
def execGateOpen (e : Nat) (s : State) : Host.Outcome State Fault Refusal :=
  .next (settle s (Sys2Proof.Machine.gateOpen e s))
def execGateClose (e : Nat) (s : State) : Host.Outcome State Fault Refusal :=
  .next (settle s (Sys2Proof.Machine.gateClose e s))
def execChainStart (e : Nat) (s : State) : Host.Outcome State Fault Refusal :=
  .next (settle s (Sys2Proof.Machine.chainStart e s))
def execCalStepClose (e : Nat) (s : State) : Host.Outcome State Fault Refusal :=
  .next (settle s (Sys2Proof.Machine.calStepClose e s))
def execRefresh (e : Nat) (s : State) : Host.Outcome State Fault Refusal :=
  .next (settle s (Sys2Proof.Machine.refresh e s))
def execScrub (e : Nat) (s : State) : Host.Outcome State Fault Refusal :=
  .next (settle s (Sys2Proof.Machine.scrub e s))
def execXbarShare (e : Nat) (s : State) : Host.Outcome State Fault Refusal :=
  .next (settle s (Sys2Proof.Machine.xbarShare e s))
def execMark (e : Nat) (s : State) : Host.Outcome State Fault Refusal :=
  .next (settle s (Sys2Proof.Machine.mark e s))
def execCalSwap (s : State) : Host.Outcome State Fault Refusal :=
  .next (settle s (Sys2Proof.Machine.calSwap s))
def execCalStopAct (s : State) : Host.Outcome State Fault Refusal :=
  .next (settle s (Sys2Proof.Machine.calStopAct s))

end Sys2Proof.Machine
end

