-- ==== Sys2Proof/Machine/Ember.lean ====
section
/-! DEFINITION. Ember time: election, the exchange, steps, PPS (R30, R211 to R226). -/

namespace Sys2Proof.Machine

/-! ## SCH payloads (R220) -/

def encSync (kind st steps seq tb ta : Nat) : Bytes :=
  toLE 32 (kind + 2 ^ 4 * st + 2 ^ 64 * (steps % 2 ^ 16) + 2 ^ 80 * (seq % 2 ^ 16) + 2 ^ 96 * (tb % 2 ^ 80) + 2 ^ 176 * (ta % 2 ^ 80))

/-- A SYNC payload read: T_A, T_B, SEQ, STEPS; none where it is not of the kind or a reserved bit is set. -/
def decSync (kind : Nat) (b : Bytes) : Option (Nat × Nat × Nat × Nat) :=
  let x := leNat b
  if b.length ≠ 32 || bits x 3 0 ≠ kind || bits x 63 8 ≠ 0 then none
  else some (bits x 255 176, bits x 175 96, bits x 95 80, bits x 79 64)

def encAnn (a : Ann) : Bytes :=
  toLE 32 (2 + 2 ^ 4 * a.state + 2 ^ 88 * (a.cell % 1024) + 2 ^ 98 * b2n a.cmBad + 2 ^ 99 * b2n a.fmBad + 2 ^ 100 * (a.levels % 16)
    + 2 ^ 104 * (a.cmHops % 16) + 2 ^ 108 * (a.fmHops % 16) + 2 ^ 112 * (a.cmPrio % 256) + 2 ^ 120 * (a.fmPrio % 256)
    + 2 ^ 128 * (a.cmSerial % 2 ^ 64) + 2 ^ 192 * (a.fmSerial % 2 ^ 64))

def decAnn (b : Bytes) : Option Ann :=
  let x := leNat b
  if b.length ≠ 32 || bits x 3 0 ≠ 2 || bits x 87 8 ≠ 0 then none
  else some { fmSerial := bits x 255 192, cmSerial := bits x 191 128, fmPrio := bits x 127 120, cmPrio := bits x 119 112,
              fmHops := bits x 111 108, cmHops := bits x 107 104, levels := bits x 103 100, fmBad := bit x 99, cmBad := bit x 98,
              cell := bits x 97 88, state := bits x 7 4 }

/-- An SCH message to a peer: an accelerator, or the module its CONFIG record names. -/
def sendSch (p : Nat) (body : Bytes) (s : State) : State :=
  let dst := if isAccel s p then epId s.flash.prof.cell s.modNum p else (s.port p).peer.elim 0 fun r => epId r.cell r.module r.port
  enqueueSch p { dst := dst, src := ownId s, opc := 1, bytes := 32, body := body } s

/-! ## Election (R216, R217) -/

/-- An election key as one number: lower wins. -/
def electKey (bad : Bool) (prio serial : Nat) : Nat := b2n bad * 2 ^ 72 + prio % 256 * 2 ^ 64 + serial % 2 ^ 64

def ownKey (s : State) : Nat := electKey (!s.ember.ppsQual) s.flash.prof.prio s.flash.serial

def Ann.cmKey (a : Ann) : Nat := electKey a.cmBad a.cmPrio a.cmSerial
def Ann.fmKey (a : Ann) : Nat := electKey a.fmBad a.fmPrio a.fmSerial

/-- The announcement of a stage link that counts: its hello has come (R433) and it is no older than 3 ms; the upstream's counts
while it sends either an ANNOUNCE or a SYNC_RSP within 3 ms (R218). -/
def liveAnn (s : State) (p : Nat) : Option (Hello × Ann) :=
  let x := s.port p
  if x.kind ≠ 1 then none
  else match x.hello, x.ann with
    | some h, some a =>
      if s.t < a.at_ + 3000000 || (s.ember.up == some p && s.t < s.ember.upAt + 3000000) then some (h, a) else none
    | _, _ => none

/-- The links that count, with the key, the hops and the port of each; `intra` chooses links of the cell. -/
def contenders (s : State) (intra : Bool) : List (Nat × Nat × Nat) :=
  (List.range 256).filterMap fun p => match liveAnn s p with
    | none => none
    | some (h, a) =>
      let hops := if intra then a.cmHops else a.fmHops
      if (h.cell == s.flash.prof.cell) != intra || 15 ≤ hops then none
      else some (if intra then a.cmKey else a.fmKey, hops, p)

/-- The lowest key, then the fewest hops, then the lowest port. -/
def bestOf (l : List (Nat × Nat × Nat)) : Option (Nat × Nat × Nat) :=
  l.foldl (fun a x => match a with
    | none => some x
    | some y => if x.1 < y.1 || (x.1 == y.1 && (x.2.1 < y.2.1 || (x.2.1 == y.2.1 && x.2.2 < y.2.2))) then some x else a) none

/-- What the election comes to: cell master, fabric master, upstream. -/
def winner (s : State) : Bool × Bool × Option Nat :=
  let k := ownKey s
  match (bestOf (contenders s true)).filter fun b => decide (b.1 < k) with
  | some b => (false, false, some b.2.2)
  | none => match (bestOf (contenders s false)).filter fun b => decide (b.1 < k) with
    | some b => (true, false, some b.2.2)
    | none => (true, true, none)

/-- The state after an election (R215), and whether a new acquisition starts. `lost` says that the upstream is gone. A cell master
follows the LOCKED rules toward an upstream in another cell. -/
def electState (s : State) (isCm : Bool) (up : Option Nat) (lost : Bool) : SyncSt × Bool :=
  let st := s.ember.st
  let fresh := s.ember.up.isNone
  match up with
  | none => (if st == .holdover || (st == .locked && lost) || (st == .master && lost && 8 ≤ s.ember.good) then .holdover else .master, false)
  | some _ =>
    if st == .holdover then (.holdover, false)
    else if isCm then (.master, fresh)
    else match st with
      | .free => (.acquire, true)
      | .master => if s.cal.running then (.locked, false) else (.acquire, true)
      | x => (x, false)

/-- Elections and upstreams are worked out again (R216 to R218). Nothing is elected before READY_BASIC. With no upstream left,
time runs at the last learned rate (R215, R224). -/
def elect (s : State) : State :=
  if !s.power.readyBasic then s
  else
    let w := winner s
    let lost := s.ember.up.elim false fun p => (liveAnn s p).isNone
    let r := electState s w.1 w.2.2 lost
    let a := w.2.2.bind fun p => (liveAnn s p).map (·.2)
    let e := s.ember
    let entered := r.1 == .holdover && e.st != .holdover
    let alone := e.up.isSome && w.2.2.isNone
    let now := s.t
    let s := { s with ember := { e with
      rate := if entered || alone then e.learned else e.rate, st := r.1, isCm := w.1, isFm := w.2.1, up := w.2.2, fm := a, cm := if w.1 then none else a,
      upAt := if w.2.2 = e.up then e.upAt else now, exch := if w.2.2 = e.up then e.exch else none, first := (r.2 && !s.cal.running) || (!r.2 && e.first),
      good := if r.2 then 0 else e.good, stepNext := e.stepNext && w.2.2 == e.up } }
    let s := if w.2.2 = e.up then s else w.2.2.elim s fun p => modPort p (fun x => { x with upSteps := none, syncOpen := false }) s
    if entered then event 0x0009 true [] none [1] s else s

/-- What the module announces (R220): its masters, with one hop more than its upstream. -/
def ownAnn (s : State) : Ann :=
  let e := s.ember
  let f := s.flash.prof
  let bad := !e.ppsQual
  let x : Ann := { cell := f.cell, state := e.st.code, cmSerial := s.flash.serial, cmPrio := f.prio, cmBad := bad,
                   fmSerial := s.flash.serial, fmPrio := f.prio, fmBad := bad, levels := 1 }
  match e.fm with
  | none => x
  | some u =>
    let x := { x with fmSerial := u.fmSerial, fmPrio := u.fmPrio, fmBad := u.fmBad, fmHops := min 15 (u.fmHops + 1),
                      levels := min 15 (u.levels + b2n e.isCm) }
    match e.cm with
    | none => x
    | some c => { x with cmSerial := c.cmSerial, cmPrio := c.cmPrio, cmBad := c.cmBad, cmHops := min 15 (c.cmHops + 1) }

/-- The stage links that carry SCH. -/
def schPorts (s : State) : List Nat := (List.range 256).filter fun p => (s.port p).kind == 1 && linkAlive s p

/-- ANNOUNCE_TIMER (R218). -/
def announceTimer (s : State) : State :=
  if s.t < s.ember.annAt + 1000000 || !s.power.readyBasic then s
  else
    let s := elect { s with ember.annAt := s.t }
    (schPorts s).foldl (fun s p => sendSch p (encAnn (ownAnn s)) s) s

/-- ANNOUNCE on a stage link (R218). A malformed one, or one on a link that carries none, is answered BAD_DESCRIPTOR (R33, R493). -/
def announce (p : Nat) (m : PktMsg) (s : State) : State :=
  let s := eatPkt p .sch m s
  match decAnn m.body with
  | none => answerOn p m .badDescriptor s
  | some a =>
    if (s.port p).kind ≠ 1 || m.rsv then answerOn p m .badDescriptor s
    else
      let now := s.t
      let s := modPort p (fun x => { x with ann := some { a with at_ := now } }) s
      elect (if s.ember.up = some p then { s with ember.upAt := now } else s)

/-- UPSTREAM_LOST (R218): 3 ms without an ANNOUNCE or SYNC_RSP. -/
def upstreamLost (s : State) : State :=
  match s.ember.up with
  | none => s
  | some p => if s.t < s.ember.upAt + 3000000 then s else elect (modPort p (fun x => { x with ann := none, syncOpen := false }) s)

/-! ## The exchange (R219, R223) -/

/-- The module's time steps by `d` units of 2^-16 ns (R223): STEPS counts it, and times measured before move with it; the token
buckets go on from the new time (R249). -/
def stepBy (d : Int) (s : State) : State :=
  let e := s.ember
  let fx := ((e.fx + d) % (2 ^ 80 : Nat)).toNat
  let re := List.map (DPort.rebase s.ns (fx / 65536))
  let edges := e.ppsEdges.map fun (x : Nat) => ((x : Int) + d / 65536).toNat
  let s : State := { s with
    dsax := re s.dsax
    dtray := re s.dtray
    ember := { e with fx := fx, steps := (e.steps + 1) % 2 ^ 16, ppsEdges := edges } }
  { s with ember := { s.ember with lastSlot := min s.ember.lastSlot s.slot, exch := s.ember.exch.map fun _ => (s.t, 0) } }

/-- The upstream's rate against the local reference, in 2^-32 ns per ns, as the last two exchanges show it (R219): the rate in force
between them, and how the offset has moved. -/
def upRate (theta : Int) (s : State) : Int :=
  match s.ember.exch with
  | some (t, th) => if t < s.t then s.ember.rate + (theta - th) * 65536 / ((s.t - t : Nat) : Int) else s.ember.learned
  | none => s.ember.learned

/-- 50 ns per second in 2^-32 ns per ns: how far the learned rate may be from the upstream's (R224). -/
def holdBound : Int := 214

/-- Steer toward an offset by rate alone, within R213: the learned rate, within R224 of the upstream's, and a correction on the side of
the offset; both are the module's own choice within those bounds. -/
def steer (theta : Int) (s : State) : State :=
  let r : Int := (Config.steerRate s.power.frees).natAbs
  let l := clampRate (upRate theta s + max (-holdBound) (min holdBound (Config.learnedRate s.power.frees)))
  { s with ember := { s.ember with learned := l, exch := some (s.t, theta), rate := clampRate (if theta < 0 then l - r else if theta = 0 then l else l + r) },
           power.frees := s.power.frees + 1 }

/-- The module takes the exchanges of an acquisition. -/
def acquiring (s : State) : Bool := s.ember.st == .acquire || (s.ember.st == .master && s.ember.good < 8)

/-- SYNC_EXCHANGE_TIMER (R219): every 125 us while acquiring, otherwise every 1 ms. FLIT_SEND takes t1. -/
def syncTimer (s : State) : State :=
  match s.ember.up with
  | none => s
  | some p =>
    if s.t < s.ember.syncAt + (if acquiring s then 125000 else 1000000) || !linkAlive s p then s
    else
      let seq := ((s.port p).syncSeq + 1) % 2 ^ 16
      let s := modPort p (fun x => { x with syncSeq := seq, syncOpen := true }) { s with ember.syncAt := s.t }
      sendSch p (encSync 0 s.ember.st.code s.ember.steps seq 0 0) s

/-- SYNC_REQ from a stage link or an accelerator (R219): answered with t2, and with t3, which FLIT_SEND puts in. A twin link gives
no time, and what is malformed is answered BAD_DESCRIPTOR (R33, R493). -/
def syncReq (p : Nat) (m : PktMsg) (t2 : Nat) (s : State) : State :=
  let s := eatPkt p .sch m s
  match decSync 0 m.body with
  | none => answerOn p m .badDescriptor s
  | some r =>
    if m.rsv || 2 ≤ (s.port p).kind || r.1 ≠ 0 || r.2.1 ≠ 0 then answerOn p m .badDescriptor s
    else sendSch p (encSync 1 s.ember.st.code s.ember.steps r.2.2.1 0 t2) s

/-- RESYNC (R223): the calendar stops, both banks go out of use, time steps, and ACQUIRE follows at once. -/
def resync (theta : Int) (s : State) : State :=
  let s := stepBy theta { stopCalendar s with cal.isArmed := false }
  let held := s.ember.st == .holdover
  let s := eventMA 0x0008 [unsigned 64 theta] s
  let s := { s with cal.isArmed := false, ember := { s.ember with
    st := if s.ember.isCm then .master else .acquire, good := 0, first := true, stepNext := false } }
  if held then event 0x0009 true [] none [0] s else s

/-- What an exchange's offset does (R215, R219, R223). -/
def applyTheta (theta : Int) (s : State) : State :=
  let near := theta.natAbs ≤ 131072
  if s.cal.running && 65536000 < theta.natAbs then resync theta s
  else if s.ember.st == .holdover then
    if 65536000 < theta.natAbs then resync theta s
    else event 0x0009 true [] none [0] (steer theta { s with ember := { s.ember with st := if s.ember.isCm then .master else .locked, good := 8 } })
  else
    let s := if acquiring s && s.ember.first && !s.cal.running then stepBy theta { s with ember := { s.ember with first := false, exch := some (s.t, 0) } }
      else if s.ember.stepNext && !s.cal.running then stepBy theta { s with ember := { s.ember with stepNext := false, exch := some (s.t, 0) } }
      else steer theta s
    let good := if near then s.ember.good + 1 else if acquiring s then 0 else s.ember.good
    { s with ember := { s.ember with good := min 8 good,
                                     st := if s.ember.st == .acquire && 8 ≤ good then .locked else s.ember.st } }

/-- SYNC_RSP (R219, R220, R223): the offset of the upstream's time, the link's delay, and the upstream's STEPS. -/
def syncRsp (p : Nat) (m : PktMsg) (t4 : Nat) (s : State) : State :=
  let s := eatPkt p .sch m s
  let x := s.port p
  match decSync 1 m.body with
  | none => s
  | some (t2, t3, seq, steps) =>
    if m.rsv || s.ember.up ≠ some p || !x.syncOpen || seq ≠ x.syncSeq then s
    else
      let theta : Int := (((t2 : Int) - x.t1) - ((t4 : Int) - t3) - x.asym) / 2
      let changed := !s.ember.first && x.upSteps.elim false (· != steps) && !s.cal.running
      let delay : Int := (((t4 : Int) - x.t1) - ((t3 : Int) - t2)) / 2
      let now := s.t
      let s := modPort p (fun x => { x with syncOpen := false, upSteps := some steps, delay := delay }) s
      let s := applyTheta theta { s with ember := { s.ember with theta := theta, upAt := now } }
      if changed then { s with ember.stepNext := true } else s

/-! ## Commands (R212, R219, R491) -/

/-- EMBER_SET (R212). -/
def emberSet (j : Job) (s : State) : Status × State :=
  let fx := fldLE j.payload 0 10
  if !s.ember.isFm || s.cal.running || s.cal.armed.isSome || s.cal.stopAt.isSome then (.busy, s)
  else (.ok, stepBy ((fx : Int) - s.ember.fx) s)

/-- EMBER_LINK_ASYM (R219). -/
def emberLinkAsym (j : Job) (s : State) : Status × State :=
  if !zeroAt j.payload 1 3 then (.badDescriptor, s)
  else (.ok, modPort (fldLE j.payload 0 1) (fun x => { x with asym := signed 32 (fldLE j.payload 4 4) }) s)

/-- EMBER_STATUS (R491). -/
def emberStatus (_j : Job) (s : State) : End × State :=
  let e := s.ember
  let a := ownAnn s
  (.done .ok 0 (toLE 1 e.st.code ++ toLE 1 (e.up.getD 255) ++ toLE 1 a.cmHops ++ toLE 1 a.fmHops ++ toLE 1 a.levels
    ++ toLE 1 (b2n e.ppsQual + 2 * b2n e.isCm + 4 * b2n e.isFm) ++ [0, 0] ++ toLE 8 (unsigned 64 e.theta)
    ++ toLE 2 e.steps ++ List.replicate 6 0 ++ toLE 8 a.fmSerial), s)

/-- EMBER_DELAY_CHECK (R30): the delays are calibrated first, before READY_BASIC, then measured again every 1 ms. -/
def delayCheck (delays : List Nat) (s : State) : State :=
  if !s.ember.delays.isEmpty && s.t < s.ember.delayAt + 1000000 then s else { s with ember := { s.ember with delays := delays, delayAt := s.t } }

/-! ## EMBER_PPS_IN and EMBER_PPS_OUT (R214, R225, R226) -/

/-- The input is disqualified (R225): elections are run again. -/
def ppsBadNow (s : State) : State :=
  if s.ember.ppsQual then elect { s with ember := { s.ember with ppsQual := false, ppsEver := true, ppsGood := 0, ppsFirst := true } }
  else { s with ember.ppsGood := 0 }

/-- The fabric master disciplines its time to a qualified edge (R226). -/
def ppsDiscipline (s : State) : State :=
  if !s.ember.isFm || !s.ember.ppsQual then s
  else
    let off := (s.ns + 1000000000 - s.flash.prof.ppsOffset % 1000000000) % 1000000000
    let d : Int := if off < 500000000 then -(off : Int) else 1000000000 - (off : Int)
    let theta : Int := d * 65536 - s.frac
    if s.ember.ppsFirst && !s.cal.running then stepBy theta { s with ember.ppsFirst := false }
    else steer theta { s with ember.ppsFirst := false }

/-- PPS_EDGE (R225). -/
def ppsEdge (s : State) : State :=
  let now := s.ns
  let es := s.ember.ppsEdges
  let gap := es.head?.map fun x => now - x
  let burst := (es[1]?).elim false fun x => decide (now < x + 900000000)
  let good := gap.elim false fun g => decide (999990000 ≤ g && g ≤ 1000010000)
  let s := { s with ember.ppsEdges := now :: es.take 1 }
  if burst || (gap.isSome && !good) then ppsBadNow s
  else if !good then s
  else
    let n := s.ember.ppsGood + 1
    let s := { s with ember.ppsGood := n }
    let need := if s.ember.ppsEver then 10 else 3
    ppsDiscipline (if !s.ember.ppsQual && need ≤ n then elect { s with ember.ppsQual := true } else s)

/-- PPS_TIMEOUT (R225): no edge within 1.1 s. -/
def ppsTimeout (s : State) : State :=
  if s.ember.ppsEdges.head?.elim false fun x => decide (x + 1100000000 ≤ s.ns) then ppsBadNow { s with ember.ppsEdges := [] } else s

/-- PPS_OUT_PULSE (R214): within 2 ns of each whole second, in the states that give time. -/
def ppsRise (s : State) : State :=
  if calState s && s.ember.fx % (1000000000 * 65536) ≤ 2 * 65536 && !s.power.ppsOut then
    { s with power := { s.power with ppsOut := true, ppsOutAt := s.t } }
  else s

/-- PPS_OUT_END: 100 us after it rose. -/
def ppsFall (s : State) : State :=
  if s.power.ppsOut && s.power.ppsOutAt + 100000 ≤ s.t then { s with power.ppsOut := false } else s

/-! ## Meanings -/

def execEmberSet (m : MbxId) (s : State) : Host.Outcome State Fault Refusal :=
  .next (settle s (runCmd 0x0701 m (simply Sys2Proof.Machine.emberSet) s))
def execEmberLinkAsym (m : MbxId) (s : State) : Host.Outcome State Fault Refusal :=
  .next (settle s (runCmd 0x0702 m (simply Sys2Proof.Machine.emberLinkAsym) s))
def execEmberStatus (m : MbxId) (s : State) : Host.Outcome State Fault Refusal :=
  .next (settle s (runCmd 0x0703 m Sys2Proof.Machine.emberStatus s))
def execSyncExchangeTimer (s : State) : Host.Outcome State Fault Refusal :=
  .next (settle s (syncTimer s))
def execSyncReq (port : Nat) (m : PktMsg) (t2 : Nat) (s : State) : Host.Outcome State Fault Refusal :=
  .next (settle s (Sys2Proof.Machine.syncReq port m t2 s))
def execSyncRsp (port : Nat) (m : PktMsg) (t4 : Nat) (s : State) : Host.Outcome State Fault Refusal :=
  .next (settle s (Sys2Proof.Machine.syncRsp port m t4 s))
def execAnnounceTimer (s : State) : Host.Outcome State Fault Refusal :=
  .next (settle s (Sys2Proof.Machine.announceTimer s))
def execAnnounce (port : Nat) (m : PktMsg) (s : State) : Host.Outcome State Fault Refusal :=
  .next (settle s (Sys2Proof.Machine.announce port m s))
def execUpstreamLost (s : State) : Host.Outcome State Fault Refusal :=
  .next (settle s (Sys2Proof.Machine.upstreamLost s))
def execEmberDelayCheck (delays : List Nat) (s : State) : Host.Outcome State Fault Refusal :=
  .next (settle s (delayCheck delays s))
def execPpsEdge (s : State) : Host.Outcome State Fault Refusal :=
  .next (settle s (Sys2Proof.Machine.ppsEdge s))
def execPpsTimeout (s : State) : Host.Outcome State Fault Refusal :=
  .next (settle s (Sys2Proof.Machine.ppsTimeout s))
def execPpsOutPulse (s : State) : Host.Outcome State Fault Refusal :=
  .next (settle s (ppsRise s))
def execPpsOutEnd (s : State) : Host.Outcome State Fault Refusal :=
  .next (settle s (ppsFall s))

end Sys2Proof.Machine
end

