-- ==== Sys2Proof/Machine/Ash.lean ====
section
/-! DEFINITION. The Ash tier and the Cinder protocol (R319 to R329). -/

namespace Sys2Proof.Machine

def State.ns? (s : State) (p : Nat) : Option Ns := s.tiers.ns.find? (·.part == p)
def State.unit? (s : State) (p u : Nat) : Option AUnit := s.tiers.units.find? fun x => x.part == p && x.unit == u

/-! ## Units and pages (R321) -/

/-- Bytes of a page before its MAC (R321). -/
def AshTray.room (a : AshTray) : Nat := a.pageSize - 16

/-- The first page of a unit in its block, and how many its header and coded bytes reach over (R321). -/
def firstPage (a : AshTray) (u : AUnit) : Nat := u.off / a.room
def unitPages (a : AshTray) (u : AUnit) : Nat := (u.off + u.len + 31) / a.room + 1 - firstPage a u

/-- The commands of at most four pages that read or program a unit (R328). -/
def unitCmds (a : AshTray) (u : AUnit) : List Cinder :=
  (List.range ((unitPages a u + 3) / 4)).map fun k =>
    let n := min 4 (unitPages a u - 4 * k)
    { tray := u.tray, ch := u.ch, block := u.block, page := firstPage a u + 4 * k, npages := n, len := n * a.pageSize, piece := k }

/-- The MAC of a page (R321): over its contents, its physical address and its program sequence number. -/
def pageMac (key t ch b page pseq : Nat) (d : Bytes) : Bytes :=
  (Config.gmac key (t * 2 ^ 56 + ch * 2 ^ 48 + b * 2 ^ 16 + page) pseq d ++ List.replicate 16 0).take 16

/-- A block's page contents from a page on, as far as units were placed there and not yet programmed. -/
def blockBytes (s : State) (t ch b page room : Nat) : Bytes :=
  (s.tiers.pendU.filter fun u => u.tray == t && u.ch == ch && u.block == b && page * room ≤ u.off).flatMap (·.bytes)

/-- Program what was placed in a block (R321): whole pages, since a page is programmed once, the last one padded with zeros; foreground
on queue 2c + 1, background on queue 2c + 2. -/
def flushBlock (p t ch b : Nat) (back : Bool) (s : State) : State :=
  match s.ashTray? t, s.ns? p with
  | some a, some n =>
    let x := s.nblock t ch b
    let end_ := (x.used + a.room - 1) / a.room
    let cnt := end_ - x.next
    let d := blockBytes s t ch b x.next a.room ++ List.replicate a.room 0
    let page := fun (k : Nat) =>
      let c := (d.drop (k * a.room)).take a.room
      c ++ pageMac (n.key.getD 0) t ch b (x.next + k) (n.pseq + 1 + k) c
    let s := modBlock t ch b (fun y => { y with used := end_ * a.room, next := end_,
                                                progs := (List.range cnt).map (fun k => (x.next + k, n.pseq + 1 + k)) ++ y.progs }) s
    let s := { s with tiers.ns := modWhere (·.part == p) (fun n => { n with pseq := n.pseq + cnt }) s.tiers.ns }
    (List.range ((cnt + 3) / 4)).foldl (fun s k =>
      let m := min 4 (cnt - 4 * k)
      submitCinder { tray := t, qid := 2 * ch + (if back then 2 else 1), opc := 3, ch := ch, block := b, page := x.next + 4 * k, npages := m,
                     len := m * a.pageSize, part := p, data := (List.range m).flatMap fun i => page (4 * k + i) } s) s
  | _, _ => s

/-- Every block of a partition that holds what is placed and not yet programmed. -/
def flushAll (p : Nat) (back : Bool) (s : State) : State :=
  ((s.tiers.pendU.filter fun u => u.part == p && !u.homeless).map fun u => (u.tray, u.ch, u.block)).eraseDups.foldl
    (fun s x => flushBlock p x.1 x.2.1 x.2.2 back s) s

/-- The pages of a sampled unit are read, in the background for a relocation. -/
def readPages (r : ARead) (s : State) : State :=
  match s.ashTray? r.u.tray with
  | none => s
  | some a =>
    let cs := unitCmds a r.u
    let q := match r.who with
      | .reloc _ => 2
      | _ => 1
    let s := { s with tiers.reads := s.tiers.reads.filter (·.id != r.id) ++ [{ r with mapping := false, count := cs.length }] }
    cs.foldl (fun s c => submitCinder { c with qid := 2 * r.u.ch + q, opc := 2, read := r.id } s) s

/-- A new read of a unit. -/
def newRead (who : AWho) (u : AUnit) (s : State) : ARead × State :=
  ({ id := s.tiers.nextRead, who := who, u := u }, { s with tiers.nextRead := s.tiers.nextRead + 1 })

/-- Read a unit whose map entry is at hand (R324). -/
def readUnit (who : AWho) (u : AUnit) (s : State) : State :=
  let r := newRead who u s
  readPages r.1 r.2

/-! ## The map cache (R19, R37, R322, R372) -/

/-- The page of a unit's map entry: 512 entries of 8 bytes (log entry 89). -/
def mapPage (unit : Nat) : Nat := unit / 512

/-- Pages that a partition's slice holds in a secure profile, or the pool of all partitions otherwise (R322, R372). -/
def mapRoom (s : State) : Nat :=
  let n := s.flash.prof.sysNooks * 3145728
  if s.flash.prof.secure then n / 16 else n

/-- A page is the most recently used; the least recently used one of its slice, or of the pool, leaves a full cache. -/
def keepPage (p page : Nat) (s : State) : State :=
  let l := (p, page) :: s.tiers.mapCache.filter (· != (p, page))
  let own := fun (x : Nat × Nat) => !s.flash.prof.secure || x.1 == p
  let last := (l.filter own).getLast?
  { s with tiers.mapCache := if mapRoom s < (l.filter own).length then l.filter fun x => some x != last else l }

/-! ## Placement (R320, R321, R325) -/

def AshTray.cap (a : AshTray) : Nat := a.pages * a.room

/-- The channels of a partition. -/
def ashChans (s : State) (p : Nat) : List (AshTray × Nat) :=
  (s.tiers.trays.filter fun a => a.part == p && !a.failed).flatMap fun a => a.chans.map fun c => (a, c)

/-- The free block of a channel with the lowest erase count, or the highest. -/
def freeBlock (a : AshTray) (ch : Nat) (high : Bool) : Option Nat :=
  (((a.blocks.filter fun x => x.1 == ch && !x.2.bad && !x.2.leaving && x.2.free).map (·.2)).foldl (fun (m : Option NBlock) b => match m with
    | none => some b
    | some x => if (if high then x.erases < b.erases else b.erases < x.erases) then some b else some x) none).map (·.id)

/-- A block of a channel that takes `n` bytes (R321, R325): the one that is fixed, else the open one, else the free one with the lowest
erase count. -/
def blockFor (a : AshTray) (ch n : Nat) (into : Option Nat) : Option Nat :=
  let bs := (a.blocks.filter fun x => x.1 == ch && !x.2.bad && !x.2.leaving && decide (x.2.used + n ≤ a.cap)).map (·.2)
  match bs.find? fun b => into == some b.id, bs.find? fun b => !b.free with
  | some b, _ => some b.id
  | none, some b => some b.id
  | none, none => freeBlock a ch false

/-- Place a unit on the partition's channels: for a relocation that of its old place first, then its own one by unit number. -/
def placeUnit (s : State) (p unit n : Nat) (into : Option Nat) (near : Option (Nat × Nat)) : Option (Nat × Nat × Nat) :=
  let cs := ashChans s p
  let here := cs.filter fun x => near == some (x.1.port, x.2)
  (here ++ cs.rotate (if cs.isEmpty then 0 else unit % cs.length)).findSome? fun x =>
    (blockFor x.1 x.2 n (if near == some (x.1.port, x.2) then into else none)).map fun b => (x.1.port, x.2, b)

/-- The bytes written for a unit: its header, then the coded unit under the flash key (R321; the header's layout is log entry 9). -/
def sealUnit (key unit wseq : Nat) (d : Bytes) : Bytes :=
  let c := fluxCode d
  toLE 8 unit ++ toLE 8 wseq ++ toLE 8 c.length ++ List.replicate 8 0 ++ (Config.xtsSeal key unit wseq c ++ List.replicate c.length 0).take c.length

/-- A unit's bytes read back: none where its header or its code is wrong. -/
def openUnit (key : Nat) (u : AUnit) (b : Bytes) : Option Bytes :=
  if fldLE b 0 8 ≠ u.unit || fldLE b 8 8 ≠ u.wseq || fldLE b 16 8 ≠ u.len then none
  else (fluxBlocks 256 (Config.xtsOpen key u.unit u.wseq ((b.drop 32).take u.len))).bind fun x => if x.2.isEmpty then some x.1 else none

/-- A unit takes its place in a block. -/
def occupy (t ch b n : Nat) (s : State) : State := modBlock t ch b (fun x => { x with free := false, used := x.used + n }) s

/-- Start writing a unit: coded and placed in a block, to be programmed with what is placed beside it; none where no block is free. -/
def writeUnit (p unit : Nat) (job reloc : Option Nat) (into : Option Nat) (near : Option (Nat × Nat)) (d : Bytes) (s : State) : Option State :=
  match s.ns? p with
  | none => none
  | some n =>
    let w := n.wseq + 1
    let b := sealUnit (n.key.getD 0) unit w d
    match placeUnit s p unit b.length into near with
    | none => none
    | some (t, ch, k) =>
      let u : AUnit := { part := p, unit := unit, tray := t, ch := ch, block := k, off := (s.nblock t ch k).used, len := b.length - 32, wseq := w,
                         bytes := b, job := job, reloc := reloc }
      some (occupy t ch k b.length { s with tiers := { s.tiers with
        ns := modWhere (·.part == p) (fun n => { n with wseq := w }) s.tiers.ns, pendU := s.tiers.pendU ++ [u] } })

/-! ## Namespaces and channels (R319, R320) -/

def sysNook (s : State) : Bool := s.flash.prof.sysNooks != 0

/-- Raw bytes of the good blocks of a partition's channels. -/
def ashRaw (s : State) (p : Nat) : Nat :=
  ((s.tiers.trays.filter (·.part == p)).map fun a => a.pages * a.pageSize * (a.blocks.filter fun x => a.chans.contains x.1 && !x.2.bad).length).sum

/-- A namespace's key records (R392): under the sealing key, and for a paired twin once each has verified the other's Hallmark. The
namespace id is its partition number (log entry 3). -/
def keyRecords (s : State) (n : Ns) : Ns :=
  let k := n.key.getD 0
  if n.key.isNone then n
  else { n with record := Config.sealRecord k s.flash.serial n.part,
                twinRecord := if s.twin.st != .unpaired && s.twin.verified then Config.twinRecord s.twin.serial k n.part else [] }

/-- What tells the twin of a namespace: its size, and its key record for the twin (R392, R438; log entry 88). -/
def nsMessage (n : Ns) : MirrorMsg := .desc 0x0A03 (toLE 4 n.units ++ n.twinRecord)

/-- ASH_NS_CREATE (R319, R20, R381, R390). -/
def ashNsCreate (j : Job) (s : State) : Status × State :=
  let p := fldLE j.payload 0 1
  let n := fldLE j.payload 4 4
  if !zeroAt j.payload 1 3 then (.badDescriptor, s)
  else if !sysNook s || (s.part? p).isNone || s.power.noIdentity then (.noAccess, s)
  else if 7 * ashRaw s p < 8 * (n * 65536) then (.badDescriptor, s)
  else if (s.ns? p).isSome || s.power.trngFail then (.busy, s)
  else
    let (k, s) := drawKey s
    let x := keyRecords s { part := p, units := n, key := some k }
    (.ok, mirrorState p (nsMessage x) { s with tiers.ns := s.tiers.ns ++ [x] })

/-- ASH_NS_DESTROY (R408, R388): the flash keys end with the namespace, and so do its units and what reads or writes them. -/
def ashNsDestroy (j : Job) (s : State) : Status × State :=
  let p := fldLE j.payload 0 1
  if !sysNook s || (s.ns? p).isNone then (.noAccess, s)
  else if s.tiers.lists.any fun l => l.part == p && l.entries.any (·.srcTier == 3) then (.busy, s)
  else
    let gone := s.tiers.units.filter (·.part == p)
    let run := s.tiers.jobs.filter (·.part == p)
    let s := { s with tiers := { s.tiers with
      ns := s.tiers.ns.filter (·.part != p), units := s.tiers.units.filter (·.part != p), jobs := s.tiers.jobs.filter (·.part != p),
      pendU := s.tiers.pendU.filter (·.part != p), reads := s.tiers.reads.filter (·.u.part != p),
      mapCache := s.tiers.mapCache.filter (·.1 != p) } }
    let s := gone.foldl (fun s u => journal p u.unit {} s) s
    (.ok, mirrorState p (.desc 0x0A04 []) (run.foldl (fun s j => finish j.job .noAccess 0 [] s) s))

/-- ASH_ASSIGN (R320, R327): channels of the tray go to the port's owner; the module reads their bad-block logs and creates
their queues. A failed tray is in use again (R329). What was mapped to a channel that is given up is damaged. -/
def ashAssign (j : Job) (s : State) : Status × State :=
  let t := fldLE j.payload 0 1
  let m := fldLE j.payload 8 8
  if !zeroAt j.payload 1 7 then (.badDescriptor, s)
  else if !sysNook s then (.noAccess, s)
  else if (s.tray t).mode ≠ 3 then (.badDescriptor, s)
  else match (s.tray t).owner, s.ashTray? t with
    | some p, some a =>
      if !a.identified || !a.ctrlEn then (.busy, s)
      else if 2 ^ a.chanCount ≤ m then (.badDescriptor, s)
      else
        let cs := (List.range a.chanCount).filter (bit m)
        let new := a.failed || a.part != p
        let fresh := if new then cs else cs.filter (! a.chans.contains ·)
        let keep := fun (a : AshTray) => (if new then [] else a.blocks).filter fun x => cs.contains x.1
        let s := damageUnits (fun u => u.part == p && u.tray == t && a.chans.contains u.ch && !cs.contains u.ch) s
        let s := modAsh t (fun a => { a with part := p, chans := cs, failed := false, blocks := keep a }) s
        (.ok, fresh.foldl (fun s c =>
          createQueues t c (submitCinder { tray := t, opc := 5, ch := c, len := 4096 } s)) s)
    | _, _ => (.noAccess, s)

/-! ## Unit commands (R323) -/

/-- Checks that ASH_WRITE, ASH_READ and ASH_TRIM share. -/
def ashRange (j : Job) (s : State) : Status :=
  match s.ns? j.part with
  | none => .noAccess
  | some n =>
    if !sysNook s || n.key.isNone || n.units < fldLE j.payload 0 4 + fldLE j.payload 4 4 then .noAccess
    else if 256 ≤ (s.tiers.jobs.filter (·.part == j.part)).length then .busy else .ok

def ashUnits (j : Job) : List Nat := (List.range (fldLE j.payload 4 4)).map (fldLE j.payload 0 4 + ·)

/-- ASH_STATUS (R20, R408): NUNITS, written units, then 16 bytes for each own channel: tray, channel, free blocks, lowest and highest
erase count (log entry 9). -/
def ashStatus (j : Job) (s : State) : End × State :=
  let n := (s.ns? j.part).elim 0 (·.units)
  let w := (s.tiers.units.filter (·.part == j.part)).length
  if !sysNook s then (.done .noAccess, s)
  else (.done .ok 0 (toLE 4 n ++ toLE 4 w ++ (ashChans s j.part).flatMap fun x =>
    let bs := (x.1.blocks.filter fun b => b.1 == x.2 && !b.2.bad).map (·.2)
    toLE 1 x.1.port ++ toLE 1 x.2 ++ [0, 0] ++ toLE 4 (bs.filter (·.free)).length
      ++ toLE 4 ((bs.map (·.erases)).min?.getD 0) ++ toLE 4 ((bs.map (·.erases)).max?.getD 0)), s)

/-! ## Programmed units, erases, relocation (R322, R324, R325) -/

/-- A unit reads from a block. -/
def AUnit.inBlock (u : AUnit) (t ch b : Nat) : Bool := u.tray == t && u.ch == ch && u.block == b

/-- A block that is being emptied is erased once no entry names it and every read and write of it has ended (R324, R325). -/
def eraseCheck (t ch b : Nat) (s : State) : State :=
  let x := s.nblock t ch b
  let used := s.tiers.units.any (fun u => u.inBlock t ch b && !u.damaged) || s.tiers.pendU.any (·.inBlock t ch b)
    || s.tiers.reads.any (fun r => r.u.inBlock t ch b && r.st.isNone) || s.tiers.cmds.any fun c => c.tray == t && c.opc == 4 && c.ch == ch && c.block == b
  if !x.leaving || x.bad || used then s
  else submitCinder { tray := t, qid := 2 * ch + 2, opc := 4, ch := ch, block := b } s

/-- ASH_TRIM (R323): what is on its way to the map when it comes is not mapped. -/
def ashTrim (j : Job) (s : State) : Status × State :=
  match ashRange j s with
  | .ok =>
    let us := ashUnits j
    let mine := fun (u : AUnit) => u.part == j.part && us.contains u.unit
    let gone := s.tiers.units.filter mine
    let s := { s with tiers := { s.tiers with
      units := s.tiers.units.filter (! mine ·), pendU := modWhere mine (fun u => { u with trimmed := true }) s.tiers.pendU } }
    (.ok, gone.foldl (fun s u => eraseCheck u.tray u.ch u.block (journal j.part u.unit {} s)) s)
  | st => (st, s)

/-- The units of a partition that its failed programs left without a block, and the block each found (R325). -/
def rehome (p : Nat) (s : State) : State :=
  flushAll p false ((s.tiers.pendU.filter fun u => u.part == p && u.homeless).foldl (fun s u =>
    match placeUnit s p u.unit u.bytes.length none none with
    | none => s
    | some (t, ch, b) =>
      let u' := { u with tray := t, ch := ch, block := b, off := (s.nblock t ch b).used, homeless := false }
      occupy t ch b u.bytes.length { s with tiers.pendU := s.tiers.pendU.map fun x => if x == u then u' else x }) s)

/-- Pages of a unit lie among those of a command. -/
def onPages (a : AshTray) (c : Cinder) (u : AUnit) : Bool :=
  u.inBlock c.tray c.ch c.block && decide (firstPage a u < c.page + c.npages) && decide (c.page < firstPage a u + unitPages a u)

/-- Every page of a unit that is being written has been programmed. -/
def allProgrammed (s : State) (u : AUnit) : Bool :=
  !u.homeless && (s.ashTray? u.tray).elim true fun a => !(s.tiers.cmds.any fun c => c.opc == 3 && onPages a c u)

/-- ASH_UNIT_PROGRAMMED (R321 to R324): every page of the oldest write of the unit is programmed; its entry is replaced, or a
relocation whose entry has changed is discarded. -/
def unitProgrammed (p unit : Nat) (s : State) : State :=
  match s.tiers.pendU.find? fun u => u.part == p && u.unit == unit with
  | none => s
  | some u =>
    if !allProgrammed s u then s
    else
      let s := { s with tiers.pendU := s.tiers.pendU.erase u }
      let old := s.unit? p unit
      let keep := !u.trimmed && u.reloc.elim true fun w => old.elim false fun o => o.wseq == w && !o.damaged
      let e := { u with bytes := [], job := none, reloc := none }
      let s := if !keep then s else journal p unit e
        { s with tiers.units := s.tiers.units.filter (fun x => !(x.part == p && x.unit == unit)) ++ [e] }
      let s := if keep && (s.nblock u.tray u.ch u.block).bad then readUnit (.reloc none) e s else s
      let s := old.elim s fun o => eraseCheck o.tray o.ch o.block s
      u.job.elim s fun j => ashJobUnit j unit .ok s

/-- Relocate the valid units of a block, then erase it. -/
def relocateBlock (t ch b : Nat) (into : Option Nat) (s : State) : State :=
  let us := s.tiers.units.filter fun u => u.inBlock t ch b && !u.damaged
  let s := modBlock t ch b (fun x => { x with leaving := true }) s
  eraseCheck t ch b (us.foldl (fun s u => readUnit (.reloc into) u s) s)

/-- Bytes of a block's valid units. -/
def validBytes (s : State) (t ch b : Nat) : Nat := ((s.tiers.units.filter fun u => u.inBlock t ch b && !u.damaged).map fun u => u.len + 32).sum

/-- The block that collection empties (R325): of the channel's written blocks the one with the fewest valid bytes. -/
def collectable (s : State) (a : AshTray) (ch : Nat) : Option Nat :=
  let bs := (a.blocks.filter fun x => x.1 == ch && !x.2.free && !x.2.bad && !x.2.leaving && !x.2.stuck
    && !(s.tiers.pendU.any (·.inBlock a.port ch x.2.id))).map (·.2)
  ((bs.filter fun b => validBytes s a.port ch b.id < b.used).foldl (fun (m : Option Nat) b => match m with
    | none => some b.id
    | some x => if validBytes s a.port ch b.id < validBytes s a.port ch x then some b.id else some x) none)

/-- A write of a partition finds no free block (R323): a block of its channels is being emptied, or collection starts on one; the
answer is false where there is nothing to collect. -/
def freeRoom (p : Nat) (s : State) : Bool × State :=
  let cs := ashChans s p
  if cs.any fun x => x.1.blocks.any fun b => b.1 == x.2 && b.2.leaving && !b.2.bad then (true, s)
  else match cs.findSome? fun x => (collectable s x.1 x.2).map fun b => (x.1.port, x.2, b) with
    | some (t, ch, b) => (true, relocateBlock t ch b none s)
    | none => (false, s)

/-- ASH_WRITE (R321, R323): it waits for collection where no block is free. -/
def ashWrite (j : Job) (s : State) : End × State :=
  let us := ashUnits j
  let addr := fldLE j.payload 8 8
  if !sysNook s then (.done .noAccess, s)
  else if addr % 64 ≠ 0 then (.done .badDescriptor, s)
  else match ashRange j s with
    | .ok =>
      if us.isEmpty then (.done .ok, s)
      else jobRead j j.part [(addr, 65536 * us.length)] (fun rd s =>
        let go := us.zipIdx.foldl (fun (a : Option State) x => a.bind fun s =>
          writeUnit j.part x.1 (some j.id) none none none (rd (addr + 65536 * x.2) 65536) s) (some s)
        match go with
        | none =>
          let r := freeRoom j.part s
          (if r.1 then .again else .done .busy, r.2)
        | some s =>
          let n : AshJob := { job := j.id, part := j.part, write := true, first := fldLE j.payload 0 4, count := us.length, addr := addr, left := us }
          (.waits, flushAll j.part false { s with tiers.jobs := s.tiers.jobs ++ [n] })) s
    | st => (.done st, s)

/-- The units that still have no block: collection goes on, or their writes end with BUSY where there is nothing to collect (R323). -/
def homeless (p : Nat) (s : State) : State :=
  let us := s.tiers.pendU.filter fun u => u.part == p && u.homeless
  if us.isEmpty then s
  else
    let r := freeRoom p s
    if r.1 then r.2
    else us.foldl (fun s u => match u.job with
      | some j => ashJobUnit j u.unit .busy s
      | none => (s.unit? p u.unit).elim s fun o => relocStops o s) { s with tiers.pendU := s.tiers.pendU.filter (! us.contains ·) }

/-- Free blocks of a channel are short (R325). -/
def fewFree (a : AshTray) (ch : Nat) : Bool :=
  let n := (a.blocks.filter fun x => x.1 == ch && x.2.free && !x.2.bad).length
  50 * n < a.perChan || n < 8

/-- A block of the channel is due for read-disturb relocation, which goes before the kinds below it in the table (R325). -/
def disturbed (a : AshTray) (ch : Nat) : Bool :=
  a.blocks.any fun x => x.1 == ch && !x.2.leaving && !x.2.bad && (a.readLimit ≤ x.2.reads || x.2.flips)

/-- ASH_BACKGROUND_WORK (R325): a trigger that holds starts its action. -/
def ashWork (w : AshWork) (s : State) : State :=
  match w with
  | .readDisturb t ch b =>
    let x := s.nblock t ch b
    if (s.ashTray? t).elim false fun a => !a.failed && !x.leaving && !x.bad && (a.readLimit ≤ x.reads || x.flips) then relocateBlock t ch b none s else s
  | .badBlock t ch b =>
    let x := s.nblock t ch b
    if x.bad && !x.leaving then relocateBlock t ch b none s else s
  | .collection t ch =>
    match s.ashTray? t with
    | none => s
    | some a =>
      if a.failed || !fewFree a ch || disturbed a ch then s
      else (collectable s a ch).elim s fun b => relocateBlock t ch b none s
  | .staticWear t ch =>
    match s.ashTray? t with
    | none => s
    | some a =>
      let bs := (a.blocks.filter fun x => x.1 == ch && !x.2.bad).map (·.2)
      let lo := (bs.map (·.erases)).min?.getD 0
      let hi := (bs.map (·.erases)).max?.getD 0
      match bs.find? fun b => b.erases == lo && !b.free && !b.leaving && !(s.tiers.pendU.any (·.inBlock t ch b.id)) with
      | some b => if !a.failed && lo + 256 < hi && !disturbed a ch && !fewFree a ch then relocateBlock t ch b.id (freeBlock a ch true) s else s
      | none => s

/-! ## Reads that end -/

/-- A read has come to its status: its command, its list entry or its relocation goes on. An ASH_READ writes where no agent's store is
refused (R100, R312). -/
def readEnds (r : ARead) (st : Status) (d : Bytes) (s : State) : State :=
  let drop := fun (s : State) => { s with tiers.reads := s.tiers.reads.filter (·.id != r.id) }
  let u := r.u
  let check := fun (s : State) => eraseCheck u.tray u.ch u.block s
  match r.who with
  | .job id =>
    match s.tiers.jobs.find? (·.job == id) with
    | none => check (drop s)
    | some j =>
      let o := j.addr + 65536 * (u.unit - j.first)
      let st := if st ≠ .ok then st else if guarded s o 65536 then .noAccess else pourAccess s s.maps.cur j.part true o 65536
      check (ashJobUnit id u.unit st (if st = .ok then engWrite (ashTok id) j.part o d (drop s) else drop s))
  | .bellows _ _ _ => check { s with tiers.reads := modWhere (·.id == r.id) (fun r => { r with st := some st, data := d }) s.tiers.reads }
  | .reloc into =>
    let s := drop s
    if st ≠ .ok then check s
    else match writeUnit u.part u.unit none (some u.wseq) into (some (u.tray, u.ch)) d s with
      | some s => check (flushAll u.part true s)
      | none => homeless u.part (relocStops u s)

/-- A read whose map entry has come (R322 to R324): an unwritten unit is zeros, a damaged one DAMAGED, any other is read. -/
def sampleUnit (r : ARead) (s : State) : State :=
  match s.unit? r.u.part r.u.unit with
  | none => readEnds r .ok (List.replicate 65536 0) s
  | some u => if u.damaged then readEnds { r with u := u } .damaged [] s else readPages { r with u := u } s

/-- Read a unit (R322): its map page is loaded first where it is not cached, by a channel of the partition. A partition with no working
channel has no page to load. -/
def askUnit (who : AWho) (p unit : Nat) (s : State) : State :=
  let x := newRead who { part := p, unit := unit } s
  let r := x.1
  let s := { x.2 with tiers.reads := x.2.tiers.reads ++ [r] }
  match ashChans s p with
  | [] => sampleUnit r s
  | (a, ch) :: _ =>
    if s.tiers.mapCache.contains (p, mapPage unit) then sampleUnit r (keepPage p (mapPage unit) s)
    else
      let r' := { r with mapping := true, u := { r.u with tray := a.port, ch := ch, block := Config.mapBlock p (mapPage unit) } }
      submitCinder { tray := a.port, qid := 2 * ch + 1, opc := 2, ch := ch, block := r'.u.block, npages := 1, len := a.pageSize, read := r.id }
        { s with tiers.reads := modWhere (·.id == r.id) (fun _ => r') s.tiers.reads }

/-- ASH_READ (R322, R323): each unit is sampled once its map page is cached; the last one ends the command, once every write has
ended. -/
def ashRead (j : Job) (s : State) : End × State :=
  let us := ashUnits j
  let first := fldLE j.payload 0 4
  let addr := fldLE j.payload 8 8
  if !sysNook s then (.done .noAccess, s)
  else if addr % 64 ≠ 0 then (.done .badDescriptor, s)
  else match s.tiers.jobs.find? (·.job == j.id) with
  | some x =>
    if !x.left.isEmpty then (.waits, s)
    else if engBusy s (ashTok j.id) then (.again, s)
    else (.done (ashStored s x), engForget (ashTok j.id) { s with tiers.jobs := s.tiers.jobs.filter (·.job != j.id) })
  | none => match ashRange j s, pourAccess s s.maps.cur j.part true addr (65536 * us.length) with
    | .ok, .ok =>
      if us.isEmpty then (.done .ok, s)
      else
        let n : AshJob := { job := j.id, part := j.part, first := first, count := us.length, addr := addr, left := us }
        (.waits, us.foldl (fun s u => askUnit (.job j.id) j.part u s) { s with tiers.jobs := s.tiers.jobs ++ [n] })
    | .ok, st => (.done st, s)
    | st, _ => (.done st, s)

/-- A map page has come: it is cached, and the read goes on. -/
def mapLoaded (r : ARead) (s : State) : State :=
  sampleUnit { r with mapping := false } (keepPage r.u.part (mapPage r.u.unit) s)

/-- The contents of a command's pages, when the MAC at the end of each holds (R321), each with its own program sequence number. -/
def pageData (key size : Nat) (c : Cinder) (pseq : Nat → Nat) (d : Bytes) : Option Bytes :=
  let pages := (List.range c.npages).map fun k => (d.drop (k * size)).take size
  let mac := fun (k : Nat) (x : Bytes) => pageMac key c.tray c.ch c.block (c.page + k) (pseq (c.page + k)) x
  let good := pages.zipIdx.all fun x => mac x.2 (x.1.take (size - 16)) == x.1.drop (size - 16)
  if d.length ≠ c.npages * size || !good then none else some (pages.flatMap (·.take (size - 16)))

/-- Bad-block handling (R325): the block is grown-bad. -/
def growBad (t ch b : Nat) (s : State) : State := modBlock t ch b (fun x => { x with bad := true, free := false }) s

/-- The entry that a read sampled becomes damaged. -/
def damageRead (u : AUnit) (s : State) : State := damageUnits (fun x => x.part == u.part && x.unit == u.unit && x.wseq == u.wseq) s

/-- A page cannot be read (R329): once more, then its block is bad and the unit damaged. -/
def readFails (c : Cinder) (r : ARead) (s : State) : State :=
  if !c.retried then submitCinder { c with retried := true } s
  else
    readEnds r .damaged [] (growBad c.tray c.ch c.block (damageRead r.u s))

/-- A unit whose MACs hold but whose header or code is wrong is damaged, and ASH_INTEGRITY reports it (R323, R366). -/
def unitMalformed (r : ARead) (s : State) : State :=
  let u := r.u
  readEnds r .damaged [] (event 0x0016 true [] (some u.part) [u.tray, u.part, u.unit] (damageRead u s))

/-- A READ command brings its pages. Those of a read that has ended already are dropped. -/
def readPiece (c : Cinder) (cpl : CinderCpl) (d : Bytes) (s : State) : State :=
  match s.tiers.reads.find? fun r => r.id == c.read && r.st.isNone with
  | none => s
  | some r =>
    let key := ((s.ns? r.u.part).bind (·.key)).getD 0
    let size := (s.ashTray? c.tray).elim 0 (·.pageSize)
    let pseq := fun (page : Nat) => if r.mapping then s.tiers.checkpoints else ringAt page (s.nblock c.tray c.ch c.block).progs
    let lim := (s.ashTray? c.tray).elim 0 (·.flipLimit)
    let s := modBlock c.tray c.ch c.block (fun x => { x with reads := x.reads + 1, flips := x.flips || lim ≤ cpl.flips }) s
    let s := if cpl.status = 1 then count (some r.u.part) (fun t => { t with flashCe := sat32 (t.flashCe + 1) }) s else s
    match pageData key size c pseq d with
    | none => readFails c r s
    | some b =>
      if r.mapping then mapLoaded r s
      else
      let ps := r.pieces ++ [(c.piece, b)]
      if ps.length < r.count then
        { s with tiers.reads := modWhere (·.id == r.id) (fun r => { r with pieces := ps }) s.tiers.reads }
      else
        let all := (List.range r.count).flatMap fun k => (ps.find? (·.1 == k)).elim [] (·.2)
        match openUnit key r.u (all.drop (r.u.off % (size - 16))) with
        | some x => readEnds r .ok x s
        | none => unitMalformed r s

/-- A program fails (R325, R329): the block is bad, and what lies on its pages is written elsewhere from the module's buffer. -/
def programFails (c : Cinder) (s : State) : State :=
  match s.ashTray? c.tray with
  | none => s
  | some a =>
    let hit := fun (u : AUnit) => onPages a c u
    homeless c.part (rehome c.part (growBad c.tray c.ch c.block
      { s with tiers.pendU := modWhere hit (fun u => { u with homeless := true }) s.tiers.pendU }))

/-- A block is erased (R325): it is free, its counters start again, and what waits for room looks once more. -/
def erased (c : Cinder) (s : State) : State :=
  let s := modBlock c.tray c.ch c.block (fun x => { x with
    free := true, leaving := false, flips := false, reads := 0, used := 0, next := 0, progs := [], erases := x.erases + 1 }) s
  let s := modAsh c.tray (fun a => { a with blocks := a.blocks.map fun x => if x.1 == c.ch then (x.1, { x.2 with stuck := false }) else x }) s
  (s.ashTray? c.tray).elim s fun a => homeless a.part (rehome a.part s)

/-! ## Completions (R327, R329) -/

/-- IDENTIFY (R327, R328): what the bridge reports; with more than 64 channels, or a page size outside the rule, it is not used. The
record's layout is log entry 9. -/
def identified (t : Nat) (d : Bytes) (s : State) : State :=
  let fresh := (s.ashTray? t).elim [] fun a => if a.failed then [] else a.chans
  if 64 < fldLE d 0 2 || !([4096, 8192, 16384, 32768].contains (fldLE d 12 4)) then bridgeEvent t 1 (modAsh t (fun a => { a with ctrlEn := false, ready := false }) s)
  else fresh.foldl (fun s c => createQueues t c s) (modAsh t (fun a => { a with
    identified := true, chanCount := fldLE d 0 2, perChan := fldLE d 2 2 * fldLE d 4 4, perDie := fldLE d 4 4, pages := fldLE d 8 4, pageSize := fldLE d 12 4, rated := fldLE d 16 4,
    readLimit := fldLE d 20 4, flipLimit := fldLE d 24 2 }) s)

/-- BAD_BLOCK_LOG: a channel's blocks, the listed ones bad. -/
def badBlocks (t ch : Nat) (d : Bytes) (s : State) : State :=
  let bad := (List.range (fldLE d 0 4)).map fun k => fldLE d (4 + 4 * k) 4
  modAsh t (fun a =>
    let bs := (List.range a.perChan).map fun b => (ch, ({ id := b, bad := bad.contains b, free := !bad.contains b } : NBlock))
    { a with blocks := a.blocks.filter (·.1 != ch) ++ bs }) s

/-- The bridge has failed: CIN_CTRL.RST is set and the tray counts as failed (R329). -/
def bridgeFails (t code : Nat) (s : State) : State := ashFail t (bridgeEvent t code s)

/-- A completion of a good command. -/
def cinderDone (c : Cinder) (cpl : CinderCpl) (d : Bytes) (s : State) : State :=
  match c.opc with
  | 1 => identified c.tray d s
  | 2 => readPiece c cpl d s
  | 4 => erased c s
  | 5 => badBlocks c.tray c.ch d s
  | 7 => pumpCinder c.tray (modAsh c.tray (fun a => { a with queues := a.queues ++ [c.argQ] }) s)
  | _ => s

/-- The open command of a tray's queue with a CID. -/
def openCmd (s : State) (t qid cid : Nat) : Option Cinder :=
  s.tiers.cmds.find? fun c => c.tray == t && c.qid == qid && c.cid == cid && !c.waits

/-- A completion is taken from its ring (R327, R328): CQ_HEAD moves on, past the ring's end PHASE turns, and SQ_HEAD makes room. -/
def takeCpl (t : Nat) (cpl : CinderCpl) (c : Cinder) (s : State) : State :=
  pumpCinder t (modAsh t (fun a =>
    let heads := stepRing cpl.qid a.heads
    let turned := if ringAt cpl.qid heads ≠ 0 then a.turned else if a.turned.contains cpl.qid then a.turned.filter (· != cpl.qid) else cpl.qid :: a.turned
    { a with heads := heads, turned := turned, sqHeads := ringSet cpl.qid (cpl.sqHead % 1024) a.sqHeads }) { s with tiers.cmds := s.tiers.cmds.erase c })

/-- An entry whose PHASE is the ring's present pass (R328): the first pass has PHASE 1, since rings start clear (log entry 9). -/
def phaseNow (a : AshTray) (cpl : CinderCpl) : Bool := cpl.phase != a.turned.contains cpl.qid

/-- CINDER_COMPLETION (R329). An entry of another PHASE is not a new one. -/
def cinderCompletion (t : Nat) (cpl : CinderCpl) (d : Bytes) (s : State) : State :=
  if (s.ashTray? t).elim true fun a => a.failed || !phaseNow a cpl then s
  else match openCmd s t cpl.qid cpl.cid with
    | none => bridgeEvent t 2 s
    | some c =>
      if cpl.rsv then bridgeEvent t 3 s
      else
        let s := takeCpl t cpl c s
        match cpl.status with
        | 0 => cinderDone c cpl d s
        | 1 => cinderDone c cpl d s
        | 2 => if c.opc = 2 then (s.tiers.reads.find? fun r => r.id == c.read && r.st.isNone).elim s fun r => readFails c r s else bridgeFails t 2 s
        | 3 => if c.opc = 3 then programFails c s else bridgeFails t 3 s
        | 4 => if c.opc = 4 then growBad t c.ch c.block s else bridgeFails t 4 s
        | 6 => if c.opc = 6 then s else submitCinder { c with aborting := false } s
        | st => bridgeFails t st s

/-- CINDER_COMMAND_TIMEOUT (R329): a command open for 100 ms is aborted. -/
def cinderTimeout (t qid cid : Nat) (s : State) : State :=
  match openCmd s t qid cid with
  | none => s
  | some c =>
    if c.opc = 6 || c.aborting || s.t < c.at_ + 100000000 then s
    else
      let s := { s with tiers.cmds := modWhere (· == c) (fun c => { c with aborting := true }) s.tiers.cmds }
      submitCinder { tray := t, opc := 6, arg := cid, argQ := qid } s

/-- CINDER_ABORT_TIMEOUT (R329): an abort open for 10 ms, or FATAL set by the bridge. -/
def abortTimeout (t : Nat) (fatal : Bool) (s : State) : State :=
  let late := s.tiers.cmds.any fun c => c.tray == t && c.opc == 6 && !c.waits && decide (c.at_ + 10000000 ≤ s.t)
  if fatal || late then ashFail t (modAsh t (fun a => { a with fatal := a.fatal || fatal }) s) else s

/-- BRIDGE_ACCESS (R329): outside the buffers of the port's open commands it is answered Completer Abort. -/
def bridgeAccess (t addr bytes : Nat) (s : State) : State :=
  if (s.tray t).mode ≠ 3 then s
  else if s.tiers.cmds.any fun c => c.tray == t && !c.waits && c.len != 0 && c.buf ≤ addr && addr + bytes ≤ c.buf + c.len then s
  else bridgeEvent t 4 (modTray t (fun k => { k with sent := some (.tray .completerAbort 0 addr 0 []) }) s)

/-! ## Meanings -/

def execAshNsCreate (m : MbxId) (s : State) : Host.Outcome State Fault Refusal :=
  .next (settle s (runCmd 0x0A03 m (simply Sys2Proof.Machine.ashNsCreate) s))
def execAshNsDestroy (m : MbxId) (s : State) : Host.Outcome State Fault Refusal :=
  .next (settle s (runCmd 0x0A04 m (simply Sys2Proof.Machine.ashNsDestroy) s))
def execAshAssign (m : MbxId) (s : State) : Host.Outcome State Fault Refusal :=
  .next (settle s (runCmd 0x0A05 m (simply Sys2Proof.Machine.ashAssign) s))
def execAshWrite (m : MbxId) (s : State) : Host.Outcome State Fault Refusal :=
  .next (settle s (runCmd 0x0A06 m Sys2Proof.Machine.ashWrite s))
def execAshRead (m : MbxId) (s : State) : Host.Outcome State Fault Refusal :=
  .next (settle s (runCmd 0x0A07 m Sys2Proof.Machine.ashRead s))
def execAshTrim (m : MbxId) (s : State) : Host.Outcome State Fault Refusal :=
  .next (settle s (runCmd 0x0A08 m (simply Sys2Proof.Machine.ashTrim) s))
def execAshStatus (m : MbxId) (s : State) : Host.Outcome State Fault Refusal :=
  .next (settle s (runCmd 0x0A09 m Sys2Proof.Machine.ashStatus s))
def execCinderCompletion (tray : Nat) (c : CinderCpl) (data : Bytes) (s : State) : Host.Outcome State Fault Refusal :=
  .next (settle s (Sys2Proof.Machine.cinderCompletion tray c data s))
def execCinderCommandTimeout (tray qid cid : Nat) (s : State) : Host.Outcome State Fault Refusal :=
  .next (settle s (cinderTimeout tray qid cid s))
def execCinderAbortTimeout (tray : Nat) (fatal : Bool) (s : State) : Host.Outcome State Fault Refusal :=
  .next (settle s (abortTimeout tray fatal s))
def execBridgeAccess (tray addr bytes : Nat) (s : State) : Host.Outcome State Fault Refusal :=
  .next (settle s (Sys2Proof.Machine.bridgeAccess tray addr bytes s))
def execAshBackgroundWork (w : AshWork) (s : State) : Host.Outcome State Fault Refusal :=
  .next (settle s (ashWork w s))
def execAshUnitProgrammed (part unit : Nat) (s : State) : Host.Outcome State Fault Refusal :=
  .next (settle s (unitProgrammed part unit s))

end Sys2Proof.Machine
end

