-- ==== Sys2Proof/Machine/Keys.lean ====
section
/-! DEFINITION. Hallmarks, nonces, content keys, the TRNG (R381, R385 to R395). -/

namespace Sys2Proof.Machine

/-! ## Hallmarks (R385 to R387) -/

/-- The nooks, Saxel ports and tray ports that a Hallmark names: a partition's, or the system's. -/
def holdings (s : State) (p : Option Nat) : Bytes :=
  let nooks := (List.range 96).filter fun n => s.nookOwner n == p.elim .system .part
  let sax := (List.range 256).filter fun k => p.elim ((s.port k).kind == 1 || (s.port k).kind == 2) fun q => (s.port k).owner == some q
  let trays := p.elim [] (s.traysOf ·)
  toLE 12 (maskOf nooks) ++ List.replicate 4 0 ++ toLE 32 (maskOf sax) ++ toLE 4 (maskOf trays)

/-- FWVER0 to FWVER5: the boot ROM's, then those of the images that run. -/
def fwVersions (s : State) : Bytes :=
  toLE 8 Config.romVersion ++ (List.range 5).flatMap fun k => toLE 4 (s.fwKind k).runVersion ++ toLE 4 (s.fwKind k).runSvn

/-- Bytes 0 to 895 of a Hallmark (R386). -/
def hallmarkBody (s : State) (j : Job) (nonce : Bytes) (p : Option Nat) : Bytes :=
  let x := p.bind s.part?
  [0x48, 0x4C, 0x4D, 0x4B] ++ toLE 2 1 ++ toLE 1 (b2n p.isNone) ++ toLE 1 (p.getD 0) ++ toLE 8 s.flash.serial ++ nonce
    ++ toLE 8 s.ns ++ toLE 2 s.frac ++ toLE 1 s.flash.slot ++ toLE 1 (hallmarkFlags s) ++ List.replicate 4 0
    ++ s.mantel.mr.flatMap (fun r => (r ++ List.replicate 32 0).take 32) ++ fwVersions s ++ List.replicate 16 0
    ++ (Config.sha256 s.flash.record ++ List.replicate 32 0).take 32 ++ holdings s p
    ++ toLE 4 (x.elim 0 (·.tag)) ++ toLE 1 (x.elim 0 (·.agents)) ++ List.replicate 7 0
    ++ ((x.bind (·.keyPair)).elim (List.replicate 384 0) fun k => (Config.pairModulus k ++ List.replicate 384 0).take 384)
    ++ (if (mbxTenant j.mbx).isSome || j.mbx == .twin then ((s.port j.port).sess.th ++ List.replicate 32 0).take 32 else List.replicate 32 0)

/-- The wrapped identity key: either copy serves (R379). -/
def Flash.identity (f : Flash) : Bytes := if f.idKey0.isEmpty then f.idKey1 else f.idKey0

/-- HALLMARK_GET (R381, R385, R387). -/
def hallmarkGet (j : Job) (s : State) : End × State :=
  let nonce := (j.payload ++ List.replicate 32 0).take 32
  let kind := fldLE j.payload 32 1
  let p := fldLE j.payload 33 1
  if 1 < kind then (.done .badDescriptor, s)
  else if !j.manager && (kind = 1 || p ≠ j.part) then (.done .noAccess, s)
  else if kind = 0 && (s.part? p).isNone then (.done .noAccess, s)
  else if s.power.noIdentity then (.done .damaged, s)
  else if kind = 0 && (s.part? p).elim false (·.keyPair.isNone) then (.done .busy, s)
  else
    let b := hallmarkBody s j nonce (if kind = 0 then some p else none)
    let now := s.ns
    let keep := fun (x : Part) => { x with nonces := (x.nonces ++ [(nonce, now)]).drop (x.nonces.length - 15) }
    let s := if kind = 0 then modPart p keep s else s
    (.done .ok 0 (b ++ (Config.sign s.flash.identity b ++ List.replicate 384 0).take 384), s)

/-- NONCE_EXPIRY (R387): nonces older than 600 s are discarded. -/
def nonceExpiry (p : Nat) (s : State) : State :=
  let now := s.ns
  modPart p (fun x => { x with nonces := x.nonces.filter fun n => decide (now < n.2 + 600000000000) }) s

/-! ## Content keys (R393, R395) -/

/-- The content keys the security block holds for a partition. -/
def keysOf (s : State) (p : Nat) : List CKey := s.tiers.ckeys.filter fun k => k.handle / 256 == p + 1

/-- A key past its NOT_AFTER is erased (R393, R395), whether CKEY_EXPIRY has run yet or not. -/
def keyLive (s : State) (k : CKey) : Bool := k.notAfter == 0 || decide (s.ns ≤ k.notAfter)

/-- The content key of a handle that the security block holds for a partition. -/
def State.ckey? (s : State) (p h : Nat) : Option CKey := (keysOf s p).find? fun k => k.handle == h && keyLive s k

/-- CKEY_LOAD (R393), in the order of R407. -/
def ckeyLoad (j : Job) (s : State) : End × State :=
  let nonce := j.payload.take 32
  match s.part? j.part with
  | none => (.done .noAccess, s)
  | some x =>
    if x.keyPair.isNone then (.done .busy, s)
    else match x.keyPair.bind fun k => Config.oaepOpen k nonce (j.payload.drop 32) with
    | none => (.done .noAccess, s)
    | some b =>
      let slots := (List.range 64).filter fun i => !(keysOf s j.part).any fun k => k.handle % 256 == i && keyLive s k
      if !(x.nonces.any fun n => n.1 == nonce && decide (s.ns < n.2 + 600000000000)) || b.length ≠ 64 then (.done .noAccess, s)
      else if 1 < fldLE b 48 4 || fldLE b 52 4 ≠ 0 then (.done .badDescriptor, s)
      else match slots.head? with
        | none => (.done .busy, s)
        | some i =>
          let h := 256 * (j.part + 1) + i
          let k : CKey := { handle := h, key := b.take 32, keyId := (b.drop 32).take 16, pushOnly := bit (fldLE b 48 4) 0, notAfter := fldLE b 56 8 }
          (.done .ok 0 (toLE 2 h), { s with tiers.ckeys := s.tiers.ckeys.filter (·.handle != h) ++ [k] })

/-- A loaded list of the partition names the handle. -/
def handleUsed (s : State) (p h : Nat) : Bool := s.tiers.lists.any fun l => l.part == p && l.entries.any (·.ckey == h)

/-- CKEY_UNLOAD (R395). -/
def ckeyUnload (j : Job) (s : State) : Status × State :=
  let h := fldLE j.payload 0 2
  if (s.ckey? j.part h).isNone then (.noAccess, s)
  else if handleUsed s j.part h then (.busy, s)
  else (.ok, { s with tiers.ckeys := s.tiers.ckeys.filter (·.handle != h) })

/-- CKEY_EXPIRY (R395): NOT_AFTER has passed. -/
def ckeyExpiry (h : Nat) (s : State) : State :=
  let now := s.ns
  { s with tiers.ckeys := s.tiers.ckeys.filter fun k => !(k.handle == h && k.notAfter != 0 && decide (k.notAfter < now)) }

/-! ## The TRNG (R390) -/

/-- TRNG_HEALTH_FAIL: FAULT_CAUSE [5] (R409, R424) and a TRNG event, and no new key until the tests pass again. -/
def trngFail (s : State) : State := if s.power.trngFail then s else event 0x001B true [] none [] (setCause 32 { s with power.trngFail := true })

def trngRestored (s : State) : State := { s with power.trngFail := false }

/-! ## Meanings -/

def execHallmarkGet (m : MbxId) (s : State) : Host.Outcome State Fault Refusal :=
  .next (settle s (runCmd 0x0B01 m Sys2Proof.Machine.hallmarkGet s))
def execCkeyLoad (m : MbxId) (s : State) : Host.Outcome State Fault Refusal :=
  .next (settle s (runCmd 0x0B02 m Sys2Proof.Machine.ckeyLoad s))
def execCkeyUnload (m : MbxId) (s : State) : Host.Outcome State Fault Refusal :=
  .next (settle s (runCmd 0x0B03 m (simply Sys2Proof.Machine.ckeyUnload) s))
def execCkeyExpiry (handle : Nat) (s : State) : Host.Outcome State Fault Refusal :=
  .next (settle s (Sys2Proof.Machine.ckeyExpiry handle s))
def execNonceExpiry (part : Nat) (s : State) : Host.Outcome State Fault Refusal :=
  .next (settle s (Sys2Proof.Machine.nonceExpiry part s))
def execTrngHealthFail (s : State) : Host.Outcome State Fault Refusal :=
  .next (settle s (trngFail s))
def execTrngHealthRestored (s : State) : Host.Outcome State Fault Refusal :=
  .next (settle s (trngRestored s))

end Sys2Proof.Machine
end

