-- ==== Sys2Proof/Machine/Bellows.lean ====
section
/-! DEFINITION. Bellows: prefetch lists, chunks, pushes (R311 to R318, R394 to R396). -/

namespace Sys2Proof.Machine

/-! ## Tier 0 (R311, R315, R316) -/

/-- Pieces of 64 KiB in the tier-0 region of each nook of a partition. -/
def piecesOf (s : State) (p : Nat) : Nat := (s.part? p).elim 0 fun x => (2304 - x.cacheKib) / 64

def tier0Bytes (s : State) (p : Nat) : Nat := piecesOf s p * 65536 * (s.nooksOf p).length

def taken (s : State) (n : Nat) : Nat := (s.tiers.tier0.find? (·.1 == n)).elim 0 (·.2)

/-- The lowest-numbered nook of the partition with a free piece. -/
def pieceNook (s : State) (p : Nat) : Option Nat := (s.nooksOf p).find? fun n => decide (taken s n < piecesOf s p) && !moving s n

def setTaken (n k : Nat) (s : State) : State :=
  let rest := s.tiers.tier0.filter (·.1 != n)
  { s with tiers.tier0 := if k = 0 then rest else (n, k) :: rest }

def freePieces (ns : List Nat) (s : State) : State := ns.foldl (fun s n => setTaken n (taken s n - 1) s) s

/-! ## Lists (R312, R313) -/

def State.blist? (s : State) (p l : Nat) : Option BList := s.tiers.lists.find? fun x => x.part == p && x.id == l

def modEntry (p l e : Nat) (f : BEntry → BEntry) (s : State) : State :=
  let upd := fun (x : BList) => { x with entries := x.entries.modify e f }
  { s with tiers.lists := modWhere (fun x => x.part == p && x.id == l) upd s.tiers.lists }

def State.bentry? (s : State) (p l e : Nat) : Option (BList × BEntry) :=
  (s.blist? p l).bind fun x => (x.entries[e]?).map fun y => (x, y)

/-- An entry of R312 with its endpoint words. -/
def decEntry (b : Bytes) (words : List Nat) : BEntry :=
  let x := leNat b
  { src := bits x 511 448, dst := bits x 447 384, length := bits x 383 352, deadline := bits x 351 304, pushStart := bits x 303 256,
    lead := bits x 255 224, tag := bits x 223 208, ckey := bits x 207 192, eps := (words.drop (bits x 191 184)).take (bits x 183 179),
    srcTier := bits x 31 30, dstTier := bits x 29 28, push := bit x 27 }

/-- What R312 to R314 and R394 forbid in an entry. -/
def entryBad (s : State) (p nep : Nat) (b : Bytes) : Bool :=
  let x := leNat b
  let e := decEntry b []
  let n := bits x 183 179
  bits x 178 32 != 0 || bits x 26 0 != 0 || e.srcTier == 0 || e.dstTier == 3 || e.srcTier < e.dstTier
    || (e.dstTier == e.srcTier && (!e.push || e.dst != 0)) || (e.dstTier == 0 && (!e.push || e.dst != 0))
    || (e.push && n == 0) || (!e.push && n != 0) || 16 < n || nep < bits x 191 184 + n
    || e.deadline < e.lead || e.deadline < e.pushStart
    || e.length == 0 || e.length % 64 != 0 || (e.srcTier == 3 && (e.length % 65536 != 0 || e.src % 65536 != 0))
    || (e.srcTier != 3 && e.src % 64 != 0) || e.dst % 64 != 0
    || (e.dstTier == 0 && tier0Bytes s p < e.length)
    || (e.ckey != 0 && (e.length < 128 || (e.push && e.dstTier == e.srcTier && tier0Bytes s p < e.length - 64)))

/-- What an entry names that the partition does not hold (R313, R395). -/
def entryAway (s : State) (p : Nat) (b : Bytes) : Bool :=
  let e := decEntry b []
  let own := fun (o : Nat) => (linesOf o e.length).any fun l => !(anyExtent s (64 * l)).elim false fun x => x.part == p
  (if e.srcTier = 3 then (s.ns? p).elim true fun n => n.units * 65536 < e.src + e.length else 2 ^ 52 ≤ e.src || own e.src)
    || ((e.dstTier == 1 || e.dstTier == 2) && e.dstTier < e.srcTier && (2 ^ 52 ≤ e.dst || own e.dst))
    || (e.ckey != 0 && (s.ckey? p e.ckey).elim true fun k => k.pushOnly && !(e.push && (e.dstTier == 0 || e.dstTier == e.srcTier)))

/-- Bytes of a list with header `h` (R312). -/
def listSize (h : Nat) : Nat := 64 + 64 * bits h 383 368 + 4 * bits h 367 359

/-- What R312 forbids in a list's header at `a`, or R313 in its START for a command accepted at `at_`; the list lies in non-coherent
DEVICE-OWNED extents. -/
def listBad (s : State) (at_ a h : Nat) : Bool :=
  let n := bits h 383 368
  a % 64 != 0 || n == 0 || 4096 < n || 256 < bits h 367 359 || bits h 358 12 != 0 || 3 < bits h 11 8 || bits h 7 4 != 0
    || (bits h 447 400 == 0 && bits h 399 384 != 1) || bits h 511 448 < at_ + 1000000
    || (linesOf a (listSize h)).any fun l => (anyExtent s (64 * l)).elim false fun x => x.coh || !x.devown

/-- The checks and the loading of a list that has been read (R313, R394, R395), in the order of R407. -/
def loadList (p a h : Nat) (rd : Nat → Nat → Bytes) (s : State) : End × State :=
  let n := bits h 383 368
  let nep := bits h 367 359
  let words := (List.range nep).map fun k => fldLE (rd (a + 64 + 64 * n + 4 * k) 4) 0 4
  let raw := fun (k : Nat) => rd (a + 64 + 64 * k) 64
  if words.any fun w => decide (2 ^ 22 ≤ w) then (.done .badDescriptor, s)
  else match (List.range n).find? fun k => entryBad s p nep (raw k) with
    | some k => (.done .badDescriptor k, s)
    | none =>
      if (s.blist? p (bits h 11 8)).isSome then (.done .busy, s)
      else if bits h 3 0 ≠ p || (List.range n).any (fun k => entryAway s p (raw k)) then (.done .noAccess, s)
      else
        let l : BList := { part := p, id := bits h 11 8, addr := a, bytes := listSize h, start := bits h 511 448, period := bits h 447 400,
                           iters := bits h 399 384, entries := (List.range n).map fun k => decEntry (raw k) words }
        (.done .ok, { s with tiers.lists := s.tiers.lists ++ [l] })

/-- BELLOWS_LIST_LOAD (R312, R313): the header and then the list are read as an engine reads (R292); DETAIL names the lowest
offending entry. -/
def bellowsLoad (j : Job) (s : State) : End × State :=
  let a := fldLE j.payload 0 8
  jobRead j j.part [(a, 64)] (fun rd s =>
    let h := leNat (rd a 64)
    if listBad s j.at_ a h then (.done .badDescriptor, s)
    else jobRead j j.part [(a, listSize h)] (loadList j.part a h) s) s

/-! ## Ends of entries (R317, R318) -/

/-- The start of an entry's iteration. -/
def BList.begin (l : BList) (e : BEntry) : Nat := l.start + e.iter * l.period
def BList.dueAt (l : BList) (e : BEntry) : Nat := l.begin e + e.deadline

/-- The bytes that an entry moves to its destination or pushes: a content object's trailer stays behind (R394). -/
def BEntry.total (e : BEntry) : Nat := if e.ckey = 0 then e.length else e.length - 64

/-- The push header of R316. -/
def pushHdr (off st iter entry list : Nat) (last : Bool) : Bytes :=
  toLE 16 (2 ^ 80 * off + 2 ^ 64 * st + 2 ^ 32 * (iter % 2 ^ 32) + 2 ^ 20 * entry + 2 ^ 18 * list + 2 ^ 17 * b2n last)

/-- The cause an entry waited on longest. -/
def BEntry.cause (e : BEntry) : Nat :=
  (List.range 4).foldl (fun m k => if e.waits.getD m 0 < e.waits.getD k 0 then k else m) 0

/-- Time spent since the last mark counts for a cause. -/
def waited (p l e k : Nat) (s : State) : State :=
  let now := s.ns
  modEntry p l e (fun x => { x with waits := x.waits.modify k (· + (now - x.mark)), mark := now }) s

/-- The tokens of an entry's own directory requests (R292): for the reads of chunk `c`, and for its writes and its trailer. -/
def bellowsTok (p l e c : Nat) : Nat := 2 ^ 65 + ((p * 4 + l) * 4096 + e) * 2 ^ 17 + c
def putTok (p l e : Nat) : Nat := bellowsTok p l e (2 ^ 16)
def trailerTok (p l e : Nat) : Nat := bellowsTok p l e (2 ^ 16 + 1)

/-- What the directory has kept for an entry goes. -/
def entryForget (p l e : Nat) (s : State) : State :=
  { s with dir.eng := s.dir.eng.filter fun r => !(decide (2 ^ 65 ≤ r.tok) && (r.tok - 2 ^ 65) / 2 ^ 17 == (p * 4 + l) * 4096 + e) }

/-- An entry's iteration ends: pieces freed, endpoints told of a failure, the event of R318 where it is late or failed, and
the next iteration, if there is one, waits for its start. -/
def endEntry (p l k : Nat) (st : Status) (s : State) : State :=
  match s.bentry? p l k with
  | none => s
  | some (lst, e) =>
    let now := s.ns
    let due := lst.dueAt e
    let told := if st = .ok then [] else e.sent.filter (! e.dead.contains ·.1)
    let s := told.foldl (fun s x => (ownPost (some p) 5 x.1 e.tag s.maps.cur.epoch (pushHdr x.2 st.code e.iter k l true) s).2) s
    let s := freePieces e.pieces s
    let s := if st ≠ .ok || due < now then
      eventMO 0x0017 (some p) [l + 2 ^ 16 * k + 2 ^ 32 * st.code + 2 ^ 48 * e.cause, e.iter, due, now, now - due] s else s
    let more := lst.iters = 0 || e.iter + 1 < lst.iters
    let next := { e with iter := if more then e.iter + 1 else e.iter, state := if more then 0 else 3, done := 0, asked := 0, hold := [],
                         trailer := none, cipher := [], key := none,
                         pieces := [], sent := [], dead := [], open_ := [], status := none, endAt := now }
    let mine : AWho := .bellows p l k
    entryForget p l k (modEntry p l k (fun _ => next) { s with tiers.reads := s.tiers.reads.filter (·.who != mine) })

/-- BELLOWS_LIST_STOP (R313): entries in progress end with QUIESCED. -/
def bellowsStop (j : Job) (s : State) : Status × State :=
  let l := fldLE j.payload 0 1
  if 3 < l then (.badDescriptor, s)
  else match s.blist? j.part l with
    | none => (.ok, s)
    | some x =>
      let busy := (List.range x.entries.length).filter fun k => (x.entries[k]?).elim false fun e => e.state == 1 || e.state == 2
      let s := busy.foldl (fun s k => endEntry j.part l k .quiesced s) s
      (.ok, { s with tiers.lists := s.tiers.lists.filter fun x => !(x.part == j.part && x.id == l) })

/-- An entry fails (R317); BELLOWS_ENTRY_COMPLETE then ends it. -/
def failEntry (p l k : Nat) (st : Status) (s : State) : State :=
  modEntry p l k (fun e => { e with status := e.status.or (some st) }) s

/-! ## Starting (R314, R395) -/

/-- BELLOWS_ENTRY_START: at I + DEADLINE - LEAD, and not before the entry's last iteration has ended. -/
def entryStart (p l k : Nat) (s : State) : State :=
  match s.bentry? p l k with
  | none => s
  | some (lst, e) =>
    let due := lst.dueAt e - e.lead
    if e.state ≠ 0 || s.ns < due then s
    else
      let key := if e.ckey = 0 then none else s.ckey? p e.ckey
      let w0 := if e.iter = 0 then 0 else e.endAt - due
      let now := s.ns
      let go := { e with state := 1, done := 0, asked := 0, hold := [], trailer := none, cipher := [], key := key, waits := [w0, 0, 0, 0], mark := now }
      let s := modEntry p l k (fun _ => go) s
      if e.ckey ≠ 0 && key.isNone then failEntry p l k .noAccess s else s

/-! ## Pushing (R316) -/

/-- Send one message of an entry to an endpoint: `off` and `n` name its data. -/
def pushOne (p l k ep off n : Nat) (d : Bytes) (s : State) : State :=
  match s.bentry? p l k with
  | none => s
  | some (_, e) =>
    if e.dead.contains ep then s
    else
      let body := pushHdr off 0 e.iter k l (off + n == e.total) ++ d
      match ownPost (some p) 5 ep e.tag s.maps.cur.epoch body s with
      | (.error _, s) => modEntry p l k (fun e => { e with dead := e.dead ++ [ep] }) s
      | (.ok none, s) => s
      | (.ok (some id), s) => modEntry p l k (fun e => { e with open_ := e.open_ ++ [(id, ep, off, n)] }) s

/-- The messages that the bytes at hand fill, from `off` on; the last one of the entry may be short. -/
def pushCuts (off upto total : Nat) : List (Nat × Nat) :=
  (List.range ((upto - off + 2031) / 2032)).filterMap fun i =>
    let o := off + 2032 * i
    let n := min 2032 (upto - o)
    if n = 2032 || o + n = total then some (o, n) else none

/-- Free the tier-0 pieces whose messages every endpoint has completed (R316). -/
def dropPieces (p l k : Nat) (s : State) : State :=
  match s.bentry? p l k with
  | none => s
  | some (_, e) =>
    let live := e.eps.filter (! e.dead.contains ·)
    let upto := fun (ep : Nat) => ((e.open_.filter (·.2.1 == ep)).map (·.2.2.1)).min?.getD ((e.sent.find? (·.1 == ep)).elim 0 (·.2))
    let low := (live.map upto).min?.getD 0
    let n := low / 65536 - ((min e.done e.total + 65535) / 65536 - e.pieces.length)
    if n = 0 then s
    else freePieces (e.pieces.take n) (modEntry p l k (fun e => { e with pieces := e.pieces.drop n }) s)

/-- No endpoint of an entry holds a session any more (R317). -/
def deadCheck (p l k : Nat) (s : State) : State :=
  match s.bentry? p l k with
  | none => s
  | some (_, e) => if e.push && (e.eps.all fun ep => e.dead.contains ep) then failEntry p l k .noAccess s else s

/-- Push what may leave: at or after I + PUSH_START, and content only once it has verified (R316, R394). An endpoint is reached by its first
message (R317), and the time that it takes for credits counts from the first message that is open (R318). -/
def pushEntry (p l k : Nat) (s : State) : State :=
  match s.bentry? p l k with
  | none => s
  | some (lst, e) =>
    if !e.push || e.state = 0 || e.state = 3 || e.status.isSome || s.ns < lst.begin e + e.pushStart || (e.ckey ≠ 0 && e.state ≠ 2) then s
    else
      let now := s.ns
      let s := if e.open_.isEmpty && e.sent.all (·.2 < min e.hold.length e.total) then modEntry p l k (fun x => { x with mark := now }) s else s
      let s := e.eps.eraseDups.foldl (fun s ep =>
        let off := (e.sent.find? (·.1 == ep)).elim 0 (·.2)
        let cuts := pushCuts off e.hold.length e.total
        let s := cuts.foldl (fun s c => pushOne p l k ep c.1 c.2 ((e.hold.drop c.1).take c.2) s) s
        let upto := (cuts.getLast?).elim off fun c => c.1 + c.2
        if cuts.isEmpty then s else modEntry p l k (fun e => { e with sent := (ep, upto) :: e.sent.filter (·.1 != ep) }) s) s
      dropPieces p l k (deadCheck p l k s)

/-- An endpoint has answered a push message: NO_ACCESS ends the entry for the endpoint. -/
def pushAnswer (id : Nat) (st : Status) (s : State) : State :=
  let has := fun (e : BEntry) => e.open_.any (·.1 == id)
  match s.tiers.lists.find? fun l => l.entries.any has with
  | none => s
  | some l =>
    match l.entries.findIdx? has with
    | none => s
    | some k =>
      let e := l.entries.getD k {}
      match e.open_.find? (·.1 == id) with
      | none => s
      | some (_, ep, _, _) =>
        let s := modEntry l.part l.id k (fun e => { e with open_ := e.open_.filter (·.1 != id) }) s
        let dead := if st = .noAccess && !e.dead.contains ep then e.dead ++ [ep] else e.dead
        let s := modEntry l.part l.id k (fun e => { e with dead := dead }) s
        dropPieces l.part l.id k (deadCheck l.part l.id k (waited l.part l.id k 3 s))

/-! ## Chunks (R314, R315, R394) -/

/-- The entry takes a tier-0 piece for each chunk. -/
def BEntry.wantsPiece (e : BEntry) : Bool := e.dstTier == 0 || (e.dstTier == e.srcTier && e.ckey != 0)

/-- The next chunk has bytes that take a piece: a content object's trailer alone takes none (R394). -/
def BEntry.pieceNext (e : BEntry) : Bool := e.wantsPiece && decide (e.done < e.total)

/-- The trailer of a content object is still to come. -/
def BEntry.wantsTrailer (e : BEntry) : Bool := e.ckey != 0 && e.trailer.isNone

/-- Bytes of a chunk of an entry. -/
def BEntry.chunkLen (e : BEntry) (c : Nat) : Nat := min 65536 (e.length - 65536 * c)

/-- How a read of the source stands. -/
inductive Chunk where
  | ready (d : Bytes)
  | waits
  | bad (st : Status)
  deriving DecidableEq, Repr

/-- The read of `n` bytes of the source at `o`: issued where it is not yet, and its data where they have come. -/
def sourceRun (p l k : Nat) (e : BEntry) (tok o n : Nat) (s : State) : Chunk × State :=
  if e.srcTier = 3 then
    let mine := fun (r : ARead) => r.who == .bellows p l k && r.u.unit == o / 65536
    match s.tiers.reads.find? mine with
    | some r => match r.st with
      | none => (.waits, s)
      | some st =>
        let s := { s with tiers.reads := s.tiers.reads.filter (! mine ·) }
        if st = .ok then (.ready ((r.data.drop (o % 65536)).take n), s) else (.bad .damaged, s)
    | none => (.waits, askUnit (.bellows p l k) p (o / 65536) s)
  else match pourAccess s s.maps.cur p false o n with
    | .ok =>
      let s := engRead tok p o n s
      if engBusy s tok then (.waits, s)
      else
        let got := engLines tok o n s
        match (if got.1 then engStatus got.2 tok o n else .damaged) with
        | .ok => (.ready (engBytes got.2 tok o n), engForget tok got.2)
        | st => (.bad st, engForget tok got.2)
    | st => (.bad st, s)

/-- The read of chunk `c` of an entry. -/
def sourceChunk (p l k c : Nat) (e : BEntry) (s : State) : Chunk × State :=
  sourceRun p l k e (bellowsTok p l k c) (e.src + 65536 * c) (e.chunkLen c) s

/-- The read of a content object's trailer, which stands behind its content (R394). -/
def sourceTrailer (p l k : Nat) (e : BEntry) (s : State) : Chunk × State :=
  sourceRun p l k e (trailerTok p l k) (e.src + e.total) 64 s

/-- The read that an entry waits for first has come: that of its trailer, or of its next chunk. -/
def frontIn (s : State) (p l k : Nat) (e : BEntry) : Bool :=
  let o := if e.wantsTrailer then e.total else e.done
  decide (e.done < e.asked) &&
    if e.srcTier = 3 then s.tiers.reads.any fun r => r.who == .bellows p l k && r.u.unit == (e.src + o) / 65536 && r.st.isSome
    else !engBusy s (if e.wantsTrailer then trailerTok p l k else bellowsTok p l k (e.done / 65536))

/-- A read of an entry may be issued: the trailer's first, then chunk after chunk. -/
def mayAsk (e : BEntry) : Bool := if e.wantsTrailer then e.asked == 0 else decide (e.asked < e.length)

/-- The next read is issued, and takes a chunk tracker (R315). One whose address fails is found out in its turn. -/
def askNext (p l k : Nat) (s : State) : State :=
  match s.bentry? p l k with
  | none => s
  | some (_, e) =>
    if !mayAsk e then s
    else if e.wantsTrailer then modEntry p l k (fun e => { e with asked := 64 }) (sourceTrailer p l k e s).2
    else
      let c := e.asked / 65536
      let s := if e.srcTier = 3 then askUnit (.bellows p l k) p ((e.src + e.asked) / 65536) s
        else if pourAccess s s.maps.cur p false (e.src + e.asked) (e.chunkLen c) = .ok then
          engRead (bellowsTok p l k c) p (e.src + e.asked) (e.chunkLen c) (engForget (bellowsTok p l k c) s)
        else s
      modEntry p l k (fun e => { e with asked := e.asked + e.chunkLen c }) s

/-- Write bytes of an entry at its destination (R292, R317), where nothing that Bellows must not write lies (R100, R312). -/
def putBytes (p l k off : Nat) (e : BEntry) (d : Bytes) (s : State) : State :=
  if guarded s (e.dst + off) d.length then failEntry p l k .noAccess s
  else match pourAccess s s.maps.cur p true (e.dst + off) d.length with
  | .ok => engWrite (putTok p l k) p (e.dst + off) d s
  | st => failEntry p l k st s

/-- The entry writes tier 1 or 2. -/
def BEntry.toDst (e : BEntry) : Bool := e.dstTier != 0 && e.dstTier != e.srcTier

/-- A content object is whole (R394): its trailer and tag are checked; after a failure the bytes that it has put at DST are zero. -/
def openContent (p l k : Nat) (e : BEntry) (s : State) : State :=
  let n := e.total
  let tr := e.trailer.getD []
  let key := e.key.getD {}
  let ok := (tr.drop 28).take 16 == key.keyId && fldLE tr 44 8 == n && leNat (tr.drop 52) == 0
  if ok && (Config.gcmOpen key.key (tr.take 12) (tr.drop 28) e.cipher ((tr.drop 12).take 16)).isSome then
    modEntry p l k (fun e => { e with state := 2, cipher := [] }) s
  else
    let s := if e.toDst then putBytes p l k 0 e (List.replicate n 0) s else s
    failEntry p l k .damaged (modEntry p l k (fun e => { e with hold := [] }) s)

/-- Chunk trackers that an entry holds, and the context of a partition (R315). -/
def BEntry.trackers (e : BEntry) : Nat := (e.asked - e.done + 65535) / 65536
def chunksOpen (s : State) (p : Nat) : Nat :=
  ((s.tiers.lists.filter (·.part == p)).map fun x => ((x.entries.filter (·.state == 1)).map (·.trackers)).sum).sum

/-- An entry of the partition that Bellows would serve now: it moves bytes and does not wait. -/
def servable (s : State) (p l k : Nat) (e : BEntry) : Bool :=
  e.state == 1 && e.status.isNone && (!e.pieceNext || (pieceNook s p).isSome) && (mayAsk e || frontIn s p l k e)

/-- A context asks for its turn: one of its entries is servable, and a read has come or a tracker is free. -/
def contextAsks (s : State) (p : Nat) : Bool :=
  (s.tiers.lists.filter (·.part == p)).any fun x => x.entries.zipIdx.any fun y =>
    servable s p x.id y.2 y.1 && (decide (chunksOpen s p < 64) || frontIn s p x.id y.2 y.1)

/-- A context may issue now (R315): in a secure profile in the partition's own sub-slots, without their first cycle (R237); otherwise by
R240 among the contexts that ask. -/
def contextTurn (s : State) (p : Nat) : Bool :=
  if s.flash.prof.secure then s.cal.xbar.getD (s.ns % 256 / 16) 16 == p && s.ns % 16 != 0
  else arbWin 16 (s.tiers.bellowsArb.now s.slot 16) (fun q => q == p || contextAsks s q) == some p

/-- A context has issued: its arbiter moves on (R240). -/
def turnTaken (p : Nat) (s : State) : State := { s with tiers.bellowsArb := arbMove s.slot 16 p }

/-- PUSH_START_TIME: the push of chunks that wait in tier 0 begins, in a turn of the partition's context (R315, R316). -/
def pushStartTime (p l k : Nat) (s : State) : State :=
  if contextTurn s p then pushEntry p l k (turnTaken p s) else s

/-- Another entry of the partition goes first (R315): due sooner, then the lower list, then the lower index. -/
def soonerEntry (s : State) (p l k due : Nat) : Bool :=
  (s.tiers.lists.filter (·.part == p)).any fun x => x.entries.zipIdx.any fun y =>
    let d := x.dueAt y.1
    servable s p x.id y.2 y.1 && (d < due || (d == due && (x.id < l || (x.id == l && y.2 < k))))

/-- A chunk that has come is moved (R314): decrypted under the content key, written to DST or to a tier-0 piece, pushed. -/
def moveChunk (p l k : Nat) (e : BEntry) (d : Bytes) (s : State) : State :=
  let tr := e.trailer.getD []
  let c := d.take (e.total - e.done)
  let x := if e.ckey = 0 then c else (Config.gcmPart (e.key.getD {}).key (tr.take 12) e.done c ++ List.replicate c.length 0).take c.length
  let nook := if e.pieceNext then pieceNook s p else none
  let s := nook.elim s fun n => setTaken n (taken s n + 1) s
  let s := if e.toDst && !x.isEmpty then putBytes p l k e.done e x s else s
  let done := e.done + d.length
  let s := modEntry p l k (fun y => { y with
    done := done, asked := max y.asked done, hold := if e.push then y.hold ++ x else [], pieces := y.pieces ++ nook.toList,
    cipher := if e.ckey = 0 then [] else y.cipher ++ c, state := if done = e.length && e.ckey = 0 then 2 else 1 }) s
  let s := if done = e.length && e.ckey ≠ 0 then (s.bentry? p l k).elim s fun y => openContent p l k y.2 s else s
  pushEntry p l k s

/-- BELLOWS_CHUNK (R314, R315): in a turn of its context the entry's next chunk is moved, where its read has come, and otherwise its next
read is issued while a tracker is free; a chunk with no free piece waits. Of a content object the trailer is read first. -/
def bellowsChunk (p l k : Nat) (s : State) : State :=
  match s.bentry? p l k with
  | none => s
  | some (lst, e) =>
    if e.state ≠ 1 || e.status.isSome then s
    else if s.isQuiesced p then failEntry p l k .quiesced s
    else if soonerEntry s p l k (lst.dueAt e) then s
    else if e.pieceNext && (pieceNook s p).isNone then waited p l k 2 s
    else if !contextTurn s p || (64 ≤ chunksOpen s p && e.asked ≤ e.done) then s
    else
      let s := turnTaken p s
      let s := if e.asked ≤ e.done then askNext p l k s else s
      match (if e.wantsTrailer then sourceTrailer p l k e s else sourceChunk p l k (e.done / 65536) e s) with
      | (.bad st, s) => failEntry p l k st s
      | (.waits, s) => waited p l k 1 (if chunksOpen s p < 64 && !e.wantsTrailer then askNext p l k s else s)
      | (.ready d, s) =>
        let s := waited p l k 1 s
        if e.wantsTrailer then modEntry p l k (fun e => { e with trailer := some d, asked := 0 }) s
        else moveChunk p l k e d s

/-- Every message to every endpoint that still takes them has been sent and has completed. -/
def BEntry.pushed (e : BEntry) : Bool :=
  e.open_.isEmpty && e.eps.all fun ep => e.dead.contains ep || (e.sent.find? (·.1 == ep)).elim false (·.2 == e.total)

/-- BELLOWS_ENTRY_COMPLETE (R317). -/
def entryComplete (p l k : Nat) (s : State) : State :=
  match s.bentry? p l k with
  | none => s
  | some (_, e) =>
    let tok := putTok p l k
    if e.state ≠ 1 && e.state ≠ 2 then s
    else match e.status with
      | some st => endEntry p l k st s
      | none =>
        if s.isQuiesced p then endEntry p l k .quiesced s
        else if e.state ≠ 2 || engBusy s tok || (e.push && !e.pushed) then s
        else match s.dir.eng.find? fun r => r.tok == tok && r.st != .ok with
          | some r => endEntry p l k r.st s
          | none => endEntry p l k .ok s

/-! ## Meanings -/

def execBellowsListLoad (m : MbxId) (s : State) : Host.Outcome State Fault Refusal :=
  .next (settle s (runCmd 0x0A01 m bellowsLoad s))
def execBellowsListStop (m : MbxId) (s : State) : Host.Outcome State Fault Refusal :=
  .next (settle s (runCmd 0x0A02 m (simply bellowsStop) s))
def execBellowsEntryStart (part list entry : Nat) (s : State) : Host.Outcome State Fault Refusal :=
  .next (settle s (entryStart part list entry s))
def execBellowsChunk (part list entry : Nat) (s : State) : Host.Outcome State Fault Refusal :=
  .next (settle s (Sys2Proof.Machine.bellowsChunk part list entry s))
def execBellowsEntryComplete (part list entry : Nat) (s : State) : Host.Outcome State Fault Refusal :=
  .next (settle s (entryComplete part list entry s))
def execPushStartTime (part list entry : Nat) (s : State) : Host.Outcome State Fault Refusal :=
  .next (settle s (Sys2Proof.Machine.pushStartTime part list entry s))

end Sys2Proof.Machine
end

