-- ==== Sys2Proof/Machine/Tenancy.lean ====
section
/-! DEFINITION. Partitions, nook moves, port moves, zeroing and the key-pair pool (R18 to R27, R285, R291, R391, R397,
R408, R464, R491). -/

namespace Sys2Proof.Machine

/-! ## Creating a partition (R391, R408) -/

/-- The numbers below `n` whose bits a field names. -/
def bitsOf (n m : Nat) : List Nat := (List.range n).filter (bit m)

/-- A Saxel port that may be given to a partition: an accelerator port of the profile that nobody holds. -/
def freeSax (s : State) (p : Nat) : Bool := (s.port p).kind == 0 && (s.port p).owner.isNone

def freeTray (s : State) (t : Nat) : Bool := (s.tray t).mode != 0 && (s.tray t).owner.isNone

/-- Where the fields of a PARTITION_CREATE payload are faulty (R125, R285, R408). -/
def createBad (b : Bytes) : Bool :=
  15 < fldLE b 0 1 || fldLE b 8 12 = 0 || fldLE b 4 4 = 0 || 2304 < fldLE b 2 2 || fldLE b 2 2 % 64 ≠ 0
    || !zeroAt b 20 4 || !zeroAt b 60 4

/-- Where PARTITION_CREATE is BUSY: the partition exists, a nook or port is not free, quotas pass 64, an upstream port has
no agent id left in the quota (R291). -/
def createBusy (s : State) (b : Bytes) : Bool :=
  let trays := bitsOf 32 (fldLE b 56 4)
  (s.part? (fldLE b 0 1)).isSome || (bitsOf 96 (fldLE b 8 12)).any (fun n => s.nookOwner n != .free)
    || (bitsOf 256 (fldLE b 24 32)).any (! freeSax s ·) || trays.any (! freeTray s ·)
    || 64 < fldLE b 1 1 + (s.ten.parts.map (·.agents)).sum
    || fldLE b 1 1 < (trays.filter fun t => (s.tray t).mode == 2).length

/-- Fresh memory keys for nooks (R25, R388). -/
def freshKeys (ns : List Nat) (s : State) : State :=
  ns.foldl (fun s n =>
    let (k, s) := drawKey s
    { s with ten.memKey := s.ten.memKey.set n k }) s

/-- A new partition of a paired module is twinned when the twin has its number under the same tag; the module with the lower
SERIAL is its primary at first (R437; log entry 17). -/
def joinTwin (p tag : Nat) (s : State) : State :=
  if s.twin.st == .unpaired then s
  else
    let n := s.power.frees
    let s := { s with power.frees := n + 1 }
    if Config.twinTag n p ≠ tag then s
    else
      let own := decide (s.flash.serial < s.twin.serial)
      { s with twin := { s.twin with twinned := s.twin.twinned ++ [p], primary := s.twin.primary ++ (if own then [p] else []) } }

/-- A partition comes into being, with its key pair unless it comes from the profile (R428). -/
def makePart (b : Bytes) (key : Option Nat) (s : State) : State :=
  let p := fldLE b 0 1
  let nooks := bitsOf 96 (fldLE b 8 12)
  let sax := bitsOf 256 (fldLE b 24 32)
  let trays := bitsOf 32 (fldLE b 56 4)
  let x : Part := { id := p, agents := fldLE b 1 1, cacheKib := fldLE b 2 2, tag := fldLE b 4 4, keyPair := key }
  let owner := s.ten.nooks.zipIdx.map fun o => if nooks.contains o.2 then Owner.part p else o.1
  let s := { s with ten := { s.ten with parts := s.ten.parts ++ [x], nooks := owner } }
  let s := sax.foldl (fun s k => modPort k (fun y => { y with owner := some p, admitted := false, caching := false }) s) s
  let s := trays.foldl (fun s t => modTray t (fun y => { y with owner := some p }) s) s
  let s := trays.foldl (fun s t => if (s.tray t).mode = 2 then hostAgent t s else s) s
  joinTwin p x.tag (freshKeys nooks { s with mantel := { s.mantel with
    evP := s.mantel.evP.set p {}, teleP := s.mantel.teleP.set p {}, cntP := s.mantel.cntP.set p {} } })

/-- PARTITION_CREATE with a key pair of the pool; none is left and the command waits (R391). A spine module has no partitions
(R29): the status is the model's (log entry 87). -/
def partitionCreate (j : Job) (s : State) : End × State :=
  if createBad j.payload then (.done .badDescriptor, s)
  else if s.flash.prof.role = 1 then (.done .noAccess, s)
  else if createBusy s j.payload || s.power.trngFail then (.done .busy, s)
  else match s.ten.keyPool with
    | k :: ks => (.done .ok, makePart j.payload (some k) { s with ten.keyPool := ks })
    | [] => (.waits, { s with ten.creates := s.ten.creates ++ [{ job := j.id, at_ := s.t, payload := j.payload }] })

/-- KEY_POOL_REFILL (R391): in the system's share of the public-key engine (R374) the pool, of four, takes a new pair; a PARTITION_CREATE that waits takes it at once. -/
def keyPoolRefill (s : State) : State :=
  if 4 ≤ s.ten.keyPool.length || s.power.trngFail || !sysShare s then s
  else
    let (k, s) := drawKey s
    match s.ten.creates with
    | [] => { s with ten.keyPool := s.ten.keyPool ++ [k] }
    | w :: ws =>
      let s := { s with ten.creates := ws }
      if createBusy s w.payload then finish w.job .busy 0 [] { s with ten.keyPool := s.ten.keyPool ++ [k] }
      else finish w.job .ok 0 [] (makePart w.payload (some k) s)

/-- KEY_PAIR_WAIT_TIMEOUT (R391): creations that have waited 2 s. -/
def keyPairWait (s : State) : State :=
  let due := s.ten.creates.filter fun w => decide (w.at_ + 2000000000 ≤ s.t)
  due.foldl (fun s w => finish w.job .busy 0 [] s) { s with ten.creates := s.ten.creates.filter fun w => decide (s.t < w.at_ + 2000000000) }

/-! ## Clearing nooks and ports -/

/-- A nook's directory ways, thread state and melt sets are cleared, and its 64 regions wait to be zeroed by the ZERO strokes of its channels (R25, R26,
R159). -/
def clearNook (n : Nat) (s : State) : State :=
  startZero n
    { s with dir := { s.dir with ents := s.dir.ents.filter (·.nook != n), setLost := s.dir.setLost.filter (·.1 != n) },
             chains := { s.chains with
               misses := s.chains.misses.filter (·.nook != n), threads := s.chains.threads.filter (·.nook != n),
               sets := s.chains.sets.filter (·.nook != n) },
             ten.unzeroed := s.ten.unzeroed.filter (·.1 != n) ++ (List.range 512).map fun r => (n, r) }

/-- A Saxel port leaves its owner: its sessions end, its peer becomes a stranger (R27). -/
def leaveSax (owner : Option Nat) (p : Nat) (s : State) : State :=
  let s := failQueue p (endSession p s)
  if owner.isSome then modPort p (fun x => { x with owner := owner }) s
  else modPort p (fun x => { x with owner := none, st := .disabled, lanes := [], trained := [], stepping := false }) s

/-- A tray port leaves its owner; an upstream port takes an agent id of the new one (R27, R291). -/
def leaveTray (owner : Option Nat) (t : Nat) (s : State) : State :=
  let s := crashPort true t s
  let s := modTray t (fun x => { x with owner := owner, up := x.up && owner.isSome }) s
  let s := if (s.tray t).mode = 3 then ashLeave t s else s
  if (s.tray t).mode = 2 then hostAgent t s else s

/-! ## Destroying a partition (R397) -/

/-- Chains of a partition end at once with a status. -/
def endChains (p : Nat) (st : Status) (s : State) : State :=
  let s := abortWhere (·.part == p) st s
  (s.chains.chains.filter (·.part == p)).foldl (fun s c => chainComplete c.cid s) s

/-- The partition holds an extent, a namespace or a loaded list (R408). -/
def partHolds (s : State) (p : Nat) : Bool :=
  (heldExts s).any (·.part == p) || (s.ns? p).isSome || s.tiers.lists.any (·.part == p)

/-- What the manager's commands for a partition that wait end with. -/
def endJobs (p self : Nat) (s : State) : State :=
  let mine := fun (j : Job) => j.manager && j.id != self && j.part == p && ((opInfo j.op).elim false (·.t)) && j.started
  ((s.mantel.jobs.filter mine).map (·.id)).foldl (fun s id => finish id .quiesced 0 [] s) s

/-- Everything a partition has beside its nooks and ports goes with it. -/
def forgetPart (p : Nat) (s : State) : State :=
  let mine := fun (m : MbxId) => m == .tenant p
  { s with
    tables := s.tables.filter (·.d.part != p), moves := s.moves.filter (·.part != p),
    mem.trks := s.mem.trks.filter fun k => !(k.part == some p && k.vc == .mgt),
    chains := { s.chains with templates := s.chains.templates.filter (·.part != p) },
    groups := { s.groups with groups := s.groups.groups.filter (·.part != p), insts := s.groups.insts.filter (·.part != p) },
    tiers := { s.tiers with ckeys := s.tiers.ckeys.filter fun k => k.handle / 256 != p + 1,
                            jobs := s.tiers.jobs.filter (·.part != p), units := s.tiers.units.filter (·.part != p),
                            mapCache := s.tiers.mapCache.filter (·.1 != p), pendU := s.tiers.pendU.filter (·.part != p),
                            reads := s.tiers.reads.filter (·.u.part != p) },
    twin := { s.twin with primary := s.twin.primary.filter (· != p), twinned := s.twin.twinned.filter (· != p) },
    ten := { s.ten with parts := s.ten.parts.filter (·.id != p), trayKey := s.ten.trayKey.filter (·.1 != p) },
    mantel := { s.mantel with
      jobs := s.mantel.jobs.filter (! mine ·.mbx), lasts := s.mantel.lasts.filter (! mine ·.mbx),
      posts := s.mantel.posts.filter (·.part != p), evP := s.mantel.evP.set p {},
      teleP := s.mantel.teleP.set p {}, cntP := s.mantel.cntP.set p {} } }

/-- PARTITION_DESTROY (R397, R408). -/
def partitionDestroy (j : Job) (s : State) : End × State :=
  let p := fldLE j.payload 0 1
  if 15 < p then (.done .badDescriptor, s)
  else if (s.part? p).isNone then (.done .noAccess, s)
  else if partHolds s p then (.done .busy, s)
  else
    let nooks := s.nooksOf p
    let sax := s.saxOf p
    let trays := s.traysOf p
    let s := endJobs p j.id (endChains p .quiesced s)
    let s := (s.ten.moves.filter fun m => nooks.contains m.nook || m.dst == .part p).foldl (fun s m => finish m.job .quiesced 0 [] s) s
    let s := { s with ten.moves := s.ten.moves.filter fun m => !(nooks.contains m.nook || m.dst == .part p) }
    let s := trays.foldl (fun s t => leaveTray none t s) (sax.foldl (fun s k => leaveSax none k s) s)
    let owner := s.ten.nooks.map fun o => if o == .part p then Owner.free else o
    let s := forgetPart p { s with ten.nooks := owner }
    let s := if s.power.trngFail then { s with ten.memKey := nooks.foldl (fun l n => l.set n 0) s.ten.memKey } else freshKeys nooks s
    (.done .ok, nooks.foldl (fun s n => clearNook n s) s)

/-! ## Moving a nook (R23 to R25) -/

/-- Work of a partition that still runs on a nook: pours at home there, stages with a spread instance there (R69, R93), and rows its
Ladle engine reads. -/
def runsOn (s : State) (n : Nat) (c : Chain) : Bool :=
  c.status.isNone && !c.ended && (c.home == n || s.chains.threads.any (fun t => t.nook == n && t.cid == c.cid)
    || c.stages.any fun x => x.rows.any fun r => r.nook == n && (r.state == 1 || r.state == 3))

/-- A table's shard map names the nook. -/
def mapsTo (s : State) (n : Nat) (t : Table) : Bool :=
  t.d.storage != 2 && (memRead s t.d.smap t.d.shards).any fun b => b.toNat == n

/-- R24 refuses to take the nook from its partition; `k` is the partition's lowest-numbered other nook. The chain store
holds 768 KiB, of which the chain queue and the templates take all but 6,848 units of 64 bytes. -/
def moveBusy (s : State) (p n k : Nat) : Bool :=
  let mine := s.tables.filter (·.d.part == p)
  let at_ := fun (c : Nat) => ((mine.filter (·.d.coord == c)).map fun t => 1 + b2n t.u.isSome).sum
  s.chains.templates.any (·.nook == n) || 6848 < at_ k + at_ n
    || cacheCap s p < cacheLines s p k false + cacheLines s p n false
    || mine.any fun t => mapsTo s n t && t.u.elim false fun u => u.uareas.getD k 0 == 0

/-- Steps 1 to 4 of R24, and the end of the Bellows entries that hold tier-0 pieces on the nook (R317). -/
def takeAway (p n k : Nat) (s : State) : State :=
  let mine := s.tables.filter (·.d.part == p)
  let s := { s with moves := s.moves.filter fun m => !(m.part == p && (m.dst == n || (s.table? p m.table).elim false
      fun t => shardNook s t.d m.shard == n)) }
  let pins := cacheLines s p n false
  let s := (mine.filter (mapsTo s n)).foldl (fun s t =>
    (List.range t.d.shards).foldl (fun s q => if shardNook s t.d q = n then memWrite (t.d.smap + q) (toLE 1 k) s else s) s) s
  let fix := fun (t : Table) =>
    let d := if t.d.coord = n then { t.d with coord := k } else t.d
    { t with d := d, auto := t.auto.filter (·.nook != n) }
  let s := { s with tables := modWhere (·.d.part == p) fix s.tables }
  let s := makeRoom p k pins 65536 s
  (s.tiers.lists.filter (·.part == p)).foldl (fun s l =>
    (List.range l.entries.length).foldl (fun s i =>
      if (l.entries[i]?).elim false fun e => e.pieces.contains n then endEntry p l.id i .quiesced s else s) s) s

/-- NOOK_MOVE is accepted. -/
def startMove (j : Job) (n : Nat) (dst : Owner) (s : State) : End × State :=
  (.waits, { s with ten.moves := s.ten.moves ++ [{ nook := n, dst := dst, at_ := s.t, job := j.id }] })

/-- NOOK_MOVE (R23, R24): OWNER 0xFF is free. A move to the owner it has is done at once. DESIGN CHOICE (log entry 87): *k* is
the lowest-numbered other nook that is not itself being moved, and the move is BUSY where all of them are. A tray extent whose NOOK
field names the nook lies on it (log entry 94). -/
def nookMove (j : Job) (s : State) : End × State :=
  let n := fldLE j.payload 0 1
  let o := fldLE j.payload 1 1
  let dst : Owner := if o = 255 then .free else .part o
  if 95 < n || (15 < o && o ≠ 255) then (.done .badDescriptor, s)
  else if s.nookOwner n == .system || (o ≠ 255 && (s.part? o).isNone) then (.done .noAccess, s)
  else if moving s n || (heldExts s).any (·.nook == n) || s.power.trngFail then (.done .busy, s)
  else if s.nookOwner n == dst then (.done .ok, s)
  else match s.nookOwner n with
    | .part p =>
      match (s.nooksOf p).find? fun m => m != n && !moving s m with
      | none => (.done .busy, s)
      | some k => if moveBusy s p n k then (.done .busy, s) else startMove j n dst (takeAway p n k s)
    | _ => startMove j n dst s

/-- NOOK_DRAIN_TIMEOUT (R25): at 4 ms the work still on the nook ends with QUIESCED. -/
def nookDrain (n : Nat) (s : State) : State :=
  if s.ten.moves.any fun m => m.nook == n && decide (m.at_ + 4000000 ≤ s.t) then abortWhere (runsOn s n) .quiesced s else s

/-- NOOK_MOVE_END (R25): nothing runs on the nook; it is cleared and rekeyed, and its owner switches. While a TRNG health test fails
there is no key for it, and the move ends with BUSY (R390). -/
def nookMoveEnd (n : Nat) (s : State) : State :=
  match s.ten.moves.find? (·.nook == n) with
  | none => s
  | some m =>
    if s.chains.chains.any (runsOn s n) then s
    else if s.power.trngFail then finish m.job .busy 0 [] { s with ten.moves := s.ten.moves.filter (·.nook != n) }
    else
      let s := clearNook n { s with ten := { s.ten with
        moves := s.ten.moves.filter (·.nook != n), nooks := s.ten.nooks.set n m.dst } }
      finish m.job .ok 0 [] (freshKeys [n] { s with tiers.tier0 := s.tiers.tier0.filter (·.1 != n) })

/-- ZEROING_REGION (R26): the ZERO strokes of the nook's channels have passed the region; on a nook that holds extents the space
that a release left is zeroed in the BKG service (R276). Pieces that an extent covers are not touched: their first write zeroes
them (R175). -/
def zeroingRegion (n r : Nat) (s : State) : State :=
  let past := fun (c : Nat) => let k := s.chan c
    chanGone k || k.zeroLine.elim true fun p => decide ((r + 1) * 2 ^ 19 ≤ p)
  if nookBare s n && !(nookChans n).all past then s
  else
    let held := ((heldExts s).filter (·.nook == n)).flatMap (extPieces s)
    zeroPieces n (fun q => q / 8 == r && !held.contains q) s

/-! ## Quiescing (R408, R464) -/

/-- PARTITION_QUIESCE: OK once every chain of the partition has ended with QUIESCED. -/
def partitionQuiesce (j : Job) (s : State) : End × State :=
  let p := fldLE j.payload 0 1
  if 15 < p then (.done .badDescriptor, s)
  else if (s.part? p).isNone then (.done .noAccess, s)
  else
    let s := modPart p (fun x => { x with quiesced := true, quiesceJobs := x.quiesceJobs ++ [j.id] }) s
    (.waits, quiesceCheck p (abortWhere (·.part == p) .quiesced s))

/-- PARTITION_RESUME (R464): BUSY while a recovery of the partition runs. -/
def partitionResume (j : Job) (s : State) : Status × State :=
  let p := fldLE j.payload 0 1
  if 15 < p then (.badDescriptor, s)
  else match s.part? p with
    | none => (.noAccess, s)
    | some x =>
      if x.recs.any (! ·.ended) then (.busy, s)
      else (.ok, modPart p (fun x => { x with quiesced := false, dfault := false }) s)

/-- The PARTITION_INFO record (R491). -/
def partInfo (s : State) (x : Part) : Bytes :=
  toLE 12 (maskOf (s.nooksOf x.id)) ++ List.replicate 4 0 ++ toLE 32 (maskOf (s.saxOf x.id)) ++ toLE 4 (maskOf (s.traysOf x.id))
    ++ toLE 4 x.tag ++ toLE 1 x.agents ++ toLE 1 (s.dir.agents.filter (·.part == x.id)).length ++ toLE 2 x.cacheKib
    ++ toLE 1 (1 + 2 * b2n (s.recovering x.id) + 4 * b2n (s.isQuiesced x.id) + 8 * b2n x.dfault) ++ List.replicate 3 0

/-- PARTITION_INFO (R408, R491): a tenant reads its own record only. -/
def partitionInfo (j : Job) (s : State) : End × State :=
  let p := fldLE j.payload 0 1
  if !j.manager && p ≠ j.part then (.done .noAccess, s)
  else (.done .ok 0 ((s.part? p).elim (List.replicate 64 0) (partInfo s)), s)

/-! ## Moving a port (R27) -/

/-- PORT_MOVE: OWNER 0xFF leaves the port without an owner, and so disabled (R21). -/
def portMove (j : Job) (s : State) : Status × State :=
  let p := fldLE j.payload 0 1
  let tray := fldLE j.payload 1 1
  let o := fldLE j.payload 2 1
  let owner : Option Nat := if o = 255 then none else some o
  if 1 < tray || (15 < o && o ≠ 255) || (tray = 1 && 31 < p) then (.badDescriptor, s)
  else if (if tray = 1 then (s.tray p).mode == 0 else (s.port p).kind != 0) || (o ≠ 255 && (s.part? o).isNone) then (.noAccess, s)
  else if tray = 1 then
    let full := (s.tray p).mode == 2 && (owner.bind s.part?).elim false fun x => x.agents ≤ (s.dir.agents.filter (·.part == x.id)).length
    if full && (s.tray p).owner != owner then (.busy, s) else (.ok, leaveTray owner p s)
  else (.ok, leaveSax owner p s)

/-! ## Meanings -/

def execPartitionCreate (m : MbxId) (s : State) : Host.Outcome State Fault Refusal :=
  .next (settle s (runCmd 0x0301 m partitionCreate s))
def execPartitionDestroy (m : MbxId) (s : State) : Host.Outcome State Fault Refusal :=
  .next (settle s (runCmd 0x0302 m partitionDestroy s))
def execNookMove (m : MbxId) (s : State) : Host.Outcome State Fault Refusal :=
  .next (settle s (runCmd 0x0303 m nookMove s))
def execPartitionQuiesce (m : MbxId) (s : State) : Host.Outcome State Fault Refusal :=
  .next (settle s (runCmd 0x0304 m partitionQuiesce s))
def execPartitionResume (m : MbxId) (s : State) : Host.Outcome State Fault Refusal :=
  .next (settle s (runCmd 0x0305 m (simply partitionResume) s))
def execPartitionInfo (m : MbxId) (s : State) : Host.Outcome State Fault Refusal :=
  .next (settle s (runCmd 0x0306 m partitionInfo s))
def execPortMove (m : MbxId) (s : State) : Host.Outcome State Fault Refusal :=
  .next (settle s (runCmd 0x0501 m (simply portMove) s))
def execNookDrainTimeout (nook : Nat) (s : State) : Host.Outcome State Fault Refusal :=
  .next (settle s (nookDrain nook s))
def execNookMoveEnd (nook : Nat) (s : State) : Host.Outcome State Fault Refusal :=
  .next (settle s (nookMoveEnd nook s))
def execZeroingRegion (nook region : Nat) (s : State) : Host.Outcome State Fault Refusal :=
  .next (settle s (zeroingRegion nook region s))
def execKeyPoolRefill (s : State) : Host.Outcome State Fault Refusal :=
  .next (settle s (keyPoolRefill s))
def execKeyPairWaitTimeout (s : State) : Host.Outcome State Fault Refusal :=
  .next (settle s (keyPairWait s))

end Sys2Proof.Machine
end

