-- ==== Sys2Proof/Machine/Messages.lean ====
section
/-! DEFINITION. Messages between endpoints, their answers, neighbour hellos and the 100 ms limit (R9, R281 to R288, R432,
R433, R493). -/

namespace Sys2Proof.Machine

/-- The status that a STATUS byte of an answer names; a byte that names none counts as BAD_DESCRIPTOR. -/
def statusOf (n : Nat) : Status :=
  ([.ok, .retry, .extentGone, .epochStale, .lineLost, .damaged, .noAccess, .partialLost, .timeout, .doubleFault, .busy,
    .badDescriptor, .genConflict, .quiesced] : List Status).getD n .badDescriptor

/-! ## Answers to the module's own messages -/

/-- What an answer to one of the module's own messages brings about, once its tracker is free: a chain's message is done or
ends the chain, a migration's opening goes on or ends, a push message is done. -/
def ownAnswered (id : Nat) (st : Status) (s : State) : State :=
  let s := match s.chains.chains.find? (·.pushes.contains id) with
    | none => s
    | some c =>
      let s := modChain c.cid (fun c => { c with pushes := c.pushes.filter (· != id) }) s
      if st = .ok then s
      else abort c.cid st (((List.range c.descs.length).find? fun i => (consumers c.ds i).isEmpty).getD 0) s
  pushAnswer id st (migAnswer id st s)

/-- The chain of a collective's message has stopped (R202). -/
def collStopped (k : Trk) (m : PktMsg) (s : State) : Bool :=
  s.groups.insts.any fun i => some i.part == k.part && ofInst i m && (s.chain? i.cid).elim true (·.status.isSome)

/-- An answer to a message of the module itself: RETRY sends it again unchanged (R9), under the same tracker, unless it
belongs to an instance whose chain has stopped (R202). -/
def ownAnswer (k : Trk) (st : Status) (s : State) : State :=
  match st, k.own with
  | .retry, some m =>
    if collStopped k m s then freeTrk k.id s
    else match wayOut s { m with hops := 0 } with
    | .ok (p, hops) => enqueue false p k.svc m.dst (.pkt .msg { m with hops := hops }) s
    | .error st => ownAnswered k.id st (freeTrk k.id (loopEvent m st s))
  | _, _ => ownAnswered k.id st (freeTrk k.id s)

/-! ## Answers that pass through (R282, R493) -/

/-- An answer goes on toward its source. To an accelerator of this module it goes only while the tracker of the message it
answers is held, in that message's service; the CHAIN_CMP of a POUR needs none, since the limit of R282 does not bind a chain.
It carries the Heat sampled when that message came (R255), and its tag must be that of the port's owner (R285). An answer that
cannot be delivered is discarded. One in transit travels in the service of the message it answers (R243). -/
def answerOnward (m : PktMsg) (s : State) : State :=
  match leave s (routeMap s m.epoch) m with
  | .here =>
    match s.mem.trks.find? fun k => k.vc == .msg && k.own.isSome && k.txn == m.txn with
    | some k => ownAnswer k (statusOf m.status) s
    | none => s
  | .accel q =>
    if !tagFits s m.tenant q then s
    else match msgTrk s m.dst m.txn with
    | some k => enqueue false q k.svc m.dst (.pkt .msg { m with heat := pinHeat s q k.heat }) (freeTrk k.id s)
    | none => if m.opc = 5 then enqueue false q 2 m.dst (.pkt .msg { m with heat := answerHeat s q { src := m.dst } }) s else s
  | .out _ =>
    match msgTrk s m.dst m.txn with
    | some k => sendQuiet .msg k.svc m (freeTrk k.id s)
    | none => sendQuiet .msg (msgSvc m.opc m.tag) m s
  | .loop => loopReport m s
  | .nowhere => s

/-- An answer arrives on a port: it is never policed, refused for its epoch or answered. From an accelerator its SRC must be
the link's endpoint (R289 step 0), and its tag is the partition's; that of a peer not admitted is discarded (R245). On a twin link it answers a mirror message, which RETRY has sent
again (R9). -/
def answerIn (p : Nat) (m : PktMsg) (s : State) : State :=
  let pt := s.port p
  let s := eatPkt p .msg m s
  match openPkt m with
  | none => fluxEvent p m s
  | some q =>
    if q.rsv || (pt.kind = 0 && (q.src ≠ accelEp s p || !pt.admitted)) then s
    else if pt.kind = 2 then
      if q.status = Status.retry.code then mirrorAgain q.txn s
      else if s.twin.accs.any (·.1 == q.txn) then accessDone q.txn (q.status == 0) q.body s
      else mirrorDone q.txn s
    else answerOnward (if pt.kind = 0 then { q with tenant := tagOf s pt.owner, hops := 0 } else q) s

/-! ## Neighbour hellos (R432, R433) -/

/-- The tag of a neighbour hello. -/
def helloTag : Nat := 0xFF01

/-- NEIGHBOUR_HELLO: one that does not fit the peer's CONFIG record is discarded and reported; otherwise it is kept, and
election counts the link from then on (R433). It is exempt from the epoch checks. -/
def neighbourHello (p : Nat) (m : PktMsg) (s : State) : State :=
  let body := (openPkt m).elim [] (·.body)
  if m.opc ≠ 1 || m.tag ≠ helloTag || (s.port p).kind = 0 then s
  else match admitMsg p m (decHello body).isNone true s with
    | (.error st, s) => answerOn p m st s
    | (.ok q, s) =>
      match decHello q.body, (s.port p).peer with
      | some h, some r =>
        if h.serial ≠ r.serial || h.cell ≠ r.cell || h.module ≠ r.module || h.port ≠ r.port then
          answerOn p q .noAccess (event 0x0013 true [] none [p] s)
        else answerOn p q .ok (elect (modPort p (fun x => { x with hello := some h }) s))
      | _, _ => answerOn p q .noAccess s

/-! ## POST, COLLECT and messages in transit (R283 to R288) -/

/-- A POST whose tag is link-local is consumed by the module (R432); no rule gives a meaning to any but the hello's. -/
def linkLocal (m : PktMsg) : Bool := 0xFF00 ≤ m.tag && m.tag ≤ 0xFF0F

/-- POST (R284, R432): a hello and a migration transfer are the module's own; reserved tags are refused to accelerators;
every other POST goes to its endpoint. A twin link carries none of them (R28). -/
def post (p : Nat) (m : PktMsg) (s : State) : State :=
  if m.opc ≠ 1 then s
  else if m.tag = helloTag && (s.port p).kind ≠ 0 then neighbourHello p m s
  else
    let bad := (s.port p).kind == 2 || ((s.port p).kind == 0 && 0xFF00 ≤ m.tag)
    if bad || !(linkLocal m || (m.tag = migTag && namesMe s m.dst)) then forward p m bad s
    else if linkLocal m then
      match admitMsg p m false false s with
      | (.error st, s) => refuse p m st s
      | (.ok q, s) => refuse p q .noAccess s
    else migrationArrival p m s

/-- COLLECT (R283): no module answers one; it goes to its endpoint. -/
def collect (p : Nat) (m : PktMsg) (s : State) : State :=
  if m.opc ≠ 2 then s else forward p m ((s.port p).kind == 2) s

/-- COLLECT_ANSWER (R493). -/
def collectAnswer (p : Nat) (m : PktMsg) (s : State) : State := if m.opc = 3 then answerIn p m s else s

/-- MSG_CMP, and the CHAIN_CMP that answers a POUR in its place (R493). -/
def msgCmp (p : Nat) (m : PktMsg) (s : State) : State := if m.opc = 7 || m.opc = 5 then answerIn p m s else s

/-- MESSAGE_FORWARD (R286): a message of any kind that is for another endpoint. An opcode that R344 does not give is answered
BAD_DESCRIPTOR, also where it is addressed to this module (R33, R493). -/
def messageForward (p : Nat) (m : PktMsg) (s : State) : State :=
  let known := 1 ≤ m.opc && m.opc ≤ 7
  if namesMe s m.dst && known then s
  else if m.opc = 1 then post p m s
  else if m.opc = 3 || m.opc = 5 || m.opc = 7 then answerIn p m s
  else forward p m ((s.port p).kind == 2 || !(m.opc == 2 || m.opc == 4 || m.opc == 6)) s

/-! ## Requests that end early (R282, R458) -/

/-- A request or message under a tracker ends with a status at this module. -/
def endTracker (id : Nat) (st : Status) (s : State) : State :=
  match s.mem.trks.find? (·.id == id) with
  | none => s
  | some k =>
    if k.vc != .msg then freeTrk id (dirEnd id st s)
    else if k.own.isSome then ownAnswered id st (freeTrk id s)
    else answerMsg { src := k.src, txn := k.txn, opc := k.opc, epoch := k.epoch, tenant := tagOf s k.part, tag := k.tag } st s

/-- REQUEST_TIMEOUT (R282): 100 ms after admission; a POUR under way to another module is not bound by it, and holds its tracker
until its answer passes back (log entry 29). A message in transit is not answered here: the limit runs on the module that admitted
it from its source. A mailbox command runs under its own limits (R402).
A message of the module whose link has gone down ends with NO_ACCESS at once (R334). -/
def requestTimeout (id : Nat) (s : State) : State :=
  match s.mem.trks.find? (·.id == id) with
  | none => s
  | some k =>
    if k.failed then endTracker id .noAccess s
    else if s.t < k.at_ + 100000000 || k.vc == .mgt || (k.vc == .msg && k.opc == 4 && !s.mem.transit.contains id) then s
    else if s.mem.transit.contains id then freeTrk id s
    else endTracker id .timeout s

/-! ## Meanings -/

def execPost (port : Nat) (m : PktMsg) (s : State) : Host.Outcome State Fault Refusal :=
  .next (settle s (Sys2Proof.Machine.post port m s))
def execCollect (port : Nat) (m : PktMsg) (s : State) : Host.Outcome State Fault Refusal :=
  .next (settle s (Sys2Proof.Machine.collect port m s))
def execCollectAnswer (port : Nat) (m : PktMsg) (s : State) : Host.Outcome State Fault Refusal :=
  .next (settle s (Sys2Proof.Machine.collectAnswer port m s))
def execMsgCmp (port : Nat) (m : PktMsg) (s : State) : Host.Outcome State Fault Refusal :=
  .next (settle s (Sys2Proof.Machine.msgCmp port m s))
def execMessageForward (port : Nat) (m : PktMsg) (s : State) : Host.Outcome State Fault Refusal :=
  .next (settle s (Sys2Proof.Machine.messageForward port m s))
def execNeighbourHello (port : Nat) (m : PktMsg) (s : State) : Host.Outcome State Fault Refusal :=
  .next (settle s (Sys2Proof.Machine.neighbourHello port m s))
def execRequestTimeout (id : Nat) (s : State) : Host.Outcome State Fault Refusal :=
  .next (settle s (Sys2Proof.Machine.requestTimeout id s))

end Sys2Proof.Machine
end

