-- ==== Sys2Proof/Machine/Faults.lean ====
section
/-! DEFINITION. Background work, temperature, telemetry, and the faults of channels and SRAM (R445 to R464). -/

namespace Sys2Proof.Machine

/-! ## SRAM (R447, R458, R459) -/

/-- Correctable errors are counted for their owner, or for the system (R447, R451). -/
def countCe (o : Owner) (n : Nat) (s : State) : State :=
  match o with
  | .part p => modPart p (fun x => { x with ce := sat32 (x.ce + n) }) s
  | _ => { s with mantel.sysCe := sat32 (s.mantel.sysCe + n) }

/-- CLEANER_CYCLE (R447): corrected words are counted; a directory way whose entry is I with PEND 0 and LOST 0 is free. -/
def cleanerCycle (w : CleanWhere) (n : Nat) (s : State) : State :=
  match w with
  | .directory k set =>
    let idle := fun (d : DirEnt) => d.nook == k && d.line % 4096 == set && d.st == .i && !d.lost && !pendLine s d.line
    countCe (s.nookOwner k) n { s with dir.ents := s.dir.ents.filter (! idle ·) }
  | .hearth k => countCe (s.nookOwner k) n s
  | .system => countCe .system n s

/-- An uncorrectable word that touches a partition, or none: a data fault recovered at once, and SRAM_ERROR. -/
def sramFault (p : Option Nat) (detail : List Nat) (s : State) : State :=
  let s := eventMO 0x0035 p detail s
  match p with
  | some p => endRecovery p 0x0035 0 (dataFault p 0x0035 0 s)
  | none => s

/-- The partition that holds a nook. -/
def holder (s : State) (nook : Nat) : Option Nat :=
  match s.nookOwner nook with
  | .part p => some p
  | _ => none

/-- Mantel restarts (R458): the commands in progress complete with RETRY. -/
def mantelFault (s : State) : State :=
  let ids := s.mantel.jobs.map (·.id)
  event 0x003A true [] none [] { ids.foldl (fun s id => finish id .retry 0 [] s) s with mantel.restarting := true }

/-- SRAM_UNCORRECTABLE (R458, R459), by where the word lies. -/
def sramUncorrectable (w : SramWhere) (s : State) : State :=
  match w with
  | .tileQueue nook cid =>
    if (s.chain? cid).elim true fun c => c.home != nook || !c.admitted then s
    else abort cid .damaged 0 (sramFault (holder s nook) [0, nook, cid] s)
  | .rowCache nook p t r =>
    let drop := fun (t : Table) => { t with
      auto := t.auto.filter fun x => !(x.row == r && x.nook == nook),
      cold := if t.pinned.contains r && !t.cold.contains r then r :: t.cold else t.cold }
    if (s.table? p t).isNone then s else modTable p t drop (sramFault (holder s nook) [1, nook, t, r] s)
  | .chainQueue nook cid =>
    if (s.chain? cid).elim true fun c => c.home != nook || c.admitted then s
    else abort cid .damaged 0 (sramFault (holder s nook) [2, nook, cid] s)
  | .template nook p id =>
    if (s.template? nook id).elim true (·.part != p) then s
    else modTemplate nook id (fun t => { t with damaged := true }) (sramFault (holder s nook) [3, nook, id] s)
  | .tableDesc p t =>
    match s.table? p t with
    | none => s
    | some x => modTable p t (fun t => { t with damaged := true }) (sramFault (some p) [4, x.d.coord, t] s)
  | .tier0 p l e =>
    if (s.bentry? p l e).isNone then s else failEntry p l e .damaged (sramFault (some p) [5, l, e] s)
  | .tracker id =>
    match s.mem.trks.find? (·.id == id) with
    | none => s
    | some k => endTracker id .damaged (sramFault k.part [6, id] s)
  | .calendar b =>
    let s := sramFault none [7, b2n b] s
    if s.cal.running then { s with cal.stopAt := some (min (s.slot + 1) (s.cal.stopAt.getD (s.slot + 1))) } else s
  | .keyContent h => sramFault none [8, h] { s with tiers.ckeys := s.tiers.ckeys.filter (·.handle != h) }
  | .keySession p => if (s.port p).sess.phase = 3 then linkDown p (sramFault none [9, p] s) else s
  | .mantel => if s.mantel.restarting then s else mantelFault (sramFault none [10] s)
  | .directory nook set =>
    if setLost s nook set then s
    else
      let s := eventMO 0x003B (holder s nook) [nook, set] (sramFault (holder s nook) [11, nook, set] s)
      recallAll (fun d => d.nook == nook && d.line % 4096 == set) { s with dir.setLost := s.dir.setLost ++ [(nook, set)] }

/-- MANTEL_RESTART_END (R458). -/
def mantelRestartEnd (s : State) : State := { s with mantel.restarting := false }

/-! ## Stack channels (R454, R455) -/

/-- The trigger of R454 holds. A failed calibration and a read without data are seen by the controller alone. -/
def retireDue (s : State) (c : Nat) (why : RetireWhy) : Bool :=
  let k := s.chan c
  match why with
  | .damagedFull => 1024 < k.damaged.length
  | .correctedRate => 1024 < ((k.ceBuckets.filter fun b => b.1 + 60 > s.t / 1000000000).map (·.2)).sum
  | _ => true

/-- Channels of the stack whose retirement was triggered at this instant for the same partition: one data fault covers
them all (R454). -/
def sameFault (s : State) (c : Nat) : Option Nat :=
  ((List.range 32).map (c / 32 * 32 + ·)).find? fun d =>
    d != c && (s.chan d).retiring == some s.t && s.chanOwner d == s.chanOwner c

/-- Queued strokes of a channel that retires: rows become lost, atomics complete with DAMAGED (R455). -/
def loseStrokes (c : Nat) (s : State) : State :=
  let k := s.chan c
  let xs := k.strokes ++ k.held ++ k.segWait
  let ls := k.leaves.filter (0 < ·.left)
  let s := modChan c (fun k => { k with strokes := [], held := [], segWait := [] }) s
  let s := ls.foldl (fun s l => loseLeaf c l s) s
  xs.foldl (fun s x =>
    if x.kind == .atomic then x.reqs.foldl (fun s q => answerReq q .damaged 0 0 none none s) s
    else x.rows.foldl (fun s r => deliver x.cid x.stage r none s) s) s

/-- Accesses in flight to a channel that retires: write-backs have nowhere to go, and requests end DAMAGED, or they go to the twin's copy (R455, R460). -/
def loseReads (c : Nat) (s : State) : State :=
  let s := { s with dir.wbs := s.dir.wbs.filter fun w => !onChan s c w.line }
  (s.dir.txs.filter fun x => x.phase == .memory && onChan s c x.line).foldl (fun s x =>
    match anyExtent s (64 * x.line) with
    | none => s
    | some e => if viaTwin s e (64 * x.line) then goMemory x e s else answerReq x.req .damaged 0 0 none none (abandonTx x s)) s

/-- The channels of the system nooks, which hold the Ash map cache (R19). -/
def mapChans (s : State) : List Nat :=
  ((List.range 96).filter fun n => s.nookOwner n == .system).flatMap nookChans

/-- A retired channel of a system nook costs the map pages cached on it (R455). -/
def dropMapPages (c : Nat) (s : State) : State :=
  let cs := mapChans s
  if cs.contains c then
    { s with tiers.mapCache := s.tiers.mapCache.filter fun x => cs.getD (Config.mapChan x.1 x.2 % cs.length) c != c }
  else s

/-- CHANNEL_RETIRE_TRIGGER (R454, R455). -/
def retireTrigger (c : Nat) (why : RetireWhy) (s : State) : State :=
  if 768 ≤ c || chanGone (s.chan c) || !retireDue s c why then s
  else
    let o := s.chanOwner c
    let first := sameFault s c
    let lead := first.elim c fun d => (s.chan d).lead
    let s := modChan c (fun k => { k with retiring := some s.t, lead := lead }) s
    let s := match o with
      | some p => if first.isSome then s else dataFault p 0x0030 c s
      | none => s
    recallAll (fun d => onChan s c d.line) (loseReads c (loseStrokes c (dropMapPages c s)))

/-- CHANNEL_RETIRE (R455): refresh and scrub stop, the damaged-line table is freed, the retirement is recorded and raised. In
a quiesced partition it waits for the recoveries before it (R464). -/
def retireEnd (c : Nat) (s : State) : State :=
  let k := s.chan c
  let o := s.chanOwner c
  if k.retiring.isNone || o.elim false (fun p => !recoveryRuns s p 0x0030 k.lead) then s
  else
    let s := modChan c (fun k => { k with retired := true, retiring := none, damaged := [], refPend := false, refBusy := false,
                                          scrubPend := false, winRef := none }) s
    let s := eventMO 0x0030 o [c] { s with flash := { s.flash with retired := s.flash.retired ++ [c], retired1 := s.flash.retired1 ++ [c] } }
    match o with
    | none => s
    | some p =>
      let more := (List.range 768).any fun d => (s.chan d).retiring.isSome && (s.chan d).lead == k.lead && s.chanOwner d == some p
      if more then s else endRecovery p 0x0030 k.lead s

/-! ## The end of a recovery (R461, R464) -/

/-- A fault whose recovery is one act, done when it starts. -/
def actsAtOnce (code : Nat) : Bool := code == 0x0034 || code == 0x0035 || code == 0x0021

/-- The first waiting recovery starts. -/
def startNext : List Recovery → List Recovery
  | [] => []
  | r :: rs => if r.running then r :: rs else { r with running := true, ended := actsAtOnce r.code } :: rs

/-- RECOVERY_END (R461): recoveries of a partition that have ended are reported with the fault's event code and the time
the fault took; the next one starts (R464). -/
def recoveryEnd (p : Nat) (s : State) : State :=
  match s.part? p with
  | none => s
  | some x =>
    let done := x.recs.filter (·.ended)
    if done.isEmpty then s
    else
      let t := s.t
      let s := modPart p (fun x => { x with recs := startNext (x.recs.filter (! ·.ended)) }) s
      done.foldl (fun s r => eventMO 0x0037 (some p) [r.code, t - r.at_] s) s

/-! ## Temperature, power and clocks (R448 to R450) -/

/-- A temperature in sixteenths of a degree passes a level for the Hearth, or one for a base die. -/
def hotter (hearth base : Int) (h : Int) (ts : List Int) : Bool := decide (hearth * 16 ≤ h) || ts.any fun x => decide (base * 16 ≤ x)

/-- Since when a condition holds. -/
def since (t : Nat) (holds : Bool) (o : Option Nat) : Option Nat := if holds then o.or (some t) else none

/-- Whether THERM_WARN has cleared and power has stayed below 2,500 W, and since when (R449). -/
def noteLow (s : State) : State :=
  { s with power.lowAt := since s.t (!s.power.warn && decide (s.power.powerW < 2500)) s.power.lowAt }

/-- READY_CHANGE (R413, R429): the slot in use, 0xFF for the recovery profile. -/
def readyChange (s : State) : State := event 0x0020 true [] none [if s.flash.recovery then 0xFF else s.flash.slot] s

/-- Thermal emergency (R375, R450), at a slot boundary: every partition is quiesced, READY_BASIC and READY_FULL fall, FAULT_CAUSE [2] is set. -/
def thermalEmergency (s : State) : State :=
  let s := { s with ten.parts := s.ten.parts.map fun x => { x with quiesced := true } }
  let s := abortWhere (fun _ => true) .quiesced s
  let s := { s with power := { s.power with emergency := true, tooHot := false, readyBasic := false, readyFull := false } }
  readyChange (eventMA 0x001E [s.slot] (setCause 4 s))

/-- TEMP_SAMPLE (R448): temperatures of the Hearth and of the base dies, in 1/16 °C. A thermal emergency waits for the slot
boundary (R375, R450). -/
def tempSample (h : Int) (ts : List Int) (s : State) : State :=
  let ts := (ts ++ List.replicate 24 0).take 24
  let w := s.power
  let cool := since s.t (decide (h ≤ 1600) && ts.all fun x => decide (x ≤ 1440)) w.coolAt
  let warn := hotter 105 95 h ts || (w.warn && !(cool.elim false fun t0 => t0 + 10000000 ≤ s.t))
  let news := warn && !w.warn
  let s := { s with power := { w with
    tempHearth := h, tempStacks := ts, warn := warn, coolAt := cool, belowAt := since s.t (!hotter 105 95 h ts) w.belowAt } }
  let s := { s with chans := s.chans.zipIdx.map fun k => { k.1 with hot := decide (85 * 16 < ts.getD (k.2 / 32) 0) } }
  let s := noteLow (if news then event 0x0039 true [] none [tempWord s] s else s)
  if hotter 118 105 h ts && !s.power.emergency && !inReset s then { s with power.tooHot := true } else s

/-- Crucible clock of a step, in MHz (R449). -/
def stepMhz (n : Nat) : Nat := 2400 - 400 * n

/-- Crucible clock of a partition, in MHz (R32, R449, R477). -/
def crucibleMhz (s : State) (p : Option Nat) : Nat :=
  if s.power.brake then 600
  else if s.flash.prof.secure then (p.bind s.part?).elim 2400 (·.clockMhz)
  else stepMhz s.power.step

/-- THROTTLE (R449): the step that the clock takes, if one is due, at a slot boundary. -/
def throttle (s : State) : State :=
  let w := s.power
  let up := w.lowAt.elim false fun t0 => t0 + 10000000 ≤ s.t
  let n := if (w.warn || 2650 < w.powerW) && w.stepAt + 1000000 ≤ s.t then min 3 (w.step + 1)
    else if up && w.stepAt + 10000000 ≤ s.t then w.step - 1 else w.step
  if s.flash.prof.secure || w.emergency || inReset s || n = w.step || s.ns % 256 ≠ 0 then s
  else eventMA 0x0038 [n, stepMhz n] { s with power := { w with step := n, stepAt := s.t } }

/-! ## Telemetry (R451) -/

/-- Lanes of working ports that are out of them. -/
def lanesDown (s : State) (q : SaxPort → Bool) : Nat :=
  (s.sax.zipIdx.map fun x => if q x.1 && (x.1.st == .up || x.1.st == .retrain) then (if x.1.wide then 4 else 1) - x.1.lanes.length else 0).sum

/-- A sample: the counters of the millisecond that has ended, and the state at its end. -/
def sampleOf (s : State) (p : Option Nat) (c : Tele) : Tele :=
  let x := p.bind s.part?
  { c with
    ns := (s.ns / 1000000 - 1) * 1000000, mhz := crucibleMhz s p, powerW := s.power.powerW, inputMv := s.power.inputMv,
    tempHearth := s.power.tempHearth, tempStacks := s.power.tempStacks,
    lanesDown := lanesDown s fun k => p.elim true fun p => k.owner == some p,
    recovering := p.elim (s.ten.parts.any fun x => s.recovering x.id) (s.recovering ·),
    quiesced := x.elim (s.ten.parts.any fun x => s.isQuiesced x.id) fun x => x.quiesced || x.dfault }

/-- TELEMETRY_SAMPLE (R451): once for each millisecond of Ember time. The stream goes out every PERIOD_MS as a POST with
tag 0xFF10 in BKG. -/
def telemetrySample (powerW mv : Nat) (s : State) : State :=
  let k := s.ns / 1000000
  if k ≤ s.mantel.teleAt then s
  else
    let s := noteLow { s with power := { s.power with powerW := powerW, inputMv := mv } }
    let m := s.mantel
    let ps := m.cntP.zipIdx.map fun c => if (s.part? c.2).isSome then sampleOf s (some c.2) c.1 else {}
    let due := m.stream.elim false fun x => x.2 ≤ m.streamAt + 1
    let s := { s with mantel := { m with
      teleM := sampleOf s none m.cntM, teleP := ps, cntM := {}, cntP := List.replicate 16 {}, teleAt := k,
      streamAt := if due then 0 else m.streamAt + 1 } }
    match m.stream with
    | some (ep, _) => if due then (ownPost none 6 ep teleTag s.maps.cur.epoch (teleBytes true 0 s.mantel.teleM) s).2 else s
    | none => s

/-! ## Meanings -/

def execCleanerCycle (w : CleanWhere) (corrected : Nat) (s : State) : Host.Outcome State Fault Refusal :=
  .next (settle s (Sys2Proof.Machine.cleanerCycle w corrected s))
def execSramUncorrectable (w : SramWhere) (s : State) : Host.Outcome State Fault Refusal :=
  .next (settle s (Sys2Proof.Machine.sramUncorrectable w s))
def execMantelRestartEnd (s : State) : Host.Outcome State Fault Refusal :=
  .next (settle s (Sys2Proof.Machine.mantelRestartEnd s))
def execChannelRetireTrigger (chan : Nat) (why : RetireWhy) (s : State) : Host.Outcome State Fault Refusal :=
  .next (settle s (retireTrigger chan why s))
def execChannelRetire (chan : Nat) (s : State) : Host.Outcome State Fault Refusal :=
  .next (settle s (retireEnd chan s))
def execRecoveryEnd (part : Nat) (s : State) : Host.Outcome State Fault Refusal :=
  .next (settle s (Sys2Proof.Machine.recoveryEnd part s))
def execTempSample (hearth : Int) (temps : List Int) (s : State) : Host.Outcome State Fault Refusal :=
  .next (settle s (Sys2Proof.Machine.tempSample hearth temps s))
def execThrottle (s : State) : Host.Outcome State Fault Refusal :=
  .next (settle s (Sys2Proof.Machine.throttle s))
def execTelemetrySample (powerW inputMv : Nat) (s : State) : Host.Outcome State Fault Refusal :=
  .next (settle s (Sys2Proof.Machine.telemetrySample powerW inputMv s))

end Sys2Proof.Machine
end

