-- ==== Sys2Proof/Machine/Power.lean ====
section
/-! DEFINITION. Supplies, reset, start-up, profiles, the power brake, reference clocks, the SMBus (R8, R378 to R384, R420 to
R431, R469 to R485). -/

namespace Sys2Proof.Machine

/-! ## Profile records (R426 to R429) -/

/-- Bytes in a profile slot. -/
def slotBytes4 : Nat := 262144

/-- The checks of R426 that need only the bytes: MAGIC, VERSION, LENGTH and CRC. The record, when they pass. -/
def record? (cf : List Host.Cell) (n : Nat) : Option Bytes :=
  let h := cellsRead 0xFF cf (n * slotBytes4) 128
  let len := fldLE h 72 4
  if fldLE h 0 4 ≠ 0x4C465250 then none
  else if fldLE h 4 2 ≠ 1 || len < 128 || slotBytes4 < len || len % 8 ≠ 0 then none
  else
    let b := cellsRead 0xFF cf (n * slotBytes4) len
    if crc32 (b.take 76 ++ [0, 0, 0, 0] ++ b.drop 80) = fldLE b 76 4 then some b else none

/-- The header of R427. -/
def decProfile (b : Bytes) : Profile :=
  let f := fldLE b 7 1
  { role := fldLE b 6 1, secure := bit f 0, test := bit f 1, twin := bit f 2, cell := fldLE b 8 2 % 1024, sysNooks := fldLE b 10 1,
    prio := fldLE b 11 1, ppsOffset := fldLE b 12 4, split := fldLE b 16 8, linkKind := fldLE b 24 16, maxRate := fldLE b 40 16,
    trayMode := fldLE b 56 4, trayX8 := fldLE b 60 2, twinA := fldLE b 62 1, twinB := fldLE b 63 1, twinSerial := fldLE b 64 8 }

/-- The two bits of item `k` of a packed field. -/
def pair2 (x k : Nat) : Nat := bits x (2 * k + 1) (2 * k)

/-- Port `p` is a whole four-lane group of LINK_KIND 2. -/
def twinGroup (f : Profile) (p : Nat) : Bool := p % 4 == 0 && !bit f.split (p / 4) && pair2 f.linkKind (p / 4) == 2

/-- The header breaks R427 or the header rules of R429. -/
def headerFault (b : Bytes) : Bool :=
  let f := decProfile b
  let gs := List.range 64
  1 < f.role || 7 < fldLE b 7 1 || (f.secure && f.test) || 1023 < fldLE b 8 2 || 2 < f.sysNooks || 999999999 < f.ppsOffset
    || gs.any (fun k => (bit f.split k && pair2 f.linkKind k ≠ 0 && pair2 f.linkKind k ≠ 3) || pair2 f.maxRate k == 3)
    || (!f.twin && (f.twinA ≠ 0 || f.twinB ≠ 0 || f.twinSerial ≠ 0)) || !zeroAt b 80 48
    || (f.role == 1 && gs.any fun k => pair2 f.linkKind k ≠ 1 && pair2 f.linkKind k ≠ 3)
    || (f.twin && (f.sysNooks = 0 || !twinGroup f f.twinA || !twinGroup f f.twinB || f.twinA == f.twinB || f.twinSerial = 0))
    || gs.all fun k => bit f.split k && pair2 f.linkKind k == 0

/-- Item size of a section's TYPE; 0 for a reserved one. -/
def itemSize (t : Nat) : Nat := [0, 32, 16, 32, 64, 32, 8].getD t 0

/-- The sections of a record, as items with their TYPE; none where one overruns, is reserved or has a reserved byte set. -/
def sections : Nat → Bytes → Option (List (Nat × Bytes))
  | 0, b => if b.isEmpty then some [] else none
  | n + 1, b =>
    if b.isEmpty then some []
    else
      let t := fldLE b 0 2
      let k := itemSize t
      let c := fldLE b 2 2
      if b.length < 8 + k * c || k = 0 || !zeroAt b 4 4 then none
      else (sections n (b.drop (8 + k * c))).map fun l => ((List.range c).map fun i => (t, ((b.drop 8).drop (k * i)).take k)) ++ l

/-- An item applied as its command; none where the command would not complete with OK (R428, R429). -/
def applyItem (x : Nat × Bytes) (s : State) : Option State :=
  let ok := fun (r : Status × State) => if r.1 = .ok then some r.2 else none
  let j : Job := { payload := x.2 }
  if x.1 = 1 then ok (setPort (leNat x.2) s)
  else if x.1 = 2 then ok (setSvc (leNat x.2) s)
  else if x.1 = 3 then ok (setSub (leNat x.2) s)
  else if x.1 = 4 then (if createBad x.2 || createBusy s x.2 then none else some (makePart x.2 none s))
  else if x.1 = 5 then ok (extentAdd j s)
  else ok (routeSet { j with payload := toLE 8 1 ++ x.2 } s)

/-- Items in order of increasing TYPE. -/
def itemsOf (b : Bytes) : Option (List (Nat × Bytes)) :=
  (sections (b.length / 8) (b.drop 128)).map fun l => (List.range 7).flatMap fun t => l.filter (·.1 == t)

/-- Ports as the header lays them out (R13, R331, R427): of a group that is not split, only the lowest lane is a port. -/
def layPort (f : Profile) (p : Nat) : SaxPort :=
  let k := p / 4
  let one := bit f.split k
  { wide := !one, kind := if one || p % 4 = 0 then pair2 f.linkKind k else 3, maxRate := pair2 f.maxRate k }

def layTray (f : Profile) (t : Nat) (old : TrayPort) : TrayPort :=
  let m := pair2 f.trayMode (t % 16)
  { old with mode := if t < 16 || bit f.trayX8 (t % 16) then m else 0, x8 := bit f.trayX8 (t % 16), perstLow := if m = 2 then old.perstLow else true }

/-- The header's own fields take effect: links, trays, system nooks (R19, R427). -/
def layOut (f : Profile) (s : State) : State :=
  { s with
    flash.prof := f,
    sax := (List.range 256).map (layPort f),
    trays := s.trays.zipIdx.map fun t => layTray f t.2 t.1,
    ten.nooks := (List.range 96).map fun n => if 96 ≤ n + f.sysNooks then Owner.system else .free,
    twin := { s.twin with portA := f.twinA, portB := f.twinB, serial := f.twinSerial } }

/-- The maps of the sections become the epoch-0 map (R270, R428), and enabled ports start probing. -/
def goLive (s : State) : State :=
  let m := pending s
  let up := fun (x : SaxPort) => if x.kind = 1 || x.kind = 2 || (x.kind = 0 && x.owner.isSome) then { x with st := .detect } else x
  { s with maps := { cur := { m with epoch := 0 } }, sax := s.sax.map up }

/-- A record applied to a module that has just started; none where it is invalid (R429). -/
def applyRecord (b : Bytes) (s : State) : Option State :=
  if headerFault b then none
  else match itemsOf b with
    | none => none
    | some l =>
      if (decProfile b).role = 1 && l.any fun x => x.1 == 4 || x.1 == 5 then none
      else (l.foldlM (fun s x => applyItem x s) (layOut (decProfile b) s)).map goLive

/-- A slot's valid copy, that of CF0 first (R426), with the state it leads to. -/
def applySlot (n : Nat) (s : State) : Option (Bytes × State) :=
  let try_ := fun (cf : List Host.Cell) => (record? cf n).bind fun b => (applyRecord b s).map fun s => (b, s)
  (try_ s.flash.cf0).or (try_ s.flash.cf1)

/-! ## What survives (R383, R389, R425, R480, R483) -/

/-- Only flash keeps data: everything else is as after reset, but for pins, sensors and conditions outside the module. The
Ash map and the namespace key records lie on the flash trays (R326, R392), and the temperature of a stack outlasts a start (R163). A warm
restart keeps MR7 with its log records, the Hallmark flags, the pins as sampled, a latched brake and the active slot. -/
def cleared (warm : Bool) (s : State) : State :=
  let w := s.power
  let m := s.mantel
  let t := s.tiers
  let mr : List Bytes := List.replicate 7 (List.replicate 32 0) ++ [m.mr.getD 7 []]
  { pending := s.pending, t := s.t,
    flash := { cf0 := s.flash.cf0, cf1 := s.flash.cf1, idKey0 := s.flash.idKey0, idKey1 := s.flash.idKey1, serial := s.flash.serial, retired := s.flash.retired, retired1 := s.flash.retired1,
               slot := if warm then s.flash.slot else 0 },
    power := {
      valid := w.valid, outOfRange := w.outOfRange, rstLow := w.rstLow, warm := warm, sel := w.sel, pos := w.pos,
      selPin := w.selPin, posPin := w.posPin, brakeLow := w.brakeLow, brakeHighAt := w.brakeHighAt, refLost := w.refLost,
      brakeLatch := warm && w.brakeLatch, warn := w.warn,
      coolAt := w.coolAt, belowAt := w.belowAt, powerW := w.powerW, inputMv := w.inputMv, smbus := w.smbus,
      trngFail := w.trngFail, draws := w.draws, frees := w.frees },
    mantel := {
      fw := m.fw.map fun f => { f with runVersion := 0, runSvn := 0 },
      mr := if warm then mr else List.replicate 8 (List.replicate 32 0),
      measLog := if warm then m.measLog.filter (·.1 == 7) else [],
      everDebug := warm && m.everDebug, everDraft := warm && m.everDraft },
    chans := s.chans.map fun k => { hot := k.hot },
    ten := { nextKey := s.ten.nextKey },
    mem := { nextTrk := s.mem.nextTrk },
    trays := s.trays.map fun k => { present := k.present, perstLow := k.perstLow },
    tiers := {
      ns := t.ns.map fun n => { n with key := none }, units := t.units, journal := t.journal, checkpoints := t.checkpoints, nextCid := t.nextCid,
      trays := t.trays.map fun a => { a with
        ctrlEn := false, identified := false, ready := false, fatal := false, queues := [0], tails := [], heads := [], sqHeads := [], turned := [] } },
    chains := { nextCid := s.chains.nextCid },
    twin := { sense := s.twin.sense, senseAt := s.twin.senseAt, nextTxn := s.twin.nextTxn } }

/-! ## The start instant (R381 to R384, R420, R421, R425) -/

/-- The image of a kind that runs (R382, R415): the first copy that verifies, the active slot's before the other slot's. -/
def bootImage (k : Nat) (f : FwKind) : FwSlot × List Host.Cell :=
  let a := f.active
  let b := f.inactive
  ([(a, a.bytes), (a, a.copy), (b, b.bytes), (b, b.copy)].find? fun x => Config.imageOk k x.2).getD (a, a.bytes)

/-- The images that run, and the measurements of the boot (R383, R384). MR0 is extended with two digests in turn. -/
def measure (s : State) : State :=
  let run := fun (x : FwKind × Nat) => let i := (bootImage x.2 x.1).1; { x.1 with runVersion := i.version, runSvn := i.svn }
  let s := extendMr 0 (Config.sha256 (toLE 4 Config.romVersion)) 0 { s with mantel.fw := s.mantel.fw.zipIdx.map run }
  let s := extendMr 0 Config.romKeyHash 0 s
  (List.range 5).foldl (fun s k => extendMr (k + 1) (Config.sha256 (Config.imageDigest (bootImage k (s.fwKind k)).2)) 0 s) s

/-- Channels retired before are not trained, and background work counts from the start. -/
def setChans (s : State) : State :=
  let gone := s.flash.retired ++ s.flash.retired1
  { s with chans := s.chans.zipIdx.map fun k => { k.1 with
      retired := gone.contains k.2, refDue := s.t, refLast := s.t, scrubDue := s.t, scrubLast := s.t } }

/-- The profile is chosen and applied (R429); its record extends MR6. -/
def chooseProfile (s : State) : State :=
  let prefer := if s.power.warm then s.flash.slot else s.power.sel
  match (prefer :: List.range 4).findSome? fun n => (applySlot n s).map fun r => (n, r) with
  | none => { s with flash := { s.flash with slot := s.power.sel, recovery := true } }
  | some (n, b, s) =>
    let s := { s with flash := { s.flash with slot := n, recovery := false, record := b } }
    extendMr 6 (Config.sha256 b) 0 s

/-- The namespaces whose key records this module can open: its own, or one that its twin wrapped for it (R381, R392). -/
def openNamespaces (s : State) : State :=
  { s with tiers.ns := s.tiers.ns.map fun n =>
      { n with key := (Config.openRecord n.record s.flash.serial n.part).or (Config.openTwinRecord n.twinRecord n.part) } }

/-- START_INSTANT (R420): the later of supplies valid and the release of MOD_RST_N, with a Saxel clock present. `fwOk` says
that an image of each kind verifies, `idOk` that the identity key is recovered. -/
def startInstant (fwOk idOk : Bool) (s : State) : State :=
  let w := s.power
  if !w.valid || !w.startDue || (w.refLost.getD 0 false && w.refLost.getD 1 false) then s
  else
    let s := cleared w.warm s
    let s := { s with power := { s.power with
      rstLow := false, startDue := false, started := true, startAt := s.t, brake := w.brakeLow || (w.warm && w.brakeLatch),
      sel := if w.warm then w.sel else w.selPin, pos := if w.warm then w.pos else w.posPin } }
    if !fwOk then setCause 1 { s with power.bootFail := true }
    else
      let s := chooseProfile (setChans (measure s))
      let s := { s with power.warm := false }
      if idOk then openNamespaces s else event 0x001C true [] none [] { s with power.noIdentity := true }

/-- READY_BASIC (R421, R422), once the local Ember counters are calibrated (R30). -/
def readyBasic (s : State) : State :=
  let w := s.power
  if !w.started || w.readyBasic || w.bootFail || w.emergency || inReset s || s.ember.delays.isEmpty then s
  else elect (readyChange { s with power.readyBasic := true })

/-- READY_FULL (R421, R428, R469): tray ports leave reset, and partitions of the profile have their key pairs. -/
def readyFull (s : State) : State :=
  let w := s.power
  if !w.readyBasic || w.readyFull || inReset s then s
  else
    let free := fun (k : TrayPort) => if k.mode = 1 || k.mode = 3 then { k with perstLow := false } else k
    let s : State := { s with trays := s.trays.map free }
    let ps := (s.ten.parts.filter (·.keyPair.isNone)).map (·.id)
    let s := if w.trngFail then s else ps.foldl (fun s p =>
      let (k, s) := drawKey s
      modPart p (fun x => { x with keyPair := some k }) s) s
    readyChange { s with power.readyFull := true }

/-! ## Supplies and reset (R473, R474, R480, R483) -/

def suppliesValid (s : State) : State :=
  if s.power.valid then s else { s with power := { s.power with valid := true, startDue := true, outOfRange := false } }

def supplyLoss (s : State) : State :=
  let s := cleared false s
  { s with power := { s.power with valid := false, startDue := false } }

/-- MOD_RST_N low (R483): READY, links and keys go; the module waits for the release, which is a start instant. -/
def resetLow (s : State) : State :=
  let s := cleared false s
  { s with power := { s.power with rstLow := true } }

/-! ## WARM_RESTART (R425, R450) -/

/-- WARM_RESTART: its completion goes out before the restart begins, with START_INSTANT. -/
def warmRestart (_j : Job) (s : State) : End × State :=
  if s.mantel.fwStream.isSome || (s.power.emergency && !(s.power.belowAt.elim false fun t0 => t0 + 10000000 ≤ s.t)) then (.done .busy, s)
  else (.done .ok, { s with power := { s.power with warm := true, startDue := true } })

/-! ## Profile commands (R408, R426, R430) -/

/-- The slot is active; in the recovery profile none is (R429, R430). -/
def slotActive (s : State) (n : Nat) : Bool := !s.flash.recovery && s.flash.slot == n

/-- The module state that a start would apply a profile to. -/
def bare (s : State) : State := cleared true s

/-- PROFILE_READ: bytes of the copy in use, CF0's when it is valid or neither is. -/
def profileRead (j : Job) (s : State) : End × State :=
  let n := fldLE j.payload 0 1
  let off := fldLE j.payload 4 4
  let len := fldLE j.payload 8 4
  if 3 < n || !zeroAt j.payload 1 3 || slotBytes4 < off + len || 4096 < len then (.done .badDescriptor, s)
  else
    let ok := fun (cf : List Host.Cell) => (record? cf n).elim false fun b => (applyRecord b (bare s)).isSome
    let cf := if !ok s.flash.cf0 && ok s.flash.cf1 then s.flash.cf1 else s.flash.cf0
    (.done .ok 0 (cellsRead 0xFF cf (n * slotBytes4 + off) len), s)

/-- PROFILE_WRITE: both copies (R426). -/
def profileWrite (j : Job) (s : State) : Status × State :=
  let n := fldLE j.payload 0 1
  let off := fldLE j.payload 4 4
  let d := j.payload.drop 8
  if 3 < n || !zeroAt j.payload 1 3 || slotBytes4 < off + d.length then (.badDescriptor, s)
  else if slotActive s n then (.busy, s)
  else
    let put := fun (cf : List Host.Cell) => cellsWrite 0xFF cf (n * slotBytes4 + off) d
    (.ok, { s with flash := { s.flash with cf0 := put s.flash.cf0, cf1 := put s.flash.cf1 } })

/-- PROFILE_SELECT: an invalid slot is PROFILE_BAD; otherwise it completes when it takes effect, at the next slot boundary. -/
def profileSelect (j : Job) (s : State) : End × State :=
  let n := fldLE j.payload 0 1
  if 3 < n then (.done .badDescriptor, s)
  else if (applySlot n (bare s)).isNone then (.done .profileBad, s)
  else (.waits, { s with flash.selectDue := s.flash.selectDue ++ [(n, j.id)] })

/-- What PROFILE_SELECT applies live (R430): EMBER_PRIO, PPS_OFFSET, sections 1 to 3, MAX_RATE, MR6, the active slot. -/
def selectLive (n : Nat) (s : State) : State :=
  match applySlot n (bare s) with
  | none => s
  | some (b, _) =>
    let f := decProfile b
    let items := ((itemsOf b).getD []).filter (·.1 < 4)
    let s := items.foldl (fun s x => (applyItem x s).getD s) s
    let rate := s.sax.zipIdx.map fun x => { x.1 with maxRate := pair2 f.maxRate (x.2 / 4) }
    let prof := { s.flash.prof with prio := f.prio, ppsOffset := f.ppsOffset, maxRate := f.maxRate }
    let s := { s with sax := rate, flash := { s.flash with prof := prof, slot := n, recovery := false, record := b } }
    elect (extendMr 6 (Config.sha256 b) 4 s)

/-! ## Slot boundaries (R240, R375, R430, R478) -/

/-- SLOT_BOUNDARY: arbiters start from S mod n, which their pointers compute (R240); the brake takes effect or ends, with a
BRAKE event that carries the slot to every partition (R375, R478); a thermal emergency begins (R450); a PROFILE_SELECT takes effect (R430). A thermal emergency
prevails over the brake (R479). -/
def slotBoundary (s : State) : State :=
  if s.slot ≤ s.ember.lastSlot then s
  else
    let s := { s with ember.lastSlot := s.slot }
    let s := if s.power.tooHot && !inReset s then thermalEmergency s else s
    let s := if brakeWanted s = s.power.brake || s.power.emergency || inReset s then s
      else
        let on := brakeWanted s
        eventMA 0x001D [s.slot, b2n on, b2n s.power.brakeLatch] { s with power.brake := on }
    let due := s.flash.selectDue
    due.foldl (fun s x => finish x.2 (if (applySlot x.1 (bare s)).isSome then .ok else .profileBad) 0 [] (selectLive x.1 s))
      { s with flash.selectDue := [] }

/-! ## The power brake (R431, R478, R479) -/

/-- PWR_BRAKE_N passes the filter low: two assertions within 10 ms latch the brake. In reset the level alone counts. -/
def brakeAssert (s : State) : State :=
  let w := s.power
  if w.brakeLow then s
  else
    let near := w.brakeAsserts.filter fun a => decide (s.t ≤ a + 10000000)
    { s with power := { w with brakeLow := true, brakeAsserts := if inReset s then [] else near ++ [s.t],
                               brakeLatch := w.brakeLatch || (!near.isEmpty && !inReset s) } }

def brakeRelease (s : State) : State :=
  if s.power.brakeLow then { s with power := { s.power with brakeLow := false, brakeHighAt := s.t } } else s

/-- BRAKE_LATCH_CLEAR (R431): 50 ms deasserted and stable. -/
def latchClear (s : State) : State :=
  if s.power.brakeLatch && !s.power.brakeLow && s.power.brakeHighAt + 50000000 ≤ s.t then { s with power.brakeLatch := false } else s

/-! ## Reference clocks (R482) -/

/-- A link that trains or works goes down. -/
def dropLink (p : Nat) (s : State) : State :=
  if linkAlive s p then linkDown p s
  else if (s.port p).st == .disabled then s else modPort p (fun x => { x with st := .detect, lanes := [], trained := [] }) s

/-- REFCLK_LOST: clock 0 and 1 are SAXEL_REFCLK0 and 1, 2 is PCIE_REFCLK. With both Saxel clocks lost the module is in reset. -/
def refLost (k : Nat) (s : State) : State :=
  if 2 < k || s.power.refLost.getD k false then s
  else
    let s := { s with power.refLost := s.power.refLost.set k true }
    if k = 2 then (List.range 32).foldl (fun s t => trayDown t s) s
    else if s.power.refLost.getD 0 false && s.power.refLost.getD 1 false then resetLow s
    else
      let s := ((List.range 128).map (128 * k + ·)).foldl (fun s p => dropLink p s) s
      chimneyDown (if k = 0 then .a else .b) s

def refReturn (k : Nat) (s : State) : State := { s with power.refLost := s.power.refLost.set k false }

/-! ## Pins and the SMBus (R431, R485) -/

/-- The filtered level of TWIN_SENSE_N: a new assertion starts the count of R431. -/
def twinSense (low : Bool) (s : State) : State :=
  if low = s.twin.sense then s else { s with twin := { s.twin with sense := low, senseAt := if low then some s.t else none } }

/-- SMBus block read (R485): four bytes, or NACK. -/
def smbusRead (c : Nat) (s : State) : State :=
  let r : Option Nat := if c ≤ 4 || c = 0x40 || c = 0x42 || c = 0x44 then some (readReg s (4 * c))
    else if c = 0x80 then some s.power.inputMv else if c = 0x81 then some s.power.powerW else none
  if s.power.valid then { s with power.smbus := r.map (toLE 4) } else s

/-! ## Meanings -/

def execWarmRestart (m : MbxId) (s : State) : Host.Outcome State Fault Refusal :=
  .next (settle s (runCmd 0x0102 m Sys2Proof.Machine.warmRestart s))
def execProfileRead (m : MbxId) (s : State) : Host.Outcome State Fault Refusal :=
  .next (settle s (runCmd 0x0201 m Sys2Proof.Machine.profileRead s))
def execProfileWrite (m : MbxId) (s : State) : Host.Outcome State Fault Refusal :=
  .next (settle s (runCmd 0x0202 m (simply Sys2Proof.Machine.profileWrite) s))
def execProfileSelect (m : MbxId) (s : State) : Host.Outcome State Fault Refusal :=
  .next (settle s (runCmd 0x0203 m Sys2Proof.Machine.profileSelect s))
def execSlotBoundary (s : State) : Host.Outcome State Fault Refusal :=
  .next (settle s (Sys2Proof.Machine.slotBoundary s))
def execSuppliesValid (s : State) : Host.Outcome State Fault Refusal :=
  .next (settle s (Sys2Proof.Machine.suppliesValid s))
def execSupplyOutOfRange (s : State) : Host.Outcome State Fault Refusal :=
  .next (settle s ({ s with power.outOfRange := s.power.outOfRange || s.power.valid }))
def execSupplyBackInRange (s : State) : Host.Outcome State Fault Refusal :=
  .next (settle s ({ s with power.outOfRange := false }))
def execSupplyLoss (s : State) : Host.Outcome State Fault Refusal :=
  .next (settle s (Sys2Proof.Machine.supplyLoss s))
def execModRstNFall (s : State) : Host.Outcome State Fault Refusal :=
  .next (settle s (resetLow s))
def execStartInstant (fwOk : Bool) (identityOk : Bool) (s : State) : Host.Outcome State Fault Refusal :=
  .next (settle s (Sys2Proof.Machine.startInstant fwOk identityOk s))
def execReadyBasic (s : State) : Host.Outcome State Fault Refusal :=
  .next (settle s (Sys2Proof.Machine.readyBasic s))
def execReadyFull (s : State) : Host.Outcome State Fault Refusal :=
  .next (settle s (Sys2Proof.Machine.readyFull s))
def execPwrBrakeAssert (s : State) : Host.Outcome State Fault Refusal :=
  .next (settle s (brakeAssert s))
def execPwrBrakeRelease (s : State) : Host.Outcome State Fault Refusal :=
  .next (settle s (brakeRelease s))
def execBrakeLatchClear (s : State) : Host.Outcome State Fault Refusal :=
  .next (settle s (latchClear s))
def execRefclkLost (clk : Nat) (s : State) : Host.Outcome State Fault Refusal :=
  .next (settle s (refLost clk s))
def execRefclkReturn (clk : Nat) (s : State) : Host.Outcome State Fault Refusal :=
  .next (settle s (refReturn clk s))
def execTwinSenseN (asserted : Bool) (s : State) : Host.Outcome State Fault Refusal :=
  .next (settle s (twinSense asserted s))
def execSmbusBlockRead (code : Nat) (s : State) : Host.Outcome State Fault Refusal :=
  .next (settle s (smbusRead code s))

end Sys2Proof.Machine
end

