-- ==== Sys2Proof/Machine/Twin.lean ====
section
/-! DEFINITION. Twin pairing, mirroring at the twin, takeover (R20, R436 to R444, R460, R491). -/

namespace Sys2Proof.Machine

/-! ## States (R440) -/

def TwinSt.code : TwinSt → Nat
  | .unpaired => 0
  | .syncing => 1
  | .paired => 2
  | .degraded => 3
  | .alone => 4

/-- The pair changes state: a TWIN_TAKEOVER event to the manager, and to the partitions taken over (R440, R442). -/
def setTwin (st : TwinSt) (taken : List Nat) (s : State) : State :=
  if s.twin.st == st then s else event 0x0021 true taken none [st.code] { s with twin.st := st }

/-- Mirroring traffic that still waits at a twin port is given up. -/
def dropMirror (p : Nat) (s : State) : State :=
  modD false p (fun d => { d with q := d.q.filter fun f => match f.out with
    | .mirror .. => false
    | _ => true }) s

/-- Pending mirror writes complete unmirrored, and what waits for the twin's copy ends (R440, R441). -/
def unmirror (s : State) : State :=
  let s : State := { s with twin := { s.twin with tickets := [], copying := [] } }
  let ts := s.twin.open_.map (·.1) ++ s.twin.desc.map (·.1)
  let s := s.twin.accs.foldl (fun s a => accessDone a.1 false [] s) s
  let s := dropMirror s.twin.portB (dropMirror s.twin.portA s)
  ts.foldl (fun s n => mirrorDone n s) s

/-- Tell the twin something that is no partition's. -/
def tellTwin (op : Nat) (payload : Bytes) (s : State) : State := mirrorSend 16 (.desc op payload) s

/-! ## Pairing (R20, R436, R437) -/

/-- A hello of the twin on a port: it comes from the named twin and names this module. -/
def helloFits (s : State) (p : Nat) : Bool :=
  (s.port p).st == .up && (s.port p).hello.elim false fun h => h.serial == s.twin.serial && h.twinSerial == s.flash.serial

/-- The module may pair now. -/
def matching (s : State) : Bool :=
  s.power.readyFull && s.twin.serial != 0 && !s.twin.sense && helloFits s s.twin.portA && helloFits s s.twin.portB

/-- An extent that this module mirrors (R438). -/
def mirrorExts (s : State) : List Extent := (heldExts s).filter fun e => e.mirror == 1 && s.twin.primary.contains e.part

/-- A table descriptor, an update descriptor with its area list, and a group descriptor as their commands carry them. -/
def encTable (d : TDesc) : Bytes :=
  toLE 64 (d.id + 2 ^ 84 * d.part + 2 ^ 89 * d.coord + 2 ^ 96 * d.cache + 2 ^ 98 * d.storage + 2 ^ 100 * d.cop + 2 ^ 102 * d.hbits
    + 2 ^ 108 * d.fmt + 2 ^ 112 * d.elems + 2 ^ 128 * d.nspan + 2 ^ 144 * d.gen + 2 ^ 160 * d.subR + 2 ^ 176 * d.subQ
    + 2 ^ 212 * d.rows + 2 ^ 256 * d.hb + 2 ^ 320 * d.ha + 2 ^ 384 * d.smap + 2 ^ 448 * d.rit)

def encUpdate (t : Table) (u : UDesc) : Bytes :=
  toLE 64 (t.d.id + 2 ^ 40 * b2n u.move + 2 ^ 41 * b2n u.hotcache + 2 ^ 44 * b2n u.rtz + 2 ^ 45 * b2n u.exact + 2 ^ 46 * u.rule
    + 2 ^ 200 * t.closed + 2 ^ 232 * (u.slots % 2 ^ 24) + 2 ^ 256 * u.hi + 2 ^ 288 * u.lo + 2 ^ 320 * u.eps + 2 ^ 352 * u.lr
    + 2 ^ 448 * u.stateAddr) ++ u.uareas.flatMap (toLE 8 ·)

def encGroup (g : Group) : Bytes :=
  toLE 64 (g.id + 2 ^ 38 * g.pool + 2 ^ 40 * g.coll + 2 ^ 45 * b2n g.rtz + 2 ^ 46 * b2n g.exact + 2 ^ 47 * b2n g.root + 2 ^ 48 * g.inFmt
    + 2 ^ 52 * g.outFmt + 2 ^ 56 * g.part + 2 ^ 60 * g.window + 2 ^ 282 * g.children.length + 2 ^ 288 * g.members.length
    + 2 ^ 296 * g.rtag + 2 ^ 312 * g.ctag + 2 ^ 330 * g.parent + 2 ^ 352 * g.selfW + 2 ^ 368 * g.selfRank.getD 0xFFFFFF
    + 2 ^ 392 * g.nranks + 2 ^ 416 * g.resultDl + 2 ^ 448 * g.localDl + 2 ^ 480 * g.elems)
  ++ g.children.flatMap (fun c => toLE 16 (c.2.2 + 2 ^ 56 * c.2.1 + 2 ^ 80 * c.1))
  ++ g.members.flatMap fun m => toLE 8 (m.2.2 + 2 ^ 24 * m.2.1 + 2 ^ 48 * m.1)

/-- The slots of a table: free, retired, and those its entries name. -/
def allSlots (s : State) (t : Table) : List Nat :=
  let used := if t.d.storage = 2 then [] else (List.range (2 * t.d.phys)).filterMap fun k =>
    let e := memNat s (t.d.rit + 8 * k) 8
    if entValid e then some (entAddr e) else none
  (t.free.map (·.2) ++ t.freeTray ++ t.retired.map (·.2) ++ used).eraseDups

/-- What one table's copy is made of: its descriptor, its update descriptor, its slots one by one. -/
def tableCopy (s : State) (t : Table) : List MirrorMsg :=
  .desc 0x0801 (encTable t.d) :: ((t.u.map fun u => MirrorMsg.desc 0x0805 (encUpdate t u)).toList
    ++ (if t.u.isNone then [] else (allSlots s t).map fun a => .desc 0x0806 (toLE 2 t.d.id ++ [0, 0] ++ toLE 4 1 ++ toLE 8 a)))

/-- The calendar last armed goes to the twin too: the armed one, or else the one that runs. -/
def copyCal (s : State) : State :=
  match s.cal.armed with
  | some h => mirrorCal h (shadowImg s.cal) s
  | none => if s.cal.running then mirrorCal s.cal.hdr (activeImg s.cal) s else s

/-- A primary copies every mirrored state of its partitions (R438, R444). The copy ends when the twin has acknowledged each
message of it and then the data of each extent; the tickets of mirrored chains follow (R439). -/
def startCopy (s : State) : State :=
  let first := s.twin.nextTxn
  let es := mirrorExts s
  let s := es.foldl (fun s e => mirrorState e.part (.desc 0x0401 (encExtent e)) s) s
  let s := (s.tables.filter (tableMirrored s)).foldl (fun s t =>
    (tableCopy s t).foldl (fun s m => mirrorState t.d.part m s) s) s
  let s := s.chains.templates.foldl (fun s t => mirrorState t.part (.desc 0x0902 (toLE 2 t.id ++ List.replicate 6 0 ++ t.bytes)) s) s
  let s := s.groups.groups.foldl (fun s g => mirrorState g.part (.desc 0x0904 (encGroup g)) s) s
  let s := s.chains.chains.foldl (fun s c =>
    if !c.holds || !ticketMirrored s c then s
    else
      let s := modChain c.cid (fun c => { c with mirrored := true }) s
      let s := mirrorState c.part (.chain c.cid (c.requester s) (c.hdr ++ c.descs.flatten)) s
      if c.tickets = 0 then s else
        let k : HeldTicket := { part := c.part, cid := c.cid, phase := c.tickets, addr := c.ticketAddr,
                                bytes := memRead s c.ticketAddr 64, used := c.ticketUsed }
        { s with twin.tickets := s.twin.tickets ++ [k] }) s
  let s := s.tiers.ns.foldl (fun s n => mirrorState n.part (nsMessage n) s) s
  let s := s.tiers.units.foldl (fun s u => mirrorState u.part (.ash u.unit u.tray u.ch u.block u.off u.len u.wseq u.damaged) s) s
  let s := copyCal s
  ticketsGo { s with twin.copying := (s.twin.desc.map (·.1)).filter (first ≤ ·) }

/-- The pair forms, or forms again: SYNCING first (R437, R440, R444). From UNPAIRED the roles are new: the lower SERIAL is
primary, unless the twin had stayed primary alone (log entry 17). Once each has verified the other's Hallmark, the namespace key
records are wrapped for the twin too (R392). -/
def pairUp (s : State) : State :=
  let n := s.power.frees
  let both := ((s.ten.parts.filter fun x => Config.twinTag n x.id == x.tag)).map (·.id)
  let mine := decide (s.flash.serial < s.twin.serial) && !Config.twinStayed n
  let old := s.twin
  let prim := if old.st == .unpaired then (if mine then both else []) else old.primary.filter both.contains
  let w : Twin := { old with
    twinned := both, primary := prim, downAt := none, giving := none, pairJob := none, copies := [], ashMap := [],
    ns := [], tickets := [], verified := Config.twinVerified n }
  let s : State := { s with power.frees := n + 1, twin := w }
  let s : State := { s with tiers.ns := s.tiers.ns.map (keyRecords s) }
  let s := startCopy (setTwin .syncing [] s)
  finish? (old.pairJob.map (·.1)) .ok s

/-- TWIN_PAIRED (R436): automatic from a profile with TWIN = 1, or for a TWIN_PAIR that waits. -/
def twinPaired (s : State) : State :=
  let w := s.twin
  let may := w.st == .degraded || w.st == .alone || (w.st == .unpaired && (twinProfile s || w.pairJob.isSome))
  if may && matching s then pairUp s else s

/-- TWIN_PAIR (R20, R436). -/
def twinPair (j : Job) (s : State) : End × State :=
  let a := fldLE j.payload 0 1
  let b := fldLE j.payload 1 1
  let n := fldLE j.payload 8 8
  let fits := fun (p : Nat) => p % 4 == 0 && (s.port p).wide && (s.port p).kind == 2
  if !zeroAt j.payload 2 6 then (.done .badDescriptor, s)
  else if s.flash.prof.sysNooks = 0 then (.done .noAccess, s)
  else if a = b || !fits a || !fits b || n = 0 then (.done .badDescriptor, s)
  else if s.twin.st != .unpaired then (.done (if s.twin.serial = n then .ok else .busy), s)
  else if s.twin.pairJob.isSome then (.done .busy, s)
  else (.waits, { s with twin := { s.twin with portA := a, portB := b, serial := n, pairJob := some (j.id, s.t) } })

/-- TWIN_PAIR_TIMEOUT (R436): the ports and serial are the profile's again. -/
def twinPairTimeout (s : State) : State :=
  match s.twin.pairJob with
  | none => s
  | some w => if s.t < w.2 + 1000000000 then s else
    let f := s.flash.prof
    finish w.1 .timeout 0 [] { s with twin := { s.twin with pairJob := none, portA := f.twinA, portB := f.twinB, serial := f.twinSerial } }

/-- Mirroring ends on this module (R436). -/
def endPair (s : State) : State :=
  let s := unmirror s
  let job := s.twin.takeJob.map (·.1)
  let s := setTwin .unpaired [] { s with twin := { s.twin with
    serial := 0, twinned := [], primary := [], copies := [], copying := [], ashMap := [], ns := [], tickets := [],
    verified := false, giving := none, takeJob := none, downAt := none } }
  finish? job .busy s

/-- TWIN_UNPAIR (R20, R436): the twin is told. -/
def twinUnpair (_j : Job) (s : State) : Status × State :=
  if s.flash.prof.sysNooks = 0 then (.noAccess, s)
  else if s.twin.st == .unpaired then (.ok, s)
  else (.ok, tellTwin 0x0205 [] (endPair s))

/-- The TWIN_STATUS record (R491). -/
def twinRecord (s : State) : Bytes :=
  let w := s.twin
  let up := fun (p : Nat) => b2n ((s.port p).st == .up)
  let on := w.st != .unpaired
  toLE 1 w.st.code ++ toLE 1 (if w.serial = 0 then 0 else up w.portA + 2 * up w.portB) ++ toLE 1 (b2n w.sense) ++ List.replicate 5 0
    ++ toLE 8 (if on then w.serial else 0) ++ toLE 2 (maskOf w.twinned) ++ toLE 2 (if faultN s then 0 else maskOf w.primary)
    ++ List.replicate 12 0

/-- TWIN_STATUS (R20, R491). -/
def twinStatus (_j : Job) (s : State) : End × State :=
  if s.flash.prof.sysNooks = 0 then (.done .noAccess, s) else (.done .ok 0 (twinRecord s), s)

/-! ## Takeover (R442, R443) -/

/-- Read `n` items of a boundary output back (log entry 13). -/
def itemsAt (s : State) : Nat → Nat → List Item
  | 0, _ => []
  | n + 1, o =>
    let w := memNat s (o + 4) 4
    let len := w % 2 ^ 31
    { seq := memNat s o 4, lost := bit w 31, data := memRead s (o + 8) len } :: itemsAt s n (o + 8 + roundUp len 8)

/-- The outputs of the phases that a ticket area holds: stage and items of each boundary up to the last one's offset. -/
def phasesAt (s : State) (area last : Nat) : Nat → Nat → List (Nat × List Item)
  | 0, _ => []
  | n + 1, o =>
    let l := itemsAt s (memNat s (area + o) 4) (area + o + 8)
    (memNat s (area + o + 4) 4, l) :: (if last ≤ o then [] else phasesAt s area last n (o + (boundary 0 l).length))

/-- Stages that need not run again: a phase's output is at hand, or every consumer's is. -/
def doneStages (c : Chain) (have_ : List Nat) : List Nat :=
  ((List.range c.descs.length).reverse).foldl (fun d i =>
    let k := (consumers c.ds i).map (·.stage)
    if have_.contains i || (!k.isEmpty && k.all d.contains) then d ++ [i] else d) []

/-- A mirrored ticketed chain resumes from its last acknowledged ticket (R442); its completion goes to the recorded requester
under the same REQ_ID. An instance is not resumed (R202): a chain whose group stage had not ended stops with TIMEOUT (log
entry 86). -/
def resumeChain (m : Mirrored) (s : State) : State :=
  match chainOf m.bytes with
  | none => s
  | some x =>
    let tid := bits (leNat x.1) 255 240
    let c := newChain (if tid = 0xFFFF then .msg 0 m.src 0 (bits (leNat x.1) 287 256) 0 (tagOf s (some m.part)) 0
                       else .template (bits (leNat x.1) 119 113) tid) x
    let a := c.ticketAddr
    let last := memNat s (a + 32) 8
    let outs := if m.phase = 0 then [] else phasesAt s a last 16 64
    let fin := doneStages c (outs.map (·.1))
    let st := (List.range c.descs.length).map fun i =>
      ({ phase := if fin.contains i then 5 else 0, out := ((outs.find? (·.1 == i)).map (·.2)).getD [] } : StageRun)
    let home := if s.nookOwner c.home == .part c.part then c.home else chooseHome s { c with home := 0x7F }
    let c := { c with cid := s.chains.nextCid, home := home, acceptedAt := s.t }
    let s : State := { s with chains := { s.chains with chains := s.chains.chains ++ [c], nextCid := s.chains.nextCid + 1 } }
    match mapFor s c.epoch, (List.range c.descs.length).foldlM (fun l i => (stageAdmit s c i).map (l ++ ·)) [] with
    | .ok _, .ok gs =>
      let used := if outs.isEmpty then 64 else last + ((outs.getLast?).elim 0 fun o => (boundary 0 o.2).length)
      match (List.range c.descs.length).find? fun i => (c.d i).op == 3 && (c.d i).f 16 2 != 0 && !fin.contains i with
      | some i => abort c.cid .timeout i s
      | none => modChain c.cid (fun k => { k with stages := st, tickets := m.phase, ticketUsed := used }) (letRun c gs s)
    | .ok _, .error e => abort c.cid e 0 s
    | .error e, _ => abort c.cid e 0 s

/-- The slots that the table's entries name are taken. -/
def takenSlots (s : State) (t : Table) : Table :=
  if t.d.storage = 2 then t
  else
    let used := (List.range (2 * t.d.phys)).filterMap fun k =>
      let e := memNat s (t.d.rit + 8 * k) 8
      if entValid e then some (entAddr e) else none
    { t with free := t.free.filter fun x => !used.contains x.2, freeTray := t.freeTray.filter fun x => !used.contains x }

/-- The namespace of a partition is opened here with its map (R392, R438), where the key record for this module opens; the map's
places are those of flash trays on the same ports (log entry 88). -/
def takeNamespace (p : Nat) (s : State) : State :=
  match s.twin.ns.find? (·.part == p) with
  | none => s
  | some n =>
    let us := s.twin.ashMap.filter (·.part == p)
    let n := { n with key := Config.openTwinRecord n.twinRecord p, wseq := (us.map (·.wseq)).foldl max 0 }
    { s with tiers := { s.tiers with ns := s.tiers.ns.filter (·.part != p) ++ [keyRecords s n], units := s.tiers.units.filter (·.part != p) ++ us },
             twin := { s.twin with ns := s.twin.ns.filter (·.part != p), ashMap := s.twin.ashMap.filter (·.part != p) } }

/-- This module becomes primary for partitions (R442, R443): their mirrored extents and tables are served, every line of
them Invalid, their namespaces are opened (R392), and their chains resume. -/
def takeOver (ps : List Nat) (s : State) : State :=
  let s : State := { s with twin := { s.twin with primary := s.twin.primary ++ ps.filter (! s.twin.primary.contains ·) } }
  let held := fun (l : Nat) => (anyExtent s (64 * l)).elim false fun e => e.mirror == 1 && ps.contains e.part
  let s : State := { s with dir.ents := s.dir.ents.filter fun d => !held d.line }
  let s : State := { s with tables := s.tables.map fun t => if ps.contains t.d.part then takenSlots s t else t }
  let s := ps.foldl (fun s p => takeNamespace p s) s
  let cs := s.twin.copies.filter fun m => ps.contains m.part
  let s : State := { s with twin.copies := s.twin.copies.filter fun m => !ps.contains m.part }
  cs.foldl (fun s m => resumeChain m s) s

/-- TWIN_DOWN (R441, R442, R464): TWIN_SENSE_N has been asserted for 1 ms. -/
def twinDown (s : State) : State :=
  let due := s.twin.sense && s.twin.senseAt.elim false fun a => decide (a + 1000000 ≤ s.t)
  if !due || s.twin.st == .unpaired || s.twin.st == .alone then s
  else
    let taken := if s.twin.st == .paired then s.twin.twinned.filter (! s.twin.primary.contains ·) else []
    let job := s.twin.takeJob.map (·.1)
    let s := unmirror { s with twin := { s.twin with takeJob := none, giving := none, copying := [] } }
    let s := dataFaults taken 0x0021 0 s
    let s := setTwin .alone taken (takeOver taken s)
    finish? job (if taken.isEmpty then .busy else .ok) (taken.foldl (fun s p => endRecovery p 0x0021 0 s) s)

/-- TWIN_LINKS_DOWN (R440). -/
def twinLinksDown (s : State) : State :=
  let due := s.twin.downAt.elim false fun a => decide (a + 2000000 ≤ s.t)
  if !due || !twinDark s || s.twin.sense || !s.mirrors then s
  else
    let job := s.twin.takeJob.map (·.1)
    let s := unmirror { s with twin := { s.twin with copying := [], giving := none, takeJob := none } }
    finish? job .busy (setTwin .degraded [] s)

/-- TWIN_SYNC_END (R444): the copy has ended. -/
def twinSyncEnd (s : State) : State :=
  if s.twin.st != .syncing || !s.twin.copying.isEmpty then s else setTwin .paired [] s

/-- TWIN_TAKEOVER (R20, R443): the twin, the old primary, is told to hand over. -/
def twinTakeover (j : Job) (s : State) : End × State :=
  let p := fldLE j.payload 0 1
  if s.flash.prof.sysNooks = 0 then (.done .noAccess, s)
  else if s.twin.st != .paired || s.twin.takeJob.isSome || s.twin.giving.isSome then (.done .busy, s)
  else if !s.twin.twinned.contains p then (.done .noAccess, s)
  else if s.twin.primary.contains p then (.done .ok, s)
  else (.waits, tellTwin 0x0207 (toLE 1 p) { s with twin.takeJob := some (j.id, p, s.t) })

/-- Lines of the partition's mirrored coherent extents that some cache holds. -/
def cachedThere (s : State) (p : Nat) (d : DirEnt) : Bool :=
  !d.sharers.isEmpty && (anyExtent s (64 * d.line)).elim false fun e => e.mirror == 1 && e.coh && e.part == p

/-- TAKEOVER_DRAIN_TIMEOUT (R443) on the old primary, after 4 ms or once no chain runs: its chains end, cached copies are recalled; once none is left and every
mirror write is acknowledged, the roles swap. -/
def takeoverDrain (p : Nat) (s : State) : State :=
  let runs := fun (c : Chain) => c.part == p && c.admitted && c.status.isNone && !c.ended
  if !(s.twin.giving.elim false fun g => g.1 == p && (decide (g.2 + 4000000 ≤ s.t) || !s.chains.chains.any runs)) then s
  else
    let s := recallAll (cachedThere s p) (abortWhere runs .quiesced s)
    let busy := s.chains.chains.any (fun c => c.part == p && c.admitted) || s.dir.ents.any (cachedThere s p)
      || !s.twin.open_.isEmpty || s.twin.desc.any (·.2.1 == p)
    if busy then s
    else tellTwin 0x0207 (toLE 1 p ++ [1]) { s with twin := { s.twin with giving := none, primary := s.twin.primary.filter (· != p) } }

/-! ## Mirrored state that arrives (R438) -/

/-- The nook that stands for a nook of the primary: the same, or the partition's lowest. -/
def nookHere (s : State) (p n : Nat) : Nat := if s.nookOwner n == .part p then n else (s.nooksOf p).headD 0

/-- A command of the primary, as this module carries it out. -/
def twinJob (p op : Nat) (b : Bytes) : Job := { mbx := .a, op := op, part := p, payload := b }

/-- An extent that this module already has is not added again: it takes the mirror attribute. -/
def addMirrored (p : Nat) (b : Bytes) (s : State) : Status × State :=
  let e := decExtent (leNat b)
  if (heldExts s).any fun x => x.base == e.base && x.granules == e.granules && x.part == e.part then
    (.ok, setExtent e.base (fun x => { x with mirror := e.mirror }) s)
  else extentAdd (twinJob p 0x0401 b) s

/-- The table that a descriptor message names, changed. -/
def applyTable (p : Nat) (b : Bytes) (f : Table → Table) (s : State) : Status × State :=
  if (s.table? p (fldLE b 0 2)).isNone then (.noAccess, s) else (.ok, modTable p (fldLE b 0 2) f s)

/-- A descriptor of the primary is held here, in the partition's own nooks (R438). -/
def applyDesc (p op : Nat) (b : Bytes) (s : State) : Status × State :=
  if op = 0x0401 then addMirrored p b s
  else if op = 0x0402 then extentRelease (twinJob p op b) s
  else if op = 0x0403 then
    let r := extentSetAttr (twinJob p op b) s
    (match r.1 with
      | .done st _ _ => st
      | _ => .ok, r.2)
  else if op = 0x0801 then
    let d := decTable (leNat (b.take 64))
    let t : Table := { d := { d with coord := nookHere s p d.coord } }
    if d.part ≠ p then (.noAccess, s)
    else (.ok, { s with tables := s.tables.filter (fun x => !(x.d.part == p && x.d.id == d.id)) ++ [t] })
  else if op = 0x0802 then
    (.ok, { s with tables := s.tables.filter fun x => !(x.d.part == p && x.d.id == fldLE b 0 2) })
  else if op = 0x0805 then
    let as := (List.range 96).map fun n => fldLE b (64 + 8 * n) 8
    applyTable p b (fun t => { t with u := some { decUpdate (leNat (b.take 64)) with uareas := as }, closed := bits (leNat (b.take 64)) 231 200 }) s
  else if op = 0x0806 then
    applyTable p b (fun t =>
      let add := (List.range (fldLE b 4 4)).map fun k => fldLE b 8 8 + k * 64 * rowLines t.d
      let old := t.free.map (·.2) ++ t.freeTray
      (add.filter (! old.contains ·)).foldl (fun t a => freeSlot s t a) t) s
  else if op = 0x0807 then applyTable p b (fun t => { t with closed := fldLE b 4 4 }) s
  else if op = 0x080B then applyTable p b (fun t => { t with d := { t.d with gen := (t.d.gen + 1) % 65536 } }) s
  else if op = 0x0902 then
    match chainOf (b.drop 8) with
    | none => (.badDescriptor, s)
    | some x =>
      let h := leNat x.1
      let n := nookHere s p (bits h 119 113)
      let id := fldLE b 0 2
      let h := h - 2 ^ 113 * bits h 119 113 + 2 ^ 113 * n
      let t : Template := { part := p, id := id, nook := n, bytes := toLE 64 h ++ (b.drop 8).drop 64 }
      (.ok, { s with chains.templates := s.chains.templates.filter (fun y => !(y.part == p && y.id == id && y.nook == n)) ++ [t] })
  else if op = 0x0903 then
    let n := nookHere s p (fldLE b 2 1)
    (.ok, { s with chains.templates := s.chains.templates.filter fun y => !(y.part == p && y.id == fldLE b 0 2 && y.nook == n) })
  else if op = 0x0904 then
    let g := decGroup b
    if groupBad b || g.part ≠ p then (.badDescriptor, s)
    else (.ok, { s with groups.groups := s.groups.groups.filter (fun y => !(y.part == p && y.id == g.id)) ++ [g] })
  else if op = 0x0905 then groupDestroy (twinJob p op b) s
  else if op = 0x0A03 then
    (.ok, { s with twin.ns := s.twin.ns.filter (·.part != p) ++ [{ part := p, units := fldLE b 0 4, twinRecord := b.drop 4 }] })
  else if op = 0x0A04 then
    (.ok, { s with twin := { s.twin with ns := s.twin.ns.filter (·.part != p), ashMap := s.twin.ashMap.filter (·.part != p) } })
  else (.ok, s)

/-- The twin's own messages: it ends mirroring, asks this module to hand a partition over, or has handed one over. -/
def applyControl (op : Nat) (b : Bytes) (s : State) : Status × State :=
  let p := fldLE b 0 1
  if op = 0x0205 then (.ok, endPair s)
  else if op ≠ 0x0207 then (.badDescriptor, s)
  else if fldLE b 1 1 = 0 then
    if !s.twin.primary.contains p then (.noAccess, s)
    else if s.twin.giving.isSome || s.twin.takeJob.isSome then (.busy, s)
    else (.ok, { s with twin.giving := some (p, s.t) })
  else
    let s := takeOver [p] s
    match s.twin.takeJob with
    | some w => if w.2.1 = p then (.ok, finish w.1 .ok 0 [] { s with twin.takeJob := none }) else (.ok, s)
    | none => (.ok, s)

/-- The data of an extent becomes that of the primary's copy (R444). -/
def putExtent (e : Extent) (ls : List (Nat × Bytes)) (s : State) : State :=
  let here := fun (x : Nat × Bytes) => e.base ≤ x.1 / 2 ^ 28 && x.1 / 2 ^ 28 < e.base + e.granules
  (ls.filter here).foldl (fun s x => memWrite (64 * (x.1 / 64)) (x.2.take 64) s) (memClear e s)

/-- One piece of mirrored state of a partition. -/
def applyMirror (p : Nat) (m : MirrorMsg) (s : State) : Status × State :=
  let keep := fun (f : List Mirrored → List Mirrored) => ({ s with twin.copies := f s.twin.copies } : State)
  let mine := fun (cid : Nat) (x : Mirrored) => x.part == p && x.cid == cid
  match m with
  | .data a d =>
    if (anyExtent s a).elim true (fun e => e.part != p || e.mirror != 1) then (.noAccess, s) else (.ok, memWrite a d s)
  | .desc op b => applyDesc p op b s
  | .chain cid src b => (.ok, keep fun l => l.filter (! mine cid ·) ++ [{ part := p, cid := cid, src := src, bytes := b }])
  | .ticket cid n => (.ok, keep fun l => modWhere (mine cid) (fun x => { x with phase := n }) l)
  | .chainEnd cid => (.ok, keep fun l => l.filter (! mine cid ·))
  | .ash unit tray ch block off len wseq damaged =>
    let u : AUnit := { part := p, unit := unit, tray := tray, ch := ch, block := block, off := off, len := len, wseq := wseq, damaged := damaged }
    (.ok, { s with twin.ashMap := s.twin.ashMap.filter (fun x => !(x.part == p && x.unit == unit)) ++ (if wseq = 0 then [] else [u]) })
  | .calendar b => (.ok, { s with twin.calImage := cellsWrite 0 [] 0 b })
  | .extent base ls =>
    match (heldExts s).find? fun e => e.base == base && e.part == p && e.mirror == 1 with
    | none => (.noAccess, s)
    | some e => (.ok, putExtent e ls s)

/-- Answer a message of the twin on its port (R493). -/
def answerTwin (p svc txn opc : Nat) (st : Status) (body : Bytes) (s : State) : State :=
  match (s.port p).peer with
  | none => s
  | some r =>
    let m : PktMsg := { dst := epId r.cell r.module r.port, src := ownId s, txn := txn, opc := opc, status := st.code,
                        epoch := s.maps.cur.epoch, bytes := body.length, body := body }
    enqueue false p svc m.dst (.pkt .msg m) s

/-- A message of the twin link is policed (R252): it takes its flits raw; one that is refused is answered RETRY. -/
def policeTwin (p svc txn bytes : Nat) (f : State → State) (s : State) : State :=
  match police p (peerId s p) (rawFlits ((s.port p).sess.phase == 3) (1 + pktLen bytes)) true s with
  | (false, _, s) => answerTwin p svc txn 7 .retry [] s
  | (true, _, s) => f s

/-- MIRROR_WRITE (R438): partition 16 stands for what is no partition's. A module that is not the partition's secondary
refuses. -/
def mirrorWrite (p part txn : Nat) (m : MirrorMsg) (s : State) : State :=
  if (s.port p).kind ≠ 2 || !linkAlive s p then s
  else policeTwin p (mirrorSvc m) txn (mirrorBytes m) (fun s =>
    let secondary := s.twin.twinned.contains part && !s.twin.primary.contains part
    let r : Status × State := match part, m with
      | 16, .desc op b => if s.twin.st == .unpaired then (.noAccess, s) else applyControl op b s
      | 16, .calendar b => if s.mirrors then applyMirror 16 (.calendar b) s else (.noAccess, s)
      | _, m => if s.mirrors && secondary then applyMirror part m s else (.noAccess, s)
    answerTwin p (mirrorSvc m) txn 7 r.1 [] r.2) s

/-- MIRROR_ACCESS (R28, R460): the line of the twin's copy is read or written here, and answered. -/
def mirrorAccess (p : Nat) (write : Bool) (a txn : Nat) (d : Bytes) (s : State) : State :=
  if (s.port p).kind ≠ 2 || !linkAlive s p then s
  else policeTwin p 5 txn (8 + d.length) (fun s =>
    let ok := s.twin.st == .paired && (anyExtent s a).elim false fun e =>
      e.mirror == 1 && s.twin.twinned.contains e.part && !s.twin.primary.contains e.part
    if !ok then answerTwin p 5 txn 7 .noAccess [] s
    else if write then answerTwin p 5 txn 7 .ok [] (memWrite a d s)
    else answerTwin p 5 txn 3 .ok (memRead s a 64) s) s

/-! ## Meanings -/

def execTwinPair (m : MbxId) (s : State) : Host.Outcome State Fault Refusal :=
  .next (settle s (runCmd 0x0204 m Sys2Proof.Machine.twinPair s))
def execTwinUnpair (m : MbxId) (s : State) : Host.Outcome State Fault Refusal :=
  .next (settle s (runCmd 0x0205 m (simply Sys2Proof.Machine.twinUnpair) s))
def execTwinStatus (m : MbxId) (s : State) : Host.Outcome State Fault Refusal :=
  .next (settle s (runCmd 0x0206 m Sys2Proof.Machine.twinStatus s))
def execTwinTakeover (m : MbxId) (s : State) : Host.Outcome State Fault Refusal :=
  .next (settle s (runCmd 0x0207 m Sys2Proof.Machine.twinTakeover s))
def execTwinPaired (s : State) : Host.Outcome State Fault Refusal :=
  .next (settle s (Sys2Proof.Machine.twinPaired s))
def execTwinDown (s : State) : Host.Outcome State Fault Refusal :=
  .next (settle s (Sys2Proof.Machine.twinDown s))
def execTwinLinksDown (s : State) : Host.Outcome State Fault Refusal :=
  .next (settle s (Sys2Proof.Machine.twinLinksDown s))
def execTwinSyncEnd (s : State) : Host.Outcome State Fault Refusal :=
  .next (settle s (Sys2Proof.Machine.twinSyncEnd s))
def execTwinPairTimeout (s : State) : Host.Outcome State Fault Refusal :=
  .next (settle s (Sys2Proof.Machine.twinPairTimeout s))
def execTakeoverDrainTimeout (part : Nat) (s : State) : Host.Outcome State Fault Refusal :=
  .next (settle s (takeoverDrain part s))
def execMirrorAccess (port : Nat) (write : Bool) (addr txn : Nat) (data : Bytes) (s : State) : Host.Outcome State Fault Refusal :=
  .next (settle s (Sys2Proof.Machine.mirrorAccess port write addr txn data s))
def execMirrorWrite (port : Nat) (part txn : Nat) (m : MirrorMsg) (s : State) : Host.Outcome State Fault Refusal :=
  .next (settle s (Sys2Proof.Machine.mirrorWrite port part txn m s))

end Sys2Proof.Machine
end

