-- ==== Sys2Proof/Machine/Dispatch.lean ====
section
/-! DEFINITION. The dispatch: one arm per command, each a direct call of its meaning. -/

namespace Sys2Proof.Machine

/-- The effect of a command on everything but the queue. -/
def exec (i : Instr) (s : State) : Host.Outcome State Fault Refusal :=
  match i with
  | .deviceInfo m => Sys2Proof.Machine.execDeviceInfo m s
  | .warmRestart m => Sys2Proof.Machine.execWarmRestart m s
  | .moduleHealth m => Sys2Proof.Machine.execModuleHealth m s
  | .profileRead m => Sys2Proof.Machine.execProfileRead m s
  | .profileWrite m => Sys2Proof.Machine.execProfileWrite m s
  | .profileSelect m => Sys2Proof.Machine.execProfileSelect m s
  | .twinPair m => Sys2Proof.Machine.execTwinPair m s
  | .twinUnpair m => Sys2Proof.Machine.execTwinUnpair m s
  | .twinStatus m => Sys2Proof.Machine.execTwinStatus m s
  | .twinTakeover m => Sys2Proof.Machine.execTwinTakeover m s
  | .partitionCreate m => Sys2Proof.Machine.execPartitionCreate m s
  | .partitionDestroy m => Sys2Proof.Machine.execPartitionDestroy m s
  | .nookMove m => Sys2Proof.Machine.execNookMove m s
  | .partitionQuiesce m => Sys2Proof.Machine.execPartitionQuiesce m s
  | .partitionResume m => Sys2Proof.Machine.execPartitionResume m s
  | .partitionInfo m => Sys2Proof.Machine.execPartitionInfo m s
  | .extentAdd m => Sys2Proof.Machine.execExtentAdd m s
  | .extentRelease m => Sys2Proof.Machine.execExtentRelease m s
  | .extentSetAttr m => Sys2Proof.Machine.execExtentSetAttr m s
  | .routeSet m => Sys2Proof.Machine.execRouteSet m s
  | .mapCommit m => Sys2Proof.Machine.execMapCommit m s
  | .mapDiscard m => Sys2Proof.Machine.execMapDiscard m s
  | .mapRead m => Sys2Proof.Machine.execMapRead m s
  | .dirRead m => Sys2Proof.Machine.execDirRead m s
  | .lineClear m => Sys2Proof.Machine.execLineClear m s
  | .lostlogRead m => Sys2Proof.Machine.execLostlogRead m s
  | .portMove m => Sys2Proof.Machine.execPortMove m s
  | .peerAdmit m => Sys2Proof.Machine.execPeerAdmit m s
  | .peerEvict m => Sys2Proof.Machine.execPeerEvict m s
  | .portStatus m => Sys2Proof.Machine.execPortStatus m s
  | .portRetrain m => Sys2Proof.Machine.execPortRetrain m s
  | .damperPortSet m => Sys2Proof.Machine.execDamperPortSet m s
  | .damperSvcSet m => Sys2Proof.Machine.execDamperSvcSet m s
  | .damperSubSet m => Sys2Proof.Machine.execDamperSubSet m s
  | .damperSubClear m => Sys2Proof.Machine.execDamperSubClear m s
  | .damperStats m => Sys2Proof.Machine.execDamperStats m s
  | .emberSet m => Sys2Proof.Machine.execEmberSet m s
  | .emberLinkAsym m => Sys2Proof.Machine.execEmberLinkAsym m s
  | .emberStatus m => Sys2Proof.Machine.execEmberStatus m s
  | .calWrite m => Sys2Proof.Machine.execCalWrite m s
  | .calCopy m => Sys2Proof.Machine.execCalCopy m s
  | .calArm m => Sys2Proof.Machine.execCalArm m s
  | .calCancel m => Sys2Proof.Machine.execCalCancel m s
  | .calStop m => Sys2Proof.Machine.execCalStop m s
  | .calRead m => Sys2Proof.Machine.execCalRead m s
  | .tableCreate m => Sys2Proof.Machine.execTableCreate m s
  | .tableDestroy m => Sys2Proof.Machine.execTableDestroy m s
  | .tableCachePin m => Sys2Proof.Machine.execTableCachePin m s
  | .tableCacheUnpin m => Sys2Proof.Machine.execTableCacheUnpin m s
  | .tableUpdateSet m => Sys2Proof.Machine.execTableUpdateSet m s
  | .tableSlotsAdd m => Sys2Proof.Machine.execTableSlotsAdd m s
  | .stepClose m => Sys2Proof.Machine.execStepClose m s
  | .tableRowWrite m => Sys2Proof.Machine.execTableRowWrite m s
  | .tableGenBegin m => Sys2Proof.Machine.execTableGenBegin m s
  | .tableGenSeal m => Sys2Proof.Machine.execTableGenSeal m s
  | .tableGenCommit m => Sys2Proof.Machine.execTableGenCommit m s
  | .tableGenAbort m => Sys2Proof.Machine.execTableGenAbort m s
  | .tableMigrateOut m => Sys2Proof.Machine.execTableMigrateOut m s
  | .tableMigrateCommit m => Sys2Proof.Machine.execTableMigrateCommit m s
  | .tableMigrateRelease m => Sys2Proof.Machine.execTableMigrateRelease m s
  | .tableShardLoad m => Sys2Proof.Machine.execTableShardLoad m s
  | .pour src => Sys2Proof.Machine.execPour src s
  | .templateRegister m => Sys2Proof.Machine.execTemplateRegister m s
  | .templateRemove m => Sys2Proof.Machine.execTemplateRemove m s
  | .groupCreate m => Sys2Proof.Machine.execGroupCreate m s
  | .groupDestroy m => Sys2Proof.Machine.execGroupDestroy m s
  | .bellowsListLoad m => Sys2Proof.Machine.execBellowsListLoad m s
  | .bellowsListStop m => Sys2Proof.Machine.execBellowsListStop m s
  | .ashNsCreate m => Sys2Proof.Machine.execAshNsCreate m s
  | .ashNsDestroy m => Sys2Proof.Machine.execAshNsDestroy m s
  | .ashAssign m => Sys2Proof.Machine.execAshAssign m s
  | .ashWrite m => Sys2Proof.Machine.execAshWrite m s
  | .ashRead m => Sys2Proof.Machine.execAshRead m s
  | .ashTrim m => Sys2Proof.Machine.execAshTrim m s
  | .ashStatus m => Sys2Proof.Machine.execAshStatus m s
  | .hallmarkGet m => Sys2Proof.Machine.execHallmarkGet m s
  | .ckeyLoad m => Sys2Proof.Machine.execCkeyLoad m s
  | .ckeyUnload m => Sys2Proof.Machine.execCkeyUnload m s
  | .debugOpen m => Sys2Proof.Machine.execDebugOpen m s
  | .debugClose m => Sys2Proof.Machine.execDebugClose m s
  | .measlogRead m => Sys2Proof.Machine.execMeaslogRead m s
  | .eventRead m => Sys2Proof.Machine.execEventRead m s
  | .eventNotify m => Sys2Proof.Machine.execEventNotify m s
  | .telemetryGet m => Sys2Proof.Machine.execTelemetryGet m s
  | .telemetryStream m => Sys2Proof.Machine.execTelemetryStream m s
  | .draftWrite m => Sys2Proof.Machine.execDraftWrite m s
  | .draftRead m => Sys2Proof.Machine.execDraftRead m s
  | .draftClear m => Sys2Proof.Machine.execDraftClear m s
  | .fwWrite m => Sys2Proof.Machine.execFwWrite m s
  | .fwVerify m => Sys2Proof.Machine.execFwVerify m s
  | .fwActivate m => Sys2Proof.Machine.execFwActivate m s
  | .fwStatus m => Sys2Proof.Machine.execFwStatus m s
  | .deferredCommandEnd ticket => Sys2Proof.Machine.execDeferredCommandEnd ticket s
  | .mbxSubmit l seq v => Sys2Proof.Machine.execMbxSubmit l seq v s
  | .doorbell l seq v => Sys2Proof.Machine.execDoorbell l seq v s
  | .mbxBufferWrite l seq off data => Sys2Proof.Machine.execMbxBufferWrite l seq off data s
  | .mbxOverrunRead r => Sys2Proof.Machine.execMbxOverrunRead r s
  | .masterWrite l seq v contended => Sys2Proof.Machine.execMasterWrite l seq v contended s
  | .faultCauseClear l seq v => Sys2Proof.Machine.execFaultCauseClear l seq v s
  | .irqStatusClear l seq v => Sys2Proof.Machine.execIrqStatusClear l seq v s
  | .irqEnableWrite l seq v => Sys2Proof.Machine.execIrqEnableWrite l seq v s
  | .emberNsLoRead l => Sys2Proof.Machine.execEmberNsLoRead l s
  | .draftRegisterWrite l seq off v => Sys2Proof.Machine.execDraftRegisterWrite l seq off v s
  | .regWr l seq off v => Sys2Proof.Machine.execRegWr l seq off v s
  | .irqAck l => Sys2Proof.Machine.execIrqAck l s
  | .irqResend => Sys2Proof.Machine.execIrqResend s
  | .chimneyFrameRetry l seq => Sys2Proof.Machine.execChimneyFrameRetry l seq s
  | .mbxCmd port m => Sys2Proof.Machine.execMbxCmd port m s
  | .tenantCompletionPost p => Sys2Proof.Machine.execTenantCompletionPost p s
  | .eventMessageSend p => Sys2Proof.Machine.execEventMessageSend p s
  | .fwStreamTimeout => Sys2Proof.Machine.execFwStreamTimeout s
  | .detectProbe port => Sys2Proof.Machine.execDetectProbe port s
  | .peerDetected port => Sys2Proof.Machine.execPeerDetected port s
  | .equalizeConverged port => Sys2Proof.Machine.execEqualizeConverged port s
  | .codewordLock port => Sys2Proof.Machine.execCodewordLock port s
  | .config port r => Sys2Proof.Machine.execConfig port r s
  | .configRepeat port => Sys2Proof.Machine.execConfigRepeat port s
  | .linkUp port => Sys2Proof.Machine.execLinkUp port s
  | .laneTrained port lane => Sys2Proof.Machine.execLaneTrained port lane s
  | .portStep port => Sys2Proof.Machine.execPortStep port s
  | .portStepEnd port => Sys2Proof.Machine.execPortStepEnd port s
  | .lockLossTimeout port => Sys2Proof.Machine.execLockLossTimeout port s
  | .lccShutdown port => Sys2Proof.Machine.execLccShutdown port s
  | .adaptationWindow port lane corrected received uncorrectable => Sys2Proof.Machine.execAdaptationWindow port lane corrected received uncorrectable s
  | .retrainDone port ok => Sys2Proof.Machine.execRetrainDone port ok s
  | .flitSend port => Sys2Proof.Machine.execFlitSend port s
  | .flitReceive port f => Sys2Proof.Machine.execFlitReceive port f s
  | .replayTimeout port => Sys2Proof.Machine.execReplayTimeout port s
  | .ackStallTimeout port => Sys2Proof.Machine.execAckStallTimeout port s
  | .spdm port m => Sys2Proof.Machine.execSpdm port m s
  | .spdmResponseTimeout port => Sys2Proof.Machine.execSpdmResponseTimeout port s
  | .handshakeTimeout port => Sys2Proof.Machine.execHandshakeTimeout port s
  | .keyUpdateStart port => Sys2Proof.Machine.execKeyUpdateStart port s
  | .heartbeatTimeout port => Sys2Proof.Machine.execHeartbeatTimeout port s
  | .rdShared port m => Sys2Proof.Machine.execRdShared port m s
  | .rdOwn port m => Sys2Proof.Machine.execRdOwn port m s
  | .upgrade port m => Sys2Proof.Machine.execUpgrade port m s
  | .rdNc port m => Sys2Proof.Machine.execRdNc port m s
  | .wrLine port m => Sys2Proof.Machine.execWrLine port m s
  | .wrMask port m => Sys2Proof.Machine.execWrMask port m s
  | .atomic port m => Sys2Proof.Machine.execAtomic port m s
  | .fence port m => Sys2Proof.Machine.execFence port m s
  | .placedWrite part target addr data => Sys2Proof.Machine.execPlacedWrite part target addr data s
  | .ackInv port m => Sys2Proof.Machine.execAckInv port m s
  | .ackShared port m => Sys2Proof.Machine.execAckShared port m s
  | .notHeld port m => Sys2Proof.Machine.execNotHeld port m s
  | .evictClean port m => Sys2Proof.Machine.execEvictClean port m s
  | .placeAck port m => Sys2Proof.Machine.execPlaceAck port m s
  | .placeDecline port m => Sys2Proof.Machine.execPlaceDecline port m s
  | .snpData port m => Sys2Proof.Machine.execSnpData port m s
  | .wbData port m => Sys2Proof.Machine.execWbData port m s
  | .lineRequestResume line => Sys2Proof.Machine.execLineRequestResume line s
  | .snoopTimeout agent line => Sys2Proof.Machine.execSnoopTimeout agent line s
  | .writebackTimeout agent line => Sys2Proof.Machine.execWritebackTimeout agent line s
  | .agentCrash agent => Sys2Proof.Machine.execAgentCrash agent s
  | .reclaimWalkEnd agent => Sys2Proof.Machine.execReclaimWalkEnd agent s
  | .agentReclaimEnd agent => Sys2Proof.Machine.execAgentReclaimEnd agent s
  | .lineHoldAtomic line => Sys2Proof.Machine.execLineHoldAtomic line s
  | .homeAtomic line => Sys2Proof.Machine.execHomeAtomic line s
  | .devownRecallEnd base => Sys2Proof.Machine.execDevownRecallEnd base s
  | .segmentAcquire chan first lines => Sys2Proof.Machine.execSegmentAcquire chan first lines s
  | .segmentAcquired chan => Sys2Proof.Machine.execSegmentAcquired chan s
  | .segmentAbandon chan => Sys2Proof.Machine.execSegmentAbandon chan s
  | .segmentRelease chan => Sys2Proof.Machine.execSegmentRelease chan s
  | .cxlMemrd tray mv addr tag => Sys2Proof.Machine.execCxlMemrd tray mv addr tag s
  | .cxlMeminv tray addr tag => Sys2Proof.Machine.execCxlMeminv tray addr tag s
  | .cxlMemclnevct tray addr tag => Sys2Proof.Machine.execCxlMemclnevct tray addr tag s
  | .cxlMemspecrd tray addr => Sys2Proof.Machine.execCxlMemspecrd tray addr s
  | .cxlMemwr tray addr tag mask data => Sys2Proof.Machine.execCxlMemwr tray addr tag mask data s
  | .cxlBirsp tray addr shared => Sys2Proof.Machine.execCxlBirsp tray addr shared s
  | .cxlBiconflict tray addr tag => Sys2Proof.Machine.execCxlBiconflict tray addr tag s
  | .trayCreditResume tray => Sys2Proof.Machine.execTrayCreditResume tray s
  | .dcAddAccept tray base => Sys2Proof.Machine.execDcAddAccept tray base s
  | .dcReleaseResponse tray base => Sys2Proof.Machine.execDcReleaseResponse tray base s
  | .trayReadFail tray addr => Sys2Proof.Machine.execTrayReadFail tray addr s
  | .trayLinkDown tray => Sys2Proof.Machine.execTrayLinkDown tray s
  | .trayPerstN tray low => Sys2Proof.Machine.execTrayPerstN tray low s
  | .trayPrsntN tray low => Sys2Proof.Machine.execTrayPrsntN tray low s
  | .cinderCompletion tray c data => Sys2Proof.Machine.execCinderCompletion tray c data s
  | .cinderCommandTimeout tray qid cid => Sys2Proof.Machine.execCinderCommandTimeout tray qid cid s
  | .cinderAbortTimeout tray fatal => Sys2Proof.Machine.execCinderAbortTimeout tray fatal s
  | .bridgeAccess tray addr bytes => Sys2Proof.Machine.execBridgeAccess tray addr bytes s
  | .post port m => Sys2Proof.Machine.execPost port m s
  | .collect port m => Sys2Proof.Machine.execCollect port m s
  | .collectAnswer port m => Sys2Proof.Machine.execCollectAnswer port m s
  | .msgCmp port m => Sys2Proof.Machine.execMsgCmp port m s
  | .messageForward port m => Sys2Proof.Machine.execMessageForward port m s
  | .neighbourHello port m => Sys2Proof.Machine.execNeighbourHello port m s
  | .helloTimer port => Sys2Proof.Machine.execHelloTimer port s
  | .contrib port m => Sys2Proof.Machine.execContrib port m s
  | .partialMsg port m => Sys2Proof.Machine.execPartialMsg port m s
  | .result port m => Sys2Proof.Machine.execResult port m s
  | .endMsg port m => Sys2Proof.Machine.execEndMsg port m s
  | .collectiveLocalDeadline part group inst => Sys2Proof.Machine.execCollectiveLocalDeadline part group inst s
  | .collectiveResultDeadline part group inst => Sys2Proof.Machine.execCollectiveResultDeadline part group inst s
  | .mirrorAccess port write addr txn data => Sys2Proof.Machine.execMirrorAccess port write addr txn data s
  | .mirrorWrite port part txn m => Sys2Proof.Machine.execMirrorWrite port part txn m s
  | .requestTimeout id => Sys2Proof.Machine.execRequestTimeout id s
  | .frameSelect tray port => Sys2Proof.Machine.execFrameSelect tray port s
  | .damperParamApply tray port => Sys2Proof.Machine.execDamperParamApply tray port s
  | .chainAdmit nook => Sys2Proof.Machine.execChainAdmit nook s
  | .chainComplete cid => Sys2Proof.Machine.execChainComplete cid s
  | .chainTimeout cid => Sys2Proof.Machine.execChainTimeout cid s
  | .memoryResponse cid stage => Sys2Proof.Machine.execMemoryResponse cid stage s
  | .templateDeferredStart part id => Sys2Proof.Machine.execTemplateDeferredStart part id s
  | .ladleIndex cid stage row => Sys2Proof.Machine.execLadleIndex cid stage row s
  | .rowReadDone cid stage row => Sys2Proof.Machine.execRowReadDone cid stage row s
  | .strokeStart chan => Sys2Proof.Machine.execStrokeStart chan s
  | .strokeEnd chan => Sys2Proof.Machine.execStrokeEnd chan s
  | .refreshDue chan => Sys2Proof.Machine.execRefreshDue chan s
  | .refreshFallback chan => Sys2Proof.Machine.execRefreshFallback chan s
  | .scrubDue chan => Sys2Proof.Machine.execScrubDue chan s
  | .scrubFallback chan => Sys2Proof.Machine.execScrubFallback chan s
  | .scrubBurst chan corrected bad => Sys2Proof.Machine.execScrubBurst chan corrected bad s
  | .benchTransfer chan checkOk => Sys2Proof.Machine.execBenchTransfer chan checkOk s
  | .scatterBatch cid stage home => Sys2Proof.Machine.execScatterBatch cid stage home s
  | .stepApply part table row => Sys2Proof.Machine.execStepApply part table row s
  | .applySlotTimeout part table => Sys2Proof.Machine.execApplySlotTimeout part table s
  | .closeComplete part table => Sys2Proof.Machine.execCloseComplete part table s
  | .slotWaveFree part table => Sys2Proof.Machine.execSlotWaveFree part table s
  | .genDrainEnd part table => Sys2Proof.Machine.execGenDrainEnd part table s
  | .loadBucketTick => Sys2Proof.Machine.execLoadBucketTick s
  | .balancerTick => Sys2Proof.Machine.execBalancerTick s
  | .shardMoveRow part => Sys2Proof.Machine.execShardMoveRow part s
  | .shardMoveEnd part => Sys2Proof.Machine.execShardMoveEnd part s
  | .slotBoundary => Sys2Proof.Machine.execSlotBoundary s
  | .gateOpen e => Sys2Proof.Machine.execGateOpen e s
  | .gateClose e => Sys2Proof.Machine.execGateClose e s
  | .chainStart e => Sys2Proof.Machine.execChainStart e s
  | .calStepClose e => Sys2Proof.Machine.execCalStepClose e s
  | .refresh e => Sys2Proof.Machine.execRefresh e s
  | .scrub e => Sys2Proof.Machine.execScrub e s
  | .xbarShare e => Sys2Proof.Machine.execXbarShare e s
  | .mark e => Sys2Proof.Machine.execMark e s
  | .calSwap => Sys2Proof.Machine.execCalSwap s
  | .calStopAct => Sys2Proof.Machine.execCalStopAct s
  | .mapCommitAct => Sys2Proof.Machine.execMapCommitAct s
  | .mapRetire => Sys2Proof.Machine.execMapRetire s
  | .releaseDeadline base => Sys2Proof.Machine.execReleaseDeadline base s
  | .releaseEnd base => Sys2Proof.Machine.execReleaseEnd base s
  | .nookDrainTimeout nook => Sys2Proof.Machine.execNookDrainTimeout nook s
  | .nookMoveEnd nook => Sys2Proof.Machine.execNookMoveEnd nook s
  | .zeroingRegion nook region => Sys2Proof.Machine.execZeroingRegion nook region s
  | .syncExchangeTimer => Sys2Proof.Machine.execSyncExchangeTimer s
  | .syncReq port m t2 => Sys2Proof.Machine.execSyncReq port m t2 s
  | .syncRsp port m t4 => Sys2Proof.Machine.execSyncRsp port m t4 s
  | .announceTimer => Sys2Proof.Machine.execAnnounceTimer s
  | .announce port m => Sys2Proof.Machine.execAnnounce port m s
  | .upstreamLost => Sys2Proof.Machine.execUpstreamLost s
  | .emberDelayCheck delays => Sys2Proof.Machine.execEmberDelayCheck delays s
  | .ppsEdge => Sys2Proof.Machine.execPpsEdge s
  | .ppsTimeout => Sys2Proof.Machine.execPpsTimeout s
  | .ppsOutPulse => Sys2Proof.Machine.execPpsOutPulse s
  | .ppsOutEnd => Sys2Proof.Machine.execPpsOutEnd s
  | .bellowsEntryStart part list entry => Sys2Proof.Machine.execBellowsEntryStart part list entry s
  | .bellowsChunk part list entry => Sys2Proof.Machine.execBellowsChunk part list entry s
  | .bellowsEntryComplete part list entry => Sys2Proof.Machine.execBellowsEntryComplete part list entry s
  | .ckeyExpiry handle => Sys2Proof.Machine.execCkeyExpiry handle s
  | .nonceExpiry part => Sys2Proof.Machine.execNonceExpiry part s
  | .keyPoolRefill => Sys2Proof.Machine.execKeyPoolRefill s
  | .trngHealthFail => Sys2Proof.Machine.execTrngHealthFail s
  | .ashBackgroundWork w => Sys2Proof.Machine.execAshBackgroundWork w s
  | .ashUnitProgrammed part unit => Sys2Proof.Machine.execAshUnitProgrammed part unit s
  | .cleanerCycle w corrected => Sys2Proof.Machine.execCleanerCycle w corrected s
  | .sramUncorrectable w => Sys2Proof.Machine.execSramUncorrectable w s
  | .mantelRestartEnd => Sys2Proof.Machine.execMantelRestartEnd s
  | .channelRetireTrigger chan why => Sys2Proof.Machine.execChannelRetireTrigger chan why s
  | .channelRetire chan => Sys2Proof.Machine.execChannelRetire chan s
  | .trayFailover base => Sys2Proof.Machine.execTrayFailover base s
  | .trayCopyBackEnd base => Sys2Proof.Machine.execTrayCopyBackEnd base s
  | .recoveryEnd part => Sys2Proof.Machine.execRecoveryEnd part s
  | .tempSample hearth temps => Sys2Proof.Machine.execTempSample hearth temps s
  | .throttle => Sys2Proof.Machine.execThrottle s
  | .telemetrySample powerW inputMv => Sys2Proof.Machine.execTelemetrySample powerW inputMv s
  | .suppliesValid => Sys2Proof.Machine.execSuppliesValid s
  | .supplyOutOfRange => Sys2Proof.Machine.execSupplyOutOfRange s
  | .supplyLoss => Sys2Proof.Machine.execSupplyLoss s
  | .modRstNFall => Sys2Proof.Machine.execModRstNFall s
  | .startInstant fwOk identityOk => Sys2Proof.Machine.execStartInstant fwOk identityOk s
  | .readyBasic => Sys2Proof.Machine.execReadyBasic s
  | .readyFull => Sys2Proof.Machine.execReadyFull s
  | .pwrBrakeAssert => Sys2Proof.Machine.execPwrBrakeAssert s
  | .pwrBrakeRelease => Sys2Proof.Machine.execPwrBrakeRelease s
  | .brakeLatchClear => Sys2Proof.Machine.execBrakeLatchClear s
  | .refclkLost clk => Sys2Proof.Machine.execRefclkLost clk s
  | .refclkReturn clk => Sys2Proof.Machine.execRefclkReturn clk s
  | .twinPaired => Sys2Proof.Machine.execTwinPaired s
  | .twinDown => Sys2Proof.Machine.execTwinDown s
  | .twinLinksDown => Sys2Proof.Machine.execTwinLinksDown s
  | .twinSyncEnd => Sys2Proof.Machine.execTwinSyncEnd s
  | .smbusBlockRead code => Sys2Proof.Machine.execSmbusBlockRead code s
  | .memoryAccessDone line corrected bad => Sys2Proof.Machine.execMemoryAccessDone line corrected bad s
  | .refreshEnd chan => Sys2Proof.Machine.execRefreshEnd chan s
  | .mirrorCopyEnd base => Sys2Proof.Machine.execMirrorCopyEnd base s
  | .genCopyEnd part table => Sys2Proof.Machine.execGenCopyEnd part table s
  | .migrationRowArrival port m => Sys2Proof.Machine.execMigrationRowArrival port m s
  | .pushStartTime part list entry => Sys2Proof.Machine.execPushStartTime part list entry s
  | .keyPairWaitTimeout => Sys2Proof.Machine.execKeyPairWaitTimeout s
  | .twinPairTimeout => Sys2Proof.Machine.execTwinPairTimeout s
  | .takeoverDrainTimeout part => Sys2Proof.Machine.execTakeoverDrainTimeout part s
  | .tenantWindowStart p => Sys2Proof.Machine.execTenantWindowStart p s
  | .trngHealthRestored => Sys2Proof.Machine.execTrngHealthRestored s
  | .trayLinkUp tray => Sys2Proof.Machine.execTrayLinkUp tray s
  | .laneLockLoss port lane => Sys2Proof.Machine.execLaneLockLoss port lane s
  | .chimneyLinkDown l => Sys2Proof.Machine.execChimneyLinkDown l s
  | .chimneyLinkUp l => Sys2Proof.Machine.execChimneyLinkUp l s
  | .twinSenseN asserted => Sys2Proof.Machine.execTwinSenseN asserted s
  | .supplyBackInRange => Sys2Proof.Machine.execSupplyBackInRange s

end Sys2Proof.Machine
end

