-- ==== Sys2Proof/Machine/Tick.lean ====
section
/-! DEFINITION. One nanosecond: local time and Ember time (R211 to R213), the Damper's end of cycle (R251), and stored lines that fall into error (R171,
R172). -/

namespace Sys2Proof.Machine

/-- Stored lines fall into error (log entry 79). -/
def decayed (s : State) : State := { s with mem.weak := s.mem.weak ++ Config.decay s.t }

/-- Ember time advances by 1 ns with the rate correction in force, at most 100 ppm (R213): 2^32 units of 2^-32 ns and at most
429,496 more or fewer. -/
def tick (s : State) : State :=
  let t := s.ns
  let x := s.ember.sub + (2 ^ 32 + clampRate s.ember.rate).toNat
  decayed { s with
    t := s.t + 1, dsax := s.dsax.map (DPort.cycleEnd t), dtray := s.dtray.map (DPort.cycleEnd t),
    ember := { s.ember with fx := (s.ember.fx + x / 65536) % 2 ^ 80, sub := x % 65536 } }

end Sys2Proof.Machine
end

