-- ==== Sys2Proof/Safety.lean ====
section
/-! DEFINITION. What counts as a safe step, and the conditions that the claims name. -/

namespace Sys2Proof.Machine

/-- A step that ends in a next state: no command of this block stops it (R33). -/
abbrev completes (s : State) : Prop := ∃ t, step s = .next t

/-- FAULT_CAUSE shows every condition that lasts (R424). -/
abbrev causesShown (s : State) : Prop := lasting s &&& ~~~ s.mantel.faultCause = 0

/-- A frame on a Chimney or JTAG link that is performed, not answered again (R354): the module is not in reset, and the SEQ is
not that of the link's last one. -/
abbrev freshFrame (s : State) (l : Link) (q : Nat) : Prop := inReset s = false ∧ (l = .jtag ∨ (linkOf s l).lastSeq ≠ some q)

/-- The next command of a mailbox is this job, of this opcode, and may start (R403). -/
abbrev mayRun (s : State) (m : MbxId) (op : Nat) (j : Job) : Prop := startable s m = some j ∧ j.op = op

/-- A line message of an accelerator passes the steps of R289 and finds a free tracker (R281): its link carries it and its
sender is the admitted endpoint of the port; its EPOCH is live; the policer lets it start, with this Heat and next state;
the extent under its map serves it. -/
abbrev linePasses (s : State) (kind : ReqKind) (opc p : Nat) (m : LineMsg) (map : MapV) (h : Nat) (e : Extent) (s2 : State) : Prop :=
  (s.port p).kind = 0 ∧ (s.port p).admitted = true ∧ m.src = accelEp s p ∧ m.rsv = false ∧ m.addr / 2 ^ 52 = s.modNum ∧
  mapFor s m.epoch = .ok map ∧ trkFree s (s.port p).owner = true ∧
  police p m.src (rawFlits ((s.port p).sess.phase == 3) (1 + lineLen .req opc false)) false (eatLine p .req opc s) = (true, h, s2) ∧
  accessStatus s2 map (m.addr % 2 ^ 52) (s.port p).owner (storeRuns kind m) none = .ok e

/-- The tracker that a line message of an accelerator takes (R281). -/
def lineTracker (s : State) (p h : Nat) (m : LineMsg) : Trk :=
  { part := (s.port p).owner, port := p, txn := m.txn, src := m.src, epoch := m.epoch, vc := .req, line := m.addr % 2 ^ 52 / 64, heat := h }

/-- The request that reaches the directory slice for it. -/
def sliceReq (s : State) (kind : ReqKind) (p h id : Nat) (m : LineMsg) (e : Extent) : LineReq :=
  { id := id, src := .sax p, kind := kind, m := m, line := m.addr % 2 ^ 52 / 64,
    agent := if (s.port p).caching then agentOn s false p else none, part := e.part, heat := h }

/-- A host's request that stores to these runs passes R289 on its port and finds a free tracker. -/
abbrev hostPasses (s : State) (t addr : Nat) (runs : List (Nat × Nat)) (e : Extent) : Prop :=
  hostWorks s t = true ∧ trkFree s (s.tray t).owner = true ∧ addr % 64 = 0 ∧ addr < 2 ^ 52 ∧
  accessStatus (chargeHost t 1 s) s.maps.cur addr (s.tray t).owner runs (some t) = .ok e

/-- The request of a host that reaches the directory slice, and its tracker. -/
def hostReq (s : State) (kind : ReqKind) (t tag addr id : Nat) (mv : CxlMeta) (mask : BitVec 64) (d : Bytes) (e : Extent) : LineReq :=
  { id := id, src := .host t tag mv, kind := kind, line := addr / 64, agent := agentOn s true t, part := e.part,
    m := { txn := tag, addr := addr, mask := mask, data := d } }

def hostTracker (s : State) (t tag addr : Nat) : Trk :=
  { part := (s.tray t).owner, port := t, tray := true, txn := tag, epoch := s.maps.cur.epoch, vc := .req, line := addr / 64 }

/-- The state after a command's or a stage's reads of these runs, and whether every line has come (R63, R292). -/
def readsDone (tok part : Nat) (runs : List (Nat × Nat)) (s : State) : Bool × State :=
  runs.foldl (fun a r => ((a.1 && (engLines tok r.1 r.2 a.2).1), (engLines tok r.1 r.2 a.2).2))
    (true, runs.foldl (fun s r => engRead tok part r.1 r.2 s) s)

/-- The runs are open to the partition under the map, and every line of them has been read, sound. -/
abbrev readsCome (tok part : Nat) (map : MapV) (runs : List (Nat × Nat)) (s : State) : Prop :=
  (runs.all fun r => pourAccess s map part false r.1 r.2 == .ok) = true ∧
  engBusy (runs.foldl (fun s r => engRead tok part r.1 r.2 s) s) tok = false ∧ (readsDone tok part runs s).1 = true ∧
  (runs.all fun r => engStatus (runs.foldl (fun s r => engRead tok part r.1 r.2 s) s) tok r.1 r.2 == .ok) = true

/-- A message that arrives on a port passes the steps 0 to 3 of R289: from an accelerator it comes from the admitted endpoint of
the port; its payload `o` is whole, of 1 to 2,048 bytes and with no reserved bit; its EPOCH is live, unless it needs none (a
hello); the policer lets it start. It goes on as `q`, stamped with its partition's tag and the Heat sampled where an accelerator sent
it (R255, R285), from the state `t`. -/
abbrev msgPasses (s : State) (p : Nat) (m o q : PktMsg) (anyEpoch : Bool) (t : State) : Prop :=
  let s1 := eatPkt p .msg m s
  (s.port p).kind ≤ 2 ∧ ((s.port p).kind = 0 → m.src = accelEp s1 p ∧ (s.port p).admitted = true) ∧ openPkt m = some o ∧ o.rsv = false ∧
  1 ≤ o.bytes ∧ o.bytes ≤ 2048 ∧ (anyEpoch = true ∨ (mapFor s1 o.epoch).toOption.isSome = true) ∧
  (police p o.src (rawPkt s1 p o) true s1).1 = true ∧ t = (police p o.src (rawPkt s1 p o) true s1).2.2 ∧
  q = (if (s.port p).kind = 0 then { o with tenant := tagOf t (s.port p).owner, hops := 0, heat := (police p o.src (rawPkt s1 p o) true s1).2.1 }
    else { o with heat := 0 })

/-- A holder's answer or notice arrives, is taken out of the port's buffer, leaving `s1`, and is not discarded: it comes from the endpoint of
an accelerator link, admitted or answering the snoops of its reclaim (R245, R301, R489). -/
abbrev holderSends (s : State) (p : Nat) (m : LineMsg) (vc : Vc) (opc : Nat) (s1 : State) : Prop :=
  s1 = eatLine p vc opc s ∧ (s1.port p).kind = 0 ∧ m.src = accelEp s1 p ∧
  ((s1.port p).admitted = true ∨ answersReclaim s1 p m vc opc = true)

/-- The token of a mailbox command's reads. -/
abbrev jobTok (j : Job) : Nat := 2 ^ 48 + j.id

end Sys2Proof.Machine
end

