-- ==== Sys2Proof/Certificates/Slice0/Obligations.lean ====
section
/-! DEFINITION. The statements about the model, family by family. -/

open Sys2Proof Sys2Proof.Machine

/-! ## The step, the registers at reset, memory and encodings -/

/-- Log entry 1 (the block's form, the model's own): a step takes the command at the front of the queue and runs it on the state
with the queue's rest; on an empty queue one nanosecond passes: local time advances by 1 ns, Ember time by 1 ns corrected by at
most 100 ppm (R213), stored lines may fall into error (a free value, log entry 79), and nothing else changes.
R33 (the model's reading: no command of the block stops it): every step of every state answers a next state, and a command
leaves the rest of the queue as it is. -/
def Obligations.StepRunsFront : Prop :=
  ((∀ (c : Instr) (cs : List Instr) (s : State), step { s with pending := c :: cs } = exec c { s with pending := cs }) ∧
    (∀ (s : State), s.pending = [] → ∃ (r : Int) (d f : Nat), -429496 ≤ r ∧ r ≤ 429496 ∧ f < 65536 ∧
      (65536 * d + f : Int) = s.ember.sub + 2 ^ 32 + r ∧
      step s = .next { s with t := s.t + 1, ember := { s.ember with fx := (s.ember.fx + d) % 2 ^ 80, sub := f },
                              mem.weak := s.mem.weak ++ Config.decay (s.t + 1) })) ∧
  (∀ (s : State), completes s ∧ ∀ t, step s = .next t → t.pending = s.pending.tail)

/-- R424, R484: FAULT_CAUSE shows every condition that lasts (identity failure, thermal emergency, supply out of range), and every
step keeps it so, whatever command clears bits of it: a command's end shows the lasting ones again. -/
def Obligations.EveryStepShowsCauses : Prop :=
  ∀ (s t : State), causesShown s → step s = .next t → causesShown t

/-- R8, R409: the registers of the Chimney window as they read after reset. -/
def Obligations.ResetRegisters : Prop :=
  readReg State.reset 0x0000 = 0x0B2D2464 ∧ readReg State.reset 0x0004 = 0x00000100 ∧
  (∀ o ∈ [0x0008, 0x000C, 0x0010, 0x0100, 0x0104, 0x0108, 0x0110, 0x0200, 0x0204, 0x0208, 0x2000, 0x2004, 0x2008, 0x200C,
    0x1004, 0x1008, 0x100C, 0x1040, 0x1080, 0x1404, 0x1408, 0x140C, 0x1440, 0x1480], readReg State.reset o = 0) ∧
  State.reset.pending = [] ∧ State.reset.mem.bytes = [] ∧ causesShown State.reset

/-- R277, R298 (what a store means): memory reads back what was written, at every address of the write, and reads as before
everywhere else; a run that is cleared reads zero, and everything else as before. -/
def Obligations.MemoryReadsBack : Prop :=
  (∀ (o a : Nat) (d : Bytes) (s : State),
    memRead (memWrite o d s) a 1 = if o ≤ a ∧ a < o + d.length then [d.getD (a - o) 0] else memRead s a 1) ∧
  (∀ (e : Extent) (a : Nat) (s : State),
    memRead (memClear e s) a 1 = if e.base * 2 ^ 28 ≤ a ∧ a < (e.base + e.granules) * 2 ^ 28 then [0] else memRead s a 1) ∧
  (∀ (l a : Nat) (d : Bytes) (e : Extent) (s : State), d.length = 64 → anyExtent s (64 * l) = some e →
    memRead (storeLine l d s) a 1 = if a / 64 = l ∧ writeGone s e (64 * l) = false then [d.getD (a % 64) 0] else memRead s a 1)

/-- R213, R223: while a calendar runs no command and no message of Ember time steps it: EMBER_SET, the answers and timers of the
exchange, the announces, the edges of EMBER_PPS_IN and the slot boundary leave the time as it stands. -/
def Obligations.NoStepUnderCalendar : Prop :=
  ∀ (c : Instr) (s t : State), s.cal.running = true →
    (match c with
      | .emberSet _ | .syncExchangeTimer | .syncReq _ _ _ | .syncRsp _ _ _ | .announce _ _ | .announceTimer | .upstreamLost
      | .emberDelayCheck _ | .ppsEdge | .ppsTimeout | .ppsOutPulse | .ppsOutEnd | .emberLinkAsym _ | .emberStatus _ => True
      | _ => False) →
    exec c s = .next t → t.ember.fx = s.ember.fx

/-- R20: in a profile with no system nook every command of the Ash tier and of twin pairing whose reserved bytes are 0 (R5) completes
with NO_ACCESS, and changes nothing else. -/
def Obligations.NoSystemNookNoAccess : Prop :=
  ∀ (m : MbxId) (j : Job) (s : State), s.flash.prof.sysNooks = 0 →
    let r := Host.Outcome.next (φ := Fault) (ρ := Refusal) (settle s (finish j.id .noAccess 0 [] (startJob j s)))
    (mayRun s m 0x0A03 j → zeroAt j.payload 1 3 = true → exec (.ashNsCreate m) s = r) ∧ (mayRun s m 0x0A04 j → exec (.ashNsDestroy m) s = r) ∧
    (mayRun s m 0x0A05 j → zeroAt j.payload 1 7 = true → exec (.ashAssign m) s = r) ∧
    (mayRun s m 0x0A06 j → exec (.ashWrite m) s = r) ∧
    (mayRun s m 0x0A07 j → exec (.ashRead m) s = r) ∧ (mayRun s m 0x0A08 j → exec (.ashTrim m) s = r) ∧
    (mayRun s m 0x0A09 j → exec (.ashStatus m) s = r) ∧
    (mayRun s m 0x0204 j → zeroAt j.payload 2 6 = true → exec (.twinPair m) s = r) ∧
    (mayRun s m 0x0205 j → exec (.twinUnpair m) s = r) ∧ (mayRun s m 0x0206 j → exec (.twinStatus m) s = r) ∧
    (mayRun s m 0x0207 j → exec (.twinTakeover m) s = r)

/-- R23: a move of a nook with an extent on it, of a nook whose move has not completed, or of one that R24 refuses to take from its
partition, completes with BUSY and changes nothing. -/
def Obligations.NookMoveRefused : Prop :=
  ∀ (m : MbxId) (j : Job) (s : State), mayRun s m 0x0303 j →
    let n := fldLE j.payload 0 1
    let o := fldLE j.payload 1 1
    n ≤ 95 → (o = 255 ∨ (o ≤ 15 ∧ (s.part? o).isSome = true)) → s.nookOwner n ≠ .system →
    let r := Host.Outcome.next (φ := Fault) (ρ := Refusal) (settle s (finish j.id .busy 0 [] (startJob j s)))
    ((heldExts s).any (·.nook == n) = true → exec (.nookMove m) s = r) ∧
    (moving s n = true → exec (.nookMove m) s = r) ∧
    (∀ p, s.nookOwner n = .part p → (o = 255 ∨ o ≠ p) → (s.nooksOf p).find? (fun k => k != n && !moving s k) = none →
      exec (.nookMove m) s = r) ∧
    (∀ p k, s.nookOwner n = .part p → (o = 255 ∨ o ≠ p) → (s.nooksOf p).find? (fun k => k != n && !moving s k) = some k →
      moveBusy s p n k = true → exec (.nookMove m) s = r)

/-- R345: the raw flits of a message: the least number that holds its slots, 14 each with ENC = 1 and 15 with ENC = 0; a POST of
2 KiB takes 130 slots, which is 10 raw flits; a message counts its payload at its raw size, coded or not. -/
def Obligations.RawFlitsOfMessages : Prop :=
  (∀ n, n ≤ 14 * rawFlits true n ∧ ∀ k, n ≤ 14 * k → rawFlits true n ≤ k) ∧
  (∀ n, n ≤ 15 * rawFlits false n ∧ ∀ k, n ≤ 15 * k → rawFlits false n ≤ k) ∧
  (∀ (vc : Vc) (m : PktMsg), (Out.pkt vc m).rawSlots = 2 + (m.bytes + 15) / 16) ∧
  (∀ (m : PktMsg), (fluxOut (.pkt .msg m)).rawSlots = (Out.pkt .msg m).rawSlots) ∧
  2 + (2048 + 15) / 16 = 130 ∧ rawFlits true 130 = 10

/-- R368: a coded stream of N whole blocks holds at most 260 N bytes, an Ash unit codes to at most 66,560 bytes, and a message
payload that the module sends never grows. -/
def Obligations.FluxStreamBounded : Prop :=
  (∀ (n : Nat) (b : Bytes), b.length = 256 * n → (fluxCode b).length ≤ 260 * n ∧ 64 * (fluxCode b).length ≤ 65 * b.length) ∧
  (∀ (b : Bytes), b.length = 65536 → (fluxCode b).length ≤ 66560) ∧
  (∀ (m : PktMsg), m.flux = false → m.body.length = m.bytes → (fluxOut (.pkt .msg m)).slots.length ≤ (Out.pkt .msg m).slots.length)

/-- R356 to R365: Flux coding loses nothing: the expander gives back every payload from the module's own stream of it, with its
zero padding to the slot boundary. -/
def Obligations.FluxLossless : Prop :=
  ∀ (b : Bytes), fluxExpand b.length (fluxCode b ++ List.replicate ((16 - (fluxCode b).length % 16) % 16) 0) = some b

/-- R265, R433: an extent descriptor and a neighbour hello lose no field: what is read back from the bytes that stand for one is
the same, every field at every value its width admits. -/
def Obligations.RecordsRoundTrip : Prop :=
  (∀ (e : Extent), e.base < 2 ^ 24 → e.granules < 2 ^ 24 → e.trayBase < 2 ^ 24 → e.hostmask < 2 ^ 32 → e.mirrorPort < 32 →
    e.trayPort < 32 → e.trayLd < 16 → e.dcRegion < 8 → e.nook < 128 → e.ch0 < 8 → e.mirror < 4 → e.part < 16 →
    decExtent (leNat (encExtent e)) = e) ∧
  (∀ (h : Hello), h.serial < 2 ^ 64 → h.twinSerial < 2 ^ 64 → h.epoch < 2 ^ 32 → h.cell < 1024 → h.module < 16 → h.port < 256 →
    h.role < 4 → h.linkKind < 4 → h.ready < 4 → decHello (encHello h) = some h)

/-! ## Chimney, mailboxes, interrupts (chapters 13 and 16) -/

/-- R409, R410: writes of the master link to FAULT_CAUSE, IRQ_STATUS and IRQ_ENABLE; writing 1 clears a bit of the first two,
and the seven bits of the last are stored. Nothing else changes but the frame's answer and what `settle` shows.
R355: writing MASTER gives mastership to the link that writes; MASTER shows it, and a change raises IRQ_STATUS bit 6.
Forms that complete here: faultCauseClear, irqStatusClear, irqEnableWrite, masterWrite. -/
def Obligations.MasterWritesRegisters : Prop :=
  (∀ (l : Link) (q : Nat) (v : BitVec 32) (s : State), freshFrame s l q → holds s l = true →
      exec (.faultCauseClear l q v) s = .next (settle s (answerFrame l q .ok
        { s with mantel.faultCause := s.mantel.faultCause &&& ~~~v })) ∧
      exec (.irqStatusClear l q v) s = .next (settle s (answerFrame l q .ok
        { s with mantel.irqStatus := s.mantel.irqStatus &&& ~~~v })) ∧
      exec (.irqEnableWrite l q v) s = .next (settle s (answerFrame l q .ok
        (let e := v &&& 0x7F
         { s with mantel := noteIrq s.t (e &&& ~~~s.mantel.irqEnable &&& s.mantel.irqStatus) { s.mantel with irqEnable := e } })))) ∧
  (∀ (l : Link) (q : Nat) (v : BitVec 32) (s : State), freshFrame s l q → l ≠ .jtag →
      ∃ t, exec (.masterWrite l q v false) s = .next t ∧ t.mantel.masterB = (l == .b) ∧
        (s.mantel.masterB ≠ (l == .b) → t.mantel.irqStatus.getLsbD 6 = true) ∧ t.mantel.irqEnable = s.mantel.irqEnable ∧
        t.mantel.jobs = s.mantel.jobs ∧ t.mem = s.mem ∧ t.ember = s.ember ∧ t.sax = s.sax)

/-- R5, R354, R355, R398: a register write that its link may not make is answered NO_ACCESS or BAD_DESCRIPTOR, and changes nothing
else, and so is a frame with a reserved field that is not zero; a write of a register that only reads is answered OK and ignored; the PAGE register of the link's own mailbox takes
VALUE [2:0].
R378, R418: a draft register that works takes the written value under its mask of writable bits; the other draft registers
keep theirs.
Forms that complete here: regWr, draftRegisterWrite. -/
def Obligations.RegisterWriteCompletes : Prop :=
  ((∀ (l : Link) (q off : Nat) (v : BitVec 32) (st : Status) (s : State), freshFrame s l q → writeStatus s l off = st → st ≠ .ok →
      exec (.regWr l q off ⟨v, false⟩) s = .next (settle s (answerFrame l q st s))) ∧
    (∀ (l : Link) (q off : Nat) (v : BitVec 32) (s : State), freshFrame s l q → holds s l = true →
      off ∈ [0x0000, 0x0004, 0x0008, 0x000C, 0x0010, 0x0100, 0x0110, 0x0208, 0x2000, 0x2004, 0x2008, 0x200C] →
      exec (.regWr l q off ⟨v, false⟩) s = .next (settle s (answerFrame l q .ok s))) ∧
    (∀ (q : Nat) (v : BitVec 32) (s : State), freshFrame s .a q →
      exec (.regWr .a q 0x1004 ⟨v, false⟩) s = .next (settle s (answerFrame .a q .ok
        { s with mantel.mbxA := { s.mantel.mbxA with page := v.toNat % 8 } }))) ∧
    (∀ (q : Nat) (v : BitVec 32) (s : State), freshFrame s .b q →
      exec (.regWr .b q 0x1404 ⟨v, false⟩) s = .next (settle s (answerFrame .b q .ok
        { s with mantel.mbxB := { s.mantel.mbxB with page := v.toNat % 8 } }))) ∧
    (∀ (l : Link) (q off : Nat) (v : BitVec 32) (s : State), freshFrame s l q →
      exec (.regWr l q off ⟨v, true⟩) s = .next (settle s (answerFrame l q .badDescriptor s)))) ∧
  (∀ (l : Link) (q off : Nat) (v : BitVec 32) (s : State), freshFrame s l q → draftOff off = true → draftWorks s = true →
      (l = .jtag ∨ holds s l = true) →
      ∃ t, exec (.draftRegisterWrite l q off v) s = .next t ∧ draftReg t off = v &&& draftMask off ∧
        (∀ o, o ≠ off → draftReg t o = draftReg s o) ∧ t.mantel.everDraft = true ∧ t.mem = s.mem ∧ t.ten = s.ten ∧
        t.maps = s.maps ∧ t.power = s.power ∧ t.flash = s.flash)

/-- R401: a mailbox whose block is not BUSY takes CMD_HDR bytes and bytes of its page as written; the block becomes IDLE.
Forms that complete here: mbxBufferWrite. -/
def Obligations.MailboxBufferTakesBytes : Prop :=
  (∀ (q off : Nat) (d : Bytes) (s : State), freshFrame s .a q → s.mantel.mbxA.st ≠ 1 → d.length % 4 = 0 →
    0x1040 ≤ off → off + d.length ≤ 0x1080 → off < 0x1080 →
    ∃ t, exec (.mbxBufferWrite .a q off d) s = .next t ∧ t.mantel.mbxA.st = 0 ∧ t.mantel.mbxA.buf = s.mantel.mbxA.buf ∧
      t.mantel.mbxA.cmdHdr = leNat ((toLE 64 s.mantel.mbxA.cmdHdr).take (off - 0x1040) ++ d
        ++ (toLE 64 s.mantel.mbxA.cmdHdr).drop (off - 0x1040 + d.length)) ∧ t.mantel.mbxB = s.mantel.mbxB ∧ t.mem = s.mem) ∧
  (∀ (q off : Nat) (d : Bytes) (s : State), freshFrame s .a q → s.mantel.mbxA.st ≠ 1 → d.length % 4 = 0 →
    0x1200 ≤ off → off + d.length ≤ 0x1400 → off < 0x1400 →
    ∃ t, exec (.mbxBufferWrite .a q off d) s = .next t ∧ t.mantel.mbxA.st = 0 ∧ t.mantel.mbxA.cmdHdr = s.mantel.mbxA.cmdHdr ∧
      t.mantel.mbxA.buf = cellsWrite 0 s.mantel.mbxA.buf (512 * s.mantel.mbxA.page + (off - 0x1200)) d ∧
      t.mantel.mbxB = s.mantel.mbxB ∧ t.mem = s.mem)

/-- R401, R403, R404, R405: writing 1 to bit 0 of MBX_SUBMIT, and a doorbell, submit the command of the link's own mailbox: its STATE becomes
BUSY and the command arrives; a submission while BUSY only sets OVERRUN, and writing 0 does nothing; a doorbell that names the other
mailbox is answered NO_ACCESS. A command that arrives for the first time and is accepted becomes the last job that waits; with DEFER it
takes a TICKET and completes at once with OK; one that is not accepted completes with its status and makes no job.
Forms that complete here: mbxSubmit, doorbell. -/
def Obligations.SubmissionQueuesCommand : Prop :=
  (∀ (l : Link) (q : Nat) (v : BitVec 32) (b : MbxBlock) (s : State), freshFrame s l q → mailboxesServe s = true → v.getLsbD 0 = true →
    (l = .jtag → jtagWorks s = true) → s.mantel.blk (ownMbx l) = b → b.st ≠ 1 →
    exec (.mbxSubmit l q v) s = .next (settle s (answerFrame l q .ok (accept (ownMbx l) 0 0 0 b.cmdHdr
      (cellsRead 0 b.buf 0 (min 4096 (bits b.cmdHdr 76 64))) (modBlk (ownMbx l) (fun b => { b with st := 1 }) s))))) ∧
  (∀ (l : Link) (q : Nat) (v : BitVec 32) (s : State), freshFrame s l q → mailboxesServe s = true → v.getLsbD 0 = true →
    (l = .jtag → jtagWorks s = true) → (s.mantel.blk (ownMbx l)).st = 1 →
    exec (.mbxSubmit l q v) s = .next (settle s (answerFrame l q .ok (modBlk (ownMbx l) (fun b => { b with overrun := true }) s)))) ∧
  (∀ (l : Link) (q : Nat) (v : BitVec 32) (s : State), freshFrame s l q → mailboxesServe s = true → v.getLsbD 0 = false →
    (l = .jtag → jtagWorks s = true) → exec (.mbxSubmit l q v) s = .next (settle s (answerFrame l q .ok s))) ∧
  (∀ (l : Link) (q : Nat) (b : MbxBlock) (s : State), freshFrame s l q → mailboxesServe s = true → l ≠ .jtag →
    s.mantel.blk (ownMbx l) = b → b.st ≠ 1 →
    exec (.doorbell l q (if l = .b then 1 else 0)) s = .next (settle s (answerFrame l q .ok (accept (ownMbx l) 0 0 0 b.cmdHdr
      (cellsRead 0 b.buf 0 (min 4096 (bits b.cmdHdr 76 64))) (modBlk (ownMbx l) (fun b => { b with st := 1 }) s))))) ∧
  (∀ (l : Link) (q : Nat) (s : State), freshFrame s l q → mailboxesServe s = true → l ≠ .jtag → (s.mantel.blk (ownMbx l)).st = 1 →
    exec (.doorbell l q (if l = .b then 1 else 0)) s = .next (settle s (answerFrame l q .ok
      (modBlk (ownMbx l) (fun b => { b with overrun := true }) s)))) ∧
  (∀ (l : Link) (q : Nat) (s : State), freshFrame s l q → l ≠ .jtag →
    exec (.doorbell l q (if l = .b then 0 else 1)) s = .next (settle s (answerFrame l q .noAccess s))) ∧
  (∀ (m : MbxId) (port src txn hdr : Nat) (data : Bytes) (h : CmdHdr) (j : Job) (s : State), h = cmdHdr hdr →
    (s.mantel.lasts.find? fun l => l.mbx == m && l.seq == h.seq && l.op == h.op) = none →
    acceptStatus s m h data.length = .ok → h.defer = false →
    j = { id := s.mantel.nextJob, mbx := m, port := port, src := src, txn := txn, op := h.op, seq := h.seq, part := h.part, quiet := h.quiet,
          payload := data.take h.len, ready := s.t, at_ := s.ns } →
    accept m port src txn hdr data s = { s with mantel := { s.mantel with
      jobs := s.mantel.jobs ++ [j], nextJob := s.mantel.nextJob + 1, lasts := noteLast { mbx := m, seq := h.seq, op := h.op } s.mantel.lasts } }) ∧
  (∀ (m : MbxId) (port src txn hdr tk : Nat) (data : Bytes) (h : CmdHdr) (j : Job) (c : Cmpl) (s : State), h = cmdHdr hdr →
    (s.mantel.lasts.find? fun l => l.mbx == m && l.seq == h.seq && l.op == h.op) = none →
    acceptStatus s m h data.length = .ok → h.defer = true → tk = s.mantel.nextTicket →
    j = { id := s.mantel.nextJob, mbx := m, port := port, src := src, txn := txn, op := h.op, seq := h.seq, part := h.part, defer := true,
          quiet := h.quiet, payload := data.take h.len, ready := s.t, at_ := s.ns, ticket := tk } →
    c = { op := h.op, seq := h.seq, ticket := tk, endTime := s.ns } →
    accept m port src txn hdr data s = recordLast j c (postCmpl j c { s with mantel := { s.mantel with
      jobs := s.mantel.jobs ++ [j], nextJob := s.mantel.nextJob + 1, nextTicket := if tk = 65535 then 1 else tk + 1,
      lasts := noteLast { mbx := m, seq := h.seq, op := h.op } s.mantel.lasts } })) ∧
  (∀ (m : MbxId) (port src txn hdr : Nat) (data : Bytes) (h : CmdHdr) (st : Status) (j : Job) (s : State), h = cmdHdr hdr →
    (s.mantel.lasts.find? fun l => l.mbx == m && l.seq == h.seq && l.op == h.op) = none →
    acceptStatus s m h data.length = st → st ≠ .ok →
    j = { id := s.mantel.nextJob, mbx := m, port := port, src := src, txn := txn, op := h.op, seq := h.seq, part := h.part, defer := h.defer,
          quiet := h.quiet, payload := data.take h.len, ready := s.t, at_ := s.ns } →
    accept m port src txn hdr data s = postCmpl j { op := h.op, seq := h.seq, status := st.code, endTime := s.ns } s)

/-- R7, R353, R354, R401, R409, R410: reads with a side effect, answers given again, acknowledgement and resending of an IRQ
frame, links going down and coming up.
Forms that complete here: mbxOverrunRead, emberNsLoRead, irqAck, irqResend, chimneyFrameRetry, chimneyLinkDown, chimneyLinkUp. -/
def Obligations.ChimneyEventsComplete : Prop :=
  (∀ (l : Link) (m : MbxId) (s : State), inReset s = false → l ≠ .jtag → (m = .a ∨ m = .b) →
    exec (.mbxOverrunRead ⟨l, m⟩) s = .next (settle s (modBlk m (fun b => { b with overrun := false })
      (modLink l (fun k => { k with lastRead := b2n (s.mantel.blk m).overrun }) s)))) ∧
  (∀ (m : MbxId) (s : State), inReset s = false → jtagWorks s = true → (m = .a ∨ m = .b ∨ m = .debug) →
    exec (.mbxOverrunRead ⟨.jtag, m⟩) s = .next (settle s (modBlk m (fun b => { b with overrun := false })
      (modLink .jtag (fun k => { k with lastRead := b2n (s.mantel.blk m).overrun }) s)))) ∧
  (∀ (l : Link) (s : State), inReset s = false →
    ∃ t, exec (.emberNsLoRead l) s = .next t ∧ (linkOf t l).lastRead = s.ns % 2 ^ 32 ∧
      t.mantel.emberHi = BitVec.ofNat 32 (s.ns / 2 ^ 32) ∧ t.mantel.emberFrac = BitVec.ofNat 32 s.frac ∧ t.ember = s.ember ∧ t.mem = s.mem) ∧
  (∀ (l : Link) (s : State), s.mantel.irqOut.isSome = true → holds s l = true → s.mantel.irqMore = false →
    exec (.irqAck l) s = .next (settle s { s with mantel.irqOut := none })) ∧
  (∀ (l : Link) (s : State), s.mantel.irqOut.isSome = true → holds s l = true → s.mantel.irqMore = true →
    exec (.irqAck l) s = .next (settle s { s with mantel := sendIrq s.t { s.mantel with irqOut := none } })) ∧
  (∀ (s : State), s.mantel.irqOut.isSome = true → masterUp s.mantel = true → s.mantel.irqAt + 10000 ≤ s.t →
    exec .irqResend s = .next (settle s { s with mantel.irqAt := s.t, mantel.irqSent := s.mantel.irqSent + 1 })) ∧
  (∀ (l : Link) (q : Nat) (s : State), inReset s = false → (linkOf s l).lastSeq = some q →
    exec (.chimneyFrameRetry l q) s = .next (settle s (modLink l (fun k => { k with answers := k.answers + 1 }) s))) ∧
  (∀ (l : Link) (s : State), exec (.chimneyLinkDown l) s = .next (settle s (modLink l (fun k => { k with up := false }) s))) ∧
  (∀ (l : Link) (s : State), inReset s = false → s.power.refLost = [false, false, false] →
    exec (.chimneyLinkUp l) s = .next (settle s (modLink l (fun k => { k with up := true }) s)))

/-- R281, R374, R402, R404, R412, R413: a tenant's command takes a tracker and reaches the tenant mailbox of its port's owner; tenant completions and
EVENT messages leave at their boundary, the completion's Heat that of its command (R255); a deferred command that has ended is reported and leaves the table; a partition's
window opens.
Forms that complete here: mbxCmd, tenantCompletionPost, eventMessageSend, deferredCommandEnd, tenantWindowStart. -/
def Obligations.TenantMailboxCompletes : Prop :=
  (∀ (p q h : Nat) (m : PktMsg) (s s1 s2 : State), s1 = eatPkt p .mgt m s → (s1.port p).kind = 0 → (s1.port p).owner = some q →
    (s1.port p).admitted = true → m.src = epId s1.flash.prof.cell s1.modNum p → m.rsv = false → m.flux = false → 64 ≤ m.body.length →
    m.bytes = m.body.length → police p m.src (rawFlits ((s1.port p).sess.phase == 3) (1 + pktLen m.bytes)) true s1 = (true, h, s2) →
    trkFree s2 none = true →
    exec (.mbxCmd p m) s = .next (settle s (accept (.tenant q) p m.src m.txn (leNat (m.body.take 64)) (m.body.drop 64)
      (takeTrk { port := p, txn := m.txn, src := m.src, vc := .mgt, svc := 7, opc := 1, heat := h } s2).2))) ∧
  (∀ (p : Nat) (s : State), let due := s.mantel.posts.filter fun x => x.part == p && decide (x.at_ ≤ s.ns)
    due ≠ [] → exec (.tenantCompletionPost p) s = .next (settle s (due.foldl (fun s x => mbxCmp x.port x.dst x.txn { x.cmpl with endTime := x.at_ } s)
      { s with mantel.posts := s.mantel.posts.filter fun x => !(x.part == p && decide (x.at_ ≤ s.ns)) }))) ∧
  (∀ (p : Nat) (s : State), ∃ t, exec (.tenantCompletionPost p) s = .next t ∧
    t.mantel.posts = s.mantel.posts.filter (fun x => !(x.part == p && decide (x.at_ ≤ s.ns))) ∧ t.mantel.jobs = s.mantel.jobs ∧
    t.mem.bytes = s.mem.bytes ∧ t.ten = s.ten) ∧
  (∀ (p at_ : Nat) (q : EventQ) (s : State), s.mantel.evP[p]? = some q → q.notifyDue = some at_ → at_ ≤ s.ns → q.notify ≠ 0 →
    exec (.eventMessageSend p) s = .next (settle s (enqueue false (epPort q.notify) 7 q.notify
      (.pkt .mgt { dst := q.notify, src := ownId s, opc := 3, bytes := 8, body := toLE 8 q.recs.length })
      { s with mantel.evP := s.mantel.evP.modify p fun q => { q with notifyDue := none } }))) ∧
  (∀ (ticket st d e p : Nat) (j : Job) (s : State),
    (s.mantel.jobs.find? fun j => j.defer && j.ticket == ticket && j.res.isSome) = some j → j.res = some (st, d, e) → j.mbx = .tenant p →
    exec (.deferredCommandEnd ticket) s = .next (settle s (event 0x0001 false [p] (some p) (doneItems j (st, d, e))
      { s with mantel.jobs := s.mantel.jobs.filter (·.id != j.id) }))) ∧
  (∀ (ticket st d e : Nat) (j : Job) (s : State),
    (s.mantel.jobs.find? fun j => j.defer && j.ticket == ticket && j.res.isSome) = some j → j.res = some (st, d, e) →
    (mbxTenant j.mbx).isNone = true →
    exec (.deferredCommandEnd ticket) s = .next (settle s (event 0x0001 true [] none (doneItems j (st, d, e))
      { s with mantel.jobs := s.mantel.jobs.filter (·.id != j.id) }))) ∧
  (∀ (p : Nat) (s : State), s.flash.prof.secure = true → s.ns % 100000 / 6000 = p →
    exec (.tenantWindowStart p) s = .next (settle s { s with mantel.window := some p }))

/-! ## Device, event, telemetry, draft, debug and firmware commands (chapter 16) -/

/-- R408: the queries DEVICE_INFO, MODULE_HEALTH, TELEMETRY_GET, MEASLOG_READ, DRAFT_READ and FW_STATUS complete with OK and their
record, and change nothing but the mailbox, FW_STATUS also the time of the firmware stream of its mailbox (R416).
R411, R412: EVENT_READ takes at most MAX records from the front of the manager's queue, or of the tenant's own, in order;
EVENT_NOTIFY names the endpoint that EVENT messages go to; TELEMETRY_STREAM starts or stops the stream.
Forms that complete here: deviceInfo, moduleHealth, telemetryGet, measlogRead, draftRead, fwStatus, eventRead, eventNotify,
telemetryStream. -/
def Obligations.QueriesAndEventsComplete : Prop :=
  ((∀ (m : MbxId) (j : Job) (s : State), mayRun s m 0x0101 j →
      exec (.deviceInfo m) s = .next (settle s (finish j.id .ok 0 (toLE 8 s.flash.serial ++ toLE 4 0x0B2D2464 ++ toLE 4 0x00000100
        ++ toLE 4 (readyWord s) ++ toLE 1 (hallmarkFlags s) ++ toLE 1 s.flash.slot ++ [0, 0]) (startJob j s)))) ∧
    (∀ (m : MbxId) (j : Job) (s : State), mayRun s m 0x0103 j →
      exec (.moduleHealth m) s = .next (settle s (finish j.id .ok 0 (toLE 4 (tempWord s) ++ toLE 4 s.mantel.faultCause.toNat
        ++ toLE 4 s.power.inputMv ++ toLE 4 s.power.powerW) (startJob j s)))) ∧
    (∀ (p : Nat) (j : Job) (s : State), mayRun s (.tenant p) 0x0C03 j → j.mbx = .tenant p →
      exec (.telemetryGet (.tenant p)) s = .next (settle s (finish j.id .ok 0 (teleBytes false p (s.mantel.teleP.getD p {})) (startJob j s)))) ∧
    (∀ (m : MbxId) (j : Job) (s : State), mayRun s m 0x0C03 j → (mbxTenant j.mbx).isNone = true →
      exec (.telemetryGet m) s = .next (settle s (finish j.id .ok 0 (teleBytes true 0 s.mantel.teleM) (startJob j s)))) ∧
    (∀ (m : MbxId) (j : Job) (s : State), mayRun s m 0x0B06 j → (mbxTenant j.mbx).isNone = true →
      exec (.measlogRead m) s = .next (settle s (finish j.id .ok 0 (((s.mantel.measLog.drop (fldLE j.payload 0 4)).take 102).flatMap fun x =>
        toLE 1 x.1 ++ [0, 0, 0] ++ toLE 4 x.2.2 ++ (x.2.1 ++ List.replicate 32 0).take 32) (startJob j s)))) ∧
    (∀ (m : MbxId) (j : Job) (s : State), mayRun s m 0x0D02 j → draftOff (fldLE j.payload 0 2) = true → fldLE j.payload 0 2 % 4 = 0 →
      exec (.draftRead m) s = .next (settle s (finish j.id .ok 0 (toLE 4 (draftReg s (fldLE j.payload 0 2)).toNat) (startJob j s)))) ∧
    (∀ (m : MbxId) (j : Job) (s : State), mayRun s m 0x0E04 j →
      ∃ b, exec (.fwStatus m) s = .next (settle s (finish j.id .ok 0 b (fwTouch j.mbx (startJob j s)))) ∧ b.length = 32 * s.mantel.fw.length)) ∧
  ((∀ (m : MbxId) (j : Job) (s : State), mayRun s m 0x0C01 j → (mbxTenant j.mbx).isNone = true →
      1 ≤ fldLE j.payload 0 2 → fldLE j.payload 0 2 ≤ 64 →
      ∃ t, exec (.eventRead m) s = .next (settle s (finish j.id .ok 0 ((s.mantel.evM.recs.take (fldLE j.payload 0 2)).flatMap eventBytes) t)) ∧
        t.mantel.evM.recs = s.mantel.evM.recs.drop (fldLE j.payload 0 2) ∧ t.mantel.evM.eseq = s.mantel.evM.eseq ∧
        t.mantel.evP = s.mantel.evP ∧ t.mantel.faultCause = s.mantel.faultCause ∧ t.mem = s.mem) ∧
    (∀ (p : Nat) (j : Job) (s : State), mayRun s (.tenant p) 0x0C01 j → j.mbx = .tenant p →
      1 ≤ fldLE j.payload 0 2 → fldLE j.payload 0 2 ≤ 31 →
      ∃ t, exec (.eventRead (.tenant p)) s = .next (settle s (finish j.id .ok 0
          (((s.mantel.evP.getD p {}).recs.take (fldLE j.payload 0 2)).flatMap eventBytes) t)) ∧
        t.mantel.evP = s.mantel.evP.modify p (fun q => { q with recs := q.recs.drop (fldLE j.payload 0 2) }) ∧
        t.mantel.evM = s.mantel.evM ∧ t.mem = s.mem) ∧
    (∀ (m : MbxId) (j : Job) (s : State), mayRun s m 0x0C02 j → (s.part? j.part).isSome = true →
      (fldLE j.payload 0 4 = 0 ∨ admittedPeer s j.part (fldLE j.payload 0 4) = true) →
      ∃ t, exec (.eventNotify m) s = .next (settle s (finish j.id .ok 0 [] t)) ∧
        t.mantel.evP = s.mantel.evP.modify j.part (fun q => { q with notify := fldLE j.payload 0 4 }) ∧ t.mantel.evM = s.mantel.evM ∧
        t.mem = s.mem) ∧
    (∀ (m : MbxId) (j : Job) (s : State), mayRun s m 0x0C04 j → fldLE j.payload 0 4 < 2 ^ 22 →
      ∃ t, exec (.telemetryStream m) s = .next (settle s (finish j.id .ok 0 [] t)) ∧
        t.mantel.stream = (if fldLE j.payload 4 2 = 0 then none else some (fldLE j.payload 0 4, fldLE j.payload 4 2)) ∧
        t.mantel.streamAt = 0 ∧ t.mantel.evM = s.mantel.evM ∧ t.mem = s.mem))

/-- R378, R418: the draft commands write, and clear, the draft registers; the debug commands issue a nonce, open a session when
the certificate chain and the signature over nonce and SERIAL are good, and close it.
Forms that complete here: draftWrite, draftClear, debugOpen, debugClose. -/
def Obligations.DraftAndDebugCommandsComplete : Prop :=
  (∀ (m : MbxId) (j : Job) (s : State), mayRun s m 0x0D01 j → zeroAt j.payload 2 2 = true → fldLE j.payload 0 2 % 4 = 0 →
    draftOff (fldLE j.payload 0 2) = true → draftWorks s = true →
    ∃ t, exec (.draftWrite m) s = .next (settle s (finish j.id .ok 0 [] t)) ∧
      draftReg t (fldLE j.payload 0 2) = BitVec.ofNat 32 (fldLE j.payload 4 4) &&& draftMask (fldLE j.payload 0 2) ∧
      (∀ o, o ≠ fldLE j.payload 0 2 → draftReg t o = draftReg s o) ∧ t.mantel.everDraft = true ∧ t.mem = s.mem) ∧
  (∀ (m : MbxId) (j : Job) (s : State), mayRun s m 0x0D03 j →
    ∃ t, exec (.draftClear m) s = .next (settle s (finish j.id .ok 0 [] t)) ∧ (∀ o, draftReg t o = 0) ∧
      t.mantel.everDraft = s.mantel.everDraft ∧ t.mem = s.mem) ∧
  (∀ (m : MbxId) (j : Job) (s : State), mayRun s m 0x0B04 j → j.payload.length = 8 → fldLE j.payload 0 1 = 0 →
    zeroAt j.payload 1 7 = true → s.flash.prof.secure = false →
    ∃ t, exec (.debugOpen m) s = .next (settle s (finish j.id .ok 0 (Config.random32 s.power.draws) t)) ∧
      t.mantel.debugNonce = some (Config.random32 s.power.draws) ∧ t.power.draws = s.power.draws + 1 ∧
      t.mantel.debugOpen = s.mantel.debugOpen ∧ t.mem = s.mem) ∧
  (∀ (m : MbxId) (j : Job) (n : Bytes) (s : State), mayRun s m 0x0B04 j → 393 ≤ j.payload.length → fldLE j.payload 0 1 = 1 →
    zeroAt j.payload 1 7 = true → s.flash.prof.secure = false → s.mantel.debugNonce = some n →
    ∃ t ok, exec (.debugOpen m) s = .next (settle s (finish j.id (if ok then .ok else .noAccess) 0 [] t)) ∧
      ok = (Config.debugChainOk (j.payload.drop 392) s.flash.serial &&
        Config.debugSigOk (j.payload.drop 392) (n ++ toLE 8 s.flash.serial) ((j.payload.drop 8).take 384)) ∧
      t.mantel.debugOpen = (ok || s.mantel.debugOpen) ∧ t.mantel.everDebug = (ok || s.mantel.everDebug) ∧
      t.mantel.debugNonce = none ∧ t.mem = s.mem) ∧
  (∀ (m : MbxId) (j : Job) (s : State), mayRun s m 0x0B05 j →
    ∃ t, exec (.debugClose m) s = .next (settle s (finish j.id .ok 0 [] t)) ∧ t.mantel.debugOpen = false ∧
      t.mantel.draft = (if s.flash.prof.test then s.mantel.draft else []) ∧ t.mantel.everDebug = s.mantel.everDebug ∧ t.mem = s.mem)

/-- R414 to R417: FW_WRITE opens the stream at OFFSET 0, or goes on where it ended, and stores the bytes in both copies of the kind's
inactive slot; FW_VERIFY decides whether that slot is verified; FW_ACTIVATE makes a verified slot active, in both flashes, and closes
the stream, which also closes after 60 s without a firmware command; a slot that is not verified is not made active.
Forms that complete here: fwWrite, fwVerify, fwActivate, fwStreamTimeout. -/
def Obligations.FirmwareCommandsComplete : Prop :=
  (∀ (m : MbxId) (j : Job) (k : Nat) (f : FwKind) (s : State), mayRun s m 0x0E01 j → fldLE j.payload 0 1 = k → k ≤ 4 → zeroAt j.payload 1 3 = true →
    s.mantel.fwStream = none → fldLE j.payload 4 4 = 0 → (j.payload.drop 8).length ≤ fwSize k → s.mantel.fw[k]? = some f →
    ∃ t, exec (.fwWrite m) s = .next (settle s (finish j.id .ok 0 [] t)) ∧
      (t.fwKind k).inactive.bytes = cellsWrite 0xFF [] 0 (j.payload.drop 8) ∧
      (t.fwKind k).inactive.copy = cellsWrite 0xFF [] 0 (j.payload.drop 8) ∧ (t.fwKind k).inactive.verified = false ∧
      (t.fwKind k).active = f.active ∧
      t.mantel.fwStream = some { mbx := j.mbx, kind := k, endAt := (j.payload.drop 8).length, lastAt := s.t } ∧ t.mem = s.mem) ∧
  (∀ (m : MbxId) (j : Job) (k : Nat) (f : FwKind) (s : State), mayRun s m 0x0E02 j → fldLE j.payload 0 1 = k → k ≤ 4 →
    fwOther s j.mbx = false → s.mantel.fw[k]? = some f →
    let ok := Config.imageOk k f.inactive.bytes && Config.imageOk k f.inactive.copy
    ∃ t, exec (.fwVerify m) s = .next (settle s (finish j.id (if ok then .ok else .imageBad) 0 [] t)) ∧
      (t.fwKind k).inactive.verified = ok ∧ (t.fwKind k).inactive.bytes = f.inactive.bytes ∧
      (t.fwKind k).inactive.copy = f.inactive.copy ∧ (t.fwKind k).active = f.active ∧ t.mem = s.mem) ∧
  (∀ (m : MbxId) (j : Job) (k : Nat) (f : FwKind) (s : State), mayRun s m 0x0E03 j → fldLE j.payload 0 1 = k → k ≤ 4 → s.mantel.fw[k]? = some f →
    f.inactive.verified = true →
    ∃ t, exec (.fwActivate m) s = .next (settle s (finish j.id .ok 0 [] t)) ∧ (t.fwKind k).activeB = !f.activeB ∧
      (t.fwKind k).sel0.count = (f.sel.count + 1) % 2 ^ 32 ∧ (t.fwKind k).sel1 = (t.fwKind k).sel0 ∧ t.mantel.fwStream = none ∧ t.mantel.measLog.length = s.mantel.measLog.length + 1 ∧
      t.mem = s.mem) ∧
  (∀ (x : FwStream) (s : State), s.mantel.fwStream = some x → x.lastAt + 60000000000 ≤ s.t →
    exec .fwStreamTimeout s = .next (settle s { s with mantel.fwStream := none })) ∧
  (∀ (m : MbxId) (j : Job) (k : Nat) (f : FwKind) (x : FwStream) (s : State), mayRun s m 0x0E01 j → fldLE j.payload 0 1 = k → k ≤ 4 →
    zeroAt j.payload 1 3 = true → s.mantel.fwStream = some x → x.mbx = j.mbx → x.kind = k → x.endAt = fldLE j.payload 4 4 →
    fldLE j.payload 4 4 + (j.payload.drop 8).length ≤ fwSize k → s.mantel.fw[k]? = some f →
    ∃ t, exec (.fwWrite m) s = .next (settle s (finish j.id .ok 0 [] t)) ∧
      (t.fwKind k).inactive.bytes = cellsWrite 0xFF f.inactive.bytes (fldLE j.payload 4 4) (j.payload.drop 8) ∧
      (t.fwKind k).inactive.copy = cellsWrite 0xFF f.inactive.copy (fldLE j.payload 4 4) (j.payload.drop 8) ∧
      (t.fwKind k).inactive.verified = false ∧ (t.fwKind k).active = f.active ∧
      t.mantel.fwStream = some { x with endAt := fldLE j.payload 4 4 + (j.payload.drop 8).length, lastAt := s.t } ∧ t.mem = s.mem) ∧
  (∀ (m : MbxId) (j : Job) (k : Nat) (f : FwKind) (s : State), mayRun s m 0x0E03 j → fldLE j.payload 0 1 = k → k ≤ 4 → s.mantel.fw[k]? = some f →
    f.inactive.verified = false →
    ∃ t, exec (.fwActivate m) s = .next (settle s (finish j.id .imageBad 0 [] t)) ∧ t.mantel.fw = s.mantel.fw ∧ t.mem = s.mem)

/-! ## The Damper (chapter 09) -/

/-- R256 to R258: parameters that meet the conditions of R257 are accepted for the next slot boundary; they wait in the order of acceptance, and
nothing else of the port changes.
R258: at the boundary after their slot accepted parameters take effect in order, and leave the port's list; clearing a
subscriber moves its frames to subscriber 0, whose shaper drains first if it was idle (R251), and removes its entry; clearing one
that holds no entry changes nothing.
Forms that complete here: damperPortSet, damperSvcSet, damperSubSet, damperParamApply, damperSubClear. -/
def Obligations.DamperParametersTakeEffect : Prop :=
  ((∀ (m : MbxId) (j : Job) (s : State), mayRun s m 0x0601 j →
      let d := leNat j.payload
      let x := accepted (s.dport (bit d 15) (bits d 7 0))
      bits d 214 208 = 0 → bits d 169 16 = 0 → bits d 14 8 = 0 → (bit d 15 = true → bits d 7 0 < 32) →
      bwBad (bits d 255 224) (bits d 223 215) = false → (bits d 191 170 = x.mask ∨ x.subs.any (·.idx != 0) = false) →
      portWorks s (bit d 15) (bits d 7 0) = true →
      exec (.damperPortSet m) s = .next (settle s (finish j.id .ok 0 []
        (addParam (leNat j.payload) (.port (leNat j.payload)) (startJob j s))))) ∧
    (∀ (m : MbxId) (j : Job) (s : State), mayRun s m 0x0602 j →
      let d := leNat j.payload
      bits d 86 80 = 0 → bits d 63 16 = 0 → bits d 14 11 = 0 → (bit d 15 = true → bits d 7 0 < 32) →
      bwBad (bits d 127 96) (bits d 95 87) = false → 1 ≤ bits d 79 64 → bits d 79 64 ≤ 4096 →
      portWorks s (bit d 15) (bits d 7 0) = true →
      exec (.damperSvcSet m) s = .next (settle s (finish j.id .ok 0 []
        (addParam (leNat j.payload) (.svc (leNat j.payload)) (startJob j s))))) ∧
    (∀ (m : MbxId) (j : Job) (s : State), mayRun s m 0x0603 j →
      let d := leNat j.payload
      let x := accepted (s.dport (bit d 15) (bits d 7 0))
      bits d 214 208 = 0 → bits d 126 112 = 0 → bits d 57 28 = 0 → bits d 14 8 = 0 → (bit d 15 = true → bits d 7 0 < 32) →
      bwBad (bits d 255 224) (bits d 223 215) = false → rqBad (bits d 207 184) (bits d 183 168) = false →
      bwBad (bits d 167 136) (bits d 135 127) = false → 1 ≤ bits d 111 96 → bits d 111 96 ≤ 4096 → bits d 27 16 ≤ 4094 →
      (bits d 27 16 = 0 → bits d 79 58 = 0) → bits d 79 58 &&& x.mask = bits d 79 58 → portWorks s (bit d 15) (bits d 7 0) = true →
      (bits d 27 16 = 0 ∨ x.subs.any (fun y => y.idx != 0 && y.idx != bits d 27 16 && y.key == bits d 79 58) = false) →
      (x.subs.any (·.idx == bits d 27 16) = true ∨ (x.subs.length + 1 < 4096 ∧ subEntries s < 65536)) →
      exec (.damperSubSet m) s = .next (settle s (finish j.id .ok 0 []
        (addParam (leNat j.payload) (.sub (leNat j.payload)) (startJob j s))))) ∧
    (∀ (d : Nat) (p : DParam) (x : DPort) (s : State), bit d 15 = false → s.dsax[bits d 7 0]? = some x →
      (addParam d p s).dport false (bits d 7 0) = { x with params := x.params ++ [(s.slot, p)] })) ∧
  ((∀ (tray : Bool) (p : Nat) (s : State),
      exec (.damperParamApply tray p) s = .next (settle s (modD tray p (fun x =>
        { ((x.params.filter fun q => q.1 < s.slot).map (·.2)).foldl (applyParam s.ns) x with
          params := x.params.filter fun q => !(q.1 < s.slot) }) s))) ∧
    (∀ (m : MbxId) (j : Job) (p i : Nat) (x : DPort) (s : State), mayRun s m 0x0604 j → fldLE j.payload 0 1 = p →
      fldLE j.payload 1 1 = 0 → fldLE j.payload 2 2 = i → 1 ≤ i → i < 4095 → s.dsax[p]? = some x → x.subs.any (·.idx == i) = true →
      ∃ t, exec (.damperSubClear m) s = .next (settle s (finish j.id .ok 0 [] t)) ∧
        (t.dport false p).subs = (if x.q.any (·.sub == i) && !x.q.any (·.sub == 0) && !x.gone.any (·.2 == 0) then
          (x.modSub 0 (fun y => { y with sh := y.sh.drain s.ns })).subs else x.subs).filter (·.idx != i) ∧
        (t.dport false p).q = x.q.filter (·.sub != i) ++ (x.q.filter (·.sub == i)).map (fun f => { f with sub := 0 }) ∧
        (∀ k, k ≠ p → t.dport false k = s.dport false k) ∧ t.dtray = s.dtray ∧ t.mem = s.mem) ∧
    (∀ (m : MbxId) (j : Job) (p i : Nat) (x : DPort) (s : State), mayRun s m 0x0604 j → fldLE j.payload 0 1 = p →
      fldLE j.payload 1 1 = 1 → p ≤ 31 → fldLE j.payload 2 2 = i → 1 ≤ i → i < 4095 → s.dtray[p]? = some x → x.subs.any (·.idx == i) = true →
      ∃ t, exec (.damperSubClear m) s = .next (settle s (finish j.id .ok 0 [] t)) ∧
        (t.dport true p).subs = (if x.q.any (·.sub == i) && !x.q.any (·.sub == 0) && !x.gone.any (·.2 == 0) then
          (x.modSub 0 (fun y => { y with sh := y.sh.drain s.ns })).subs else x.subs).filter (·.idx != i) ∧
        (t.dport true p).q = x.q.filter (·.sub != i) ++ (x.q.filter (·.sub == i)).map (fun f => { f with sub := 0 }) ∧
        (∀ k, k ≠ p → t.dport true k = s.dport true k) ∧ t.dsax = s.dsax ∧ t.mem = s.mem) ∧
    (∀ (m : MbxId) (j : Job) (p i : Nat) (s : State), mayRun s m 0x0604 j → fldLE j.payload 0 1 = p → fldLE j.payload 1 1 = 0 →
      fldLE j.payload 2 2 = i → 1 ≤ i → i < 4095 → (s.dport false p).subs.any (·.idx == i) = false →
      ∃ t, exec (.damperSubClear m) s = .next (settle s (finish j.id .ok 0 [] t)) ∧ (∀ k, t.dport false k = s.dport false k) ∧
        t.dtray = s.dtray ∧ t.mem = s.mem))

/-- R260, R491: DAMPER_STATS returns one 64-byte record for each subscriber asked for, at most 64 of them to the manager, of any port, and 31
to a tenant, of a port of its own; the read clears the largest Heat of each of them, and changes nothing else.
Forms that complete here: damperStats. -/
def Obligations.DamperStatsComplete : Prop :=
  (∀ (m : MbxId) (j : Job) (p tr : Nat) (ids : List Nat) (s : State), mayRun s m 0x0605 j → fldLE j.payload 0 1 = p → fldLE j.payload 1 1 = tr →
      (mbxTenant j.mbx).isNone = true → tr ≤ 1 → (tr = 1 → p ≤ 31) → 1 ≤ fldLE j.payload 4 2 → fldLE j.payload 4 2 ≤ 64 →
      fldLE j.payload 2 2 + fldLE j.payload 4 2 ≤ 4096 → ids = (List.range (fldLE j.payload 4 2)).map (fldLE j.payload 2 2 + ·) →
      exec (.damperStats m) s = .next (settle s (finish j.id .ok 0 (ids.flatMap (statsRec (s.dport (tr == 1) p)))
        (modD (tr == 1) p (fun d => ids.foldl (fun d i => d.modSub i fun x => { x with heatMax := 0 }) d) (startJob j s))))) ∧
  (∀ (q : Nat) (j : Job) (p tr : Nat) (ids : List Nat) (s : State), mayRun s (.tenant q) 0x0605 j → fldLE j.payload 0 1 = p →
      fldLE j.payload 1 1 = tr → j.mbx = .tenant q → tr ≤ 1 → (tr = 1 → p ≤ 31) →
      (if tr = 1 then (s.tray p).owner else (s.port p).owner) = some q → 1 ≤ fldLE j.payload 4 2 → fldLE j.payload 4 2 ≤ 31 →
      fldLE j.payload 2 2 + fldLE j.payload 4 2 ≤ 4096 → ids = (List.range (fldLE j.payload 4 2)).map (fldLE j.payload 2 2 + ·) →
      exec (.damperStats (.tenant q)) s = .next (settle s (finish j.id .ok 0 (ids.flatMap (statsRec (s.dport (tr == 1) p)))
        (modD (tr == 1) p (fun d => ids.foldl (fun d i => d.modSub i fun x => { x with heatMax := 0 }) d) (startJob j s))))) ∧
  (∀ (d : DPort) (i : Nat), (statsRec d i).length = 64) ∧
  (∀ (d : DPort) (ids : List Nat) (i : Nat), i ∈ ids →
      (ids.foldl (fun d i => d.modSub i fun x => { x with heatMax := 0 }) d).sub i = { d.sub i with heatMax := 0 }) ∧
  (∀ (d : DPort) (ids : List Nat) (i : Nat), i ∉ ids →
      (ids.foldl (fun d i => d.modSub i fun x => { x with heatMax := 0 }) d).sub i = d.sub i)

/-- R246, R301, R340, R364: when the transmit path of a Saxel port is free, the scheduler's choice among the frames whose uncoded slots have
credits goes to it whole, Flux-coded from READY_FULL, and its credits are spent; the frames not chosen stay; a tray port sends its
choice at once.
R246: an SCH message goes ahead of every other frame of its port.
Forms that complete here: frameSelect. -/
def Obligations.FramesAreScheduled : Prop :=
  ((∀ (p : Nat) (f : Frame) (d : DPort) (s : State), nextFrame s false p (readyPort s p (s.dport false p)) = (some f, d) → (s.port p).tx = [] →
      exec (.frameSelect false p) s = .next (settle s (postAnswer p f.out (modPort p (fun x => { x with
          tx := (if s.power.readyFull then fluxOut f.out else f.out).slots,
          going := x.going ++ (if watched s p f.out then [(none, f.out)] else []), sch := f.out.schMsg,
          cred := x.cred.modify (f.out.vc.code - 1) (· - f.out.rawSlots) }) 
        (modD false p (fun _ => keepQ (s.dport false p) (some f) d) s))))) ∧
    (∀ (p : Nat) (f : Frame) (s : State), (readyPort s p (s.dport false p)).q.find? (·.svc == 8) = some f → (s.port p).tx = [] →
      exec (.frameSelect false p) s = .next (settle s (postAnswer p f.out (modPort p (fun x => { x with
          tx := (if s.power.readyFull then fluxOut f.out else f.out).slots,
          going := x.going ++ (if watched s p f.out then [(none, f.out)] else []), sch := f.out.schMsg,
          cred := x.cred.modify (f.out.vc.code - 1) (· - f.out.rawSlots) }) 
        (modD false p (fun d => { d with q := d.q.erase f, gone := d.gone.filter fun x => !((d.q.erase f).any fun g => g.svc == x.1 && g.sub == x.2) }) s))))) ∧
    (∀ (p : Nat) (f : Frame) (d d0 d1 : DPort) (s : State), d0 = readyPort s p (s.dport false p) → d0.q.find? (·.svc == 8) = none →
      gatedPick s false p d0 = none → sendUngated s false p 65536 d0 = (some f, d) → d1 = takeFrame s f (chargeShapers s.ns f d) →
      (s.port p).tx = [] →
      exec (.frameSelect false p) s = .next (settle s (postAnswer p f.out (modPort p (fun x => { x with
          tx := (if s.power.readyFull then fluxOut f.out else f.out).slots,
          going := x.going ++ (if watched s p f.out then [(none, f.out)] else []), sch := f.out.schMsg,
          cred := x.cred.modify (f.out.vc.code - 1) (· - f.out.rawSlots) }) 
        (modD false p (fun _ => keepQ (s.dport false p) (some f) d1) s))))) ∧
    (∀ (p : Nat) (f : Frame) (q : List Frame) (s : State), f ∈ readyQ s p q → f ∈ q ∧ creditFor s p f.out = true) ∧
    (∀ (p : Nat) (f : Frame) (d : DPort) (s : State), nextFrame s true p (s.dport true p) = (some f, d) →
      ∃ t, exec (.frameSelect true p) s = .next t ∧ t.dtray = s.dtray.modify p (fun _ => d) ∧
        t.trays = s.trays.modify p (fun x => { x with sent := some f.out }) ∧ t.dsax = s.dsax ∧ t.sax = s.sax ∧ t.mem = s.mem)) ∧
  (∀ (tray : Bool) (p : Nat) (d : DPort) (f : Frame) (s : State), d.q.find? (·.svc == 8) = some f →
      nextFrame s tray p d = (some f, { d with q := dropPair 8 f.sub d.q }))

/-! ## The calendar (chapter 08) -/

/-- R238, R408: CAL_WRITE writes the shadow bank, CAL_COPY copies staged bytes to it and CAL_READ reads a bank; all leave the active
bank and the running calendar as they are.
Forms that complete here: calWrite, calCopy, calRead. -/
def Obligations.CalendarBankCommandsComplete : Prop :=
  (∀ (m : MbxId) (j : Job) (s : State), mayRun s m 0x0704 j → zeroAt j.payload 4 4 = true →
    fldLE j.payload 0 4 + (j.payload.drop 8).length ≤ 4194304 → s.cal.armed = none →
    ∃ t, exec (.calWrite m) s = .next (settle s (finish j.id .ok 0 [] t)) ∧
      shadowImg t.cal = cellsWrite 0 (shadowImg s.cal) (fldLE j.payload 0 4) (j.payload.drop 8) ∧
      activeImg t.cal = activeImg s.cal ∧ t.cal.running = s.cal.running ∧ t.mem = s.mem ∧ t.twin = s.twin) ∧
  (∀ (m : MbxId) (j : Job) (s : State), mayRun s m 0x0705 j → fldLE j.payload 0 8 + fldLE j.payload 8 4 ≤ 4194304 →
    s.flash.prof.sysNooks ≠ 0 → s.cal.armed = none →
    ∃ t, exec (.calCopy m) s = .next (settle s (finish j.id .ok 0 [] t)) ∧
      shadowImg t.cal = cellsCopy 0 s.twin.calImage (shadowImg s.cal) (fldLE j.payload 0 8) 0 (fldLE j.payload 8 4) ∧
      activeImg t.cal = activeImg s.cal ∧ t.cal.running = s.cal.running ∧ t.mem = s.mem ∧ t.twin = s.twin) ∧
  (∀ (m : MbxId) (j : Job) (s : State), mayRun s m 0x0709 j → fldLE j.payload 0 1 ≤ 1 → zeroAt j.payload 1 3 = true →
    fldLE j.payload 8 4 ≤ 4096 → fldLE j.payload 4 4 + fldLE j.payload 8 4 ≤ 4194304 →
    exec (.calRead m) s = .next (settle s (finish j.id .ok 0
      (cellsRead 0 (if fldLE j.payload 0 1 = 0 then activeImg s.cal else shadowImg s.cal) (fldLE j.payload 4 4) (fldLE j.payload 8 4))
      (startJob j s))))

/-- R230, R231, R238: CAL_ARM while no calendar is armed and time is good is decided by the checks of R231 alone: a fault answers
BAD_DESCRIPTOR with its DETAIL and changes nothing, and none arms the calendar; CAL_CANCEL disarms at least 512 ns before the swap;
CAL_STOP takes a slot at least 4,096 ahead.
Forms that complete here: calArm, calCancel, calStop. -/
def Obligations.CalendarArmingCompletes : Prop :=
  (∀ (m : MbxId) (j : Job) (s : State), mayRun s m 0x0706 j → calState s = true → s.cal.armed = none →
    (∀ d, calFault (startJob j s) (leNat j.payload) = some d →
      exec (.calArm m) s = .next (settle s (finish j.id .badDescriptor d [] (startJob j s)))) ∧
    (calFault (startJob j s) (leNat j.payload) = none →
      ∃ t, exec (.calArm m) s = .next (settle s (finish j.id .ok 0 [] t)) ∧ t.cal.armed = some (decCalHdr (leNat j.payload)) ∧
        activeImg t.cal = activeImg s.cal ∧ shadowImg t.cal = shadowImg s.cal ∧ t.cal.hdr = s.cal.hdr ∧ t.cal.running = s.cal.running ∧
        t.cal.stopAt = s.cal.stopAt ∧ t.mem = s.mem ∧ t.ember = s.ember)) ∧
  (∀ (m : MbxId) (j : Job) (h : CalHdr) (s : State), mayRun s m 0x0707 j → s.cal.armed = some h → s.ns + 512 ≤ 256 * h.swapSlot →
    ∃ t, exec (.calCancel m) s = .next (settle s (finish j.id .ok 0 [] t)) ∧ t.cal = { s.cal with isArmed := false } ∧ t.mem = s.mem) ∧
  (∀ (m : MbxId) (j : Job) (s : State), mayRun s m 0x0708 j → s.slot + 4096 ≤ fldLE j.payload 0 8 →
    ∃ t, exec (.calStop m) s = .next (settle s (finish j.id .ok 0 [] t)) ∧ t.cal = { s.cal with stopAt := some (fldLE j.payload 0 8) } ∧
      t.mem = s.mem)

/-- R231, R238, R239: at its swap slot the armed calendar becomes the active one, its bank the active one, and nothing is armed; in
LOCKED, MASTER or HOLDOVER it runs (that it does not run in another state is the model's choice, log entry 47); a stop that has come
due ends the running calendar.
R231, R235 to R237: a calendar event that is due acts once, and is marked as done: gates open and close, a template starts, a
step closes, channels refresh or scrub, the crossbar is shared anew, a mark is reported.
Forms that complete here: calSwap, calStopAct, gateOpen, gateClose, chainStart, calStepClose, refresh, scrub, xbarShare, mark. -/
def Obligations.CalendarEventsAct : Prop :=
  ((∀ (h : CalHdr) (s : State), s.cal.armed = some h → h.swapSlot ≤ s.slot → s.cal.stopAt = none → calState s = true →
      ∃ t, exec .calSwap s = .next t ∧ t.cal.running = true ∧ t.cal.hdr = h ∧ t.cal.armed = none ∧ activeImg t.cal = shadowImg s.cal ∧
        t.cal.gates = gatesAt (shadowImg s.cal) h (posAt h h.swapSlot) ∧ t.cal.done = [] ∧ t.mem = s.mem ∧ t.ember = s.ember) ∧
    (∀ (a : Nat) (s : State), s.cal.stopAt = some a → a ≤ s.slot → s.cal.armed = none →
      ∃ t, exec .calStopAct s = .next t ∧ t.cal.running = false ∧ t.cal.stopAt = none ∧ (s.cal.running = true → t.cal.gates = []) ∧
        t.mem = s.mem ∧ t.ember = s.ember)) ∧
  ((∀ (e k : Nat) (v : CalEv) (s : State), dueEvent s e 0 = some (k, v) →
      ∃ t, exec (.gateOpen e) s = .next t ∧ t.cal.gates = modWhere (fun g => v.gates g.tray g.port g.svc)
          (fun g => if v.kind = 0 then { g with open_ := true, maxFrame := v.arg } else { g with open_ := false }) s.cal.gates ∧
        (k, e) ∈ t.cal.done ∧ t.mem = s.mem ∧ t.dsax = s.dsax ∧ t.chains = s.chains) ∧
    (∀ (e k : Nat) (v : CalEv) (s : State), dueEvent s e 1 = some (k, v) →
      ∃ t, exec (.gateClose e) s = .next t ∧ t.cal.gates = modWhere (fun g => v.gates g.tray g.port g.svc)
          (fun g => if v.kind = 0 then { g with open_ := true, maxFrame := v.arg } else { g with open_ := false }) s.cal.gates ∧
        (k, e) ∈ t.cal.done ∧ t.mem = s.mem ∧ t.dsax = s.dsax ∧ t.chains = s.chains) ∧
    (∀ (e k : Nat) (v : CalEv) (s : State), dueEvent s e 2 = some (k, v) →
      exec (.chainStart e) s = .next (settle s (startTemplate v.target v.arg (actAt s k)
        { s with cal.done := (k, e) :: s.cal.done.filter fun x => decide (s.slot ≤ x.1 + 3) }))) ∧
    (∀ (e k : Nat) (v : CalEv) (tb : Table) (s : State), dueEvent s e 3 = some (k, v) →
      (s.tables.filter fun t => t.d.id == v.target && t.u.isSome) = [tb] → tb.closeWait = [] →
      ∃ t, exec (.calStepClose e) s = .next t ∧
        t.tables = (startClose tb.d.part tb.d.id { step := (tb.closed + 1) % 2 ^ 32 } s).tables ∧ (k, e) ∈ t.cal.done ∧ t.mem = s.mem) ∧
    (∀ (e k c : Nat) (v : CalEv) (x : Chan) (s : State), dueEvent s e 4 = some (k, v) → v.chans = [c] → s.chans[c]? = some x →
      x.refBusy = true →
      ∃ t, exec (.refresh e) s = .next t ∧ t.chans = s.chans.modify c (fun k => { k with winRef := some s.t }) ∧ (k, e) ∈ t.cal.done ∧
        t.mem = s.mem) ∧
    (∀ (e k c : Nat) (v : CalEv) (x : Chan) (s : State), dueEvent s e 4 = some (k, v) → v.chans = [c] → s.chans[c]? = some x →
      x.refBusy = false → x.refPend = false →
      exec (.refresh e) s = .next (settle s (dueRefresh c (modChan c (fun k => { k with winRef := some s.t })
        { s with cal.done := (k, e) :: s.cal.done.filter fun x => decide (s.slot ≤ x.1 + 3) })))) ∧
    (∀ (e k c : Nat) (v : CalEv) (s : State), dueEvent s e 5 = some (k, v) → v.chans = [c] →
      ∃ t, exec (.scrub e) s = .next t ∧ t.chans = s.chans.modify c (fun k => { k with scrubPend := true }) ∧ (k, e) ∈ t.cal.done ∧
        t.mem = s.mem) ∧
    (∀ (e k : Nat) (v : CalEv) (s : State), dueEvent s e 6 = some (k, v) →
      ∃ t, exec (.xbarShare e) s = .next t ∧ t.cal.xbar = (List.range 16).map (fun j => bits v.arg (4 * j + 3) (4 * j)) ∧
        (k, e) ∈ t.cal.done ∧ t.mem = s.mem ∧ t.chains = s.chains) ∧
    (∀ (e k : Nat) (v : CalEv) (s : State), dueEvent s e 7 = some (k, v) →
      exec (.mark e) s = .next (settle s (event 0x0005 true [] none [s.cal.hdr.calId, v.pos, v.target, v.arg]
        { s with cal.done := (k, e) :: s.cal.done.filter fun x => decide (s.slot ≤ x.1 + 3) }))))

/-! ## Ember time (chapter 08) -/

/-- R212, R219, R491: EMBER_SET steps the fabric master's time to the value given while no calendar runs, is armed or stops;
EMBER_LINK_ASYM stores the link's correction; EMBER_STATUS returns its record.
Forms that complete here: emberSet, emberLinkAsym, emberStatus. -/
def Obligations.EmberCommandsComplete : Prop :=
  (∀ (m : MbxId) (j : Job) (s : State), mayRun s m 0x0701 j → s.ember.isFm = true → s.cal.running = false → s.cal.armed = none →
    s.cal.stopAt = none → fldLE j.payload 0 10 < 2 ^ 80 →
    ∃ t, exec (.emberSet m) s = .next (settle s (finish j.id .ok 0 [] t)) ∧ t.ember.fx = fldLE j.payload 0 10 ∧
      t.ember.steps = (s.ember.steps + 1) % 2 ^ 16 ∧ t.ember.st = s.ember.st ∧ t.mem = s.mem ∧ t.cal = s.cal) ∧
  (∀ (m : MbxId) (j : Job) (s : State), mayRun s m 0x0702 j → zeroAt j.payload 1 3 = true →
    ∃ t, exec (.emberLinkAsym m) s = .next (settle s (finish j.id .ok 0 [] t)) ∧
      t.sax = s.sax.modify (fldLE j.payload 0 1) (fun x => { x with asym := signed 32 (fldLE j.payload 4 4) }) ∧ t.ember = s.ember ∧
      t.mem = s.mem) ∧
  (∀ (m : MbxId) (j : Job) (s : State), mayRun s m 0x0703 j →
    ∃ b, exec (.emberStatus m) s = .next (settle s (finish j.id .ok 0 b (startJob j s))) ∧ b.length = 32 ∧
      b.take 2 = toLE 1 s.ember.st.code ++ toLE 1 (s.ember.up.getD 255))

/-- R218, R219: the timers and messages of the exchange.
R214, R225, R226: an edge of EMBER_PPS_IN is recorded, and an edge out of its window disqualifies the input; so do 1.1 s without
one; EMBER_PPS_OUT rises at whole seconds and falls 100 us later.
Forms that complete here: syncExchangeTimer, syncReq, syncRsp, announceTimer, announce, upstreamLost, emberDelayCheck, ppsEdge,
ppsTimeout, ppsOutPulse, ppsOutEnd. -/
def Obligations.EmberEventsAct : Prop :=
  ((∀ (p : Nat) (x : SaxPort) (s : State), s.ember.up = some p → s.ember.syncAt + 1000000 ≤ s.t → linkAlive s p = true → s.sax[p]? = some x →
      ∃ t, exec .syncExchangeTimer s = .next t ∧ (t.port p).syncOpen = true ∧
        (t.port p).syncSeq = (x.syncSeq + 1) % 2 ^ 16 ∧ t.ember = { s.ember with syncAt := s.t } ∧ t.mem = s.mem) ∧
    (∀ (p t2 seq steps : Nat) (m : PktMsg) (s : State), decSync 0 m.body = some (0, 0, seq, steps) → m.rsv = false → (s.port p).kind < 2 →
      exec (.syncReq p m t2) s = .next (settle s (sendSch p (encSync 1 s.ember.st.code s.ember.steps seq 0 t2) (eatPkt p .sch m s)))) ∧
    (∀ (p t2 : Nat) (m : PktMsg) (s : State), decSync 0 m.body = none →
      exec (.syncReq p m t2) s = .next (settle s (answerOn p m .badDescriptor (eatPkt p .sch m s)))) ∧
    (∀ (p t2 t3 t4 seq steps : Nat) (m : PktMsg) (x : SaxPort) (s : State), decSync 1 m.body = some (t2, t3, seq, steps) → m.rsv = false →
      s.ember.up = some p → s.sax[p]? = some x → x.syncOpen = true → x.syncSeq = seq →
      ∃ t, exec (.syncRsp p m t4) s = .next t ∧ (t.port p).syncOpen = false ∧ (t.port p).upSteps = some steps ∧
        t.ember.theta = (((t2 : Int) - x.t1) - ((t4 : Int) - t3) - x.asym) / 2 ∧
        (t.port p).delay = (((t4 : Int) - x.t1) - ((t3 : Int) - t2)) / 2 ∧ t.ember.upAt = s.t ∧ t.mem = s.mem) ∧
    (∀ (s : State), s.ember.annAt + 1000000 ≤ s.t → s.power.readyBasic = true →
      ∃ t, exec .announceTimer s = .next t ∧ t.ember = (elect { s with ember.annAt := s.t }).ember ∧ t.mem = s.mem ∧ t.cal = s.cal) ∧
    (∀ (p : Nat) (m : PktMsg) (a : Ann) (s : State), decAnn m.body = some a → m.rsv = false → (s.port p).kind = 1 → s.ember.up ≠ some p →
      exec (.announce p m) s = .next (settle s (elect (modPort p (fun x => { x with ann := some { a with at_ := s.t } }) (eatPkt p .sch m s))))) ∧
    (∀ (p : Nat) (s : State), s.ember.up = some p → s.ember.upAt + 3000000 ≤ s.t →
      exec .upstreamLost s = .next (settle s (elect (modPort p (fun x => { x with ann := none, syncOpen := false }) s)))) ∧
    (∀ (ds : List Nat) (s : State), s.ember.delayAt + 1000000 ≤ s.t →
      exec (.emberDelayCheck ds) s = .next (settle s { s with ember := { s.ember with delays := ds, delayAt := s.t } }))) ∧
  ((∀ (s : State), s.ember.ppsEdges = [] →
      exec .ppsEdge s = .next (settle s { s with ember.ppsEdges := [s.ns] })) ∧
    (∀ (x : Nat) (s : State), s.ember.ppsEdges = [x] → x + 1000010000 < s.ns →
      exec .ppsEdge s = .next (settle s (ppsBadNow { s with ember.ppsEdges := [s.ns, x] }))) ∧
    (∀ (x : Nat) (s : State), s.ember.ppsEdges = [x] → x + 999990000 ≤ s.ns → s.ns ≤ x + 1000010000 → s.ember.ppsEver = false →
      s.ember.ppsGood = 0 → s.ember.ppsQual = false → s.ember.isFm = false →
      exec .ppsEdge s = .next (settle s { s with ember := { s.ember with ppsEdges := [s.ns, x], ppsGood := 1 } })) ∧
    (∀ (x : Nat) (r : List Nat) (s : State), s.ember.ppsEdges = x :: r → x + 1100000000 ≤ s.ns →
      exec .ppsTimeout s = .next (settle s (ppsBadNow { s with ember.ppsEdges := [] }))) ∧
    (∀ (s : State), calState s = true → s.ember.fx % (1000000000 * 65536) ≤ 2 * 65536 → s.power.ppsOut = false →
      exec .ppsOutPulse s = .next (settle s { s with power := { s.power with ppsOut := true, ppsOutAt := s.t } })) ∧
    (∀ (s : State), s.power.ppsOut = true → s.power.ppsOutAt + 100000 ≤ s.t →
      exec .ppsOutEnd s = .next (settle s { s with power.ppsOut := false })))

/-! ## Saxel links (chapter 13) -/

/-- R332, R333: a port steps from DISABLED to DETECT, EQUALIZE, ALIGN and CONFIG, and a CONFIG record that agrees names the peer
and grants its credits; one that does not is reported, and CONFIG is repeated every 100 ms.
R331, R332: lanes that have trained wait for a step; a step stops new flits, and when it ends the trained lanes have joined, the
rate is the port's aim and unacknowledged flits are replayed.
Forms that complete here: detectProbe, peerDetected, equalizeConverged, codewordLock, config, configRepeat, linkUp, laneTrained, portStep,
portStepEnd. -/
def Obligations.LinkBringUpAdvances : Prop :=
  ((∀ (p : Nat) (s : State), portWorks s false p = true → s.power.started = true → (s.port p).st = .disabled → inReset s = false →
      s.power.refLost.getD (p / 128) false = false →
      exec (.detectProbe p) s = .next (settle s (modPort p (fun x => { x with st := .detect }) s))) ∧
    (∀ (p : Nat) (s : State), portWorks s false p = true → (s.port p).st = .detect → inReset s = false →
      s.power.refLost.getD (p / 128) false = false →
      exec (.peerDetected p) s = .next (settle s (modPort p (fun x => { x with st := .equalize, rate := 2, lanes := [p] }) s))) ∧
    (∀ (p : Nat) (s : State), (s.port p).st = .equalize →
      exec (.equalizeConverged p) s = .next (settle s (modPort p (fun x => { x with st := .align }) s))) ∧
    (∀ (p : Nat) (s : State), (s.port p).st = .align →
      exec (.codewordLock p) s = .next (settle s (modPort p (fun x => { x with st := .config, cfg := some (configOf s p), cfgAt := s.t, mismatch := false }) s))) ∧
    (∀ (p : Nat) (r : ConfigRec) (s : State), (s.port p).st = .config → configAgrees (s.port p).kind r = true →
      exec (.config p r) s = .next (settle s (modPort p (fun x => { x with
        peer := some r, mismatch := false, cred := r.credits, cfgAt := s.t }) s))) ∧
    (∀ (p : Nat) (r : ConfigRec) (s : State), (s.port p).st = .config → configAgrees (s.port p).kind r = false →
      exec (.config p r) s = .next (settle s (event 0x0013 true [] none [p] (modPort p (fun x => { x with
        peer := none, mismatch := true, cfgAt := s.t }) s)))) ∧
    (∀ (p : Nat) (s : State), (s.port p).st = .config → (s.port p).mismatch = true → (s.port p).cfgAt + 100000000 ≤ s.t →
      exec (.configRepeat p) s = .next (settle s (event 0x0013 true [] none [p] (modPort p (fun x => { x with
        cfg := some (configOf s p), cfgAt := s.t }) s)))) ∧
    (∀ (p : Nat) (x : SaxPort) (s : State), s.sax[p]? = some x → x.st = .config → x.peer.isSome = true → x.mismatch = false →
      ∃ t, exec (.linkUp p) s = .next t ∧ (t.port p).st = .up ∧ (t.port p).lanes = [p] ∧ (t.port p).rate = 2 ∧ (t.port p).txSeq = 0 ∧
        (t.port p).cred = x.cred ∧ (t.port p).peer = x.peer ∧ t.mem = s.mem ∧ t.maps = s.maps)) ∧
  ((∀ (p l : Nat) (s : State), (s.port p).st = .up → (portLanes s p).contains l = true → (s.port p).lanes.contains l = false →
      (s.port p).trained.contains l = false →
      exec (.laneTrained p l) s = .next (settle s (modPort p (fun x => { x with trained := x.trained ++ [l] }) s))) ∧
    (∀ (p : Nat) (s : State), (s.port p).st = .up → (s.port p).stepping = false → (s.port p).trained ≠ [] →
      exec (.portStep p) s = .next (settle s (modPort p (fun x => { x with
        stepping := true, stepAt := s.t, retrains := x.retrains + 1 }) s))) ∧
    (∀ (p : Nat) (x : SaxPort) (s : State), s.sax[p]? = some x → x.stepping = true →
      ∃ t, exec (.portStepEnd p) s = .next t ∧ (t.port p).stepping = false ∧ (t.port p).rate = targetRate s p ∧
        (t.port p).lanes = (portLanes s p).filter (fun l => x.lanes.contains l || x.trained.contains l) ∧ (t.port p).trained = [] ∧
        (t.port p).replaying = x.replay ∧ t.mem = s.mem ∧ t.dsax = s.dsax))

/-- R308, R334, R337, R339, R347, R446: what takes a link down or retrains it. A link that goes down is in DETECT, forgets its peer, its
session, what it had sent and received and its credits; its caching agents are crashed; a message that was not delivered is answered
NO_ACCESS. A lane that loses lock or exceeds the adaptation limit leaves its port, which retrains, and a port of one lane keeps it.
A retrain that succeeds resumes replay, one that fails takes the link down; an ACK that stands still for 20 us or eight replays from
it, and a handshake not finished in 1 s, retrain the link; 1 ms without a heartbeat crashes the agent.
Forms that complete here: lockLossTimeout, lccShutdown, laneLockLoss, adaptationWindow, retrainDone, ackStallTimeout, handshakeTimeout,
heartbeatTimeout. -/
def Obligations.LinksGoDownAndRetrain : Prop :=
  (∀ (p : Nat) (x : SaxPort) (s : State), s.sax[p]? = some x → linkAlive s p = true →
    ∃ t, exec (.lockLossTimeout p) s = .next t ∧ (t.port p).st = .detect ∧ (t.port p).peer = none ∧ (t.port p).admitted = false ∧
      (t.port p).caching = false ∧ (t.port p).sess = {} ∧ (t.port p).replay = [] ∧ (t.port p).replaying = [] ∧ (t.port p).rx = [] ∧
      (t.port p).tx = [] ∧ (t.port p).going = [] ∧ (t.port p).cred = List.replicate 7 0 ∧ (t.port p).downs = x.downs + 1 ∧
      t.dir.agents = modWhere (fun g => g.tray == false && g.port == p) (fun g => { g with crashed := true }) s.dir.agents ∧
      t.chains = s.chains ∧ t.maps = s.maps ∧ t.ten = s.ten) ∧
  (∀ (p : Nat) (x : SaxPort) (s : State), s.sax[p]? = some x → linkAlive s p = true →
    ∃ t, exec (.lccShutdown p) s = .next t ∧ (t.port p).st = .detect ∧ (t.port p).peer = none ∧ (t.port p).admitted = false ∧
      (t.port p).caching = false ∧ (t.port p).sess = {} ∧ (t.port p).replay = [] ∧ (t.port p).replaying = [] ∧ (t.port p).rx = [] ∧
      (t.port p).tx = [] ∧ (t.port p).going = [] ∧ (t.port p).cred = List.replicate 7 0 ∧ (t.port p).downs = x.downs + 1 ∧
      t.dir.agents = modWhere (fun g => g.tray == false && g.port == p) (fun g => { g with crashed := true }) s.dir.agents ∧
      t.chains = s.chains ∧ t.maps = s.maps ∧ t.ten = s.ten) ∧
  (∀ (p l : Nat) (x : SaxPort) (s : State), s.sax[p]? = some x → x.st = .up → x.lanes.contains l = true →
    ∃ t, exec (.laneLockLoss p l) s = .next t ∧ (t.port p).st = .retrain ∧
      (t.port p).lanes = (if x.lanes.length ≤ 1 then x.lanes else x.lanes.erase l) ∧
      (t.port p).retrains = x.retrains + 1 ∧ (t.port p).replay = x.replay ∧ (t.port p).peer = x.peer ∧ t.mem = s.mem ∧ t.dsax = s.dsax) ∧
  (∀ (p l c r b : Nat) (s : State), c * 10000 ≤ r → b < 4 →
    exec (.adaptationWindow p l c r b) s = .next (settle s (modPort p (fun x => { x with corrected := x.corrected + c }) s))) ∧
  (∀ (p l c r b : Nat) (x : SaxPort) (s : State), (r < c * 10000 ∨ 4 ≤ b) → s.sax[p]? = some x → x.st = .up → x.lanes.contains l = true →
    ∃ t, exec (.adaptationWindow p l c r b) s = .next t ∧ (t.port p).st = .retrain ∧
      (t.port p).lanes = (if x.lanes.length ≤ 1 then x.lanes else x.lanes.erase l) ∧
      (t.port p).retrains = x.retrains + 1 ∧ (t.port p).corrected = x.corrected + c ∧ (t.port p).replay = x.replay ∧ t.mem = s.mem ∧
      t.dsax = s.dsax) ∧
  (∀ (p : Nat) (s : State), (s.port p).st = .retrain →
    exec (.retrainDone p true) s = .next (settle s (openHandshake p (modPort p (fun x => { x with
      st := .up, replaying := x.replay, nakRuns := 0, ackAt := s.t }) s)))) ∧
  (∀ (p : Nat) (x : SaxPort) (s : State), s.sax[p]? = some x → x.st = .retrain →
    ∃ t, exec (.retrainDone p true) s = .next t ∧ (t.port p).st = .up ∧ (t.port p).replaying = x.replay ∧ (t.port p).lanes = x.lanes ∧
      (t.port p).ackAt = s.t ∧ t.mem = s.mem) ∧
  (∀ (p : Nat) (x : SaxPort) (s : State), s.sax[p]? = some x → x.st = .retrain →
    ∃ t, exec (.retrainDone p false) s = .next t ∧ (t.port p).st = .detect ∧ (t.port p).peer = none ∧ (t.port p).admitted = false ∧
      (t.port p).caching = false ∧ (t.port p).sess = {} ∧ (t.port p).replay = [] ∧ (t.port p).replaying = [] ∧ (t.port p).rx = [] ∧
      (t.port p).tx = [] ∧ (t.port p).going = [] ∧ (t.port p).cred = List.replicate 7 0 ∧ (t.port p).downs = x.downs + 1 ∧
      t.dir.agents = modWhere (fun g => g.tray == false && g.port == p) (fun g => { g with crashed := true }) s.dir.agents ∧
      t.chains = s.chains ∧ t.maps = s.maps ∧ t.ten = s.ten) ∧
  (∀ (p : Nat) (s : State), (s.port p).st = .up → (s.port p).replay ≠ [] →
    ((s.port p).ackAt + 20000 ≤ s.t ∨ 8 ≤ (s.port p).nakRuns) →
    exec (.ackStallTimeout p) s = .next (settle s (modPort p (fun x => { x with st := .retrain, retrains := x.retrains + 1 }) s))) ∧
  (∀ (p : Nat) (s : State), (s.port p).st = .up → (s.port p).sess.phase ≠ 3 → (s.port p).sess.startAt + 1000000000 ≤ s.t →
    exec (.handshakeTimeout p) s = .next (settle s (modPort p (fun x => { x with
      st := .retrain, retrains := x.retrains + 1, sess := { startAt := s.t } }) s))) ∧
  (∀ (p : Nat) (s : State), (s.port p).alive + 1000000 ≤ s.t →
    ∃ t, exec (.heartbeatTimeout p) s = .next t ∧
      t.dir.agents = modWhere (fun g => g.tray == false && g.port == p) (fun g => { g with crashed := true }) s.dir.agents ∧
      (∀ g ∈ s.dir.agents, g.tray = false → g.port = p → g.crashed = false → g.leaving = false → (t.port p).admitted = false) ∧
      (t.port p).st = (s.port p).st ∧ t.chains = s.chains ∧ t.maps = s.maps ∧ t.mem = s.mem) ∧
  (∀ (p : Nat) (f : Frame) (m : PktMsg) (s : State), (s.port p).going = [] → (s.dport false p).q = [f] → f.out = .pkt .msg m →
    (m.opc = 1 ∨ m.opc = 2 ∨ m.opc = 4 ∨ m.opc = 6) → (msgTrk s m.src m.txn).elim true (·.own.isNone) = true →
    failQueue p s = answerMsg m .noAccess (modPort p (fun x => { x with going := [] }) (modD false p (fun d => { d with
      q := [], visit := none, gone := (d.gone ++ (d.q.filter (·.svc < 8)).map fun f => (f.svc, f.sub)).eraseDups }) s)))

/-- R335, R338: with nothing to replay and no back-pressure, a flit carries the next slots of the frame that waits, 14 of them in a
session once FINISH_RSP has left (R348) and 15 before, takes the next SEQ and stays unacknowledged; with no frame, or 512 flits unacknowledged, it is IDLE; a flit
to be replayed goes first.
Forms that complete here: flitSend. -/
def Obligations.FlitSendActs : Prop :=
  (∀ (p : Nat) (x : SaxPort) (s : State), s.sax[p]? = some x → x.st = .up → s.power.emergency = false → x.replaying = [] → x.stepping = false →
    x.sch = none → x.tx ≠ [] → x.replay.length < 512 →
    ∃ t, exec (.flitSend p) s = .next t ∧ (t.port p).tx = x.tx.drop (if x.sess.phase = 3 ∧ x.sess.finTx = false then 14 else 15) ∧
      (t.port p).sess.txCount = x.sess.txCount + b2n (x.sess.phase == 3 && !x.sess.finTx) ∧ (t.port p).txSeq = (x.txSeq + 1) % 4096 ∧
      (t.port p).replay.length = x.replay.length + 1 ∧ (t.port p).flits = x.flits + 1 ∧ (t.port p).rx = x.rx ∧ (t.port p).cred = x.cred ∧
      t.mem = s.mem ∧ t.dsax = s.dsax) ∧
  (∀ (p : Nat) (x : SaxPort) (s : State), s.sax[p]? = some x → x.st = .up → s.power.emergency = false → x.replaying = [] → x.stepping = false →
    (x.tx = [] ∨ 512 ≤ x.replay.length) →
    ∃ t, exec (.flitSend p) s = .next t ∧ (t.port p).tx = x.tx ∧ (t.port p).txSeq = x.txSeq ∧ (t.port p).out.isSome = true ∧
      (t.port p).replay = x.replay ∧ (t.port p).flits = x.flits ∧ (t.port p).sess.txCount = x.sess.txCount + b2n (x.sess.phase == 3 && !x.sess.finTx) ∧
      t.mem = s.mem ∧ t.dsax = s.dsax) ∧
  (∀ (p : Nat) (x : SaxPort) (f : TxFlit) (r : List TxFlit) (s : State), s.sax[p]? = some x → x.st = .up → s.power.emergency = false →
    x.replaying = f :: r → x.stepping = false →
    ∃ t, exec (.flitSend p) s = .next t ∧ (t.port p).replaying = r ∧ (t.port p).out = some f.flit ∧ (t.port p).txSeq = x.txSeq ∧
      (t.port p).replay = x.replay ∧ (t.port p).tx = x.tx ∧ t.mem = s.mem ∧ t.dsax = s.dsax)

/-- R336, R338: a flit that fails its CRC, or FEC, asks for a NAK and nothing of it is taken; a PAYLOAD flit before the session that
passes and carries the SEQ expected adds its slots to the receive buffer; one out of sequence asks for a NAK.
Forms that complete here: flitReceive. -/
def Obligations.FlitReceiveActs : Prop :=
  (∀ (p : Nat) (f : Flit) (s : State), (s.port p).st = .up → s.power.emergency = false →
    (f.fecOk = false ∨ crc64 (flitBytes f.hdr f.slots) ≠ f.crc) →
    exec (.flitReceive p f) s = .next (settle s (modPort p (fun x => { x with nak := true }) s))) ∧
  (∀ (p : Nat) (f : Flit) (x : SaxPort) (s : State), s.sax[p]? = some x → x.st = .up → s.power.emergency = false → f.fecOk = true →
    crc64 (flitBytes f.hdr f.slots) = f.crc → bits f.hdr 10 8 = 0 → bits f.hdr 63 52 = (x.rxSeq + 1) % 4096 → bit f.hdr 7 = false →
    x.sess.rxEnc = false →
    ∃ t, exec (.flitReceive p f) s = .next t ∧ (t.port p).rx = x.rx ++ f.slots ∧ (t.port p).rxSeq = bits f.hdr 63 52 ∧
      (t.port p).nak = false ∧ (t.port p).tx = x.tx ∧ t.mem = s.mem ∧ t.dsax = s.dsax) ∧
  (∀ (p : Nat) (f : Flit) (x : SaxPort) (s : State), s.sax[p]? = some x → x.st = .up → s.power.emergency = false → f.fecOk = true →
    crc64 (flitBytes f.hdr f.slots) = f.crc → bits f.hdr 10 8 = 0 → bits f.hdr 63 52 ≠ (x.rxSeq + 1) % 4096 →
    ∃ t, exec (.flitReceive p f) s = .next t ∧ (t.port p).rx = x.rx ∧ (t.port p).rxSeq = x.rxSeq ∧ (t.port p).nak = true ∧ t.mem = s.mem)

/-- R252, R338, R347 to R349, R374: a replay starts again; a message of SPDM that the policer lets pass acts: the handshake advances, a session is established and ended; keys are updated;
responses time out; hellos are sent; port commands answer.
Forms that complete here: replayTimeout, spdm, spdmResponseTimeout, keyUpdateStart, helloTimer, portStatus, portRetrain. -/
def Obligations.SessionsAct : Prop :=
  (∀ (p a : Nat) (s : State), (s.port p).lastNak = some a → (s.port p).st = .up → (s.port p).replay ≠ [] → (s.port p).txAck = a →
    (s.port p).nakAt + 2000 ≤ s.t → exec (.replayTimeout p) s = .next (settle s (startReplay p a s))) ∧
  (∀ (p h : Nat) (x : SaxPort) (s s1 : State), s.sax[p]? = some x → x.st = .up → police p (peerId s p) (rawSpdm s p) true s = (true, h, s1) → x.sess.phase ≤ 1 →
    ∃ t, exec (.spdm p .negotiate) s = .next t ∧ (t.port p).sess.phase = 1 ∧ (t.port p).st = .up ∧ t.mem = s.mem ∧ t.ten = s.ten) ∧
  (∀ (p h : Nat) (x : SaxPort) (s s1 : State), s.sax[p]? = some x → x.st = .up → police p (peerId s p) (rawSpdm s p) true s = (true, h, s1) → x.sess.phase = 1 → s.power.noIdentity = false →
    s.power.trngFail = false → x.owner.elim (sysShare s1) (inWindow s1) = true →
    ∃ t, exec (.spdm p .keyExchange) s = .next t ∧ (t.port p).sess.phase = 2 ∧ (t.port p).st = .up ∧ t.mem = s.mem) ∧
  (∀ (p h : Nat) (x : SaxPort) (s s1 : State), s.sax[p]? = some x → x.st = .up → police p (peerId s p) (rawSpdm s p) true s = (true, h, s1) → x.sess.phase = 2 →
    x.owner.elim (sysShare s1) (inWindow s1) = true →
    ∃ t, exec (.spdm p (.finish true)) s = .next t ∧ (t.port p).sess.phase = 3 ∧ (t.port p).admitted = (x.kind == 1 || x.kind == 2) ∧
      (t.port p).sess.txCount = 0 ∧ (t.port p).sess.rxCount = 0 ∧ t.power.draws = s.power.draws + 1 ∧ t.ten.nextKey = s.ten.nextKey + 2 ∧
      t.mem = s.mem) ∧
  (∀ (p h : Nat) (x : SaxPort) (s s1 : State), s.sax[p]? = some x → x.st = .up → police p (peerId s p) (rawSpdm s p) true s = (true, h, s1) →
    ∃ t, exec (.spdm p .endSession) s = .next t ∧ (t.port p).sess.phase = 0 ∧ (t.port p).admitted = false ∧ (t.port p).st = .up ∧
      t.mem = s.mem) ∧
  (∀ (p h : Nat) (x : SaxPort) (s s1 : State), s.sax[p]? = some x → x.st = .up → police p (peerId s p) (rawSpdm s p) true s = (true, h, s1) → x.sess.phase = 3 → x.sess.updating = true →
    s.power.trngFail = false →
    ∃ t, exec (.spdm p .keyUpdateAck) s = .next t ∧ (t.port p).sess.updating = false ∧ (t.port p).sess.txPhase = !x.sess.txPhase ∧
      (t.port p).sess.txCount = 0 ∧ t.mem = s.mem) ∧
  (∀ (p a : Nat) (x : SaxPort) (s : State), s.sax[p]? = some x → x.sess.reqAt = some a → a + 100000000 ≤ s.t →
    ∃ t, exec (.spdmResponseTimeout p) s = .next t ∧ (t.port p).sess.phase = 0 ∧ (t.port p).admitted = false ∧ (t.port p).st = x.st ∧
      t.mem = s.mem) ∧
  (∀ (p : Nat) (x : SaxPort) (s : State), s.sax[p]? = some x → x.sess.phase = 3 → x.sess.updating = false → s.power.trngFail = false →
    (2 ^ 31 ≤ x.sess.txCount ∨ x.sess.keyAt + 60000000000 ≤ s.t) →
    ∃ t, exec (.keyUpdateStart p) s = .next t ∧ (t.port p).sess.updating = true ∧ (t.port p).sess.reqAt = some s.t ∧
      (t.port p).sess.txKey = x.sess.txKey ∧ t.mem = s.mem) ∧
  (∀ (p : Nat) (s : State), carriesHello s p = true → (s.port p).helloAt + 1000000000 ≤ s.t →
    exec (.helloTimer p) s = .next (settle s (sendHello p s))) ∧
  (∀ (m : MbxId) (j : Job) (s : State), mayRun s m 0x0504 j → fldLE j.payload 1 1 = 0 → (mbxTenant j.mbx).isNone = true →
    ∃ b, exec (.portStatus m) s = .next (settle s (finish j.id .ok 0 b (startJob j s))) ∧ b.length = 32) ∧
  (∀ (m : MbxId) (j : Job) (s : State), mayRun s m 0x0505 j → fldLE j.payload 1 1 = 0 → (s.port (fldLE j.payload 0 1)).st = .up →
    ∃ t, exec (.portRetrain m) s = .next (settle s (finish j.id .ok 0 [] t)) ∧ t.sax = s.sax.modify (fldLE j.payload 0 1)
        (fun x => if x.st == .up then { x with st := .retrain, retrains := x.retrains + 1 } else x) ∧ t.mem = s.mem) ∧
  (∀ (m : MbxId) (j : Job) (s : State), mayRun s m 0x0505 j → fldLE j.payload 1 1 = 1 → fldLE j.payload 0 1 ≤ 31 →
    ∃ t, exec (.portRetrain m) s = .next (settle s (finish j.id .ok 0 [] t)) ∧ t.trays = s.trays.modify (fldLE j.payload 0 1)
        (fun x => if x.up then { x with retrains := x.retrains + 1 } else x) ∧ t.sax = s.sax ∧ t.mem = s.mem) ∧
  (∀ (m : MbxId) (j : Job) (s : State), mayRun s m 0x0504 j → fldLE j.payload 1 1 = 1 → fldLE j.payload 0 1 ≤ 31 →
    (mbxTenant j.mbx).isNone = true →
    ∃ b, exec (.portStatus m) s = .next (settle s (finish j.id .ok 0 b (startJob j s))) ∧ b.length = 32) ∧
  (∀ (p : Nat) (j : Job) (s : State), mayRun s (.tenant p) 0x0504 j → j.mbx = .tenant p → fldLE j.payload 1 1 = 0 →
    (s.port (fldLE j.payload 0 1)).owner = some p →
    ∃ b, exec (.portStatus (.tenant p)) s = .next (settle s (finish j.id .ok 0 b (startJob j s))) ∧ b.length = 32) ∧
  (∀ (p h : Nat) (x : SaxPort) (s s1 : State), s.sax[p]? = some x → x.st = .up → police p (peerId s p) (rawSpdm s p) true s = (true, h, s1) → x.sess.phase = 3 → s.power.trngFail = false →
    ∃ t, exec (.spdm p .keyUpdate) s = .next t ∧ (t.port p).sess.rxNext = some s.ten.nextKey ∧ (t.port p).sess.rxKey = x.sess.rxKey ∧
      (t.port p).sess.phase = 3 ∧ t.ten.nextKey = s.ten.nextKey + 1 ∧ t.mem = s.mem) ∧
  (∀ (p txn h : Nat) (s s1 : State), (s.port p).st = .up → police p (peerId s p) (rawSpdm s p) true s = (true, h, s1) →
    exec (.spdm p (.getMeasurements txn)) s = .next (settle s (sendSpdm p txn (s1.mantel.mr.flatMap id) s1)))

/-! ## Directory slices and memory (chapter 11) -/

/-- R281, R289, R291, R298: a load, store or atomic of an accelerator that passes the steps of R289 takes a tracker and reaches
its slice as the request it is; RD_SHARED, RD_OWN and UPGRADE need the caching role, and outside a coherent extent are served as
RD_NC.
R289, R281, R28: a load from an endpoint that is not the admitted one of its port is answered NO_ACCESS; one with a reserved
field or a wrong address BAD_DESCRIPTOR; one whose link carries no REQ BAD_DESCRIPTOR with MSG_CMP, in the request's service and EPOCH; one that passes those steps
but finds no tracker waits, and changes nothing.
Forms that complete here: rdShared, rdOwn, upgrade, rdNc, wrLine, wrMask, atomic. -/
def Obligations.LineRequestsReachTheirSlice : Prop :=
  (∀ (p h : Nat) (m : LineMsg) (map : MapV) (e : Extent) (s s2 : State),
      let go := fun (k : ReqKind) => Host.Outcome.next (φ := Fault) (ρ := Refusal) (settle s (arrive (sliceReq s k p h s2.mem.nextTrk m e) (takeTrk (lineTracker s p h m) s2).2))
      let rd := fun (k : ReqKind) => go (if e.coh then k else .rdNc)
      (linePasses s .rdShared 1 p m map h e s2 → m.addr % 64 = 0 → (s.port p).caching = true → exec (.rdShared p m) s = rd .rdShared) ∧
      (linePasses s .rdOwn 2 p m map h e s2 → m.addr % 64 = 0 → (s.port p).caching = true → exec (.rdOwn p m) s = rd .rdOwn) ∧
      (linePasses s .upgrade 3 p m map h e s2 → m.addr % 64 = 0 → (s.port p).caching = true → exec (.upgrade p m) s = rd .upgrade) ∧
      (linePasses s .rdNc 4 p m map h e s2 → m.addr % 64 = 0 → exec (.rdNc p m) s = go .rdNc) ∧
      (linePasses s .wrLine 5 p m map h e s2 → m.addr % 64 = 0 → exec (.wrLine p m) s = go .wrLine) ∧
      (linePasses s .wrMask 6 p m map h e s2 → m.addr % 64 = 0 → m.mask ≠ 0 → exec (.wrMask p m) s = go .wrMask) ∧
      (linePasses s .atomic 7 p m map h e s2 → atomicBad m = false → exec (.atomic p m) s = go .atomic)) ∧
  (∀ (p : Nat) (m : LineMsg) (s : State),
      let s1 := eatLine p .req 4 s
      let h := heat s1 false p (subOf s1 false p m.src)
      ((s.port p).kind = 0 → (m.src ≠ accelEp s p ∨ (s.port p).admitted = false) →
        exec (.rdNc p m) s = .next (settle s (sendCmp p m .noAccess 0 h none 0 s1))) ∧
      ((s.port p).kind = 0 → m.src = accelEp s p → (s.port p).admitted = true →
        (m.rsv = true ∨ m.addr / 2 ^ 52 ≠ s.modNum ∨ m.addr % 64 ≠ 0) →
        exec (.rdNc p m) s = .next (settle s (sendCmp p m .badDescriptor 0 h none 0 s1))) ∧
      ((s.port p).kind ≠ 0 → exec (.rdNc p m) s =
        .next (settle s (answerOnSvc 0 p { src := m.src, dst := m.dst, txn := m.txn, epoch := m.epoch } .badDescriptor s1))) ∧
      (∀ map, (s.port p).kind = 0 → m.src = accelEp s p → (s.port p).admitted = true → m.rsv = false → m.addr / 2 ^ 52 = s.modNum →
        m.addr % 64 = 0 → mapFor s m.epoch = .ok map → trkFree s (s.port p).owner = false →
        exec (.rdNc p m) s = .next (settle s s)))

/-- R280, R304: a FENCE with nothing before it completes at once, otherwise it waits for the trackers that its requester holds on the link and for the chains it asked for; a
placed write goes to its target's slice entry where the target caches, and is a store of a line elsewhere.
R299: a request of a line that is not free waits behind the others; a waiting one is served when its line is free, and goes
back to the front when it must wait for something else.
Forms that complete here: fence, placedWrite, lineRequestResume. -/
def Obligations.FenceAndPlacedWriteComplete : Prop :=
  ((∀ (p h : Nat) (m : LineMsg) (map : MapV) (s s2 : State), (s.port p).kind = 0 → (s.port p).admitted = true → m.src = accelEp s p →
      m.rsv = false → m.addr = 0 → mapFor s m.epoch = .ok map → ((s.port p).owner.elim false s2.isQuiesced) = false →
      police p m.src (rawFlits ((s.port p).sess.phase == 3) 2) false (eatLine p .req 8 s) = (true, h, s2) →
      let f : FenceWait := { port := p, src := m.src, txn := m.txn, heat := h, epoch := m.epoch, waits := (s2.mem.trks.filter fun k => !k.tray && k.port == p && k.src == m.src).map (·.id), chains := (s2.chains.chains.filter fun c => !c.ended && askedOn c p m.src).map (·.cid) }
      exec (.fence p m) s = .next (settle s (if fenceOpen s2 f then { s2 with mem.fences := s2.mem.fences ++ [f] } else sendCmp p m .ok 0 h none 0 s2))) ∧
    (∀ (part target addr : Nat) (d : Bytes) (e : Extent) (s : State), addr % 64 = 0 →
      accessStatus s s.maps.cur addr (some part) [(addr, 64)] none = .ok e →
      let q : LineReq := { src := .engine 0, m := { addr := addr, data := d }, line := addr / 64, part := part }
      let named := fun (g : Agent) => !g.tray && !g.crashed && !g.leaving && g.part == part && accelEp s g.port == target && (s.port g.port).admitted
      (∀ g, e.coh = true → s.dir.agents.find? named = some g →
        exec (.placedWrite part target addr d) s = .next (settle s (arrive { q with kind := .placed, target := g.id } s))) ∧
      ((e.coh = false ∨ s.dir.agents.find? named = none) →
        exec (.placedWrite part target addr d) s = .next (settle s (arrive { q with kind := .wrLine } s))))) ∧
  ((∀ (q : LineReq) (s : State), (blocked s q = true ∨ s.dir.waitq.any (·.line == q.line) = true) →
      arrive q s = { s with dir.waitq := s.dir.waitq ++ [q] }) ∧
    (∀ (l : Nat) (q : LineReq) (e : Extent) (s : State), s.dir.waitq.find? (·.line == l) = some q → blocked s q = false →
      let s1 := reclaimLine l { s with dir.waitq := s.dir.waitq.eraseP (·.line == l) }
      anyExtent s (64 * l) = some e → lineStatus s1 e q = .ok → (e.coh = false ∨ (s1.ent? l).isSome = true ∨ needsEntry q = false) →
      q.kind ≠ .atomic → q.kind ≠ .rdShared → q.agent.elim false (fun a => ((touch l s1).ent l).owner == some a) = false →
      let d := (touch l s1).ent l
      let x : Tx := { line := l, req := q, phase := .snoop, noData := q.kind == .upgrade && (d.st == .s || d.st == .f) && q.agent.elim false fun a => d.sharers.contains a }
      exec (.lineRequestResume l) s = .next (settle s (startTx x (snoopsFor d q) (touch l s1)))) ∧
    (∀ (l : Nat) (q : LineReq) (s s' : State), s.dir.waitq.find? (·.line == l) = some q → blocked s q = false →
      serve q { s with dir.waitq := s.dir.waitq.eraseP (·.line == l) } = (true, s') →
      exec (.lineRequestResume l) s = .next (settle s s')) ∧
    (∀ (l : Nat) (q : LineReq) (s s' : State), s.dir.waitq.find? (·.line == l) = some q → blocked s q = false →
      serve q { s with dir.waitq := s.dir.waitq.eraseP (·.line == l) } = (false, s') →
      exec (.lineRequestResume l) s = .next (settle s { s' with dir.waitq := q :: s'.dir.waitq })))

/-- R161, R171, R172, R173, R179, R277, R298: what a memory access brings when it is done, on a channel the one served next: the line to a reader; a store in memory with
its answer; under an atomic the new line in memory and the old operand in the answer; DAMAGED for an uncorrectable line that no
mirror holds, and the line joins its channel's damaged-line table.
Forms that complete here: memoryAccessDone. -/
def Obligations.MemoryAnswersAct : Prop :=
  ∀ (l : Nat) (x : Tx) (e : Extent) (s : State), s.dir.txs.find? (fun x => x.line == l && x.phase == .memory) = some x →
    anyExtent s (64 * l) = some e → x.data = none → s.mem.weak.any (·.1 == l) = false →
    (∀ c, chanOf e (64 * l) = some c → servesNext s c l = true ∧ queueHead s c = some (l, false) ∧ tabled s c e l = false) →
    (chanOf e (64 * l) = none → expanderWaits s e l = false) →
    let line := memRead s (64 * l) 64
    let s0 := match chanOf e (64 * l) with
      | some c => modChan c (fun k => { k with served := k.served + 1 }) s
      | none => s
    let s1 := dropTx l s0
    let n := s.twin.nextTxn
    (x.req.kind = .rdNc → exec (.memoryAccessDone l false false) s = .next (settle s (answerReq x.req .ok 0 0 (some line) none s1))) ∧
    (x.req.kind = .rdShared ∨ x.req.kind = .rdOwn ∨ x.req.kind = .upgrade →
      exec (.memoryAccessDone l false false) s = .next (settle s (grantRead x e (some line) s0))) ∧
    (x.req.kind = .wrLine → exec (.memoryAccessDone l false false) s = .next (settle s (storeDone n x.req 0 (storeLine l x.req.m.data s1)))) ∧
    (x.req.kind = .wrMask → exec (.memoryAccessDone l false false) s
      = .next (settle s (storeDone n x.req 0 (storeLine l (maskMerge line x.req.m.data x.req.m.mask) s1)))) ∧
    (x.req.kind = .atomic → exec (.memoryAccessDone l false false) s = .next (settle s
      (storeDone n x.req (applyAtomic x.req.m line).2 (storeLine l (applyAtomic x.req.m line).1 s1)))) ∧
    (∀ c, chanOf e (64 * l) = some c → x.req.kind = .rdNc → exec (.memoryAccessDone l true false) s
      = .next (settle s (answerReq x.req .ok 0 0 (some line) none (dropTx l (corrected c 1 s0))))) ∧
    (∀ c, chanOf e (64 * l) = some c → x.req.kind = .rdNc → e.mirror = 0 → exec (.memoryAccessDone l false true) s
      = .next (settle s (answerReq x.req .damaged 0 0 none none (dropTx l (addDamaged c l s0)))))

/-- R245, R274, R298, R300, R302, R304, R489, R490: what answers to snoops and notices do to the directory entry: ACK_INV and NOT_HELD
drop the holder, ACK_SHARED leaves it a sharer, and a line of a space that is being released is recalled again from those left; an
owner that answers NOT_HELD still owes its notice, PLACE_ACK makes the target the owner and PLACE_DECLINE leaves the line uncached.
Those of a peer that is neither admitted nor answering its reclaim are discarded.
Forms that complete here: ackInv, ackShared, notHeld, placeAck, placeDecline. -/
def Obligations.SnoopAnswersMoveTheEntry : Prop :=
  (∀ (p : Nat) (m : LineMsg) (x : Snoop) (s s1 : State),
    let mine := fun (x : Snoop) => (agentsAt s1 false p).contains x.agent && x.txn == m.txn
    let s0 := dropSnoop x s1
    let gone := fun (t : State) => (anyExtent t (64 * x.line)).elim t fun e => recallGone e x.line t
    (holderSends s p m .rsp 1 s1 → s1.dir.snoops.find? (fun x => mine x && x.kind != 5) = some x → x.kind = 1 →
      exec (.ackInv p m) s = .next (settle s (gone (progress x.line (modEnt x.line (dropHolder x.agent) s0))))) ∧
    (holderSends s p m .rsp 2 s1 → s1.dir.snoops.find? (fun x => mine x && x.kind != 5) = some x → x.kind = 2 →
      (s1.ent x.line).owner = some x.agent → exec (.ackShared p m) s = .next (settle s (gone (progress x.line
        (modEnt x.line (fun d => { d with st := .s, sharers := [x.agent], fwd := 0 }) s0))))) ∧
    (holderSends s p m .rsp 3 s1 → s1.dir.snoops.find? mine = some x → x.kind ≠ 5 → (s1.ent x.line).owner ≠ some x.agent →
      exec (.notHeld p m) s = .next (settle s (progress x.line (modEnt x.line (dropHolder x.agent) s0)))) ∧
    (holderSends s p m .rsp 3 s1 → s1.dir.snoops.find? mine = some x → x.kind ≠ 5 → (s1.ent x.line).owner = some x.agent →
      exec (.notHeld p m) s = .next (settle s { s0 with dir.awaits := s0.dir.awaits ++ [{ agent := x.agent, line := x.line, at_ := s.t }] })) ∧
    (holderSends s p m .rsp 5 s1 → s1.dir.snoops.find? (fun x => mine x && x.kind == 5) = some x →
      exec (.placeAck p m) s = .next (settle s (progress x.line
        (modEnt x.line (fun d => { d with st := .e, sharers := [x.agent], fwd := x.agent }) s0)))) ∧
    (holderSends s p m .rsp 6 s1 → s1.dir.snoops.find? (fun x => mine x && x.kind == 5) = some x →
      exec (.placeDecline p m) s = .next (settle s (progress x.line
        (modEnt x.line (fun d => { d with st := .i, sharers := [], fwd := 0 }) s0))))) ∧
  (∀ (p : Nat) (m : LineMsg) (s : State),
    let out := fun (opc : Nat) => ((eatLine p .rsp opc s).port p).kind = 0 ∧ ((eatLine p .rsp opc s).port p).admitted = false ∧
      answersReclaim (eatLine p .rsp opc s) p m .rsp opc = false
    (out 1 → exec (.ackInv p m) s = .next (settle s (eatLine p .rsp 1 s))) ∧
    (out 2 → exec (.ackShared p m) s = .next (settle s (eatLine p .rsp 2 s))) ∧
    (out 3 → exec (.notHeld p m) s = .next (settle s (eatLine p .rsp 3 s))) ∧
    (out 5 → exec (.placeAck p m) s = .next (settle s (eatLine p .rsp 5 s))) ∧
    (out 6 → exec (.placeDecline p m) s = .next (settle s (eatLine p .rsp 6 s))))

/-- R245, R268, R298, R300, R301, R307, R489, R490: data and notices of holders, from accelerators and from hosts. Data that answers a snoop
ends it, and WB_DATA of the owner of a line ends its hold and is stored, unless the line is guarded or its channel has gone; a wrong
tag on data that would be stored is answered RETRY and has no other effect, and every other such message is answered CMP with OK. WB_DATA
of a line outside coherent extents is a store in its turn; that of a recorded sharer counts as its eviction and is reported, like a
message of a holder that the entry does not record. EVICT_CLEAN drops its holder. What a peer that is not admitted sends is discarded,
its data with NO_ACCESS. BIRspI drops a host's copy and BIRspS leaves it one; BIConflict is acknowledged.
Forms that complete here: snpData, wbData, evictClean, cxlMemclnevct, cxlBirsp, cxlBiconflict. -/
def Obligations.HolderNoticesAct : Prop :=
  (∀ (p : Nat) (m : LineMsg) (x : Snoop) (s s1 : State), holderSends s p m .dat 2 s1 →
    let l := m.addr % 2 ^ 52 / 64
    s1.dir.snoops.find? (fun x => (agentsAt s1 false p).contains x.agent && x.line == l && x.kind != 5) = some x →
    (m.dirty = false ∨ wouldWrite s1 l = false ∨ (s1.ent l).owner ≠ some x.agent ∨ m.ltag = lineTag (64 * l) m.data) →
    exec (.snpData p m) s = .next (settle s (if m.dirty then dataCmp p m .ok (snoopData x (some m.data) true (some m.ltag) s1)
      else snoopData x (some m.data) false (some m.ltag) s1))) ∧
  (∀ (p : Nat) (m : LineMsg) (x : Snoop) (s s1 : State), holderSends s p m .dat 2 s1 →
    let l := m.addr % 2 ^ 52 / 64
    s1.dir.snoops.find? (fun x => (agentsAt s1 false p).contains x.agent && x.line == l && x.kind != 5) = some x →
    m.dirty = true → wouldWrite s1 l = true → (s1.ent l).owner = some x.agent → m.ltag ≠ lineTag (64 * l) m.data →
    exec (.snpData p m) s = .next (settle s (dataCmp p m .retry s1))) ∧
  (∀ (p : Nat) (m : LineMsg) (s s1 : State), holderSends s p m .dat 2 s1 →
    let l := m.addr % 2 ^ 52 / 64
    s1.dir.snoops.find? (fun x => (agentsAt s1 false p).contains x.agent && x.line == l && x.kind != 5) = none →
    exec (.snpData p m) s = .next (settle s (if m.dirty then dataCmp p m .ok s1 else s1))) ∧
  (∀ (p : Nat) (m : LineMsg) (s s1 : State), s1 = eatLine p .dat 2 s → (s1.port p).kind = 0 → m.src = accelEp s1 p →
    (s1.port p).admitted = false → answersReclaim s1 p m .dat 2 = false →
    exec (.snpData p m) s = .next (settle s (dataCmp p m .noAccess s1))) ∧
  (∀ (p : Nat) (m : LineMsg) (s s1 : State), s1 = eatLine p .dat 3 s → (s1.port p).kind = 0 → m.src = accelEp s1 p →
    (s1.port p).admitted = false → answersReclaim s1 p m .dat 3 = false →
    exec (.wbData p m) s = .next (settle s (dataCmp p m .noAccess s1))) ∧
  (∀ (p : Nat) (m : LineMsg) (s s1 : State), holderSends s p m .dat 3 s1 →
    let l := m.addr % 2 ^ 52 / 64
    anyExtent s1 (64 * l) = none →
    exec (.wbData p m) s = .next (settle s (protocolEvent p l (dataCmp p m .ok s1)))) ∧
  (∀ (p : Nat) (m : LineMsg) (e : Extent) (s s1 : State), holderSends s p m .dat 3 s1 →
    let l := m.addr % 2 ^ 52 / 64
    anyExtent s1 (64 * l) = some e → e.coh = false → (s1.port p).owner = some e.part → s1.isQuiesced e.part = false →
    guarded s1 (64 * l) 64 = false → releasing s1 e = false →
    exec (.wbData p m) s = .next (settle s (arrive { src := .wb p, kind := .wrLine, m := m, line := l, part := e.part } s1))) ∧
  (∀ (p : Nat) (m : LineMsg) (e : Extent) (s s1 : State), holderSends s p m .dat 3 s1 →
    let l := m.addr % 2 ^ 52 / 64
    anyExtent s1 (64 * l) = some e → e.coh = false → ((s1.port p).owner ≠ some e.part ∨ s1.isQuiesced e.part = true ∨
    guarded s1 (64 * l) 64 = true ∨ releasing s1 e = true) →
    exec (.wbData p m) s = .next (settle s (dataCmp p m .ok s1))) ∧
  (∀ (p : Nat) (m : LineMsg) (a : Nat) (e : Extent) (s s1 : State), holderSends s p m .dat 3 s1 →
    let l := m.addr % 2 ^ 52 / 64
    anyExtent s1 (64 * l) = some e → e.coh = true →
    (agentsAt s1 false p).find? (fun a => (s1.ent l).sharers.contains a) = some a →
    (s1.ent l).owner = some a → writeGone s1 e (64 * l) = false → guarded s1 (64 * l) 64 = false → m.ltag = lineTag (64 * l) m.data →
    exec (.wbData p m) s = .next (settle s (dataCmp p m .ok (noticed a l (some m.data) (writeBack l m.data s1))))) ∧
  (∀ (p : Nat) (m : LineMsg) (a : Nat) (e : Extent) (s s1 : State), holderSends s p m .dat 3 s1 →
    let l := m.addr % 2 ^ 52 / 64
    anyExtent s1 (64 * l) = some e → e.coh = true →
    (agentsAt s1 false p).find? (fun a => (s1.ent l).sharers.contains a) = some a →
    (s1.ent l).owner = some a → (writeGone s1 e (64 * l) = true ∨ guarded s1 (64 * l) 64 = true) →
    exec (.wbData p m) s = .next (settle s (dataCmp p m .ok (noticed a l (some m.data) s1)))) ∧
  (∀ (p : Nat) (m : LineMsg) (a : Nat) (e : Extent) (s s1 : State), holderSends s p m .dat 3 s1 →
    let l := m.addr % 2 ^ 52 / 64
    anyExtent s1 (64 * l) = some e → e.coh = true →
    (agentsAt s1 false p).find? (fun a => (s1.ent l).sharers.contains a) = some a →
    (s1.ent l).owner = some a → writeGone s1 e (64 * l) = false → guarded s1 (64 * l) 64 = false → m.ltag ≠ lineTag (64 * l) m.data →
    exec (.wbData p m) s = .next (settle s (dataCmp p m .retry s1))) ∧
  (∀ (p : Nat) (m : LineMsg) (a : Nat) (e : Extent) (s s1 : State), holderSends s p m .dat 3 s1 →
    let l := m.addr % 2 ^ 52 / 64
    anyExtent s1 (64 * l) = some e → e.coh = true →
    (agentsAt s1 false p).find? (fun a => (s1.ent l).sharers.contains a) = some a →
    (s1.ent l).owner ≠ some a →
    exec (.wbData p m) s = .next (settle s (dataCmp p m .ok (protocolEvent p l (noticed a l none s1))))) ∧
  (∀ (p : Nat) (m : LineMsg) (e : Extent) (s s1 : State), holderSends s p m .dat 3 s1 →
    let l := m.addr % 2 ^ 52 / 64
    anyExtent s1 (64 * l) = some e → e.coh = true →
    (agentsAt s1 false p).find? (fun a => (s1.ent l).sharers.contains a) = none →
    exec (.wbData p m) s = .next (settle s (protocolEvent p l (dataCmp p m .ok s1)))) ∧
  (∀ (p a : Nat) (m : LineMsg) (e : Extent) (s s1 : State), holderSends s p m .rsp 4 s1 →
    let l := m.addr % 2 ^ 52 / 64
    anyExtent s1 (64 * l) = some e → e.coh = true → (agentsAt s1 false p).find? (fun a => (s1.ent l).sharers.contains a) = some a →
    exec (.evictClean p m) s = .next (settle s (noticed a l none s1))) ∧
  (∀ (p : Nat) (m : LineMsg) (e : Extent) (s s1 : State), holderSends s p m .rsp 4 s1 →
    let l := m.addr % 2 ^ 52 / 64
    anyExtent s1 (64 * l) = some e → e.coh = false → exec (.evictClean p m) s = .next (settle s s1)) ∧
  (∀ (p : Nat) (m : LineMsg) (s s1 : State), holderSends s p m .rsp 4 s1 →
    let l := m.addr % 2 ^ 52 / 64
    (anyExtent s1 (64 * l)).elim true (·.coh) = true → (agentsAt s1 false p).find? (fun a => (s1.ent l).sharers.contains a) = none →
    exec (.evictClean p m) s = .next (settle s (protocolEvent p l s1))) ∧
  (∀ (t a addr tag : Nat) (e : Extent) (s s1 : State), hostWorks s t = true → s1 = chargeHost t 1 s →
    anyExtent s1 (64 * (addr / 64)) = some e → e.coh = true →
    (agentsAt s true t).find? (fun a => (s1.ent (addr / 64)).sharers.contains a) = some a →
    exec (.cxlMemclnevct t addr tag) s = .next (settle s (enqueue true t 0 0 (.tray .cmp tag addr 0 [])
      (noticed a (addr / 64) none s1)))) ∧
  (∀ (t addr tag : Nat) (s s1 : State), hostWorks s t = true → s1 = chargeHost t 1 s →
    (anyExtent s1 (64 * (addr / 64))).elim true (·.coh) = true →
    (agentsAt s true t).find? (fun a => (s1.ent (addr / 64)).sharers.contains a) = none →
    exec (.cxlMemclnevct t addr tag) s = .next (settle s (enqueue true t 0 0 (.tray .cmp tag addr 0 [])
      (protocolEvent t (addr / 64) s1)))) ∧
  (∀ (t addr tag : Nat) (e : Extent) (s s1 : State), hostWorks s t = true → s1 = chargeHost t 1 s →
    anyExtent s1 (64 * (addr / 64)) = some e → e.coh = false →
    exec (.cxlMemclnevct t addr tag) s = .next (settle s (enqueue true t 0 0 (.tray .cmp tag addr 0 []) s1))) ∧
  (∀ (t addr : Nat) (b : Bool) (x : Snoop) (s : State),
    s.dir.snoops.find? (fun x => (agentsAt s true t).contains x.agent && x.line == addr / 64) = some x → (b = false ∨ x.kind = 1) →
    exec (.cxlBirsp t addr b) s = .next (settle s (progress (addr / 64) (modEnt (addr / 64) (dropHolder x.agent) (dropSnoop x s))))) ∧
  (∀ (t addr : Nat) (x : Snoop) (s : State),
    s.dir.snoops.find? (fun x => (agentsAt s true t).contains x.agent && x.line == addr / 64) = some x → x.kind ≠ 1 →
    exec (.cxlBirsp t addr true) s = .next (settle s (progress (addr / 64)
      (modEnt (addr / 64) (fun d => if x.kind == 2 && d.owner == some x.agent then { d with st := .s, sharers := [x.agent], fwd := 0 }
          else if d.sharers.contains x.agent then d
          else { d with st := if d.st == .i then .s else d.st, sharers := sortBy (fun a b => decide (a ≤ b)) (d.sharers ++ [x.agent]) }) (dropSnoop x s))))) ∧
  (∀ (t addr tag : Nat) (s : State), hostWorks s t = true →
    exec (.cxlBiconflict t addr tag) s = .next (settle s (enqueue true t 1 0 (.tray .biConflictAck tag addr 0 []) s))) ∧
  (∀ (a : Nat) (d : DirEnt), (dropHolder a d).sharers.contains a = false ∧
    (d.sharers.contains a = true → (d.st = .e ∨ d.st = .m) → (dropHolder a d).st = .i)) ∧
  (∀ (l : Nat) (d : Bytes) (s : State), (writeBack l d s).mem = (storeLine l d s).mem)

/-- R253, R267, R307, R351: a host's read, ownership request or store is charged and reaches its slice; a store of
the line's owner is its write-back; a speculative read is charged and dropped; a port whose buckets hold again returns credit; the host's acceptance of an offered extent is
recorded, and so is its answer to a release.
Forms that complete here: cxlMemrd, cxlMeminv, cxlMemwr, cxlMemspecrd, trayCreditResume, dcAddAccept, dcReleaseResponse. -/
def Obligations.HostRequestsAct : Prop :=
  (∀ (t addr tag : Nat) (mv : CxlMeta) (e : Extent) (s : State), hostPasses s t addr [] e →
    let s1 := chargeHost t 1 s
    let k := match mv with
      | .s => ReqKind.rdShared
      | .a => .rdOwn
      | .i => .rdNc
    exec (.cxlMemrd t mv addr tag) s = .next (settle s (arrive (hostReq s1 k t tag addr s.mem.nextTrk mv 0 [] e)
      (takeTrk (hostTracker s t tag addr) s1).2)) ∧
    exec (.cxlMeminv t addr tag) s = .next (settle s (arrive (hostReq s1 .upgrade t tag addr s.mem.nextTrk .a 0 [] e)
      (takeTrk (hostTracker s t tag addr) s1).2))) ∧
  (∀ (t addr tag : Nat) (mask : BitVec 64) (d : Bytes) (e : Extent) (s : State), mask ≠ 0 →
    hostPasses s t addr (storeRuns (if mask == BitVec.allOnes 64 then .wrLine else .wrMask) { addr := addr, mask := mask }) e →
    (agentsAt s true t).find? (fun a => (s.ent (addr / 64)).owner == some a) = none →
    let s1 := chargeHost t 1 s
    exec (.cxlMemwr t addr tag mask d) s = .next (settle s (arrive (hostReq s1 (if mask == BitVec.allOnes 64 then .wrLine else .wrMask)
      t tag addr s.mem.nextTrk .i mask d e) (takeTrk (hostTracker s t tag addr) s1).2))) ∧
  (∀ (t addr tag a : Nat) (d : Bytes) (s s1 : State), hostWorks s t = true → s1 = chargeHost t 1 s →
    (agentsAt s true t).find? (fun a => (s.ent (addr / 64)).owner == some a) = some a →
    let line := maskMerge (memRead s1 (64 * (addr / 64)) 64) d (BitVec.allOnes 64)
    exec (.cxlMemwr t addr tag (BitVec.allOnes 64) d) s = .next (settle s (enqueue true t 1 0 (.tray .cmp tag addr 0 [])
      (noticed a (addr / 64) (some line) (if guarded s1 (64 * (addr / 64)) 64 then s1 else writeBack (addr / 64) line s1))))) ∧
  (∀ (t addr : Nat) (s : State), exec (.cxlMemspecrd t addr) s = .next (settle s (if hostWorks s t then chargeHost t 1 s else s))) ∧
  (∀ (t : Nat) (s : State), ((s.dport true t).sub (subOf s true t 0)).bw.lets s.ns = true →
    ((s.dport true t).sub (subOf s true t 0)).rq.lets s.ns = true →
    exec (.trayCreditResume t) s = .next (settle s (modTray t (fun k => { k with creditHeld := false }) s))) ∧
  (∀ (t base : Nat) (e : Extent) (s : State), s.maps.cur.exts.find? (·.base == base) = some e → bit e.hostmask t = true →
    (s.ext base).accepted.contains t = false →
    exec (.dcAddAccept t base) s = .next (settle s (modExt base (fun x => { x with accepted := x.accepted ++ [t] }) s))) ∧
  (∀ (t base : Nat) (s : State), exec (.dcReleaseResponse t base) s = .next (settle s { s with maps := { s.maps with
    rels := modWhere (·.ext.base == base) (fun r => { r with back := r.back ++ [t] }) s.maps.rels,
    shed := s.maps.shed.filter (fun x => !(x.1 == t && x.2.1 == base)) } }))

/-- R300, R303, R308, R309, R489: an agent that does not answer within 1 ms crashes, its requests end and its walk starts; the walk
and the reclaim end with the agent's id free.
Forms that complete here: snoopTimeout, writebackTimeout, agentCrash, reclaimWalkEnd, agentReclaimEnd. -/
def Obligations.AgentsCrashAndLeave : Prop :=
  (∀ (a l : Nat) (x : Snoop) (s : State), x ∈ s.dir.snoops → x.agent = a → x.line = l → x.at_ + 1000000 ≤ s.t →
    exec (.snoopTimeout a l) s = .next (settle s (crashAgent a s))) ∧
  (∀ (a l : Nat) (x : Snoop) (s : State), x ∈ s.dir.awaits → x.agent = a → x.line = l → x.at_ + 1000000 ≤ s.t →
    exec (.writebackTimeout a l) s = .next (settle s (crashAgent a s))) ∧
  (∀ (a : Nat) (g : Agent) (s : State), g ∈ s.dir.agents → g.id = a → g.crashed = true → g.walking = false →
    (s.dir.waitq.any fun q => q.agent == some a) = false → (s.dir.txs.any fun x => x.req.agent == some a) = false →
    ((s.dir.snoops ++ s.dir.awaits).any fun x => x.agent == a) = false → strokeReqs (·.agent == some a) s = [] →
    (s.dir.acks.any fun x => x.req.agent == some a) = false →
    ∃ t, exec (.agentCrash a) s = .next t ∧
      t.dir.agents = modWhere (·.id == a) (fun g => { g with walking := true }) s.dir.agents ∧ t.dir.ents = s.dir.ents ∧
      t.mem = s.mem ∧ t.maps = s.maps ∧ t.sax = s.sax) ∧
  (∀ (a : Nat) (g : Agent) (s : State), s.dir.agents.find? (fun g => g.id == a && g.walking) = some g →
    (s.dir.ents.any fun d => d.sharers.contains a) = false →
    exec (.reclaimWalkEnd a) s = .next (settle s (eventMO 0x0010 (some g.part) [a, g.lost]
      { s with dir.agents := s.dir.agents.filter (·.id != a) }))) ∧
  (∀ (a : Nat) (g : Agent) (s : State), g ∈ s.dir.agents → g.id = a → g.leaving = true → g.crashed = false →
    (s.dir.ents.any fun d => d.sharers.contains a) = false → (s.dir.snoops.any fun x => x.agent == a) = false →
    (s.dir.awaits.any fun x => x.agent == a) = false → (s.dir.txs.any fun x => x.req.agent == some a) = false →
    (s.dir.waitq.any fun q => q.agent == some a) = false → strokeReqs (·.agent == some a) s = [] →
    (s.dir.acks.any fun x => x.req.agent == some a) = false →
    exec (.agentReclaimEnd a) s = .next (settle s { s with dir.agents := s.dir.agents.filter (·.id != a) }))

/-- R175 to R177, R179 to R181, R306: an atomic under a line hold reads and writes its line once; a home unit applies its atomic;
DEVICE-OWNED takes effect once nothing of the extent is cached; a segment is acquired, held, abandoned after 16 us and released.
Forms that complete here: lineHoldAtomic, homeAtomic, devownRecallEnd, segmentAcquire, segmentAcquired, segmentAbandon, segmentRelease. -/
def Obligations.AtomicsAndSegmentsAct : Prop :=
  (∀ (l : Nat) (x : Tx) (e : Extent) (s : State), s.dir.txs.find? (fun x => x.line == l && x.phase == .hold) = some x →
    anyExtent s (64 * l) = some e → lineDamaged s e (64 * l) = false → s.mem.weak.any (·.1 == l) = false →
    (∀ c, chanOf e (64 * l) = some c → strokeFree s c = true ∧ tabled s c e l = false) →
    let r := applyAtomic x.req.m (memRead s (64 * l) 64)
    let s0 := match chanOf e (64 * l) with
      | some c => modChan c (fun k => { k with strokeAt := s.t, served := 0 }) s
      | none => s
    exec (.lineHoldAtomic l) s = .next (settle s (storeDone s.twin.nextTxn x.req r.2 (storeLine l r.1 (dropTx l s0))))) ∧
  (∀ (l : Nat) (x : Tx) (e : Extent) (s : State), s.dir.txs.find? (fun x => x.line == l && x.phase == .home) = some x →
    anyExtent s (64 * l) = some e → lineDamaged s e (64 * l) = false → atomicRun l s.dir.waitq = [] →
    s.mem.weak.any (·.1 == l) = false → (∀ c, chanOf e (64 * l) = some c → tabled s c e l = false) → homeTurn s x e = true →
    let r := applyAtomic x.req.m (memRead s (64 * l) 64)
    let s1 := storeLine l r.1 (dropTx l s)
    exec (.homeAtomic l) s = .next (settle s (storeDone s.twin.nextTxn x.req r.2 (if e.tray then trayFrame 0 l e true r.1 s1 else s1)))) ∧
  (∀ (base j : Nat) (e : Extent) (s : State), (s.ext base).recallJob = some j → s.maps.cur.exts.find? (·.base == base) = some e →
    (s.dir.ents.any fun d => inExt e d.line && !d.sharers.isEmpty) = false → (s.dir.snoops.any fun x => inExt e x.line) = false →
    (s.dir.awaits.any fun x => inExt e x.line) = false →
    exec (.devownRecallEnd base) s = .next (settle s (finish j .ok 0 [] (setDevown base true (modExt base (fun x => { x with recallJob := none }) s))))) ∧
  (∀ (c first n : Nat) (e : Extent) (s : State), anyExtent s (64 * first) = some e → 1 ≤ n → n ≤ 16384 → e.coh = true → e.devown = true →
    inExt e (first + n - 1) = true → chanOf e (64 * first) = some c → s.dir.segs = [] → s.dir.waitq = [] → releasing s e = false →
    (s.ext e.base).clearJob = none → s.chanOwner c = some e.part →
    ∃ t, exec (.segmentAcquire c first n) s = .next t ∧ t.dir.segs = [{ chan := c, first := first, lines := n, at_ := s.t }] ∧
      t.mem = s.mem ∧ t.maps = s.maps ∧ t.dir.ents = s.dir.ents) ∧
  (∀ (c : Nat) (g : Segment) (s : State), s.dir.segs.find? (fun g => g.chan == c && !g.held) = some g → segClear s g = true →
    ∃ t, exec (.segmentAcquired c) s = .next t ∧ t.dir.segs = modWhere (· == g) (fun g => { g with held := true }) s.dir.segs ∧
      t.mem = s.mem ∧ t.maps = s.maps) ∧
  (∀ (c : Nat) (g : Segment) (s : State), s.dir.segs.find? (fun g => g.chan == c && !g.held) = some g → segClear s g = false →
    g.at_ + 16000 ≤ s.t → exec (.segmentAbandon c) s = .next (settle s (clearCheck (event 0x000F true [] (s.chanOwner c) [c, 64 * g.first]
      { s with dir.segs := s.dir.segs.filter (· != g) })))) ∧
  (∀ (c : Nat) (g : Segment) (s : State), s.dir.segs.find? (fun g => g.chan == c && g.held) = some g →
    (s.maps.ext.any fun x => x.clearJob.isSome) = false → (s.chan c).running = none →
    ∃ t, exec (.segmentRelease c) s = .next t ∧ t.dir.segs = s.dir.segs.filter (· != g) ∧ t.mem = s.mem ∧ t.maps = s.maps ∧
      t.dir.ents = s.dir.ents)

/-- R291, R294, R310, R349, R459, R489: DIR_READ, LINE_CLEAR, LOSTLOG_READ, PEER_ADMIT and PEER_EVICT.
Forms that complete here: dirRead, lineClear, lostlogRead, peerAdmit, peerEvict. -/
def Obligations.DirectoryCommandsComplete : Prop :=
  (∀ (m : MbxId) (j : Job) (s : State), mayRun s m 0x0408 j → zeroAt j.payload 1 1 = true → fldLE j.payload 0 1 ≤ 95 →
    fldLE j.payload 4 2 ≤ 256 → fldLE j.payload 2 2 + fldLE j.payload 4 2 ≤ 65536 →
    ∃ b, exec (.dirRead m) s = .next (settle s (finish j.id .ok 0 b (startJob j s))) ∧ b.length = 16 * fldLE j.payload 4 2) ∧
  (∀ (m : MbxId) (j : Job) (x : Part) (s : State), mayRun s m 0x0409 j → zeroAt j.payload 2 6 = true → fldLE j.payload 1 1 = 1 →
    s.part? (fldLE j.payload 0 1) = some x →
    let ns := s.nooksOf (fldLE j.payload 0 1)
    ∃ t, exec (.lineClear m) s = .next (settle s (finish j.id .ok 0 [] t)) ∧
      t.dir.setLost = s.dir.setLost.filter (fun x => !ns.contains x.1) ∧
      t.dir.ents = modWhere (fun d => d.lost && ns.contains d.nook) (fun d => { d with st := .i, sharers := [], fwd := 0, lost := false }) s.dir.ents ∧
      t.mem = s.mem ∧ t.maps = s.maps) ∧
  (∀ (m : MbxId) (j : Job) (e : Extent) (x : Part) (s : State), mayRun s m 0x0409 j → zeroAt j.payload 2 6 = true → fldLE j.payload 1 1 = 0 →
    s.part? (fldLE j.payload 0 1) = some x → anyExtent s (fldLE j.payload 8 8) = some e → e.part = fldLE j.payload 0 1 →
    ∃ t, exec (.lineClear m) s = .next (settle s (finish j.id .ok 0 [] t)) ∧ t.dir.setLost = s.dir.setLost ∧
      t.dir.ents = modWhere (fun d => d.lost && d.line == fldLE j.payload 8 8 / 64)
        (fun d => { d with st := .i, sharers := [], fwd := 0, lost := false }) s.dir.ents ∧ t.mem = s.mem) ∧
  (∀ (m : MbxId) (j : Job) (x : Part) (s : State), mayRun s m 0x040A j → zeroAt j.payload 1 3 = true → s.part? (fldLE j.payload 0 1) = some x →
    ∃ b, exec (.lostlogRead m) s = .next (settle s (finish j.id .ok 0 b (startJob j s))) ∧ b.length ≤ 4088) ∧
  (∀ (m : MbxId) (j : Job) (s : State), mayRun s m 0x0502 j → fldLE j.payload 1 1 = 0 →
    let p := fldLE j.payload 0 1
    (s.port p).kind = 0 → (s.port p).owner = some j.part → (s.port p).sess.phase = 3 →
    ∃ t, exec (.peerAdmit m) s = .next (settle s (finish j.id .ok 0 [] t)) ∧
      t.sax = s.sax.modify p (fun x => { x with admitted := true, caching := false }) ∧ t.mem = s.mem) ∧
  (∀ (m : MbxId) (j : Job) (s : State), mayRun s m 0x0502 j → fldLE j.payload 1 1 = 1 →
    let p := fldLE j.payload 0 1
    (s.port p).kind = 0 → (s.port p).owner = some j.part → (s.port p).sess.phase = 3 → (s.port p).peer.elim false (·.caching) = true →
    (agentOn s false p).isSome = true →
    ∃ t, exec (.peerAdmit m) s = .next (settle s (finish j.id .ok 0 [] t)) ∧
      t.sax = s.sax.modify p (fun x => { x with admitted := true, caching := true }) ∧ t.dir.agents = s.dir.agents ∧ t.mem = s.mem) ∧
  (∀ (m : MbxId) (j : Job) (s : State), mayRun s m 0x0503 j →
    let p := fldLE j.payload 0 1
    (s.port p).kind = 0 → (s.port p).owner = some j.part →
    ∃ t, exec (.peerEvict m) s = .next (settle s (finish j.id .ok 0 [] t)) ∧
      t.sax = s.sax.modify p (fun x => { x with admitted := false, caching := false }) ∧ t.mem = s.mem ∧ t.dir.ents = s.dir.ents)

/-! ## Extents, maps and trays (chapters 10 and 12) -/

/-- R264, R266, R269, R271, R274, R276, R286: extent and map commands change only the pending map until MAP_COMMIT, which makes it
the current one under the next EPOCH, the old one becoming the previous; EXTENT_SET_ATTR acts at once.
R271: at the commit instant the pending map becomes the current one, under the new EPOCH; the map before it becomes the
previous one; nothing stays pending; and memory keeps its contents.
Forms that complete here: extentAdd, extentRelease, extentSetAttr, routeSet, mapCommit, mapDiscard, mapRead. -/
def Obligations.MapCommandsComplete : Prop :=
  ((∀ (m : MbxId) (j : Job) (s : State), mayRun s m 0x0401 j → extentBad (leNat j.payload) = false →
      let e := decExtent (leNat j.payload)
      (e.trayLd = 0 ∨ Config.multiLd e.trayPort = true) → movingFor s e.part e.nook = false →
      s.nookOwner e.nook = .part e.part → (s.part? e.part).isSome = true → (e.tray = true → trayRole s e.part e.trayPort 1 = true) →
      (e.mirror = 2 → trayRole s e.part e.mirrorPort 1 = true) → ((List.range 32).all fun t => !bit e.hostmask t || trayRole s e.part t 2) = true →
      (e.mirror = 1 → twinProfile s = true) → frozen s = false →
      (heldExts s).any (granulesMeet e) = false → (heldExts s).length < 65536 → nookRoom s e = true → keyMissing s e = false →
      let s1 := placeExt e (if e.mirror == 1 then mirrorDesc j e.part (startJob j s) else startJob j s)
      exec (.extentAdd m) s = .next (settle s (finish j.id .ok 0 [] (trayKeys { s1 with maps.pend := some { pending s with exts := (pending s).exts ++ [e] } })))) ∧
    (∀ (m : MbxId) (j : Job) (e : Extent) (s : State), mayRun s m 0x0402 j →
      s.maps.cur.exts.find? (fun e => e.base == fldLE j.payload 0 4 && !s.maps.pendRel.contains (fldLE j.payload 0 4)) = some e →
      frozen s = false → extentInUse s e = false → e.mirror ≠ 1 →
      ∃ t, exec (.extentRelease m) s = .next (settle s (finish j.id .ok 0 [] t)) ∧ t.maps.cur = s.maps.cur ∧
        t.maps.pend = some { pending s with exts := (pending s).exts.filter (·.base != fldLE j.payload 0 4) } ∧
        t.maps.pendRel = s.maps.pendRel ++ [fldLE j.payload 0 4] ∧ t.mem = s.mem ∧ t.dir = s.dir) ∧
    (∀ (m : MbxId) (j : Job) (e : Extent) (s : State), mayRun s m 0x0403 j →
      s.maps.cur.exts.find? (fun e => e.base == fldLE j.payload 0 4) = some e → fldLE j.payload 4 1 = 1 → fldLE j.payload 5 1 = e.mirror →
      fldLE j.payload 6 1 = e.mirrorPort → zeroAt j.payload 7 1 = true → e.mirror = 0 → e.mirrorPort = 0 → e.devown = false → e.coh = false →
      (s.ext (fldLE j.payload 0 4)).recallJob = none → (s.ext (fldLE j.payload 0 4)).clearJob = none →
      exec (.extentSetAttr m) s = .next (settle s (finish j.id .ok 0 [] (setExtent (fldLE j.payload 0 4) (fun e => { e with devown := true }) (startJob j s))))) ∧
    (∀ (m : MbxId) (j : Job) (s : State), mayRun s m 0x0404 j → j.payload.length = 8 → fldLE j.payload 0 2 = 0 → zeroAt j.payload 2 6 = true →
      frozen s = false →
      exec (.routeSet m) s = .next (settle s (finish j.id .ok 0 [] { startJob j s with maps.pend := some (pending s) }))) ∧
    (∀ (m : MbxId) (j : Job) (s : State), mayRun s m 0x0404 j → j.payload.length = 16 → fldLE j.payload 0 2 = 1 → zeroAt j.payload 2 6 = true →
      let x := fldLE j.payload 8 8
      let r := decRoute x
      routeBad x = false → (r.ports.any fun p => (s.port p).kind != 1) = false → frozen s = false →
      exec (.routeSet m) s = .next (settle s (finish j.id .ok 0 [] { startJob j s with maps.pend := some { pending s with routes := (pending s).routes.filter (fun y => !(y.own == r.own && y.dest == r.dest)) ++ [r] } }))) ∧
    (∀ (m : MbxId) (j : Job) (s : State), mayRun s m 0x0405 j → zeroAt j.payload 4 4 = true → fldLE j.payload 0 4 = (s.maps.cur.epoch + 1) % 2 ^ 32 →
      fldLE j.payload 8 8 = 0 → s.maps.prev = none → frozen s = false →
      exec (.mapCommit m) s = .next (settle s (finish j.id .ok 0 [] (commitNow (fldLE j.payload 0 4) (startJob j s))))) ∧
    (∀ (m : MbxId) (j : Job) (s : State), mayRun s m 0x0405 j → zeroAt j.payload 4 4 = true → fldLE j.payload 0 4 = (s.maps.cur.epoch + 1) % 2 ^ 32 →
      s.ns < fldLE j.payload 8 8 * 256 → s.maps.prev = none → frozen s = false →
      exec (.mapCommit m) s = .next (settle s { startJob j s with maps.commit := some { newEpoch := fldLE j.payload 0 4, atSlot := fldLE j.payload 8 8, job := j.id } })) ∧
    (∀ (m : MbxId) (j : Job) (s : State), mayRun s m 0x0406 j → frozen s = false →
      exec (.mapDiscard m) s = .next (settle s (finish j.id .ok 0 [] (trayKeys { startJob j s with maps := { s.maps with pend := none, pendRel := [] } })))) ∧
    (∀ (m : MbxId) (j : Job) (s : State), mayRun s m 0x0407 j → fldLE j.payload 0 1 = 0 → zeroAt j.payload 1 3 = true →
      exec (.mapRead m) s = .next (settle s (finish j.id .ok 0 (((s.maps.cur.exts.drop (fldLE j.payload 4 4)).take 127).flatMap encExtent) (startJob j s))))) ∧
  (∀ (n : Nat) (s : State),
      (commitNow n s).maps.cur = { pending s with epoch := n } ∧ (commitNow n s).maps.prev = some s.maps.cur ∧
      (commitNow n s).maps.pend = none ∧ (commitNow n s).maps.pendRel = [] ∧ (commitNow n s).maps.commit = none ∧
      (commitNow n s).mem.bytes = s.mem.bytes ∧
      (∀ e, e ∈ s.maps.cur.exts → s.maps.pendRel.contains e.base = true → (commitNow n s).maps.rels.any (·.ext == e) = true))

/-- R269, R271, R272, R274, R276: a scheduled commit acts at its slot; the previous map leaves when nothing runs under it; a release
closes 2 ms after the commit and ends with its space reading zero; a mirror copy ends, that to a twin once it has acknowledged it.
Forms that complete here: mapCommitAct, mapRetire, releaseDeadline, releaseEnd, mirrorCopyEnd. -/
def Obligations.MapEventsAct : Prop :=
  (∀ (c : Commit) (s : State), s.maps.commit = some c → c.atSlot ≤ s.slot →
    exec .mapCommitAct s = .next (settle s (finish c.job .ok 0 [] (commitNow c.newEpoch s)))) ∧
  (∀ (v : MapV) (s : State), s.maps.prev = some v → inFlight s v.epoch = 0 →
    exec .mapRetire s = .next (settle s { s with maps.prev := none })) ∧
  (∀ (base : Nat) (r : Release) (s : State), s.maps.rels.find? (·.ext.base == base) = some r → r.closed = false → r.at_ + 2000000 ≤ s.t →
    ∃ t, exec (.releaseDeadline base) s = .next t ∧ t.maps.rels = modWhere (·.ext.base == base) (fun r => { r with closed := true }) s.maps.rels ∧
      t.dir.ents = s.dir.ents.filter (fun d => !inExt r.ext d.line) ∧ t.dir.snoops = s.dir.snoops.filter (fun x => !inExt r.ext x.line) ∧
      t.dir.txs = s.dir.txs.filter (fun x => !inExt r.ext x.req.line) ∧ t.mem.bytes = s.mem.bytes ∧ t.maps.cur = s.maps.cur) ∧
  (∀ (base : Nat) (r : Release) (s : State), s.maps.rels.find? (fun r => r.ext.base == base && r.closed) = some r →
    ∃ t, exec (.releaseEnd base) s = .next t ∧ t.maps.rels = s.maps.rels.filter (·.ext.base != base) ∧ t.maps.cur = s.maps.cur ∧
      t.mem.bytes = cellsClear s.mem.bytes (base * 2 ^ 28) (r.ext.granules * 2 ^ 28) ∧ t.dir = s.dir ∧ t.ten.parts = s.ten.parts) ∧
  (∀ (base : Nat) (e : Extent) (s : State), s.maps.cur.exts.find? (·.base == base) = some e → (s.ext base).copying = true → e.mirror = 2 →
    let s1 := modExt base (fun x => { x with copying := false }) s
    exec (.mirrorCopyEnd base) s = .next (settle s { s1 with mem.mirror := cellsCopy 0 s.mem.bytes s.mem.mirror (base * 2 ^ 28) (base * 2 ^ 28) (e.granules * 2 ^ 28) })) ∧
  (∀ (base : Nat) (e : Extent) (s : State), s.maps.cur.exts.find? (·.base == base) = some e → (s.ext base).copying = true → e.mirror ≠ 2 →
    (e.mirror == 1 && s.mirrors && !s.twin.copying.isEmpty) = false →
    exec (.mirrorCopyEnd base) s = .next (settle s (modExt base (fun x => { x with copying := false }) s)))

/-- R308, R329, R350, R352, R456, R469: tray pins, links and failures: presence and reset pins, a link up and down, a read that
fails, the failover to the remaining copy and the copy back.
Forms that complete here: trayPrsntN, trayPerstN, trayLinkDown, trayLinkUp, trayReadFail, trayFailover, trayCopyBackEnd. -/
def Obligations.TrayEventsAct : Prop :=
  (∀ (t : Nat) (low : Bool) (s : State), (s.tray t).x8 = false →
    exec (.trayPrsntN t low) s = .next (settle s (modTray t (fun k => { k with present := low }) s))) ∧
  (∀ (t : Nat) (s : State), (s.tray t).x8 = false → (s.tray t).mode = 2 →
    exec (.trayPerstN t true) s = .next (settle s (trayDown t (modTray t (fun k => { k with perstLow := true }) s))) ∧
    exec (.trayPerstN t false) s = .next (settle s (modTray t (fun k => { k with perstLow := false }) s))) ∧
  (∀ (t : Nat) (s : State), (s.tray t).up = true →
    let s1 := modTray t (fun k => { k with up := false, downs := k.downs + 1, creditHeld := false }) s
    ((s.tray t).mode = 1 → exec (.trayLinkDown t) s = .next (settle s (trayFail t s1))) ∧
    ((s.tray t).mode = 2 → exec (.trayLinkDown t) s = .next (settle s (crashPort true t s1))) ∧
    ((s.tray t).mode = 3 → exec (.trayLinkDown t) s = .next (settle s (ashFail t s1)))) ∧
  (∀ (t : Nat) (s : State), (s.tray t).up = false → (s.tray t).present = true → inReset s = false → s.power.started = true →
    s.power.refLost.getD 2 false = false →
    let s1 := modTray t (fun k => { k with up := true, failed := false, perstLow := false }) s
    ((s.tray t).mode = 2 → (s.tray t).perstLow = false → exec (.trayLinkUp t) s = .next (settle s (hostAgent t (creditCheck t s1)))) ∧
    ((s.tray t).mode = 3 → exec (.trayLinkUp t) s = .next (settle s (identify t s1)))) ∧
  (∀ (t : Nat) (k : TrayPort) (s : State), s.trays[t]? = some k → k.mode = 1 → k.up = false → k.present = true → inReset s = false →
    s.power.started = true → s.power.refLost.getD 2 false = false →
    ∃ u, exec (.trayLinkUp t) s = .next u ∧ (u.tray t).up = true ∧ (u.tray t).failed = false ∧ u.mem = s.mem ∧ u.dir = s.dir) ∧
  (∀ (t addr : Nat) (x : Tx) (s : State), (s.tray t).mode = 1 →
    s.dir.txs.find? (fun x => x.phase == .memory && x.line == addr / 64) = some x →
    exec (.trayReadFail t addr) s = .next (settle s (trayFail t (answerReq x.req .damaged 0 0 none none (abandonTx x s))))) ∧
  (∀ (base : Nat) (e : Extent) (s : State), (liveExts s).find? (·.base == base) = some e → (s.ext base).waiting = true →
    (s.tray e.trayPort).failed = true → recoveryRuns s e.part 0x0033 e.trayPort = true →
    ∃ u, exec (.trayFailover base) s = .next u ∧ (u.ext base).waiting = false ∧ (u.ext base).mirrorOnly = true ∧ (u.ext base).trayOnly = false ∧
      u.mem.bytes = cellsCopy 0 s.mem.mirror s.mem.bytes (base * 2 ^ 28) (base * 2 ^ 28) (e.granules * 2 ^ 28) ∧ u.dir = s.dir) ∧
  (∀ (base : Nat) (e : Extent) (s : State), (liveExts s).find? (·.base == base) = some e → (s.ext base).copyBack = true →
    ∃ u, exec (.trayCopyBackEnd base) s = .next u ∧ (u.ext base).copyBack = false ∧ (u.ext base).mirrorOnly = false ∧
      (u.ext base).trayOnly = false ∧ u.mem.bytes = s.mem.bytes ∧ u.dir = s.dir ∧
      u.mem.mirror = cellsCopy 0 s.mem.bytes s.mem.mirror (base * 2 ^ 28) (base * 2 ^ 28) (e.granules * 2 ^ 28))

/-! ## Messages and collectives (chapters 7, 11 and 15) -/

/-- R28, R281 to R289, R432, R493: POST and COLLECT that pass the steps of R289 go on toward their endpoint under a tracker, of the sender's
partition or, for a message in transit, of the system; one that finds none waits, and changes nothing; a POST on a link-local tag other
than the hello's is answered NO_ACCESS; a message of another kind for another endpoint passes the same way; one that has a way but
comes from or goes to a quiesced partition is answered with that status.
R282, R284 to R287: a message whose destination is an accelerator of this module leaves by its port when the tag and the
session fit; one for another module leaves by the stage port of its route with HOPS one higher; one that would reach 16 hops is
answered TIMEOUT and reported, one without a way NO_ACCESS.
Forms that complete here: post, collect, messageForward. -/
def Obligations.MessagesGoTheirWay : Prop :=
  (∀ (p : Nat) (m o q : PktMsg) (s t : State), msgPasses s p m o q false t → (s.port p).kind ≠ 2 →
      let t1 := if (s.port p).kind == 0 then trackMsg p q t else noteTransit p q t
      let plain := linkLocal m = false ∧ ((s.port p).kind = 0 → m.tag < 0xFF00) ∧ (m.tag = migTag → namesMe s m.dst = false)
      (∀ r hops, wayOut t1 q = .ok (r, hops) → quietMsg p q t1 = none → waitsTrk s p = false →
        let go := Host.Outcome.next (φ := Fault) (ρ := Refusal)
          (settle s (enqueue false r (msgSvc q.opc q.tag) q.dst (.pkt .msg { q with hops := hops, heat := 0 }) t1))
        (m.opc = 1 → plain → exec (.post p m) s = go) ∧ (m.opc = 2 → exec (.collect p m) s = go) ∧
        (m.opc = 2 ∨ m.opc = 4 ∨ m.opc = 6 → namesMe s m.dst = false → exec (.messageForward p m) s = go)) ∧
      (∀ r hops st, wayOut t1 q = .ok (r, hops) → quietMsg p q t1 = some st → waitsTrk s p = false →
        (m.opc = 1 → plain → exec (.post p m) s = .next (settle s (answerMsg q st t1))) ∧
        (m.opc = 2 → exec (.collect p m) s = .next (settle s (answerMsg q st t1)))) ∧
      (m.opc = 1 → plain → quietMsg p q t1 = none → waitsTrk s p = false →
        exec (.post p m) s = .next (settle s (passOn (msgSvc q.opc q.tag) q t1))) ∧
      (m.opc = 1 → linkLocal m = true → m.tag ≠ helloTag → (s.port p).kind ≠ 0 → exec (.post p m) s = .next (settle s (refuse p q .noAccess t))) ∧
      (m.opc = 2 → quietMsg p q t1 = none → waitsTrk s p = false →
        exec (.collect p m) s = .next (settle s (passOn (msgSvc q.opc q.tag) q t1))) ∧
      (m.opc = 2 ∨ m.opc = 4 ∨ m.opc = 6 → namesMe s m.dst = false → quietMsg p q t1 = none → waitsTrk s p = false →
        exec (.messageForward p m) s = .next (settle s (passOn (msgSvc q.opc q.tag) q t1))) ∧
      (waitsTrk s p = true → (m.opc = 1 → plain → exec (.post p m) s = .next (settle s s)) ∧
        (m.opc = 2 → exec (.collect p m) s = .next (settle s s)) ∧
        (m.opc = 2 ∨ m.opc = 4 ∨ m.opc = 6 → namesMe s m.dst = false → exec (.messageForward p m) s = .next (settle s s)))) ∧
  (∀ (svc p : Nat) (m : PktMsg) (s : State),
      (leave s (routeMap s m.epoch) m = .accel p → tagFits s m.tenant p = true → attested s p = true →
        passOn svc m s = enqueue false p svc m.dst (.pkt .msg { m with heat := 0 }) s) ∧
      (leave s (routeMap s m.epoch) m = .out p → linkAlive s p = true → (s.port p).sess.phase = 3 →
        passOn svc m s = enqueue false p svc m.dst (.pkt .msg { m with hops := m.hops + 1, heat := 0 }) s) ∧
      (leave s (routeMap s m.epoch) m = .loop → passOn svc m s = answerMsg m .timeout (event 0x0012 true [] none [m.src, m.dst] s)) ∧
      (leave s (routeMap s m.epoch) m = .nowhere → passOn svc m s = answerMsg m .noAccess s))

/-- R9, R243, R255, R282, R285, R334, R432, R433, R493: an answer goes on to the accelerator that awaits it, in the service and with the Heat of
what it answers, and frees its tracker; an answer to a message of the module itself frees its tracker; on a twin link RETRY has the
message sent again; a hello that fits the peer's record is kept and answered OK; a request that has waited 100 ms ends with TIMEOUT, and
one whose link has gone down with NO_ACCESS; the tracker of a message in transit is freed after 100 ms; a POUR under way and a mailbox
command have no such limit.
Forms that complete here: collectAnswer, msgCmp, neighbourHello, requestTimeout. -/
def Obligations.AnswersAndHellosAct : Prop :=
  (∀ (p q : Nat) (m a : PktMsg) (k : Trk) (s : State), let s1 := eatPkt p .msg m s
    (m.opc = 3 ∨ m.opc = 7) → openPkt m = some a → a.rsv = false → (s1.port p).kind = 1 → (s.port p).kind = 1 →
    leave s1 (routeMap s1 a.epoch) a = .accel q → tagFits s1 a.tenant q = true → msgTrk s1 a.dst a.txn = some k →
    let r := Host.Outcome.next (φ := Fault) (ρ := Refusal)
      (settle s (enqueue false q k.svc a.dst (.pkt .msg { a with heat := pinHeat s1 q k.heat }) (freeTrk k.id s1)))
    (m.opc = 3 → exec (.collectAnswer p m) s = r) ∧ (m.opc = 7 → exec (.msgCmp p m) s = r)) ∧
  (∀ (p : Nat) (m a : PktMsg) (k : Trk) (s : State), let s1 := eatPkt p .msg m s
    m.opc = 7 → openPkt m = some a → a.rsv = false → (s.port p).kind = 1 → (s1.port p).kind = 1 →
    leave s1 (routeMap s1 a.epoch) a = .here → s.mem.trks.find? (fun k => k.vc == .msg && k.own.isSome && k.txn == a.txn) = some k →
    a.status ≠ 1 → exec (.msgCmp p m) s = .next (settle s (ownAnswered k.id (statusOf a.status) (freeTrk k.id s1)))) ∧
  (∀ (p : Nat) (m o q : PktMsg) (h : Hello) (r : ConfigRec) (s t : State), m.opc = 1 → m.tag = helloTag → (s.port p).kind ≠ 0 →
    msgPasses s p m o q true t → decHello q.body = some h →
    (t.port p).peer = some r → h.serial = r.serial → h.cell = r.cell → h.module = r.module → h.port = r.port →
    exec (.neighbourHello p m) s = .next (settle s (answerOn p q .ok (elect (modPort p (fun x => { x with hello := some h }) t))))) ∧
  (∀ (id : Nat) (k : Trk) (s : State), s.mem.trks.find? (·.id == id) = some k →
    (k.failed = true → exec (.requestTimeout id) s = .next (settle s (endTracker id .noAccess s))) ∧
    (k.failed = false → k.at_ + 100000000 ≤ s.t → k.vc ≠ .mgt → s.mem.transit.contains id = false → ¬(k.vc = .msg ∧ k.opc = 4) →
      exec (.requestTimeout id) s = .next (settle s (endTracker id .timeout s))) ∧
    (k.failed = false → k.at_ + 100000000 ≤ s.t → k.vc ≠ .mgt → s.mem.transit.contains id = true →
      exec (.requestTimeout id) s = .next (settle s (freeTrk id s))) ∧
    (k.failed = false → k.vc = .msg → k.opc = 4 → s.mem.transit.contains id = false → exec (.requestTimeout id) s = .next (settle s s)) ∧
    (k.failed = false → k.vc = .mgt → exec (.requestTimeout id) s = .next (settle s s))) ∧
  (∀ (p : Nat) (m a : PktMsg) (s : State), (s.port p).kind = 0 → (s.port p).admitted = true → openPkt m = some a → a.rsv = false →
    a.src = accelEp s p →
    let r := Host.Outcome.next (φ := Fault) (ρ := Refusal)
      (settle s (answerOnward { a with tenant := tagOf s (s.port p).owner, hops := 0 } (eatPkt p .msg m s)))
    (m.opc = 3 → exec (.collectAnswer p m) s = r) ∧ (m.opc = 7 → exec (.msgCmp p m) s = r)) ∧
  (∀ (p : Nat) (m a : PktMsg) (s : State), (s.port p).kind = 0 → (s.port p).admitted = false → openPkt m = some a →
    (m.opc = 3 → exec (.collectAnswer p m) s = .next (settle s (eatPkt p .msg m s))) ∧
    (m.opc = 7 → exec (.msgCmp p m) s = .next (settle s (eatPkt p .msg m s)))) ∧
  (∀ (p : Nat) (m a : PktMsg) (s : State), m.opc = 7 → (s.port p).kind = 2 → openPkt m = some a → a.rsv = false →
    a.status = Status.retry.code → exec (.msgCmp p m) s = .next (settle s (mirrorAgain a.txn (eatPkt p .msg m s)))) ∧
  (∀ (p : Nat) (m a : PktMsg) (s : State), m.opc = 7 → (s.port p).kind = 2 → openPkt m = some a → a.rsv = false →
    a.status ≠ Status.retry.code → ((eatPkt p .msg m s).twin.accs.any (·.1 == a.txn)) = false →
    exec (.msgCmp p m) s = .next (settle s (mirrorDone a.txn (eatPkt p .msg m s))))

/-- R186, R188: GROUP_CREATE adds the group that its payload describes; GROUP_DESTROY, while no instance of it runs, removes it with
its instances.
R198, R201: at LOCAL_DL the ranks that have not delivered and the children without END are lost; at RESULT_DL an instance
without its parent's END stops with TIMEOUT, which its children and members hear.
Forms that complete here: groupCreate, groupDestroy, collectiveLocalDeadline, collectiveResultDeadline. -/
def Obligations.GroupsAndDeadlines : Prop :=
  ((∀ (m : MbxId) (j : Job) (s : State), mayRun s m 0x0904 j → groupBad j.payload = false →
      let g := decGroup j.payload
      (s.part? g.part).isSome = true → (j.manager = true ∨ g.part = j.part) → s.group? g.part g.id = none →
      (s.groups.groups.filter (·.part == g.part)).length < 256 →
      ∃ t, exec (.groupCreate m) s = .next (settle s (finish j.id .ok 0 [] t)) ∧ t.groups.groups = s.groups.groups ++ [g] ∧
        t.groups.insts = s.groups.insts ∧ t.mem = s.mem ∧ t.chains = s.chains) ∧
    (∀ (m : MbxId) (j : Job) (s : State), mayRun s m 0x0905 j →
      let id := fldLE j.payload 0 2
      (s.group? j.part id).isSome = true → (s.groups.insts.any fun i => i.of j.part id && liveInst s i) = false →
      ∃ t, exec (.groupDestroy m) s = .next (settle s (finish j.id .ok 0 [] t)) ∧
        t.groups.groups = s.groups.groups.filter (fun g => !(g.part == j.part && g.id == id)) ∧
        t.groups.insts = s.groups.insts.filter (fun i => !i.of j.part id) ∧ t.mem = s.mem ∧ t.chains = s.chains)) ∧
  (∀ (p gid n : Nat) (g : Group) (i : Inst) (s : State), s.group? p gid = some g →
      s.groups.insts.find? (fun i => i.of p gid && i.inst == n && liveInst s i) = some i →
      (i.start + g.localDl ≤ s.ns → i.dlPast = false →
        let own := (g.own.filter fun r => (List.range g.range).any fun k => g.gives r.1 k && !i.has (false, r.1) k).map (·.1)
        let kids := (List.range g.children.length).filter fun c => !i.endKids.contains c
        let ranks := kids.flatMap fun c => (List.range (g.children.getD c (0, 0, 0)).2.1).map ((g.children.getD c (0, 0, 0)).1 + ·)
        exec (.collectiveLocalDeadline p gid n) s = .next (settle s (advanceInst g i.cid (modInst i.cid
          (fun i => { i with dlPast := true, lostRanks := (i.lostRanks ++ own ++ ranks).eraseDups, lostKids := (i.lostKids ++ kids).eraseDups }) s)))) ∧
      (g.root = false → i.start + g.resultDl ≤ s.ns →
        exec (.collectiveResultDeadline p gid n) s = .next (settle s (instTimeout g i i.lostRanks 0 (endBody g i.inst 0 8 [] 0) s))))

/-- R189, R192, R193, R197, R199: a collective's message for this module that passes R289 is taken by its group: a contribution or
partial of a listed source for a tile of the window enters the instance and is answered OK, a RESULT from the parent is delivered
downward, an END from the parent ends the instance, an END from a child counts toward it.
Forms that complete here: contrib, partialMsg, endMsg, result. -/
def Obligations.CollectiveMessagesAct : Prop :=
  ∀ (p x : Nat) (m o q : PktMsg) (g : Group) (i : Inst) (s t : State), m.opc = 6 → (s.port p).kind ≠ 2 → namesMe s m.dst = true →
    msgPasses s p m o q false t → t.power.readyFull = true → collPart t p q = some x →
    t.isQuiesced x = false →
    let h := decColl q.body
    t.group? x h.group = some g → t.groups.insts.find? (fun i => i.of x g.id && i.inst == h.inst && liveInst t i) = some i →
    (∀ src, collSrc t g q h.rank = some src → collBad g src h q.body = false → t.ns < i.start + g.localDl →
      ((List.range h.count).all fun n => (windowOf g i).contains ((h.first + n) / 256) || i.tiles.contains ((h.first + n) / 256)) = true →
      let l := collElems h q.body
      let t1 := if src.1 && g.exact && l.any (fun x => badWord (leNat x.2)) then event 0x000A true [] (some x) [h.group, h.inst] t else t
      let r := Host.Outcome.next (φ := Fault) (ρ := Refusal) (settle s (refuse p q .ok (advanceInst g i.cid (takeElems i.cid src l t1))))
      (h.kind = 0 → exec (.contrib p m) s = r) ∧ (h.kind = 1 → exec (.partialMsg p m) s = r)) ∧
    (∀ src, collSrc t g q h.rank = some src → collBad g src h q.body = false → t.ns < i.start + g.localDl → h.kind = 3 →
      fromParent s p o = false →
      let lost := endRanks q.body
      exec (.endMsg p m) s = .next (settle s (refuse p q .ok (advanceInst g i.cid (modInst i.cid (fun i => { i with
        endKids := (i.endKids ++ [src.2]).eraseDups,
        lostRanks := (i.lostRanks ++ lost).eraseDups,
        unnamed := i.unnamed + (if i.endKids.contains src.2 then 0 else fldLE q.body 18 3 - lost.eraseDups.length),
        lostKids := if fldLE q.body 18 3 = 0 then i.lostKids else (i.lostKids ++ [src.2]).eraseDups }) t))))) ∧
    (h.kind = 2 → g.root = false → sameEp t g.parent q.src = true → t.ns < i.start + g.resultDl → h.rsv = false → h.fmt = g.outFmt →
      q.body.length = 16 + h.count * collBytes h.fmt → h.first + h.count ≤ g.range →
      exec (.result p m) s = .next (settle s (deliverDown g i.cid (collElems h q.body) t))) ∧
    (h.kind = 3 → fromParent s p o = true → g.root = false → t.ns < i.start + g.resultDl → 24 ≤ q.body.length →
      let lost := (i.lostRanks ++ endRanks q.body).eraseDups
      (fldLE q.body 16 2 = 8 → exec (.endMsg p m) s = .next (settle s (instTimeout g i lost (fldLE q.body 18 3) q.body t))) ∧
      (fldLE q.body 16 2 ≠ 8 → exec (.endMsg p m) s = .next (settle s (instEnd g i.cid lost (fldLE q.body 18 3) (endDown g i.cid q.body t)))))

/-! ## Pours, chains and look-ups (chapters 3 and 4) -/

/-- R67, R68, R73, R89 to R91: a pour, by mailbox or message, is accepted into its nook's chain queue unless R68's checks stop it;
templates are registered and removed; a chain whose needs are free is admitted once the lists that admission checks have come, one
that fails its checks stops; a calendar start that finds no room is late; a start that waited runs when the running instance has ended.
Forms that complete here: pour, templateRegister, templateRemove, chainAdmit, templateDeferredStart. -/
def Obligations.ChainsStart : Prop :=
  (∀ (m : MbxId) (j : Job) (x : Bytes × List Bytes) (s : State), mayRun s m 0x0901 j → chainOf j.payload = some x →
    let c := newChain (.mbx j.id) x
    exec (.pour (.mbx m)) s = .next (settle s (acceptChain c (j.manager || c.part == j.part) (startJob j s)))) ∧
  (∀ (p : Nat) (m o q : PktMsg) (x : Bytes × List Bytes) (s t : State), m.opc = 4 → namesMe s m.dst = true → (s.port p).kind < 2 →
    trkFree s (s.port p).owner = true → msgPasses s p m o q false t → chainOf o.body = some x →
    let c := newChain (.msg p q.src q.txn q.epoch q.tag q.tenant q.heat) x
    exec (.pour (.msg p m)) s = .next (settle s (acceptChain c (if (s.port p).kind = 0 then (s.port p).owner == some c.part
      else q.tenant == 0 || (s.part? c.part).elim false fun y => y.tag == q.tenant) t))) ∧
  (∀ (c : Chain) (s : State), acceptStop s c true = none → c.home ≠ 0x7F → ∃ c', (acceptChain c true s).chains.chains = s.chains.chains ++ [c'] ∧
    c'.status = none ∧ c'.cid = s.chains.nextCid ∧ c'.home = c.home ∧ c'.acceptedAt = s.t ∧ c'.hdr = c.hdr ∧ c'.descs = c.descs) ∧
  (∀ (m : MbxId) (j : Job) (x : Bytes × List Bytes) (s : State), mayRun s m 0x0902 j → chainOf (j.payload.drop 8) = some x →
    let id := fldLE j.payload 0 2
    let c := newChain (.template 0 id) x
    zeroAt j.payload 2 6 = true → c.h 255 240 = id → id ≠ 0xFFFF → c.home ≤ 95 → firstBad c = none → tooBig s c = false → c.part = j.part →
    s.nookOwner c.home = .part c.part → moving s c.home = false → s.template? c.home id = none →
    (s.chains.templates.filter (·.nook == c.home)).length < 64 →
    exec (.templateRegister m) s = .next (settle s (finish j.id .ok 0 [] (mirrorDesc j c.part { startJob j s with chains.templates := s.chains.templates ++ [{ part := c.part, id := id, nook := c.home, bytes := j.payload.drop 8 }] })))) ∧
  (∀ (m : MbxId) (j : Job) (t : Template) (s : State), mayRun s m 0x0903 j →
    let id := fldLE j.payload 0 2
    let nook := fldLE j.payload 2 1
    s.template? nook id = some t → t.part = j.part → calendarNames s nook id = false → templateRuns s nook id = false →
    exec (.templateRemove m) s = .next (settle s (finish j.id .ok 0 [] (mirrorDesc j t.part { startJob j s with chains.templates := s.chains.templates.filter fun t => !(t.nook == nook && t.id == id) })))) ∧
  (∀ (nook : Nat) (c : Chain) (s s1 : State),
    let q := s.chains.chains.filter fun c => c.waits && c.home == nook && !(s.twin.giving.elim false fun g => g.1 == c.part)
    let forget := fun (s : State) => (List.range c.descs.length).foldl (fun s i => engForget (stageTok c.cid i) s) s
    (q.find? (·.act.isSome)).or q.head? = some c → hasRoom s nook c = true → admitRead c s = (true, s1) →
    (∀ gs, chainAdmits s1 c = .ok gs → exec (.chainAdmit nook) s = .next (settle s (letRun c gs (forget s1)))) ∧
    (∀ st stage, chainAdmits s1 c = .error (st, stage) → exec (.chainAdmit nook) s = .next (settle s (abort c.cid st stage (forget s1))))) ∧
  (∀ (nook : Nat) (c : Chain) (s s1 : State),
    let q := s.chains.chains.filter fun c => c.waits && c.home == nook && !(s.twin.giving.elim false fun g => g.1 == c.part)
    (q.find? (·.act.isSome)).or q.head? = some c → hasRoom s nook c = true → admitRead c s = (false, s1) →
    exec (.chainAdmit nook) s = .next (settle s s1)) ∧
  (∀ (nook : Nat) (c : Chain) (s : State),
    let q := s.chains.chains.filter fun c => c.waits && c.home == nook && !(s.twin.giving.elim false fun g => g.1 == c.part)
    let forget := fun (s : State) => (List.range c.descs.length).foldl (fun s i => engForget (stageTok c.cid i) s) s
    (q.find? (·.act.isSome)).or q.head? = some c → hasRoom s nook c = true → (mapFor s c.epoch).toOption.isSome = true →
    (c.ds.all fun d => [4, 6, 7, 8, 9, 10, 11].contains d.op || (d.op == 3 && d.f 16 2 == 0)) = true → c.ds.length = c.descs.length →
    exec (.chainAdmit nook) s = .next (settle s (letRun c [] (forget s)))) ∧
  (∀ (nook : Nat) (c : Chain) (s : State),
    let q := s.chains.chains.filter fun c => c.waits && c.home == nook && !(s.twin.giving.elim false fun g => g.1 == c.part)
    (q.find? (·.act.isSome)).or q.head? = some c → hasRoom s nook c = false → c.act.isSome = true → c.late = false →
    exec (.chainAdmit nook) s = .next (settle s (modChain c.cid (fun c => { c with late := true }) s))) ∧
  (∀ (part id : Nat) (a : CalAct) (t : Template) (s : State),
    s.chains.templates.find? (fun t => t.part == part && t.id == id && t.waiting.isSome && !templateRuns s t.nook id) = some t → t.waiting = some a →
    let s1 := launch t a (modTemplate t.nook id (fun t => { t with waiting := none }) s)
    let held := s1.chains.chains.getLast?.elim false fun c => c.late && c.status.isNone
    (held = false → exec (.templateDeferredStart part id) s = .next (settle s (lateAction (some part) 2 t.nook (s1.ns - a.due) a s1))) ∧
    (held = true → exec (.templateDeferredStart part id) s = .next (settle s s1)))

/-- R71, R75, R77 to R88, R92 to R95, R116, R118: a chain's stage goes on when its operands are there and its bitmap of lost
positions is written; a chain one of whose writes has failed stops; a look-up's index is resolved by its engine once its RIT entry has
come, and its row queued on a channel or delivered; a chain that has come to its status answers its requester and leaves; one past
its limit stops with TIMEOUT.
Forms that complete here: memoryResponse, ladleIndex, rowReadDone, chainComplete, chainTimeout. -/
def Obligations.ChainsRunAndEnd : Prop :=
  (∀ (cid i : Nat) (c : Chain) (s : State), let s0 := writeMarks cid i s
    s0.chain? cid = some c → c.holds = true → i < c.descs.length → (c.st i).phase ≠ 5 → engFail s0 c = none → ticketLost s0 c = false →
    let s1 := modChain cid (Chain.take i) s0
    let go := fun (t : State) => exec (.memoryResponse cid i) s = .next (settle s (syncThreads cid t))
    let at0 := fun (op : Nat) => fed c i = true ∧ (c.d i).op = op ∧ (c.st i).phase = 0 ∧ c.cid = cid
    (at0 1 → go (gatherStart cid i s1)) ∧ (at0 2 → go (scatterStart cid i s1)) ∧
    (at0 3 → (c.d i).f 16 2 = 0 → go (reduceRun cid i s1)) ∧ (at0 3 → (c.d i).f 16 2 ≠ 0 → go (groupRun cid i s1)) ∧
    (at0 4 → go (scoreRun cid i s1)) ∧ (at0 5 → go (filterRun cid i s1)) ∧ (at0 6 → go (topkRun cid i s1)) ∧
    (at0 7 → go (dequantRun cid i s1)) ∧ (at0 8 → go (composeRun cid i s1)) ∧ (at0 9 → go (transformRun cid i s1)) ∧
    (at0 10 → go (copyRun cid i s1)) ∧ (at0 11 → go (pushRun cid i s1)) ∧
    (fed c i = true → (c.d i).op = 1 → (c.st i).phase ≠ 0 → c.cid = cid → go (gatherEnd cid i s1)) ∧ (fed c i = false → go s1)) ∧
  (∀ (cid i : Nat) (c : Chain) (x : Status × Nat) (s : State), let s0 := writeMarks cid i s
    s0.chain? cid = some c → c.holds = true → i < c.descs.length → engFail s0 c = some x →
    exec (.memoryResponse cid i) s = .next (settle s (abort cid x.1 x.2 s0))) ∧
  (∀ (cid i : Nat) (c c1 : Chain) (s : State), s.chain? cid = some c → c.cid = cid → c.holds = true → i < c.descs.length → (c.st i).phase = 0 → fed c i = true →
    c.unmarked = [] → engFail s c = none → ticketLost s c = false →
    let s1 := modChain cid (Chain.take i) s
    let d := c.d i
    let s2 := readsDone (stageTok cid i) c.part [(d.src, d.count)] s1
    d.op = 10 → d.srcA = none → s1.chain? cid = some c1 → c1.cid = cid → readsCome (stageTok cid i) c.part (c1.map s1) [(d.src, d.count)] s1 →
    exec (.memoryResponse cid i) s = .next (settle s (syncThreads cid (stageDone cid i 0 [] ((List.range (d.count / 64)).foldl (fun s k =>
      counted cid 1 (stageWrite cid i (d.f 16 8 + 64 * k) (((engBytes s2.2 (stageTok cid i) d.src d.count).drop (64 * k)).take 64)) s)
        (engForget (stageTok cid i) s2.2)))))) ∧
  (∀ (cid i r : Nat) (c : Chain) (x : RowRef) (t tx : Table) (s s0 : State), s.chain? cid = some c → (c.st i).rows[r]? = some x →
    s.table? c.part ((c.d i).f 16 2) = some t → s.table? c.part x.table = some tx → c.holds = true → (c.st i).phase = 1 → (x.state = 0 ∨ x.state = 3) →
    pourAccess s (c.map s) c.part false (tx.d.smap + x.shard) 1 = .ok →
    let nook := shardNook s tx.d x.shard
    let st := c.st i
    let grp := indexGroup s c i r t x
    let fresh := grp.filter fun k => (st.rows.getD k {}).state == 0
    let m := readLines (linesOf (tx.d.smap + x.shard) 1) s
    m.1 = true → ladleUsed s nook + fresh.length ≤ 2048 → (moving s nook = true → startedOn st nook = true) → takeSpread c i nook m.2 = some s0 →
    let asked := grp.foldl (fun s k => (entryRun s c i nook (st.rows.getD k {})).foldl (fun s e => engRead (rowTok cid i k) c.part e.1 e.2 s) s) s0
    ((grp.any fun k => engBusy asked (rowTok cid i k)) = true → exec (.ladleIndex cid i r) s = .next (settle s
      (syncThreads cid (fresh.foldl (fun s k => modRow cid i k (fun x => { x with state := 3, nook := nook }) s) asked)))) ∧
    (∀ c1, (grp.any fun k => engBusy asked (rowTok cid i k)) = false →
      let s1 := grp.foldl (fun s k => sampleRow cid i k nook s) asked
      let rows := grp.map fun k => (k, (c1.st i).rows.getD k {})
      s1.chain? cid = some c1 → c1.status = none → (rows.any (·.2.tray) = true → trayUsed s1 c.part ≤ 682 * (s.nooksOf c.part).length) →
      let n := (st.idxs.filter fun p => !p.lost && (rowsOf s t (leNat p.data)).any fun w =>
        grp.any fun k => ((st.rows.getD k {}).table, (st.rows.getD k {}).row) == w).length
      let s2 := syncThreads cid (handOver c1 i (rowLines tx.d) t x.shard rows (if leafMode (c.d i) t then bagsOfRow s t st x else []) s1)
      exec (.ladleIndex cid i r) s = .next (settle s (if tx.d.storage = 2 then s2 else addLoad c.part x.table x.shard n s2)))) ∧
  (∀ (cid i r : Nat) (c : Chain) (x : RowRef) (s : State), s.chain? cid = some c → (c.st i).rows[r]? = some x → x.state = 1 → x.wait = 0 →
    c.status = none → engBusy s (rowTok cid i r) = false → ((anyExtent s x.addr).elim false fun e => (s.ext e.base).waiting) = false →
    exec (.rowReadDone cid i r) s = .next (settle s (deliverMem cid i r s))) ∧
  (∀ (cid : Nat) (c : Chain) (s : State), s.chain? cid = some c → c.unmarked = [] →
    let lost := max (c.lostCount.getD 0) c.lost.length
    let go := fun (st : Status) (stage : Nat) =>
      let t := count (some c.part) (fun t => { t with chainsDone := t.chainsDone + 1, chainsNotOk := t.chainsNotOk + b2n (st != .ok) })
        (answerChain c st stage lost (instStop cid (leaveChans cid (leaveWaves cid s))))
      exec (.chainComplete cid) s = .next (settle s (fencesGo (quiesceCheck c.part (destroyCheck (dropChain cid
        (if c.mirrored then mirrorState c.part (.chainEnd cid) t else t))))))
    (∀ st stage, c.status = some (st, stage) → go st stage) ∧
    (c.status = none → c.admitted = true → c.stages.all (·.phase == 5) = true → engQuiet s c = true → c.pushes = [] →
      (∀ st stage, engFail s c = some (st, stage) → st ≠ .partialLost → go st stage) ∧ (engFail s c = none → lost = 0 → go .ok 0) ∧
      (engFail s c = none → lost ≠ 0 → go .partialLost ((((List.range c.descs.length).find? fun i => (c.st i).out.any (·.lost)).or
        ((List.range c.descs.length).find? fun i => (c.d i).op ∈ [2, 3, 5])).getD 0)))) ∧
  (∀ (cid : Nat) (c : Chain) (s : State), s.chain? cid = some c → c.unmarked = [] → (c.status.isSome = true ∨
      (c.admitted = true ∧ c.stages.all (·.phase == 5) = true ∧ engQuiet s c = true ∧ c.pushes = [])) →
    ∃ t, exec (.chainComplete cid) s = .next t ∧ t.chain? cid = none ∧ t.mem.bytes = s.mem.bytes ∧ t.maps = s.maps) ∧
  (∀ (cid : Nat) (c : Chain) (s : State), s.chain? cid = some c → c.h 319 288 ≠ 0 → c.acceptedAt + 1000 * c.h 319 288 ≤ s.t →
    exec (.chainTimeout cid) s = .next (settle s (abort cid .timeout
      (((List.range c.stages.length).find? fun i => (c.st i).phase != 5).getD 0) s)))

/-- R156 to R169, R181 to R185: strokes start and end on their channel, refresh and patrol scrub fall due and run, a leaf's value
leaves its unit or is lost after a second failed check.
Forms that complete here: strokeStart, strokeEnd, refreshDue, refreshFallback, refreshEnd, scrubDue, scrubFallback, scrubBurst,
benchTransfer. -/
def Obligations.ChannelEventsAct : Prop :=
  (∀ (c : Nat) (x : Stroke) (rest : List Stroke) (s : State), (s.chan c).strokes = x :: rest → strokeFree s c = true →
    chanHolds s c = [] → (queueHead s c = none ∨ 32 ≤ (s.chan c).served) →
    (∀ y ys, x.kind = .forward → shedRows x s = (x, s) → x.cols ≠ 0 → recutRows s x = y :: ys →
      exec (.strokeStart c) s = .next (settle s (feedChan c (modChan c (fun k => { k with
        strokes := (ys ++ rest).take 32, held := (ys ++ rest).drop 32 ++ k.held, running := some y, strokeAt := s.t }) s)))) ∧
    (x.kind = .forward → exec (.strokeStart c) s = .next (settle s (startRows c s))) ∧
    (∀ l, x.kind = .leaf → (s.chan c).leaves.find? x.isLeaf = some l → l.taken = true →
      exec (.strokeStart c) s = .next (settle s (startRows c s))) ∧
    (∀ l, x.kind = .leaf → (s.chan c).leaves.find? x.isLeaf = some l → l.taken = false → (s.chan c).leafUsed + l.accs ≤ 16384 →
      let take := fun (l : Leaf) => { l with taken := true }
      let room := fun (k : Chan) => { k with leafUsed := k.leafUsed + l.accs, leaves := modWhere x.isLeaf take k.leaves }
      exec (.strokeStart c) s = .next (settle s (startRows c (modChan c room s)))) ∧
    (∀ l, x.kind = .leaf → (s.chan c).leaves.find? x.isLeaf = some l → l.taken = false → 16384 < (s.chan c).leafUsed + l.accs →
      let own := fun (y : Stroke) => y.kind == .leaf && y.isLeaf l
      let plain := fun (y : Stroke) => { y with kind := .forward }
      exec (.strokeStart c) s = .next (settle s (startRows c (modChan c (fun k => { k with
        leaves := k.leaves.filter (! x.isLeaf ·), strokes := modWhere own plain k.strokes, held := modWhere own plain k.held }) s)))) ∧
    (x.kind = .zero → nookBare s (chanNook c) = true → exec (.strokeStart c) s = .next (settle s (modChan c (fun k => { k with
      strokes := rest, running := some { x with cols := strokeCols s }, strokeAt := s.t }) s))) ∧
    (x.kind = .zero → nookBare s (chanNook c) = false →
      exec (.strokeStart c) s = .next (settle s (feedChan c (modChan c (fun k => { k with strokes := rest, zeroLine := none }) s)))) ∧
    (let s1 := feedChan c (modChan c (fun k => { k with strokes := rest }) s)
     let cut := recutAtomics s1 x.reqs
     let q := if cut.2.isEmpty then (s1.chan c).strokes else { x with reqs := cut.2 } :: (s1.chan c).strokes
     x.kind = .atomic → x.reqs ≠ [] → x.reqs.all (fun q => atomicStays s q && !atomicWaits s1 q) = true →
      exec (.strokeStart c) s = .next (settle s (modChan c (fun k => { k with
        strokes := q.take 32, held := q.drop 32 ++ k.held, running := some { x with reqs := cut.1 }, strokeAt := s.t }) s1))) ∧
    (x.kind = .atomic → x.reqs.any (atomicStays s ·) = false → exec (.strokeStart c) s = .next (settle s (feedChan c
      { modChan c (fun k => { k with strokes := rest }) s with dir.waitq := (x.reqs.map fun q => { q with held := true }) ++ s.dir.waitq })))) ∧
  (∀ (c : Nat) (x : Stroke) (s : State), (s.chan c).running = some x →
    let s1 := modChan c (fun k => { k with running := none, strokeAt := s.t, served := 0 }) s
    let go := fun (t : State) => let u := moreZero c (refill c (feedChan c (clearCheck t)))
      exec (.strokeEnd c) s = .next (settle s (if (u.chan c).refPend then startRefresh c u else u))
    (x.kind = .atomic → go (x.reqs.foldl (fun s q => strokeAtomic q s) s1)) ∧
    (x.kind = .forward → go (x.rows.foldl (fun s r => deliverMem x.cid x.stage r s) s1)) ∧
    (x.kind = .leaf → go (modChan c (fun k => { k with leaves := modWhere x.isLeaf (fun l => { l with left := l.left - 1 }) k.leaves })
      (x.rows.foldl (fun s r => deliverMem x.cid x.stage r s) s1))) ∧
    (x.kind = .zero → go (zeroEnd c x.cols s1))) ∧
  (∀ (c : Nat) (x : Stroke) (q : LineReq) (e : Extent) (s : State), (s.chan c).running = some x → x.kind = .atomic → (s.chan c).refPend = false →
    (s.maps.ext.any fun x => x.clearJob.isSome) = false → (s.chan c).segWait = [] → x.reqs = [q] → anyExtent s (64 * q.line) = some e →
    releasing s e = false →
    let g := readLine q.line (modChan c (fun k => { k with running := none, strokeAt := s.t, served := 0 }) s)
    g.1 = true → lineDamaged g.2 e (64 * q.line) = false →
    let r := applyAtomic q.m (memRead g.2 (64 * q.line) 64)
    ∃ t, exec (.strokeEnd c) s = .next t ∧ t.maps = s.maps ∧
      t.mem.bytes = (storeLine q.line r.1 g.2).mem.bytes ∧ t.mem.mirror = (storeLine q.line r.1 g.2).mem.mirror) ∧
  (∀ (c : Nat) (s : State), c < 768 → (s.chan c).retired = false → scheduled s c = false → (s.chan c).refDue ≤ s.t → (s.chan c).refPend = false →
    (s.chan c).refBusy = false →
    let s1 := modChan c (fun k => { k with refDue := k.refDue + tRefi k }) s
    ((s1.chan c).running = none → exec (.refreshDue c) s = .next (settle s (startRefresh c s1))) ∧
    ((s1.chan c).running.isSome = true → exec (.refreshDue c) s = .next (settle s (modChan c (fun k => { k with refPend := true }) s1)))) ∧
  (∀ (c : Nat) (s : State), c < 768 → (s.chan c).retired = false → scheduled s c = true → (s.chan c).refPend = false → (s.chan c).refBusy = false →
    let lim := (s.chan c).refLast + tRefi (s.chan c) + 600
    lim ≤ s.t → exec (.refreshFallback c) s = .next (settle s (dueRefresh c (lateAction (s.chanOwner c) 4 (c / 32) (s.t - lim + 600) (actAt s s.slot) s)))) ∧
  (∀ (c : Nat) (s : State), exec (.refreshEnd c) s = .next (settle s (modChan c (fun k => { k with refBusy := false }) s))) ∧
  (∀ (c : Nat) (s : State), c < 768 → (s.chan c).retired = false → scheduled s c = false → (s.chan c).scrubDue ≤ s.t → (s.chan c).scrubPend = false →
    exec (.scrubDue c) s = .next (settle s (modChan c (fun k => { k with scrubPend := true, scrubDue := k.scrubDue + 64000000 }) s))) ∧
  (∀ (c : Nat) (s : State), c < 768 → (s.chan c).retired = false → scheduled s c = true → (s.chan c).scrubPend = false →
    let lim := (s.chan c).scrubLast + 64000600
    lim ≤ s.t → exec (.scrubFallback c) s = .next (settle s (modChan c (fun k => { k with scrubPend := true })
      (lateAction (s.chanOwner c) 5 (c / 32) (s.t - lim + 600) (actAt s s.slot) s)))) ∧
  (∀ (c : Nat) (s : State), (s.chan c).scrubPend = true → (s.chan c).running = none → (s.chan c).refPend = false → (s.chan c).refBusy = false →
    windowOpen s c = false → s.mem.weak = [] →
    let p := (s.chan c).scrubNext
    let s1 := modChan c (fun k => { k with scrubPend := false, scrubLast := s.t, scrubNext := (p + 32) % 2 ^ 25 }) s
    exec (.scrubBurst c [] []) s = .next (settle s s1) ∧
    (∀ l j, j < 32 → linesAt s1 c (p + j) = [l] → inTable s1 c l = false → l < 2 ^ 46 →
      exec (.scrubBurst c [] [j]) s = .next (settle s (badRead l s1).2) ∧
      exec (.scrubBurst c [j] []) s = .next (settle s (corrected c 1 s1))) ∧
    (∀ j, j < 32 → linesAt s1 c (p + j) = [] → (s.chan c).damaged.contains (bareLine (p + j)) = false →
      exec (.scrubBurst c [] [j]) s = .next (settle s (addDamaged c (bareLine (p + j)) s1)) ∧
      exec (.scrubBurst c [j] []) s = .next (settle s (corrected c 1 s1)))) ∧
  (∀ (c n : Nat) (l : Leaf) (s : State), benchSlot s c = some n → benchNext s c = some l →
    let s1 := modChan c (fun k => { k with slotUsed := some n }) s
    let upd := fun (f : Leaf → Leaf) => modChan c (fun k => { k with leaves := modWhere (· == l) f k.leaves }) s1
    (l.hops + 1 < (l.accs + 127) / 128 → exec (.benchTransfer c true) s = .next (settle s (upd fun l => { l with hops := l.hops + 1, resent := false }))) ∧
    ((l.accs + 127) / 128 ≤ l.hops + 1 → lowest s1 c l = true →
      exec (.benchTransfer c true) s = .next (settle s ((benchStep s1 c l).foldl (fun s x => dropLeaf x.1 x.2 s) s1))) ∧
    ((l.accs + 127) / 128 ≤ l.hops + 1 → lowest s1 c l = false →
      exec (.benchTransfer c true) s = .next (settle s (modChan c (fun k => { k with
        leaves := modWhere (· == l) (fun x => { x with sent := true, resent := false }) k.leaves, leafUsed := k.leafUsed - l.accs }) s1))) ∧
    (l.resent = false → exec (.benchTransfer c false) s = .next (settle s (upd fun l => { l with resent := true }))) ∧
    (l.resent = true → exec (.benchTransfer c false) s = .next (settle s (event 0x000E true [] ((s1.chain? l.cid).map (·.part)) [c, l.cid, l.stage]
      ((if lowest s1 c l then benchStep s1 c l else [(c, l)]).foldl (fun s x => loseLeaf x.1 x.2 s) s1)))))

/-! ## Tables (chapters 4 to 6) -/

/-- R97, R99, R126, R128, R135 to R138, R142, R145, R148, R153: the table commands: a table is created and destroyed, rows are pinned and
unpinned, updating is set, slots are added, a step is closed, a row is written, a generation is begun, sealed, committed and aborted,
shards migrate, loads are read.
Forms that complete here: tableCreate, tableDestroy, tableCacheUnpin, tableCachePin, tableSlotsAdd, stepClose, tableRowWrite,
tableGenBegin, tableGenSeal, tableGenCommit, tableGenAbort, tableMigrateOut, tableMigrateCommit, tableMigrateRelease, tableShardLoad,
tableUpdateSet. -/
def Obligations.TableCommandsComplete : Prop :=
  (∀ (m : MbxId) (j : Job) (s : State), mayRun s m 0x0801 j →
    let d := decTable (leNat j.payload)
    tableBad (leNat j.payload) = false → (s.part? d.part).isSome = true → (j.manager = true ∨ d.part = j.part) → s.nookOwner d.coord = .part d.part →
    movingFor s d.part d.coord = false → s.table? d.part d.id = none → (s.tables.filter (·.d.part == d.part)).length < 4096 →
    let s1 := startJob j s
    let g := readsDone (jobTok j) d.part [(d.smap, d.shards)] s1
    let s2 := engForget (jobTok j) g.2
    (d.storage = 2 → composedBad s d = false → composedGone s d = false → exec (.tableCreate m) s = .next (settle s (finish j.id .ok 0 []
      (mirrorTable j d.part d.id { s1 with tables := s.tables ++ [{ d := d }] })))) ∧
    (d.storage ≠ 2 → inExtents s d.part d.rit (16 * d.phys) = true → inExtents s d.part d.smap d.shards = true →
      readsCome (jobTok j) d.part s.maps.cur [(d.smap, d.shards)] s1 →
      (engBytes g.2 (jobTok j) d.smap d.shards).any (fun b => s.nookOwner b.toNat != .part d.part) = false →
      exec (.tableCreate m) s = .next (settle s (finish j.id .ok 0 [] (mirrorTable j d.part d.id { s2 with tables := s.tables ++ [{ d := d }] }))))) ∧
  (∀ (m : MbxId) (j : Job) (t : Table) (s : State), mayRun s m 0x0802 j →
    let id := fldLE j.payload 0 2
    s.table? j.part id = some t → t.destroyJob = none →
    (s.tables.any fun x => x.d.part == j.part && x.d.storage = 2 && (x.d.subQ == id || x.d.subR == id)) = false →
    exec (.tableDestroy m) s = .next (settle s (destroyCheck (modTable j.part id (fun t => { t with destroyJob := some j.id })
      (mirrorTable j j.part id (startJob j s)))))) ∧
  (∀ (m : MbxId) (j : Job) (t : Table) (s : State), mayRun s m 0x0804 j →
    let id := fldLE j.payload 0 2
    let n := fldLE j.payload 2 2
    let is := (List.range n).map fun k => fldLE j.payload (8 + 8 * k) 8
    zeroAt j.payload 4 4 = true → j.payload.length = 8 + 8 * n → n ≤ 511 → useTable s j.part id = .ok t → t.d.cache = 2 → t.d.storage ≠ 2 →
    is.all (idxValid t.d ·) = true →
    let gone := fun (r : Nat) => ((is.map (physRow t.d)).eraseDups).contains r
    exec (.tableCacheUnpin m) s = .next (settle s (finish j.id .ok 0 [] (modTable j.part id
      (fun t => { t with pinned := t.pinned.filter (! gone ·), cold := t.cold.filter (! gone ·) }) (startJob j s))))) ∧
  (∀ (m : MbxId) (j : Job) (t : Table) (s : State), mayRun s m 0x0803 j →
    let id := fldLE j.payload 0 2
    let n := fldLE j.payload 2 2
    let is := (List.range n).map fun k => fldLE j.payload (8 + 8 * k) 8
    let fresh := ((is.map (physRow t.d)).eraseDups).filter (! t.pinned.contains ·)
    let nookOf := fun (r : Nat) => shardNook s t.d (t.d.shardOf r)
    let need := fun (k : Nat) => rowLines t.d * (fresh.filter (nookOf · == k)).length
    let ns := (fresh.map nookOf).eraseDups
    zeroAt j.payload 4 4 = true → j.payload.length = 8 + 8 * n → n ≤ 511 → useTable s j.part id = .ok t → t.d.cache = 2 → t.d.storage ≠ 2 →
    is.all (idxValid t.d ·) = true →
    ((∀ k ∈ ns, cacheLines s j.part k false + need k ≤ cacheCap s j.part) →
      exec (.tableCachePin m) s = .next (settle s (finish j.id .ok 0 [] (modTable j.part id (fun t => { t with pinned := t.pinned ++ fresh, cold := t.cold ++ fresh })
        (ns.foldl (fun s k => makeRoom j.part k (need k) (cacheLines s j.part k true) s) (startJob j s)))))) ∧
    ((∃ k ∈ ns, cacheCap s j.part < cacheLines s j.part k false + need k) →
      exec (.tableCachePin m) s = .next (settle s (finish j.id .busy 0 [] (startJob j s))))) ∧
  (∀ (m : MbxId) (j : Job) (t : Table) (s : State), mayRun s m 0x0806 j →
    let id := fldLE j.payload 0 2
    let n := fldLE j.payload 4 4
    let a := fldLE j.payload 8 8
    useTable s j.part id = .ok t → zeroAt j.payload 2 2 = true → n ≠ 0 → a % 64 = 0 → addrBad a = false → t.d.storage ≠ 2 →
    inOneExtent s j.part a (n * (64 * rowLines t.d)) (fun e => !e.coh && e.devown) = true →
    exec (.tableSlotsAdd m) s = .next (settle s (finish j.id .ok 0 [] (mirrorTable j j.part id (modTable j.part id
      (fun x => (List.range n).foldl (fun x k => freeSlot s x (a + k * (64 * rowLines t.d))) x) (startJob j s)))))) ∧
  (∀ (m : MbxId) (j : Job) (t : Table) (s : State), mayRun s m 0x0807 j →
    let id := fldLE j.payload 0 2
    let step := fldLE j.payload 4 4
    zeroAt j.payload 2 2 = true → useTable s j.part id = .ok t → t.u.isSome = true →
    (stepClosed t.closed step = true → ((t.due step).isEmpty = true ∨ t.close.isSome = true) →
      exec (.stepClose m) s = .next (settle s (finish j.id .ok 0 [] (startJob j s)))) ∧
    (stepClosed t.closed step = false → exec (.stepClose m) s = .next (settle s (mirrorTable j j.part id
      (startClose j.part id { step := step, job := some j.id } (startJob j s)))))) ∧
  (∀ (m : MbxId) (j : Job) (t t' : Table) (a : Nat) (s : State), mayRun s m 0x0808 j →
    let id := fldLE j.payload 0 2
    let r := fldLE j.payload 8 8
    let src := fldLE j.payload 16 8
    let size := rowBytes t.d.fmt t.d.elems
    let s1 := startJob j s
    let g := readsDone (jobTok j) j.part [(src, size)] s1
    let s2 := engForget (jobTok j) g.2
    let new := engBytes g.2 (jobTok j) src size
    useTable s j.part id = .ok t → zeroAt j.payload 3 5 = true → t.d.storage ≠ 2 → r < t.d.phys → migrated t r = false →
    readsCome (jobTok j) j.part s1.maps.cur [(src, size)] s1 →
    (let e := entryOf s2 t t.d.gen r
     fldLE j.payload 2 1 = 0 → takeSlot t (entValid e && (slotNook s2 (entAddr e)).isNone) (shardNook s2 t.d (t.d.shardOf r)) = some (a, t') →
     let s3 := swapEntry t r a t.d.gen (memWrite a new (modTable j.part id (fun _ => t') s2))
     exec (.tableRowWrite m) s = .next (settle s (finish j.id .ok 0 [] (resendRow j.part id r (batchEnd j.part id
       (if entValid e then retire j.part id (entAddr e) s3 else s3)))))) ∧
    (let e := entryOf s2 t (t.d.gen + 1) r
     fldLE j.payload 2 1 = 1 → t.genState = 2 → takeSlot t (entValid e && (slotNook s2 (entAddr e)).isNone) (shardNook s2 t.d (t.d.shardOf r)) = some (a, t') →
     let s3 := setEntry t (t.d.gen + 1) r (ritEntry (t.d.gen + 1) true false (a / 64)) (memWrite a new (modTable j.part id (fun _ => t') s2))
     exec (.tableRowWrite m) s = .next (settle s (finish j.id .ok 0 [] (resendRow j.part id r (batchEnd j.part id
       (if entValid e && entGen e == (t.d.gen + 1) % 65536 then retire j.part id (entAddr e) s3 else s3))))))) ∧
  (∀ (m : MbxId) (j : Job) (t : Table) (s : State), let id := fldLE j.payload 0 2
    useTable s j.part id = .ok t → t.d.storage ≠ 2 →
    let s1 := mirrorTable j j.part id (startJob j s)
    (mayRun s m 0x0809 j → t.genState = 0 → exec (.tableGenBegin m) s = .next (settle s
      (modTable j.part id (fun t => { t with genState := 1, genJob := some j.id })
        (memCopy (t.d.ritAt t.d.gen 0) (t.d.ritAt (t.d.gen + 1) 0) (8 * t.d.phys) s1)))) ∧
    (mayRun s m 0x080A j → t.genState = 2 → exec (.tableGenSeal m) s = .next (settle s
      (finish j.id .ok 0 [] (batchEnd j.part id (modTable j.part id (fun t => { t with genState := 3 }) s1))))) ∧
    (mayRun s m 0x080B j → t.genState = 3 → exec (.tableGenCommit m) s = .next (settle s (modTable j.part id
      (fun x => { x with d := { t.d with gen := (t.d.gen + 1) % 65536 }, genState := 4, genJob := some j.id, auto := [] }) s1))) ∧
    (mayRun s m 0x080C j → t.genState = 2 ∨ t.genState = 3 → exec (.tableGenAbort m) s = .next (settle s
      (modTable j.part id (fun t => { t with genState := 5, genJob := some j.id }) s1)))) ∧
  (∀ (m : MbxId) (j : Job) (t : Table) (l : List Nat) (s s2 : State), mayRun s m 0x080D j →
    let b := j.payload
    let p := fldLE b 0 1
    let id := fldLE b 2 2
    zeroAt b 1 1 = true → zeroAt b 10 2 = true → p ≤ 15 → fldLE b 12 4 < 2 ^ 22 → useTable s p id = .ok t → t.d.storage ≠ 2 → fldLE b 8 2 ≠ 0 →
    fldLE b 6 2 + fldLE b 8 2 ≤ t.d.shards → t.migr = [] →
    let sh := migShape t.d
    migSend p (fldLE b 12 4) (migHdr (fldLE b 4 2) 0 t.d.fmt 0 (fldLE b 6 2) 0 (ownId s) sh.length) sh (startJob j s) = (.ok l, s2) →
    exec (.tableMigrateOut m) s = .next (settle s (modTable p id (fun t => { t with migr := t.migr ++ [{ first := fldLE b 6 2, count := fldLE b 8 2, dest := fldLE b 12 4, dtable := fldLE b 4 2, job := some j.id, trk := l.head? }] }) s2))) ∧
  (∀ (m : MbxId) (j : Job) (t : Table) (r hops : Nat) (s : State), mayRun s m 0x080D j →
    let b := j.payload
    let p := fldLE b 0 1
    let id := fldLE b 2 2
    zeroAt b 1 1 = true → zeroAt b 10 2 = true → p ≤ 15 → fldLE b 12 4 < 2 ^ 22 → useTable s p id = .ok t → t.d.storage ≠ 2 → fldLE b 8 2 ≠ 0 →
    fldLE b 6 2 + fldLE b 8 2 ≤ t.d.shards → t.migr = [] → (migShape t.d).length ≤ migData →
    let s1 := startJob j s
    let body := migHdr (fldLE b 4 2) 0 t.d.fmt 0 (fldLE b 6 2) 0 (ownId s) (migShape t.d).length ++ migShape t.d
    let msg : PktMsg := { dst := fldLE b 12 4, src := ownId s, opc := 1, epoch := s.maps.cur.epoch, tenant := tagOf s (some p), tag := migTag, bytes := body.length, body := body }
    wayOut s1 msg = .ok (r, hops) → isAccel s1 r = false → (s.dsax[r]?).isSome = true → trkFree s1 (some p) = true →
    let n := s.mem.nextTrk
    ∃ u, exec (.tableMigrateOut m) s = .next u ∧ (u.mem.trks.any fun k => k.id == n && k.own == some { msg with txn := n % 2 ^ 20 }) = true ∧
      (u.dport false r).q.length = ((s1.dport false r).q.length + 1) ∧
      u.tables = modWhere (fun x => x.d.part == p && x.d.id == id) (fun t => { t with migr := t.migr ++ [{ first := fldLE b 6 2, count := fldLE b 8 2, dest := fldLE b 12 4, dtable := fldLE b 4 2, job := some j.id, trk := some n }] }) s.tables) ∧
  (∀ (m : MbxId) (j : Job) (t : Table) (g : Migr) (s : State), let b := j.payload
    zeroAt b 1 1 = true → fldLE b 0 1 ≤ 15 → useTable s (fldLE b 0 1) (fldLE b 2 2) = .ok t →
    t.migr.find? (fun m => m.first == fldLE b 4 2 && m.count == fldLE b 6 2 && !m.released) = some g →
    (mayRun s m 0x080E j → g.committed = false → g.job = none →
      let sent := (t.accs.filter fun a => g.has (t.d.shardOf a.row)).foldl (fun (x : Status × State) a => if x.1 ≠ .ok then x else migAcc t g a x.2)
        (migRows t g g.again (startJob j s))
      (sent.1 = .ok → exec (.tableMigrateCommit m) s = .next (settle s (migDone t.d.part t.d.id g.first
        (modMigr t g (fun m => { m with committed := true, again := [], job := some j.id }) sent.2)))) ∧
      (sent.1 ≠ .ok → exec (.tableMigrateCommit m) s = .next (settle s (finish j.id sent.1 0 [] sent.2)))) ∧
    (mayRun s m 0x080F j → g.committed = true → g.job = none →
      let slots := ((rowsIn t.d g.first g.count).filter (! t.gone ·)).filterMap fun r =>
        let e := entryOf (startJob j s) t t.d.gen r
        if entValid e then some (entAddr e) else none
      let s1 := slots.foldl (fun s a => retire t.d.part t.d.id a s) (startJob j s)
      let now := (s1.chains.chains.filter fun c => c.admitted && !c.ended).map (·.cid)
      exec (.tableMigrateRelease m) s = .next (settle s (finish j.id .ok 0 [] (batchEnd t.d.part t.d.id
        (modMigr t g (fun m => { m with released := true, relStep := t.closed, before := now }) s1)))))) ∧
  (∀ (m : MbxId) (j : Job) (t : Table) (s : State), mayRun s m 0x0810 j →
    let first := fldLE j.payload 2 2
    let n := fldLE j.payload 4 2
    useTable s j.part (fldLE j.payload 0 2) = .ok t → n ≤ 1023 → first + n ≤ t.d.shards →
    exec (.tableShardLoad m) s = .next (settle s (finish j.id .ok 0 ((List.range n).flatMap fun k => toLE 4 (sat32 (shardLoad t (first + k)))) (startJob j s)))) ∧
  (∀ (m : MbxId) (j : Job) (t : Table) (s : State), mayRun s m 0x0805 j →
    let x := leNat j.payload
    let id := bits x 15 0
    let list := bits x 447 384
    let runs := [(list, 768), (t.d.smap, t.d.shards)]
    let g := readsDone (jobTok j) j.part runs (startJob j s)
    let s2 := engForget (jobTok j) g.2
    let raw := engBytes g.2 (jobTok j) list 768
    let u : UDesc := { decUpdate x with uareas := (List.range 96).map fun n => fldLE raw (8 * n) 8 }
    bits x 199 48 = 0 → bits x 43 42 = 0 → bits x 39 16 = 0 → u.rule ≠ 3 → addrBad u.stateAddr = false → (u.rule = 2 ↔ u.stateAddr ≠ 0) →
    addrBad list = false → (fp32.dec u.lo).isNan = false → (fp32.dec u.hi).isNan = false → Num.lt (fp32.dec u.hi) (fp32.dec u.lo) = false →
    useTable s j.part id = .ok t → t.d.storage ≠ 2 → inExtents s j.part list 768 = true →
    (u.rule = 2 → inExtents s j.part u.stateAddr (4 * t.d.phys) = true) → readsCome (jobTok j) j.part s.maps.cur runs (startJob j s) →
    (u.uareas.zipIdx.any fun a => a.1 != 0 && (addrBad a.1 || !inOneExtent s2 j.part a.1 (areaBytes t.d u) fun e =>
      !e.tray && !e.coh && e.devown && e.nook == a.2)) = false →
    ((engBytes g.2 (jobTok j) t.d.smap t.d.shards).any fun b => u.uareas.getD b.toNat 0 == 0) = false → stepOpen t = false →
    exec (.tableUpdateSet m) s = .next (settle s (finish j.id .ok 0 [] (mirrorTable { j with payload := j.payload ++ raw } j.part id
      (modTable j.part id (fun t => { t with u := some u, closed := bits x 231 200 }) s2)))))

/-- R130 to R134, R138 to R143, R145 to R153: what the update engine does in time: a home takes its batch whole; a close applies the
rows due and completes; the wait for a slot ends with BUSY; slots of a past wave are freed; a generation's copy and drain end; load
buckets and the balancer tick; a shard's rows move and its map changes; a migrated message is refused or kept.
Forms that complete here: scatterBatch, stepApply, applySlotTimeout, closeComplete, slotWaveFree, genCopyEnd, genDrainEnd, loadBucketTick,
balancerTick, shardMoveRow, shardMoveEnd, migrationRowArrival. -/
def Obligations.UpdateEventsAct : Prop :=
  (∀ (cid i home : Nat) (c : Chain) (t t' : Table) (s : State), s.chain? cid = some c → c.holds = true → (c.d i).op = 2 → (c.st i).phase = 2 →
    (c.st i).homes = [home] → (c.st i).late = false → s.table? c.part ((c.d i).f 16 2) = some t →
    let rows := ((c.st i).rows.zipIdx.filter fun r => r.1.nook == home && !r.1.lost && r.1.state == 1).map fun r => (r.1.row, ((c.st i).ups.getD r.2 {}).data)
    let gone := t.migr.filter (·.committed)
    let rest := rows.filter fun x => !gone.any (·.has (t.d.shardOf x.1))
    let away := fun (s : State) => gone.foldl (fun s m =>
      let mine := rows.filter fun x => m.has (t.d.shardOf x.1)
      if mine.isEmpty then s else forwardBatch cid i t m mine s) s
    let b := takeBatch s t home ((c.d i).f 20 4) (c.requester s) c.reqId (c.d i).inF rest
    let left := fun (late : Bool) (s : State) => modStage cid i (fun x => { x with homes := x.homes.filter (· != home), late := x.late || late }) s
    (rest = [] → rows ≠ [] → exec (.scatterBatch cid i home) s = .next (settle s (stageDone cid i 0 [] (left false (away s))))) ∧
    ((rest ≠ [] ∨ rows = []) →
      (∀ t1, stepClosed t.closed ((c.d i).f 20 4) = false →
        (t.receipts.any fun r => r.src == c.requester s && r.reqId == c.reqId && r.step == (c.d i).f 20 4 && r.nook == home) = false →
        slotsUsed t home + (((rest.map (·.1)).eraseDups).filter fun r =>
          !t.accs.any fun a => a.row == r && a.step == (c.d i).f 20 4 && a.nook == home).length ≤ t.u.elim 0 (·.slots) →
        ((s.tables.map fun x => (x.receipts.filter (·.nook == home)).length)).sum < 65536 →
        rest.foldlM (fun t x => addRowTo t home ((c.d i).f 20 4) x.1 (c.d i).inF x.2) t = some t1 →
        exec (.scatterBatch cid i home) s = .next (settle s (stageDone cid i 0 [] (left false (away (modTable c.part t.d.id (fun _ =>
          { t1 with receipts := t1.receipts ++ [{ src := c.requester s, reqId := c.reqId, step := (c.d i).f 20 4, nook := home }] }) s)))))) ∧
      (b = .taken t' → exec (.scatterBatch cid i home) s = .next (settle s (stageDone cid i 0 [] (left false (away (modTable c.part t.d.id (fun _ => t') s)))))) ∧
      (b = .again → exec (.scatterBatch cid i home) s = .next (settle s (stageDone cid i 0 [] (left false (away s))))) ∧
      (b = .late → exec (.scatterBatch cid i home) s = .next (settle s (abort cid .timeout i (left true (away s))))) ∧
      (b = .bad → exec (.scatterBatch cid i home) s = .next (settle s (abort cid .badDescriptor i s))) ∧
      (b = .held → exec (.scatterBatch cid i home) s = .next (settle s s)))) ∧
  (∀ (p tid r step : Nat) (t : Table) (c : Close) (u : UDesc) (s : State),
    s.table? p tid = some t → t.close = some c → t.u = some u → applyStep t ((t.due c.step).filter (·.row == r)) = some step →
    let now := ((t.due c.step).filter (·.row == r)).filter (·.step == step)
    let drop := modTable p tid (fun t => { t with accs := t.accs.filter fun x => !(x.row == r && x.step == step) })
    let e := entryOf s t t.d.gen r
    let size := rowBytes t.d.fmt t.d.elems
    let tok := applyTok p tid r
    let runs := (if entValid e then [(entAddr e, size)] else []) ++ (if u.rule = 2 then [(u.stateAddr + 4 * r, 4)] else [])
    let asked := runs.foldl (fun s x => engRead tok p x.1 x.2 s) s
    let g := readsDone tok p runs s
    let s1 := engForget tok g.2
    let old := if entValid e then engBytes g.2 tok (entAddr e) size else List.replicate size 0
    let h := if u.rule = 2 then leNat (engBytes g.2 tok (u.stateAddr + 4 * r) 4) else 0
    let gone := entValid e && (anyExtent s (entAddr e)).elim true fun ex => rowLost s ex (entAddr e) (rowLines t.d)
    let come := g.1 && runs.all fun x => engStatus g.2 tok x.1 x.2 == .ok
    gone = false →
    (engBusy asked tok = true → exec (.stepApply p tid r) s = .next (settle s asked)) ∧
    (engBusy asked tok = false → sumAccs t.d.elems now = none →
      exec (.stepApply p tid r) s = .next (settle s (drop (eventMO 0x000C (some p) [tid, r] s1)))) ∧
    (∀ fl, engBusy asked tok = false → sumAccs t.d.elems now = some fl →
      let s2 := if fl.any (·.2) then event 0x000A true [] (some p) [tid, r] s1 else s1
      (come = false → exec (.stepApply p tid r) s = .next (settle s (drop (eventMO 0x000C (some p) [tid, r] s2)))) ∧
      (∀ h', come = true → applyRow t u r step h (fl.map (·.1)) old = (none, h') → exec (.stepApply p tid r) s = .next (settle s
        (drop (eventMO 0x000C (some p) [tid, r] (if u.rule = 2 then engWrite tok p (u.stateAddr + 4 * r) (toLE 4 h') s2 else s2))))) ∧
      (∀ new h', come = true → applyRow t u r step h (fl.map (·.1)) old = (some new, h') →
        let slot := takeSlot t (entValid e && (slotNook s2 (entAddr e)).isNone) (shardNook s2 t.d (t.d.shardOf r))
        let wait := fun (c : Close) => if c.waits.any (·.1 == r) then c else { c with waits := c.waits ++ [(r, s2.t)] }
        (slot = none → exec (.stepApply p tid r) s = .next (settle s (modTable p tid (fun t => { t with close := t.close.map wait }) s2))) ∧
        (∀ a t', slot = some (a, t') →
          let s3 := swapEntry t r a t.d.gen (memWrite a new (modTable p tid (fun _ => { t' with close := t'.close.map fun c =>
            { c with waits := c.waits.filter (·.1 != r) } }) s2))
          let s4 := if u.rule = 2 then engWrite tok p (u.stateAddr + 4 * r) (toLE 4 h') s3 else s3
          exec (.stepApply p tid r) s = .next (settle s (resendRow p tid r (drop (if entValid e then retire p tid (entAddr e) s4 else s4)))))))) ∧
  (∀ (p tid r t0 : Nat) (t : Table) (c : Close) (s : State), s.table? p tid = some t → t.close = some c → (r, t0) ∈ c.waits → t0 + 10000000 ≤ s.t →
    exec (.applySlotTimeout p tid) s = .next (settle s (endClose p tid .busy (eventMO 0x000D (some p) [tid] s)))) ∧
  (∀ (p tid : Nat) (t : Table) (c : Close) (s : State), s.table? p tid = some t → t.close = some c → (t.due c.step).isEmpty = true →
    exec (.closeComplete p tid) s = .next (settle s (endClose p tid .ok s))) ∧
  (∀ (p tid : Nat) (t : Table) (s : State), s.table? p tid = some t → t.wave ≠ 0 → (t.inflight.any fun f => f.2.2 == (t.wave - 1) % 2) = false →
    exec (.slotWaveFree p tid) s = .next (settle s (advanceWave p tid (modTable p tid (fun y =>
      ((t.retired.filter fun r => decide (r.1 < t.wave)).map (·.2)).foldl (freeSlot s) { y with retired := y.retired.filter fun r => decide (y.wave ≤ r.1) }) s)))) ∧
  (∀ (p tid : Nat) (t : Table) (s : State), s.table? p tid = some t → t.genState = 1 →
    exec (.genCopyEnd p tid) s = .next (settle s (finish? t.genJob .ok (batchEnd p tid (modTable p tid (fun t => { t with genState := 2, genJob := none }) s))))) ∧
  (∀ (p tid : Nat) (t : Table) (s : State), s.table? p tid = some t → t.genState = 5 → (t.inflight.any fun f => f.2.1 == (t.d.gen + 1) % 65536) = false →
    let slots := ((List.range t.d.phys).filter (! t.gone ·)).filterMap fun r =>
      let a := entryOf s t (t.d.gen + 1) r
      if entValid a && entGen a == (t.d.gen + 1) % 65536 then some (entAddr a) else none
    exec (.genDrainEnd p tid) s = .next (settle s (finish? t.genJob .ok (batchEnd p tid (modTable p tid (fun t => { t with genState := 0, genJob := none })
      (slots.foldl (fun s a => retire p tid a s) s)))))) ∧
  (∀ (p tid : Nat) (t : Table) (s : State), s.table? p tid = some t → t.genState = 4 → (t.inflight.any fun f => f.2.1 == (t.d.gen + 65535) % 65536) = false →
    let slots := ((List.range t.d.phys).filter (! t.gone ·)).filterMap fun r =>
      let a := entryOf s t (t.d.gen + 65535) r
      let b := entryOf s t t.d.gen r
      if entValid a && !(entValid b && entAddr b == entAddr a) then some (entAddr a) else none
    exec (.genDrainEnd p tid) s = .next (settle s (finish? t.genJob .ok (batchEnd p tid (modTable p tid (fun t => { t with genState := 0, genJob := none })
      (slots.foldl (fun s a => retire p tid a s) s)))))) ∧
  (∀ (s : State), s.loadTick < s.ns / 125000 →
    exec .loadBucketTick s = .next (settle s { s with loadTick := s.ns / 125000, tables := s.tables.map (rollTable (s.ns / 125000 - s.loadTick)) })) ∧
  (∀ (s : State), s.balTick < s.ns / 1000000 → s.ten.parts = [] → exec .balancerTick s = .next (settle s { s with balTick := s.ns / 1000000 })) ∧
  (∀ (p : Part) (v : ShardMove) (s : State), s.balTick < s.ns / 1000000 → s.ten.parts = [p] → s.moves = [] →
    chooseMove { s with balTick := s.ns / 1000000 } p.id = some v → exec .balancerTick s = .next (settle s { s with balTick := s.ns / 1000000, moves := [v] })) ∧
  (∀ (p : Nat) (v : ShardMove) (t : Table) (x : Nat × Nat) (s : State), s.moves.find? (·.part == p) = some v → s.table? p v.table = some t →
    (rowsIn t.d v.shard 1).contains v.next = true → copying s p = false →
    let e := entryOf s t t.d.gen v.next
    let g := readLines (linesOf (entAddr e) (64 * rowLines t.d)) s
    (entValid e = false → exec (.shardMoveRow p) s = .next (settle s (modMove p (fun m => { m with next := m.next + 1 }) s))) ∧
    (entValid e = true → t.gone v.next = true → exec (.shardMoveRow p) s = .next (settle s (modMove p (fun m => { m with next := m.next + 1 }) g.2))) ∧
    (∀ ex, entValid e = true → t.gone v.next = false → t.free.find? (·.1 == v.dst) = some x → g.1 = true → anyExtent g.2 (entAddr e) = some ex →
      rowLost g.2 ex (entAddr e) (rowLines t.d) = false →
      exec (.shardMoveRow p) s = .next (settle s (modMove p (fun m => { m with next := m.next + 1 }) (retire p v.table (entAddr e)
        (swapEntry t v.next x.2 (entGen e) (memWrite x.2 (memRead g.2 (entAddr e) (64 * rowLines t.d))
          (modTable p v.table (fun t => { t with free := t.free.erase x }) g.2)))))))) ∧
  (∀ (p : Nat) (v : ShardMove) (t : Table) (s : State), s.moves.find? (·.part == p) = some v → s.table? p v.table = some t →
    (rowsIn t.d v.shard 1).contains v.next = false → copying s p = false →
    ∃ u, exec (.shardMoveEnd p) s = .next u ∧ u.moves = s.moves.filter (·.part != p) ∧ u.maps = s.maps ∧ u.dir = s.dir ∧
      u.mem.bytes = (memWrite (t.d.smap + v.shard) (toLE 1 v.dst) s).mem.bytes) ∧
  (∀ (p x : Nat) (m o q : PktMsg) (t : Table) (s s' : State), m.opc = 1 → m.tag = migTag → namesMe s m.dst = true → (s.port p).kind ≠ 0 →
    msgPasses s p m o q false s' → q.tenant ≠ 0 → partOfTag s q.tenant = some x → s.isQuiesced x = false →
    let hdr := q.body.take 32
    let d := q.body.drop 32
    let k := fldLE hdr 2 1
    let r := fldLE hdr 8 8
    let sofar := ((t.inbox.find? (·.key == hdr)).map (·.bytes)).getD [] ++ d
    let total := fldLE hdr 28 4
    let keep := fun (b : Option Bytes) => modTable x t.d.id (fun t => { t with
      inbox := t.inbox.filter (·.key != hdr) ++ (b.map fun b => ({ key := hdr, bytes := b } : Transfer)).toList })
    useTable s x (fldLE hdr 0 2) = .ok t → 32 ≤ q.body.length → t.d.storage ≠ 2 → sofar.length ≤ total →
    let go := fun (st : Status) (u : State) => exec (.migrationRowArrival p m) s = .next (settle s (refuse p q st u))
    (k = 0 → go (if d = migShape t.d then .ok else .badDescriptor) s') ∧
    (1 ≤ k → k ≤ 3 → sofar.length < total → go .ok (keep (some sofar) s')) ∧
    (∀ u, k = 1 → sofar.length = total → r < t.d.phys → total = rowBytes t.d.fmt t.d.elems → installRow t r sofar s' = some u →
      go .ok (keep none u)) ∧
    (∀ st u, k = 2 → sofar.length = total → r < t.d.phys → total = 96 * t.d.elems → installAcc t (fldLE hdr 4 4) r sofar s' = some (st, u) →
      go st (keep none u)) ∧
    (∀ st u, k = 3 → sofar.length = total → installBatch t hdr sofar s' = some (st, u) → go st (keep none u)))

/-! ## Bellows, Ash and keys (chapters 12 and 15) -/

/-- R312 to R318, R385 to R395: a prefetch list is loaded and stopped; its entries start, move a chunk, push and end; a Hallmark is
given with its nonce recorded; content keys are loaded, unloaded and expire; the TRNG's health stops and lets go the issue of keys.
Forms that complete here: bellowsListLoad, bellowsListStop, bellowsEntryStart, bellowsChunk, bellowsEntryComplete, pushStartTime,
hallmarkGet, ckeyLoad, ckeyUnload, ckeyExpiry, nonceExpiry, trngHealthFail, trngHealthRestored. -/
def Obligations.BellowsAndKeysAct : Prop :=
  (∀ (m : MbxId) (j : Job) (s : State), mayRun s m 0x0A01 j →
    let a := fldLE j.payload 0 8
    let p := j.part
    let g := readsDone (jobTok j) p [(a, 64)] (startJob j s)
    let h := leNat (engBytes g.2 (jobTok j) a 64)
    let n := bits h 383 368
    let nep := bits h 367 359
    let s1 := engForget (jobTok j) g.2
    let g1 := readsDone (jobTok j) p [(a, listSize h)] s1
    let rd := engBytes g1.2 (jobTok j)
    let s2 := engForget (jobTok j) g1.2
    let words := (List.range nep).map fun k => fldLE (rd (a + 64 + 64 * n + 4 * k) 4) 0 4
    let raw := fun (k : Nat) => rd (a + 64 + 64 * k) 64
    listBad s1 j.at_ a h = false →
    readsCome (jobTok j) p s.maps.cur [(a, 64)] (startJob j s) → readsCome (jobTok j) p s1.maps.cur [(a, listSize h)] s1 →
    (words.all fun w => decide (w < 2 ^ 22)) = true →
    ((List.range n).all fun k => !entryBad s2 p nep (raw k)) = true → s2.blist? p (bits h 11 8) = none →
    bits h 3 0 = p → ((List.range n).all fun k => !entryAway s2 p (raw k)) = true →
    exec (.bellowsListLoad m) s = .next (settle s (finish j.id .ok 0 [] { s2 with tiers.lists := s2.tiers.lists ++
      [{ part := p, id := bits h 11 8, addr := a, bytes := listSize h, start := bits h 511 448, period := bits h 447 400, iters := bits h 399 384, entries := (List.range n).map fun k => decEntry (raw k) words }] }))) ∧
  (∀ (m : MbxId) (j : Job) (x : BList) (s : State), mayRun s m 0x0A02 j → fldLE j.payload 0 1 ≤ 3 →
    let l := fldLE j.payload 0 1
    s.blist? j.part l = some x →
    let t := ((List.range x.entries.length).filter fun k => (x.entries[k]?).elim false fun e => e.state == 1 || e.state == 2).foldl
      (fun s k => endEntry j.part l k .quiesced s) (startJob j s)
    exec (.bellowsListStop m) s = .next (settle s (finish j.id .ok 0 [] { t with tiers.lists := t.tiers.lists.filter fun x => !(x.part == j.part && x.id == l) }))) ∧
  (∀ (p l k : Nat) (x : BList) (e : BEntry) (s : State), s.bentry? p l k = some (x, e) → e.state = 0 → x.dueAt e - e.lead ≤ s.ns →
    (e.ckey ≠ 0 → (s.ckey? p e.ckey).isSome = true) →
    exec (.bellowsEntryStart p l k) s = .next (settle s (modEntry p l k
      (fun _ => { e with state := 1, done := 0, asked := 0, hold := [], trailer := none, cipher := [], key := if e.ckey = 0 then none else s.ckey? p e.ckey, waits := [if e.iter = 0 then 0 else e.endAt - (x.dueAt e - e.lead), 0, 0, 0], mark := s.ns }) s))) ∧
  (∀ (p l k : Nat) (x : BList) (e : BEntry) (s : State), s.bentry? p l k = some (x, e) → e.state = 1 → e.status = none → s.isQuiesced p = false →
    soonerEntry s p l k (x.dueAt e) = false → (e.pieceNext = true → (pieceNook s p).isSome = true) → contextTurn s p = true →
    (chunksOpen s p < 64 ∨ e.done < e.asked) →
    let s0 := if e.asked ≤ e.done then askNext p l k (turnTaken p s) else turnTaken p s
    let go := fun (t : State) => exec (.bellowsChunk p l k) s = .next (settle s t)
    (∀ d s1, e.wantsTrailer = true → sourceTrailer p l k e s0 = (.ready d, s1) →
      go (modEntry p l k (fun e => { e with trailer := some d, asked := 0 }) (waited p l k 1 s1))) ∧
    (∀ s1, e.wantsTrailer = true → sourceTrailer p l k e s0 = (.waits, s1) → go (waited p l k 1 s1)) ∧
    (∀ s1, e.wantsTrailer = false → sourceChunk p l k (e.done / 65536) e s0 = (.waits, s1) →
      go (waited p l k 1 (if chunksOpen s1 p < 64 then askNext p l k s1 else s1))) ∧
    (∀ st s1, e.wantsTrailer = false → sourceChunk p l k (e.done / 65536) e s0 = (.bad st, s1) → go (failEntry p l k st s1)) ∧
    (∀ d s1, e.wantsTrailer = false → sourceChunk p l k (e.done / 65536) e s0 = (.ready d, s1) →
      let s2 := waited p l k 1 s1
      let c := d.take (e.total - e.done)
      let b := if e.ckey = 0 then c else
        (Config.gcmPart (e.key.getD {}).key ((e.trailer.getD []).take 12) e.done c ++ List.replicate c.length 0).take c.length
      let nook := if e.pieceNext then pieceNook s2 p else none
      let s3 := nook.elim s2 fun n => setTaken n (taken s2 n + 1) s2
      let s4 := if e.toDst && !b.isEmpty then putBytes p l k e.done e b s3 else s3
      let done := e.done + d.length
      let upd := fun (y : BEntry) => { y with done := done, asked := max y.asked done, hold := if e.push then y.hold ++ b else [], pieces := y.pieces ++ nook.toList, cipher := if e.ckey = 0 then [] else y.cipher ++ c, state := if done = e.length && e.ckey = 0 then 2 else 1 }
      let s5 := modEntry p l k upd s4
      ((done ≠ e.length ∨ e.ckey = 0) → go (pushEntry p l k s5)) ∧
      (∀ y, done = e.length → e.ckey ≠ 0 → s5.bentry? p l k = some y → go (pushEntry p l k (openContent p l k y.2 s5))))) ∧
  (∀ (p l k : Nat) (x : BList) (e : BEntry) (s : State), s.bentry? p l k = some (x, e) → e.state = 1 → e.status = none → s.isQuiesced p = false →
    soonerEntry s p l k (x.dueAt e) = false → contextTurn s p = true → e.done < e.asked → e.srcTier ≠ 3 → e.ckey = 0 → e.toDst = true →
    let i := e.done / 65536
    let n := e.chunkLen i
    let o := e.src + 65536 * i
    let tok := bellowsTok p l k i
    let s1 := engRead tok p o n (turnTaken p s)
    let g := engLines tok o n s1
    let d := engBytes g.2 tok o n
    let b := d.take (e.length - e.done)
    pourAccess s s.maps.cur p false o n = .ok → engBusy s1 tok = false → g.1 = true → engStatus g.2 tok o n = .ok → b.isEmpty = false →
    let s4 := putBytes p l k e.done e b (waited p l k 1 (engForget tok g.2))
    let done := e.done + d.length
    let upd := fun (y : BEntry) => { y with done := done, asked := max y.asked done, hold := if e.push then y.hold ++ b else [], cipher := [], state := if done = e.length then 2 else 1 }
    exec (.bellowsChunk p l k) s = .next (settle s (pushEntry p l k (modEntry p l k upd s4)))) ∧
  (∀ (p l k : Nat) (x : BList) (e : BEntry) (s : State), s.bentry? p l k = some (x, e) → (e.state = 1 ∨ e.state = 2) →
    (∀ st, e.status = some st → exec (.bellowsEntryComplete p l k) s = .next (settle s (endEntry p l k st s))) ∧
    (e.status = none → s.isQuiesced p = true → exec (.bellowsEntryComplete p l k) s = .next (settle s (endEntry p l k .quiesced s))) ∧
    (e.status = none → s.isQuiesced p = false → e.state = 2 → engBusy s (putTok p l k) = false → (e.push = true → e.pushed = true) →
      let failed := s.dir.eng.find? fun r => r.tok == putTok p l k && r.st != .ok
      (failed = none → exec (.bellowsEntryComplete p l k) s = .next (settle s (endEntry p l k .ok s))) ∧
      (∀ r, failed = some r → exec (.bellowsEntryComplete p l k) s = .next (settle s (endEntry p l k r.st s))))) ∧
  (∀ (p l k : Nat) (x : BList) (e : BEntry) (s : State), s.bentry? p l k = some (x, e) → e.push = true → (e.state = 1 ∨ e.state = 2) → e.status = none →
    x.begin e + e.pushStart ≤ s.ns → (e.ckey ≠ 0 → e.state = 2) → contextTurn s p = true →
    let s1 := turnTaken p s
    let s2 := if e.open_.isEmpty && e.sent.all (·.2 < min e.hold.length e.total) then modEntry p l k (fun x => { x with mark := s.ns }) s1 else s1
    let one := fun (s : State) (ep : Nat) =>
      let off := (e.sent.find? (·.1 == ep)).elim 0 (·.2)
      let cuts := pushCuts off e.hold.length e.total
      let s := cuts.foldl (fun s c => pushOne p l k ep c.1 c.2 ((e.hold.drop c.1).take c.2) s) s
      let upto := (cuts.getLast?).elim off fun c => c.1 + c.2
      if cuts.isEmpty then s else modEntry p l k (fun e => { e with sent := (ep, upto) :: e.sent.filter (·.1 != ep) }) s
    exec (.pushStartTime p l k) s = .next (settle s (dropPieces p l k (deadCheck p l k (e.eps.eraseDups.foldl one s2))))) ∧
  (∀ (m : MbxId) (j : Job) (x : Part) (s : State), mayRun s m 0x0B01 j →
    let n := (j.payload ++ List.replicate 32 0).take 32
    let p := fldLE j.payload 33 1
    let b := hallmarkBody s j n (some p)
    fldLE j.payload 32 1 = 0 → (j.manager = true ∨ p = j.part) → s.part? p = some x → s.power.noIdentity = false → x.keyPair.isSome = true →
    exec (.hallmarkGet m) s = .next (settle s (finish j.id .ok 0 (b ++ (Config.sign s.flash.identity b ++ List.replicate 384 0).take 384)
      (modPart p (fun x => { x with nonces := (x.nonces ++ [(n, s.ns)]).drop (x.nonces.length - 15) }) (startJob j s))))) ∧
  (∀ (m : MbxId) (j : Job) (s : State), mayRun s m 0x0B01 j →
    let b := hallmarkBody s j ((j.payload ++ List.replicate 32 0).take 32) none
    fldLE j.payload 32 1 = 1 → j.manager = true → s.power.noIdentity = false →
    exec (.hallmarkGet m) s = .next (settle s (finish j.id .ok 0 (b ++ (Config.sign s.flash.identity b ++ List.replicate 384 0).take 384) (startJob j s)))) ∧
  (∀ (m : MbxId) (j : Job) (x : Part) (k i : Nat) (s : State), mayRun s m 0x0B02 j → s.part? j.part = some x → x.keyPair = some k →
    (x.nonces.any fun n => n.1 == j.payload.take 32 && decide (s.ns < n.2 + 600000000000)) = true →
    ((List.range 64).filter fun i => !(keysOf s j.part).any fun k => k.handle % 256 == i && keyLive s k).head? = some i →
    let h := 256 * (j.part + 1) + i
    let s1 := startJob j s
    exec (.ckeyLoad m) s = .next (settle s (match Config.oaepOpen k (j.payload.take 32) (j.payload.drop 32) with
      | none => finish j.id .noAccess 0 [] s1
      | some b =>
        if b.length ≠ 64 then finish j.id .noAccess 0 [] s1
        else if 1 < fldLE b 48 4 ∨ fldLE b 52 4 ≠ 0 then finish j.id .badDescriptor 0 [] s1
        else finish j.id .ok 0 (toLE 2 h) { s1 with tiers.ckeys := s.tiers.ckeys.filter (·.handle != h) ++
          [{ handle := h, key := b.take 32, keyId := (b.drop 32).take 16, pushOnly := bit (fldLE b 48 4) 0, notAfter := fldLE b 56 8 }] }))) ∧
  (∀ (m : MbxId) (j : Job) (s : State), mayRun s m 0x0B03 j → (s.ckey? j.part (fldLE j.payload 0 2)).isSome = true →
    handleUsed s j.part (fldLE j.payload 0 2) = false →
    exec (.ckeyUnload m) s = .next (settle s (finish j.id .ok 0 [] { startJob j s with tiers.ckeys := s.tiers.ckeys.filter (·.handle != fldLE j.payload 0 2) }))) ∧
  (∀ (h : Nat) (s : State), exec (.ckeyExpiry h) s = .next (settle s { s with tiers.ckeys := s.tiers.ckeys.filter fun k => !(k.handle == h && k.notAfter != 0 && decide (k.notAfter < s.ns)) })) ∧
  (∀ (p : Nat) (s : State), exec (.nonceExpiry p) s = .next (settle s
    (modPart p (fun x => { x with nonces := x.nonces.filter fun n => decide (s.ns < n.2 + 600000000000) }) s))) ∧
  (∀ (s : State), s.power.trngFail = false → exec .trngHealthFail s = .next (settle s (event 0x001B true [] none [] (setCause 32 { s with power.trngFail := true })))) ∧
  (∀ (s : State), exec .trngHealthRestored s = .next (settle s { s with power.trngFail := false }))

/-- R319 to R329: namespaces are created and destroyed, channels assigned, units written, read and trimmed; a Cinder completion is acted
on by its status; a command open for 100 ms is aborted, a bridge that does not abort fails; an access outside open buffers is answered
Completer Abort; background work and programmed units.
Forms that complete here: ashNsCreate, ashNsDestroy, ashAssign, ashWrite, ashRead, ashTrim, ashStatus, cinderCompletion,
cinderCommandTimeout, cinderAbortTimeout, bridgeAccess, ashBackgroundWork, ashUnitProgrammed. -/
def Obligations.AshCommandsAct : Prop :=
  (∀ (m : MbxId) (j : Job) (s : State), mayRun s m 0x0A03 j →
    let p := fldLE j.payload 0 1
    let n := fldLE j.payload 4 4
    sysNook s = true → (s.part? p).isSome = true → s.power.noIdentity = false → zeroAt j.payload 1 3 = true → 8 * (n * 65536) ≤ 7 * ashRaw s p →
    s.ns? p = none → s.power.trngFail = false →
    ∃ t, exec (.ashNsCreate m) s = .next (settle s (finish j.id .ok 0 [] t)) ∧
      t.tiers.ns = s.tiers.ns ++ [keyRecords s { part := p, units := n, key := some s.ten.nextKey }] ∧ t.ten.nextKey = s.ten.nextKey + 1 ∧ t.mem = s.mem) ∧
  (∀ (m : MbxId) (j : Job) (s : State), mayRun s m 0x0A04 j →
    let p := fldLE j.payload 0 1
    sysNook s = true → (s.ns? p).isSome = true → (s.tiers.lists.any fun l => l.part == p && l.entries.any (·.srcTier == 3)) = false →
    ∃ t, exec (.ashNsDestroy m) s = .next (settle s (finish j.id .ok 0 [] t)) ∧ t.tiers.ns = s.tiers.ns.filter (·.part != p) ∧
      t.tiers.units = s.tiers.units.filter (·.part != p) ∧ t.mem = s.mem) ∧
  (∀ (m : MbxId) (j : Job) (p : Nat) (a : AshTray) (s : State), mayRun s m 0x0A05 j →
    let t := fldLE j.payload 0 1
    let c := fldLE j.payload 8 8
    sysNook s = true → zeroAt j.payload 1 7 = true → (s.tray t).mode = 3 → (s.tray t).owner = some p → s.ashTray? t = some a → a.identified = true →
    a.ctrlEn = true → c < 2 ^ a.chanCount →
    let cs := (List.range a.chanCount).filter (bit c)
    let fresh := if a.failed || a.part != p then cs else cs.filter (! a.chans.contains ·)
    ∃ u, exec (.ashAssign m) s = .next (settle s (finish j.id .ok 0 [] u)) ∧ u.mem = s.mem ∧
      u.tiers.trays.map (fun x => { x with tails := [] }) = (modWhere (·.port == t) (fun x => { x with part := p, chans := cs, failed := false, blocks := (if a.failed || a.part != p then [] else x.blocks).filter fun b => cs.contains b.1 }) s.tiers.trays).map (fun x => { x with tails := [] }) ∧
      u.tiers.cmds.map (fun k => (k.tray, k.opc, k.ch, k.argQ)) = s.tiers.cmds.map (fun k => (k.tray, k.opc, k.ch, k.argQ)) ++
        fresh.flatMap fun c => [(t, 5, c, 0), (t, 7, 0, 2 * c + 1), (t, 7, 0, 2 * c + 2)]) ∧
  (∀ (m : MbxId) (j : Job) (s : State), mayRun s m 0x0A06 j →
    let us := ashUnits j
    let a := fldLE j.payload 8 8
    let g := readsDone (jobTok j) j.part [(a, 65536 * us.length)] (startJob j s)
    let n : AshJob := { job := j.id, part := j.part, write := true, first := fldLE j.payload 0 4, count := us.length, addr := a, left := us }
    sysNook s = true → a % 64 = 0 → ashRange j (startJob j s) = .ok → us ≠ [] →
    readsCome (jobTok j) j.part s.maps.cur [(a, 65536 * us.length)] (startJob j s) →
    let put := us.zipIdx.foldl (fun (o : Option State) x => o.bind fun s =>
      writeUnit j.part x.1 (some j.id) none none none (engBytes g.2 (jobTok j) (a + 65536 * x.2) 65536) s) (some (engForget (jobTok j) g.2))
    (∀ s1, put = some s1 → exec (.ashWrite m) s = .next (settle s (flushAll j.part false { s1 with tiers.jobs := s1.tiers.jobs ++ [n] }))) ∧
    (∀ s1, put = none → freeRoom j.part (engForget (jobTok j) g.2) = (false, s1) →
      exec (.ashWrite m) s = .next (settle s (finish j.id .busy 0 [] s1)))) ∧
  (∀ (m : MbxId) (j : Job) (s : State), mayRun s m 0x0A07 j →
    let us := ashUnits j
    let a := fldLE j.payload 8 8
    let n : AshJob := { job := j.id, part := j.part, first := fldLE j.payload 0 4, count := us.length, addr := a, left := us }
    sysNook s = true → a % 64 = 0 →
    (ashRange j (startJob j s) = .ok → us ≠ [] → pourAccess s s.maps.cur j.part true a (65536 * us.length) = .ok →
      (s.tiers.jobs.any (·.job == j.id)) = false → exec (.ashRead m) s = .next (settle s (us.foldl (fun s u => askUnit (.job j.id) j.part u s)
        { startJob j s with tiers.jobs := s.tiers.jobs ++ [n] }))) ∧
    (∀ x, s.tiers.jobs.find? (·.job == j.id) = some x → x.left = [] → engBusy s (ashTok j.id) = false →
      exec (.ashRead m) s = .next (settle s (finish j.id (ashStored s x) 0 [] (engForget (ashTok j.id)
        { startJob j s with tiers.jobs := s.tiers.jobs.filter (·.job != j.id) }))))) ∧
  (∀ (m : MbxId) (j : Job) (s : State), mayRun s m 0x0A08 j → ashRange j s = .ok →
    ∃ t, exec (.ashTrim m) s = .next (settle s (finish j.id .ok 0 [] t)) ∧ t.mem = s.mem ∧
      t.tiers.units = s.tiers.units.filter (fun u => !(u.part == j.part && (ashUnits j).contains u.unit))) ∧
  (∀ (m : MbxId) (j : Job) (s : State), mayRun s m 0x0A09 j → sysNook s = true →
    ∃ b, exec (.ashStatus m) s = .next (settle s (finish j.id .ok 0 b (startJob j s))) ∧ b.length = 8 + 16 * (ashChans s j.part).length) ∧
  (∀ (t : Nat) (cpl : CinderCpl) (d : Bytes) (a : AshTray) (c : Cinder) (s : State), s.ashTray? t = some a → a.failed = false →
    phaseNow a cpl = true → openCmd s t cpl.qid cpl.cid = some c → cpl.rsv = false →
    let s1 := takeCpl t cpl c s
    (cpl.status ≤ 1 → exec (.cinderCompletion t cpl d) s = .next (settle s (cinderDone c cpl d s1))) ∧
    (∀ r, cpl.status = 2 → c.opc = 2 → s1.tiers.reads.find? (fun r => r.id == c.read && r.st.isNone) = some r →
      exec (.cinderCompletion t cpl d) s = .next (settle s (readFails c r s1))) ∧
    (cpl.status = 3 → c.opc = 3 → exec (.cinderCompletion t cpl d) s = .next (settle s (programFails c s1))) ∧
    (cpl.status = 4 → c.opc = 4 → exec (.cinderCompletion t cpl d) s = .next (settle s (growBad t c.ch c.block s1))) ∧
    ((cpl.status = 5 ∨ 7 ≤ cpl.status ∨ (2 ≤ cpl.status ∧ cpl.status ≤ 4 ∧ c.opc ≠ cpl.status)) →
      exec (.cinderCompletion t cpl d) s = .next (settle s (bridgeFails t cpl.status s1))) ∧
    (cpl.status = 6 → c.opc ≠ 6 → exec (.cinderCompletion t cpl d) s = .next (settle s (submitCinder { c with aborting := false } s1)))) ∧
  (∀ (t qid cid : Nat) (c : Cinder) (s : State), openCmd s t qid cid = some c → c.opc ≠ 6 → c.aborting = false → c.at_ + 100000000 ≤ s.t →
    exec (.cinderCommandTimeout t qid cid) s = .next (settle s (submitCinder { tray := t, opc := 6, arg := cid, argQ := qid }
      { s with tiers.cmds := modWhere (· == c) (fun c => { c with aborting := true }) s.tiers.cmds }))) ∧
  (∀ (t : Nat) (fatal : Bool) (s : State),
    (fatal = true ∨ (s.tiers.cmds.any fun c => c.tray == t && c.opc == 6 && !c.waits && decide (c.at_ + 10000000 ≤ s.t)) = true) →
    exec (.cinderAbortTimeout t fatal) s = .next (settle s (ashFail t (modAsh t (fun a => { a with fatal := a.fatal || fatal }) s)))) ∧
  (∀ (t a n : Nat) (s : State), (s.tray t).mode = 3 →
    let within := s.tiers.cmds.any fun c => c.tray == t && !c.waits && c.len != 0 && decide (c.buf ≤ a) && decide (a + n ≤ c.buf + c.len)
    (within = true → exec (.bridgeAccess t a n) s = .next (settle s s)) ∧
    (within = false →
      exec (.bridgeAccess t a n) s = .next (settle s (bridgeEvent t 4 (modTray t (fun k => { k with sent := some (.tray .completerAbort 0 a 0 []) }) s))))) ∧
  (∀ (t c b : Nat) (s : State), (s.nblock t c b).bad = true → (s.nblock t c b).leaving = false →
    exec (.ashBackgroundWork (.badBlock t c b)) s = .next (settle s (relocateBlock t c b none s))) ∧
  (∀ (t c b : Nat) (a : AshTray) (s : State), s.ashTray? t = some a → a.failed = false → (s.nblock t c b).leaving = false → (s.nblock t c b).bad = false →
    (a.readLimit ≤ (s.nblock t c b).reads ∨ (s.nblock t c b).flips = true) →
    exec (.ashBackgroundWork (.readDisturb t c b)) s = .next (settle s (relocateBlock t c b none s))) ∧
  (∀ (t c b : Nat) (a : AshTray) (s : State), s.ashTray? t = some a → a.failed = false → fewFree a c = true → disturbed a c = false → collectable s a c = some b →
    exec (.ashBackgroundWork (.collection t c)) s = .next (settle s (relocateBlock t c b none s))) ∧
  (∀ (p u : Nat) (x : AUnit) (s : State), s.tiers.pendU.find? (fun y => y.part == p && y.unit == u) = some x → allProgrammed s x = true →
    let s1 : State := { s with tiers.pendU := s.tiers.pendU.erase x }
    let e : AUnit := { x with bytes := [], job := none, reloc := none }
    let keep := !x.trimmed && x.reloc.elim true fun w => (s.unit? p u).elim false fun o => o.wseq == w && !o.damaged
    let s2 := if !keep then s1 else journal p u e { s1 with tiers.units := s1.tiers.units.filter (fun x => !(x.part == p && x.unit == u)) ++ [e] }
    let s3 := if keep && (s2.nblock x.tray x.ch x.block).bad then readUnit (.reloc none) e s2 else s2
    let s4 := (s.unit? p u).elim s3 fun o => eraseCheck o.tray o.ch o.block s3
    exec (.ashUnitProgrammed p u) s = .next (settle s (x.job.elim s4 fun j => ashJobUnit j u .ok s4)))

/-! ## Partitions, nooks and ports (chapter 1, 15, 16) -/

/-- R18 to R27, R391, R397, R408, R464, R491: a partition is created from the key pool, destroyed, quiesced, resumed and described;
nooks and ports move; regions are zeroed; the key pool fills and lets a waiting creation go on.
Forms that complete here: partitionCreate, partitionDestroy, nookMove, partitionQuiesce, partitionResume, partitionInfo, portMove,
nookDrainTimeout, nookMoveEnd, zeroingRegion, keyPoolRefill, keyPairWaitTimeout. -/
def Obligations.TenancyCommandsAct : Prop :=
  (∀ (m : MbxId) (j : Job) (k : Nat) (ks : List Nat) (s : State), mayRun s m 0x0301 j → createBad j.payload = false → s.flash.prof.role ≠ 1 → createBusy s j.payload = false →
    s.power.trngFail = false →
    (s.ten.keyPool = k :: ks → exec (.partitionCreate m) s = .next (settle s (finish j.id .ok 0 [] (makePart j.payload (some k) { startJob j s with ten.keyPool := ks })))) ∧
    (s.ten.keyPool = [] → exec (.partitionCreate m) s = .next (settle s { startJob j s with ten.creates := s.ten.creates ++ [{ job := j.id, at_ := s.t, payload := j.payload }] }))) ∧
  (∀ (m : MbxId) (j : Job) (s : State), mayRun s m 0x0302 j →
    let p := fldLE j.payload 0 1
    let s1 := startJob j s
    let nooks := s1.nooksOf p
    let s2 := endJobs p j.id (endChains p .quiesced s1)
    let gone := fun (m : NookMove) => nooks.contains m.nook || m.dst == .part p
    let s3 := (s2.ten.moves.filter gone).foldl (fun s m => finish m.job .quiesced 0 [] s) s2
    let s4 : State := { s3 with ten.moves := s3.ten.moves.filter (! gone ·) }
    let s5 := (s1.traysOf p).foldl (fun s t => leaveTray none t s) ((s1.saxOf p).foldl (fun s k => leaveSax none k s) s4)
    let owner := s5.ten.nooks.map fun o => if o == .part p then Owner.free else o
    let s6 := forgetPart p { s5 with ten.nooks := owner }
    p ≤ 15 → (s.part? p).isSome = true → partHolds s1 p = false →
    exec (.partitionDestroy m) s = .next (settle s (finish j.id .ok 0 [] (nooks.foldl (fun s n => clearNook n s)
      (if s6.power.trngFail then s6 else freshKeys nooks s6))))) ∧
  (∀ (m : MbxId) (j : Job) (s : State), mayRun s m 0x0303 j →
    let n := fldLE j.payload 0 1
    let o := fldLE j.payload 1 1
    n ≤ 95 → o ≤ 15 → s.nookOwner n = .free → (s.part? o).isSome = true → moving s n = false → ((heldExts s).any fun e => e.nook == n) = false →
    s.power.trngFail = false →
    exec (.nookMove m) s = .next (settle s { startJob j s with ten.moves := s.ten.moves ++ [{ nook := n, dst := .part o, at_ := s.t, job := j.id }] })) ∧
  (∀ (m : MbxId) (j : Job) (p k : Nat) (s : State), mayRun s m 0x0303 j →
    let n := fldLE j.payload 0 1
    let o := fldLE j.payload 1 1
    let dst : Owner := if o = 255 then .free else .part o
    n ≤ 95 → (o = 255 ∨ (o ≤ 15 ∧ (s.part? o).isSome = true)) → s.nookOwner n = .part p → dst ≠ .part p → moving s n = false →
    ((heldExts s).any fun e => e.nook == n) = false → s.power.trngFail = false →
    (s.nooksOf p).find? (fun m => m != n && !moving s m) = some k → moveBusy s p n k = false →
    exec (.nookMove m) s = .next (settle s (let s1 := takeAway p n k (startJob j s)
      { s1 with ten.moves := s1.ten.moves ++ [{ nook := n, dst := dst, at_ := s1.t, job := j.id }] }))) ∧
  (∀ (m : MbxId) (j : Job) (s : State), mayRun s m 0x0304 j →
    let p := fldLE j.payload 0 1
    p ≤ 15 → (s.part? p).isSome = true →
    exec (.partitionQuiesce m) s = .next (settle s (quiesceCheck p (abortWhere (·.part == p) .quiesced
      (modPart p (fun x => { x with quiesced := true, quiesceJobs := x.quiesceJobs ++ [j.id] }) (startJob j s)))))) ∧
  (∀ (m : MbxId) (j : Job) (x : Part) (s : State), mayRun s m 0x0305 j →
    let p := fldLE j.payload 0 1
    p ≤ 15 → s.part? p = some x → (x.recs.any fun r => !r.ended) = false →
    exec (.partitionResume m) s = .next (settle s (finish j.id .ok 0 [] (modPart p (fun x => { x with quiesced := false, dfault := false }) (startJob j s))))) ∧
  (∀ (m : MbxId) (j : Job) (x : Part) (s : State), mayRun s m 0x0306 j → (j.manager = true ∨ fldLE j.payload 0 1 = j.part) →
    (s.part? (fldLE j.payload 0 1) = some x → exec (.partitionInfo m) s = .next (settle s (finish j.id .ok 0 (partInfo s x) (startJob j s)))) ∧
    (s.part? (fldLE j.payload 0 1) = none → exec (.partitionInfo m) s = .next (settle s (finish j.id .ok 0 (List.replicate 64 0) (startJob j s))))) ∧
  (∀ (m : MbxId) (j : Job) (s : State), mayRun s m 0x0501 j →
    let p := fldLE j.payload 0 1
    let o := fldLE j.payload 2 1
    let owner : Option Nat := if o = 255 then none else some o
    (o ≤ 15 ∨ o = 255) → (o ≠ 255 → (s.part? o).isSome = true) →
    (fldLE j.payload 1 1 = 0 → (s.port p).kind = 0 → exec (.portMove m) s = .next (settle s (finish j.id .ok 0 [] (leaveSax owner p (startJob j s))))) ∧
    (fldLE j.payload 1 1 = 1 → p ≤ 31 → (s.tray p).mode ≠ 0 →
      ((s.tray p).mode = 2 → (s.tray p).owner ≠ owner → (owner.bind s.part?).elim true (fun x => decide ((s.dir.agents.filter (·.part == x.id)).length < x.agents)) = true) →
      exec (.portMove m) s = .next (settle s (finish j.id .ok 0 [] (leaveTray owner p (startJob j s)))))) ∧
  (∀ (n : Nat) (x : NookMove) (s : State), x ∈ s.ten.moves → x.nook = n → x.at_ + 4000000 ≤ s.t →
    exec (.nookDrainTimeout n) s = .next (settle s (abortWhere (runsOn s n) .quiesced s))) ∧
  (∀ (n : Nat) (x : NookMove) (s : State), s.ten.moves.find? (·.nook == n) = some x → s.chains.chains.any (runsOn s n) = false → s.power.trngFail = false →
    ∃ t, exec (.nookMoveEnd n) s = .next t ∧ t.ten.nooks = s.ten.nooks.set n x.dst ∧ t.ten.moves = s.ten.moves.filter (·.nook != n) ∧
      t.ten.memKey = s.ten.memKey.set n s.ten.nextKey ∧ t.ten.nextKey = s.ten.nextKey + 1 ∧
      t.ten.unzeroed = s.ten.unzeroed.filter (·.1 != n) ++ (List.range 512).map (fun r => (n, r)) ∧
      t.dir.ents = s.dir.ents.filter (·.nook != n) ∧ t.chains.threads = s.chains.threads.filter (·.nook != n) ∧
      t.chains.sets = s.chains.sets.filter (·.nook != n) ∧ t.mem = s.mem ∧ t.maps = s.maps) ∧
  (∀ (n : Nat) (x : NookMove) (s : State), s.ten.moves.find? (·.nook == n) = some x → s.chains.chains.any (runsOn s n) = false → s.power.trngFail = true →
    exec (.nookMoveEnd n) s = .next (settle s (finish x.job .busy 0 [] { s with ten.moves := s.ten.moves.filter (·.nook != n) }))) ∧
  (∀ (n r : Nat) (s : State), (nookBare s n = true →
      ((nookChans n).all fun c => chanGone (s.chan c) || (s.chan c).zeroLine.elim true fun p => decide ((r + 1) * 2 ^ 19 ≤ p)) = true) →
    let held := ((heldExts s).filter (·.nook == n)).flatMap (extPieces s)
    exec (.zeroingRegion n r) s = .next (settle s (zeroPieces n (fun q => q / 8 == r && !held.contains q) s))) ∧
  (∀ (s : State), s.ten.keyPool.length < 4 → s.power.trngFail = false → sysShare s = true → s.ten.creates = [] →
    exec .keyPoolRefill s = .next (settle s { s with ten := { s.ten with nextKey := s.ten.nextKey + 1, keyPool := s.ten.keyPool ++ [s.ten.nextKey] } })) ∧
  (∀ (w : PartWait) (ws : List PartWait) (s : State), s.ten.keyPool.length < 4 → s.power.trngFail = false → sysShare s = true → s.ten.creates = w :: ws →
    let s1 : State := { s with ten := { s.ten with nextKey := s.ten.nextKey + 1, creates := ws } }
    (createBusy s1 w.payload = false → exec .keyPoolRefill s = .next (settle s (finish w.job .ok 0 [] (makePart w.payload (some s.ten.nextKey) s1)))) ∧
    (createBusy s1 w.payload = true → exec .keyPoolRefill s = .next (settle s (finish w.job .busy 0 []
      { s1 with ten.keyPool := s.ten.keyPool ++ [s.ten.nextKey] })))) ∧
  (∀ (w : PartWait) (s : State), s.ten.creates = [w] → w.at_ + 2000000000 ≤ s.t →
    exec .keyPairWaitTimeout s = .next (settle s (finish w.job .busy 0 [] { s with ten.creates := [] })))

/-! ## Faults and background work (chapter 18) -/

/-- R447 to R464: the cleaner counts, an uncorrectable SRAM word has its consequence, Mantel's restart ends, channels retire, a
recovery's end is reported, temperature, power and telemetry samples take effect.
Forms that complete here: sramUncorrectable, cleanerCycle, mantelRestartEnd, channelRetireTrigger, channelRetire, recoveryEnd, tempSample,
throttle, telemetrySample. -/
def Obligations.FaultsAndBackgroundAct : Prop :=
  (∀ (nook p t r : Nat) (s : State), (s.table? p t).isSome = true →
    exec (.sramUncorrectable (.rowCache nook p t r)) s = .next (settle s (modTable p t (fun t => { t with
      auto := t.auto.filter fun x => !(x.row == r && x.nook == nook),
      cold := if t.pinned.contains r && !t.cold.contains r then r :: t.cold else t.cold }) (sramFault (holder s nook) [1, nook, t, r] s)))) ∧
  (∀ (nook p id : Nat) (t : Template) (s : State), s.template? nook id = some t → t.part = p →
    exec (.sramUncorrectable (.template nook p id)) s = .next (settle s (modTemplate nook id (fun t => { t with damaged := true })
      (sramFault (holder s nook) [3, nook, id] s)))) ∧
  (∀ (p t : Nat) (x : Table) (s : State), s.table? p t = some x →
    exec (.sramUncorrectable (.tableDesc p t)) s = .next (settle s (modTable p t (fun t => { t with damaged := true })
      (sramFault (some p) [4, x.d.coord, t] s)))) ∧
  (∀ (p l e : Nat) (s : State), (s.bentry? p l e).isSome = true →
    exec (.sramUncorrectable (.tier0 p l e)) s = .next (settle s (failEntry p l e .damaged (sramFault (some p) [5, l, e] s)))) ∧
  (∀ (b : Bool) (s : State), let s1 := sramFault none [7, b2n b] s
    (s1.cal.running = true → exec (.sramUncorrectable (.calendar b)) s = .next (settle s
      { s1 with cal.stopAt := some (min (s1.slot + 1) (s1.cal.stopAt.getD (s1.slot + 1))) })) ∧
    (s1.cal.running = false → exec (.sramUncorrectable (.calendar b)) s = .next (settle s s1))) ∧
  (∀ (h : Nat) (s : State), exec (.sramUncorrectable (.keyContent h)) s = .next (settle s
    (sramFault none [8, h] { s with tiers.ckeys := s.tiers.ckeys.filter (·.handle != h) }))) ∧
  (∀ (p : Nat) (s : State), (s.port p).sess.phase = 3 →
    exec (.sramUncorrectable (.keySession p)) s = .next (settle s (linkDown p (sramFault none [9, p] s)))) ∧
  (∀ (k set n : Nat) (s : State),
    exec (.cleanerCycle .system n) s = .next (settle s { s with mantel.sysCe := sat32 (s.mantel.sysCe + n) }) ∧
    exec (.cleanerCycle (.hearth k) n) s = .next (settle s (countCe (s.nookOwner k) n s)) ∧
    exec (.cleanerCycle (.directory k set) n) s = .next (settle s (countCe (s.nookOwner k) n { s with dir.ents := s.dir.ents.filter fun d =>
      !(d.nook == k && d.line % 4096 == set && d.st == .i && !d.lost && !pendLine s d.line) }))) ∧
  (∀ (id : Nat) (k : Trk) (s : State), s.mem.trks.find? (·.id == id) = some k →
    exec (.sramUncorrectable (.tracker id)) s = .next (settle s (endTracker id .damaged (sramFault k.part [6, id] s)))) ∧
  (∀ (nook cid : Nat) (c : Chain) (s : State), s.chain? cid = some c → c.home = nook →
    (c.admitted = true → exec (.sramUncorrectable (.tileQueue nook cid)) s = .next (settle s (abort cid .damaged 0 (sramFault (holder s nook) [0, nook, cid] s)))) ∧
    (c.admitted = false → exec (.sramUncorrectable (.chainQueue nook cid)) s = .next (settle s (abort cid .damaged 0 (sramFault (holder s nook) [2, nook, cid] s))))) ∧
  (∀ (nook set : Nat) (s : State), setLost s nook set = false →
    exec (.sramUncorrectable (.directory nook set)) s = .next (settle s (let s1 := eventMO 0x003B (holder s nook) [nook, set] (sramFault (holder s nook) [11, nook, set] s)
      recallAll (fun d => d.nook == nook && d.line % 4096 == set) { s1 with dir.setLost := s1.dir.setLost ++ [(nook, set)] }))) ∧
  (∀ (s : State), s.mantel.restarting = false → exec (.sramUncorrectable .mantel) s = .next (settle s (mantelFault (sramFault none [10] s)))) ∧
  (∀ (s : State), exec .mantelRestartEnd s = .next (settle s { s with mantel.restarting := false })) ∧
  (∀ (c : Nat) (why : RetireWhy) (s : State), c < 768 → chanGone (s.chan c) = false → retireDue s c why = true →
    let s1 := modChan c (fun k => { k with retiring := some s.t, lead := (sameFault s c).elim c fun d => (s.chan d).lead }) s
    let go := fun (t : State) => exec (.channelRetireTrigger c why) s = .next (settle s
      (recallAll (fun d => onChan t c d.line) (loseReads c (loseStrokes c (dropMapPages c t)))))
    (s.chanOwner c = none → go s1) ∧ (∀ p, s.chanOwner c = some p → sameFault s c = none → go (dataFault p 0x0030 c s1)) ∧
    (∀ p d, s.chanOwner c = some p → sameFault s c = some d → go s1)) ∧
  (∀ (c : Nat) (k : Chan) (s : State), s.chans[c]? = some k → k.retiring.isSome = true →
    (s.chanOwner c).elim false (fun p => !recoveryRuns s p 0x0030 k.lead) = false →
    ∃ t, exec (.channelRetire c) s = .next t ∧ (t.chan c).retired = true ∧ (t.chan c).retiring = none ∧ (t.chan c).damaged = [] ∧
      t.flash.retired = s.flash.retired ++ [c] ∧ t.mem = s.mem ∧ t.maps = s.maps ∧ t.dir = s.dir) ∧
  (∀ (p : Nat) (x : Part) (r : Recovery) (s : State), s.part? p = some x → x.recs.filter (·.ended) = [r] →
    exec (.recoveryEnd p) s = .next (settle s (eventMO 0x0037 (some p) [r.code, s.t - r.at_]
      (modPart p (fun x => { x with recs := startNext (x.recs.filter (! ·.ended)) }) s)))) ∧
  (∀ (h : Int) (ts : List Int) (s : State), ts.length = 24 →
    ∃ t, exec (.tempSample h ts) s = .next t ∧ t.power.tempHearth = h ∧ t.power.tempStacks = ts ∧ t.mem = s.mem ∧ t.maps = s.maps ∧ t.dir = s.dir ∧
      (hotter 105 95 h ts = true → t.power.warn = true) ∧
      (hotter 118 105 h ts = true → s.power.emergency = false → inReset s = false → t.power.tooHot = true) ∧
      (hotter 118 105 h ts = false → t.power.tooHot = s.power.tooHot) ∧
      t.power.emergency = s.power.emergency ∧ t.power.readyBasic = s.power.readyBasic) ∧
  (∀ (t0 : Nat) (s : State), s.flash.prof.secure = false → s.power.emergency = false → inReset s = false → s.ns % 256 = 0 → 0 < s.power.step →
    s.power.warn = false → s.power.powerW ≤ 2650 → s.power.lowAt = some t0 → t0 + 10000000 ≤ s.t → s.power.stepAt + 10000000 ≤ s.t →
    exec .throttle s = .next (settle s (eventMA 0x0038 [s.power.step - 1, stepMhz (s.power.step - 1)]
      { s with power := { s.power with step := s.power.step - 1, stepAt := s.t } }))) ∧
  (∀ (s : State), s.flash.prof.secure = false → s.power.emergency = false → inReset s = false → s.ns % 256 = 0 → (s.power.warn = true ∨ 2650 < s.power.powerW) →
    s.power.stepAt + 1000000 ≤ s.t → s.power.step < 3 →
    exec .throttle s = .next (settle s (eventMA 0x0038 [s.power.step + 1, stepMhz (s.power.step + 1)]
      { s with power := { s.power with step := s.power.step + 1, stepAt := s.t } }))) ∧
  (∀ (w mv : Nat) (s : State), s.mantel.teleAt < s.ns / 1000000 →
    ∃ t, exec (.telemetrySample w mv) s = .next t ∧ t.mantel.teleAt = s.ns / 1000000 ∧ t.power.powerW = w ∧ t.power.inputMv = mv ∧
      t.mantel.teleM.powerW = w ∧ t.mantel.teleM.ns = (s.ns / 1000000 - 1) * 1000000 ∧ t.mem.bytes = s.mem.bytes ∧ t.dir = s.dir)

/-! ## Start, reset, power, clocks and pins (chapters 17 and 19) -/

/-- R420 to R431, R473 to R485: profile commands, the warm restart, the start and readiness, supplies, the brake, clocks, pins, the slot
boundary and the SMBus.
Forms that complete here: warmRestart, profileRead, profileWrite, profileSelect, slotBoundary, suppliesValid, supplyOutOfRange,
supplyBackInRange, supplyLoss, modRstNFall, startInstant, readyBasic, readyFull, pwrBrakeAssert, pwrBrakeRelease, brakeLatchClear,
refclkLost, refclkReturn, twinSenseN, smbusBlockRead. -/
def Obligations.StartAndPowerAct : Prop :=
  (∀ (m : MbxId) (j : Job) (s : State), mayRun s m 0x0102 j → s.mantel.fwStream = none →
    (s.power.emergency = true → s.power.belowAt.elim false (fun t0 => decide (t0 + 10000000 ≤ s.t)) = true) →
    let s1 := startJob j s
    exec (.warmRestart m) s = .next (settle s (finish j.id .ok 0 [] { s1 with power := { s1.power with warm := true, startDue := true } }))) ∧
  (∀ (m : MbxId) (j : Job) (s : State), mayRun s m 0x0201 j → fldLE j.payload 0 1 ≤ 3 → zeroAt j.payload 1 3 = true →
    fldLE j.payload 4 4 + fldLE j.payload 8 4 ≤ slotBytes4 → fldLE j.payload 8 4 ≤ 4096 →
    ∃ b, exec (.profileRead m) s = .next (settle s (finish j.id .ok 0 b (startJob j s))) ∧ b.length = fldLE j.payload 8 4) ∧
  (∀ (m : MbxId) (j : Job) (s : State), mayRun s m 0x0202 j →
    let n := fldLE j.payload 0 1
    let put := fun (cf : List Host.Cell) => cellsWrite 0xFF cf (n * slotBytes4 + fldLE j.payload 4 4) (j.payload.drop 8)
    n ≤ 3 → zeroAt j.payload 1 3 = true → fldLE j.payload 4 4 + (j.payload.drop 8).length ≤ slotBytes4 → slotActive s n = false →
    exec (.profileWrite m) s = .next (settle s (finish j.id .ok 0 [] { startJob j s with flash := { s.flash with cf0 := put s.flash.cf0, cf1 := put s.flash.cf1 } }))) ∧
  (∀ (m : MbxId) (j : Job) (s : State), mayRun s m 0x0203 j → fldLE j.payload 0 1 ≤ 3 →
    let s1 := startJob j s
    ((applySlot (fldLE j.payload 0 1) (bare s1)).isSome = true →
      exec (.profileSelect m) s = .next (settle s { s1 with flash.selectDue := s.flash.selectDue ++ [(fldLE j.payload 0 1, j.id)] })) ∧
    ((applySlot (fldLE j.payload 0 1) (bare s1)).isSome = false → exec (.profileSelect m) s = .next (settle s (finish j.id .profileBad 0 [] s1)))) ∧
  (∀ (s : State), s.ember.lastSlot < s.slot → s.flash.selectDue = [] → s.power.tooHot = true → inReset s = false →
    let s1 := thermalEmergency { s with ember.lastSlot := s.slot }
    exec .slotBoundary s = .next (settle s { s1 with flash.selectDue := [] }) ∧ s1.power.emergency = true ∧ s1.power.readyBasic = false ∧
      s1.power.readyFull = false ∧ s1.mantel.faultCause &&& 4 = 4) ∧
  (∀ (s : State), s.ember.lastSlot < s.slot → s.flash.selectDue = [] → s.power.tooHot = false →
    let s1 : State := { s with ember.lastSlot := s.slot }
    (brakeWanted s1 = s.power.brake → exec .slotBoundary s = .next (settle s s1)) ∧
    (brakeWanted s1 ≠ s.power.brake → s.power.emergency = false → inReset s = false →
      exec .slotBoundary s = .next (settle s (eventMA 0x001D [s.slot, b2n (brakeWanted s1), b2n s.power.brakeLatch] { s1 with power.brake := brakeWanted s1 })))) ∧
  (∀ (n j : Nat) (s : State), s.ember.lastSlot < s.slot → s.flash.selectDue = [(n, j)] → s.power.tooHot = false →
    let s1 : State := { s with ember.lastSlot := s.slot, flash.selectDue := [] }
    brakeWanted s1 = s.power.brake →
    exec .slotBoundary s = .next (settle s (finish j (if (applySlot n (bare s1)).isSome then .ok else .profileBad) 0 [] (selectLive n s1)))) ∧
  (∀ (s : State), s.power.valid = false →
    exec .suppliesValid s = .next (settle s { s with power := { s.power with valid := true, startDue := true, outOfRange := false } })) ∧
  (∀ (s : State), exec .supplyOutOfRange s = .next (settle s { s with power.outOfRange := s.power.outOfRange || s.power.valid })) ∧
  (∀ (s : State), exec .supplyBackInRange s = .next (settle s { s with power.outOfRange := false })) ∧
  (∀ (s : State), ∃ t, exec .supplyLoss s = .next t ∧ t.power.valid = false ∧ t.power.readyBasic = false ∧ t.power.readyFull = false ∧ t.mem.bytes = [] ∧
    t.mantel.jobs = [] ∧ t.flash.cf0 = s.flash.cf0 ∧ t.flash.cf1 = s.flash.cf1 ∧ t.tiers.units = s.tiers.units) ∧
  (∀ (s : State), ∃ t, exec .modRstNFall s = .next t ∧ t.power.rstLow = true ∧ t.power.readyBasic = false ∧ t.power.readyFull = false ∧ t.mem.bytes = [] ∧
    t.ten.parts = [] ∧ t.dir = {} ∧ t.flash.cf0 = s.flash.cf0 ∧ t.flash.retired = s.flash.retired) ∧
  (∀ (fwOk idOk : Bool) (s : State), s.power.valid = true → s.power.startDue = true → (s.power.refLost.getD 0 false && s.power.refLost.getD 1 false) = false →
    ∃ t, exec (.startInstant fwOk idOk) s = .next t ∧ t.power.started = true ∧ t.power.startDue = false ∧ t.power.rstLow = false ∧ t.power.startAt = s.t ∧
      t.power.readyBasic = false ∧ t.mem.bytes = [] ∧ t.power.bootFail = (!fwOk) ∧ (fwOk = true → t.power.noIdentity = (!idOk)) ∧
      (fwOk = false → t.mantel.faultCause.getLsbD 0 = true)) ∧
  (∀ (s : State), s.power.started = true → s.power.readyBasic = false → s.power.bootFail = false → s.power.emergency = false → inReset s = false →
    s.ember.delays ≠ [] →
    exec .readyBasic s = .next (settle s (elect (readyChange { s with power.readyBasic := true })))) ∧
  (∀ (s : State), s.power.readyBasic = true → s.power.readyFull = false → inReset s = false →
    ∃ t, exec .readyFull s = .next t ∧ t.power.readyFull = true ∧ t.mem = s.mem ∧ t.maps = s.maps ∧ t.sax = s.sax ∧
      t.trays = s.trays.map (fun k => if k.mode = 1 || k.mode = 3 then { k with perstLow := false } else k)) ∧
  (∀ (s : State), s.power.brakeLow = false → s.power.brakeAsserts = [] → inReset s = false →
    exec .pwrBrakeAssert s = .next (settle s { s with power := { s.power with brakeLow := true, brakeAsserts := [s.t] } })) ∧
  (∀ (a : Nat) (s : State), s.power.brakeLow = false → s.power.brakeAsserts = [a] → s.t ≤ a + 10000000 → inReset s = false →
    exec .pwrBrakeAssert s = .next (settle s { s with power := { s.power with brakeLow := true, brakeAsserts := [a, s.t], brakeLatch := true } })) ∧
  (∀ (s : State), s.power.brakeLow = true → exec .pwrBrakeRelease s = .next (settle s { s with power := { s.power with brakeLow := false, brakeHighAt := s.t } })) ∧
  (∀ (s : State), s.power.brakeLatch = true → s.power.brakeLow = false → s.power.brakeHighAt + 50000000 ≤ s.t →
    exec .brakeLatchClear s = .next (settle s { s with power.brakeLatch := false })) ∧
  (∀ (k : Nat) (s : State), s.power.refLost.getD k false = false →
    let s1 : State := { s with power.refLost := s.power.refLost.set k true }
    (k = 2 → exec (.refclkLost k) s = .next (settle s ((List.range 32).foldl (fun s t => trayDown t s) s1))) ∧
    (k ≤ 1 → (s1.power.refLost.getD 0 false && s1.power.refLost.getD 1 false) = true → exec (.refclkLost k) s = .next (settle s (resetLow s1))) ∧
    (k ≤ 1 → (s1.power.refLost.getD 0 false && s1.power.refLost.getD 1 false) = false → exec (.refclkLost k) s = .next (settle s
      (chimneyDown (if k = 0 then .a else .b) (((List.range 128).map (128 * k + ·)).foldl (fun s p => dropLink p s) s1))))) ∧
  (∀ (k : Nat) (s : State), exec (.refclkReturn k) s = .next (settle s { s with power.refLost := s.power.refLost.set k false })) ∧
  (∀ (low : Bool) (s : State), low ≠ s.twin.sense →
    exec (.twinSenseN low) s = .next (settle s { s with twin := { s.twin with sense := low, senseAt := if low then some s.t else none } })) ∧
  (∀ (c : Nat) (s : State), s.power.valid = true → c ≤ 4 →
    exec (.smbusBlockRead c) s = .next (settle s { s with power.smbus := some (toLE 4 (readReg s (4 * c))) }))

/-! ## The twin (chapter 17) -/

/-- R20, R431, R436 to R444, R460, R491: the pair forms, synchronises, fails over and ends; its status is read; a partition is handed
over; mirror accesses and mirror writes of the twin are performed and answered.
Forms that complete here: twinPair, twinUnpair, twinStatus, twinTakeover, twinPaired, twinDown, twinLinksDown, twinSyncEnd,
twinPairTimeout, takeoverDrainTimeout, mirrorAccess, mirrorWrite. -/
def Obligations.TwinActs : Prop :=
  (∀ (m : MbxId) (j : Job) (s : State), mayRun s m 0x0204 j →
    let a := fldLE j.payload 0 1
    let b := fldLE j.payload 1 1
    s.flash.prof.sysNooks ≠ 0 → zeroAt j.payload 2 6 = true → a ≠ b → a % 4 = 0 → b % 4 = 0 → (s.port a).wide = true → (s.port b).wide = true →
    (s.port a).kind = 2 → (s.port b).kind = 2 → fldLE j.payload 8 8 ≠ 0 → s.twin.st = .unpaired → s.twin.pairJob = none →
    exec (.twinPair m) s = .next (settle s { startJob j s with twin := { s.twin with portA := a, portB := b, serial := fldLE j.payload 8 8, pairJob := some (j.id, s.t) } })) ∧
  (∀ (m : MbxId) (j : Job) (s : State), mayRun s m 0x0205 j → s.flash.prof.sysNooks ≠ 0 →
    (s.twin.st = .unpaired → exec (.twinUnpair m) s = .next (settle s (finish j.id .ok 0 [] (startJob j s)))) ∧
    (s.twin.st ≠ .unpaired → exec (.twinUnpair m) s = .next (settle s (finish j.id .ok 0 [] (tellTwin 0x0205 [] (endPair (startJob j s))))))) ∧
  (∀ (m : MbxId) (j : Job) (s : State), mayRun s m 0x0206 j → s.flash.prof.sysNooks ≠ 0 →
    exec (.twinStatus m) s = .next (settle s (finish j.id .ok 0 (twinRecord s) (startJob j s)))) ∧
  (∀ (m : MbxId) (j : Job) (s : State), mayRun s m 0x0207 j →
    let p := fldLE j.payload 0 1
    s.flash.prof.sysNooks ≠ 0 → s.twin.st = .paired → s.twin.takeJob = none → s.twin.giving = none → s.twin.twinned.contains p = true →
    (s.twin.primary.contains p = true → exec (.twinTakeover m) s = .next (settle s (finish j.id .ok 0 [] (startJob j s)))) ∧
    (s.twin.primary.contains p = false → exec (.twinTakeover m) s = .next (settle s (tellTwin 0x0207 (toLE 1 p) { startJob j s with twin.takeJob := some (j.id, p, s.t) })))) ∧
  (∀ (s : State), (s.twin.st = .degraded ∨ s.twin.st = .alone ∨ (s.twin.st = .unpaired ∧ (twinProfile s = true ∨ s.twin.pairJob.isSome = true))) →
    matching s = true → exec .twinPaired s = .next (settle s (pairUp s))) ∧
  (∀ (a : Nat) (s : State), s.twin.sense = true → s.twin.senseAt = some a → a + 1000000 ≤ s.t → (s.twin.st = .paired ∨ s.twin.st = .syncing ∨ s.twin.st = .degraded) →
    let taken := if s.twin.st == .paired then s.twin.twinned.filter (! s.twin.primary.contains ·) else []
    let s1 := unmirror { s with twin := { s.twin with takeJob := none, giving := none, copying := [] } }
    let s2 := setTwin .alone taken (takeOver taken (dataFaults taken 0x0021 0 s1))
    exec .twinDown s = .next (settle s (finish? (s.twin.takeJob.map (·.1)) (if taken.isEmpty then .busy else .ok)
      (taken.foldl (fun s p => endRecovery p 0x0021 0 s) s2)))) ∧
  (∀ (a : Nat) (s : State), s.twin.downAt = some a → a + 2000000 ≤ s.t → twinDark s = true → s.twin.sense = false → s.mirrors = true →
    exec .twinLinksDown s = .next (settle s (finish? (s.twin.takeJob.map (·.1)) .busy
      (setTwin .degraded [] (unmirror { s with twin := { s.twin with copying := [], giving := none, takeJob := none } }))))) ∧
  (∀ (s : State), s.twin.st = .syncing →
    (s.twin.copying = [] → exec .twinSyncEnd s = .next (settle s (setTwin .paired [] s))) ∧
    (s.twin.copying ≠ [] → exec .twinSyncEnd s = .next (settle s s))) ∧
  (∀ (w : Nat × Nat) (s : State), s.twin.pairJob = some w → w.2 + 1000000000 ≤ s.t →
    exec .twinPairTimeout s = .next (settle s (finish w.1 .timeout 0 [] { s with twin := { s.twin with
      pairJob := none, portA := s.flash.prof.twinA, portB := s.flash.prof.twinB, serial := s.flash.prof.twinSerial } }))) ∧
  (∀ (p a : Nat) (s : State), let runs := fun (c : Chain) => c.part == p && c.admitted && c.status.isNone && !c.ended
    s.twin.giving = some (p, a) → (a + 4000000 ≤ s.t ∨ s.chains.chains.any runs = false) →
    let s1 := recallAll (cachedThere s p) (abortWhere runs .quiesced s)
    let busy := s1.chains.chains.any (fun c => c.part == p && c.admitted) || s1.dir.ents.any (cachedThere s1 p)
      || !s1.twin.open_.isEmpty || s1.twin.desc.any (·.2.1 == p)
    (busy = true → exec (.takeoverDrainTimeout p) s = .next (settle s s1)) ∧
    (busy = false → exec (.takeoverDrainTimeout p) s = .next (settle s (tellTwin 0x0207 (toLE 1 p ++ [1])
      { s1 with twin := { s1.twin with giving := none, primary := s1.twin.primary.filter (· != p) } })))) ∧
  (∀ (p a txn h : Nat) (d : Bytes) (e : Extent) (s s1 : State), (s.port p).kind = 2 → linkAlive s p = true →
    police p (peerId s p) (rawFlits ((s.port p).sess.phase == 3) (1 + pktLen (8 + d.length))) true s = (true, h, s1) →
    s1.twin.st = .paired → anyExtent s1 a = some e → e.mirror = 1 → s1.twin.twinned.contains e.part = true → s1.twin.primary.contains e.part = false →
    exec (.mirrorAccess p true a txn d) s = .next (settle s (answerTwin p 5 txn 7 .ok [] (memWrite a d s1))) ∧
    exec (.mirrorAccess p false a txn d) s = .next (settle s (answerTwin p 5 txn 3 .ok (memRead s1 a 64) s1))) ∧
  (∀ (p q a txn h : Nat) (w : Bool) (d : Bytes) (m : MirrorMsg) (s s1 : State), (s.port p).kind = 2 → linkAlive s p = true →
    let refused := fun (n : Nat) => police p (peerId s p) (rawFlits ((s.port p).sess.phase == 3) (1 + pktLen n)) true s = (false, h, s1)
    (refused (8 + d.length) → exec (.mirrorAccess p w a txn d) s = .next (settle s (answerTwin p 5 txn 7 .retry [] s1))) ∧
    (refused (mirrorBytes m) → exec (.mirrorWrite p q txn m) s = .next (settle s (answerTwin p (mirrorSvc m) txn 7 .retry [] s1)))) ∧
  (∀ (p q txn h : Nat) (m : MirrorMsg) (s s1 : State), (s.port p).kind = 2 → linkAlive s p = true →
    police p (peerId s p) (rawFlits ((s.port p).sess.phase == 3) (1 + pktLen (mirrorBytes m))) true s = (true, h, s1) →
    let go := fun (st : Status) (t : State) => exec (.mirrorWrite p q txn m) s = .next (settle s (answerTwin p (mirrorSvc m) txn 7 st [] t))
    (∀ op b, q = 16 → m = .desc op b → s1.twin.st ≠ .unpaired → go (applyControl op b s1).1 (applyControl op b s1).2) ∧
    (∀ b, q = 16 → m = .calendar b → s1.mirrors = true → go .ok { s1 with twin.calImage := cellsWrite 0 [] 0 b }) ∧
    (q ≤ 15 → s1.mirrors = true → s1.twin.twinned.contains q = true → s1.twin.primary.contains q = false →
      go (applyMirror q m s1).1 (applyMirror q m s1).2)) ∧
  (∀ (q a : Nat) (d : Bytes) (e : Extent) (s : State), anyExtent s a = some e → e.part = q → e.mirror = 1 →
    applyMirror q (.data a d) s = (.ok, memWrite a d s))
end

