-- ==== Sys2Proof/Laws/State.lean ====
section
/-! SUPPORT. What each named update of the state leaves alone: one lemma for each field and update. -/

namespace Sys2Proof.Machine

@[simp] theorem modChan_pending (c : Nat) (f : Chan → Chan) (s : State) : (modChan c f s).pending = s.pending := rfl
@[simp] theorem modChan_t (c : Nat) (f : Chan → Chan) (s : State) : (modChan c f s).t = s.t := rfl
@[simp] theorem modChan_mantel (c : Nat) (f : Chan → Chan) (s : State) : (modChan c f s).mantel = s.mantel := rfl
@[simp] theorem modChan_power (c : Nat) (f : Chan → Chan) (s : State) : (modChan c f s).power = s.power := rfl
@[simp] theorem modChan_flash (c : Nat) (f : Chan → Chan) (s : State) : (modChan c f s).flash = s.flash := rfl
@[simp] theorem modChan_ten (c : Nat) (f : Chan → Chan) (s : State) : (modChan c f s).ten = s.ten := rfl
@[simp] theorem modChan_maps (c : Nat) (f : Chan → Chan) (s : State) : (modChan c f s).maps = s.maps := rfl
@[simp] theorem modChan_mem (c : Nat) (f : Chan → Chan) (s : State) : (modChan c f s).mem = s.mem := rfl
@[simp] theorem modChan_dir (c : Nat) (f : Chan → Chan) (s : State) : (modChan c f s).dir = s.dir := rfl
@[simp] theorem modChan_sax (c : Nat) (f : Chan → Chan) (s : State) : (modChan c f s).sax = s.sax := rfl
@[simp] theorem modChan_trays (c : Nat) (f : Chan → Chan) (s : State) : (modChan c f s).trays = s.trays := rfl
@[simp] theorem modChan_dsax (c : Nat) (f : Chan → Chan) (s : State) : (modChan c f s).dsax = s.dsax := rfl
@[simp] theorem modChan_dtray (c : Nat) (f : Chan → Chan) (s : State) : (modChan c f s).dtray = s.dtray := rfl
@[simp] theorem modChan_ember (c : Nat) (f : Chan → Chan) (s : State) : (modChan c f s).ember = s.ember := rfl
@[simp] theorem modChan_cal (c : Nat) (f : Chan → Chan) (s : State) : (modChan c f s).cal = s.cal := rfl
@[simp] theorem modChan_tables (c : Nat) (f : Chan → Chan) (s : State) : (modChan c f s).tables = s.tables := rfl
@[simp] theorem modChan_moves (c : Nat) (f : Chan → Chan) (s : State) : (modChan c f s).moves = s.moves := rfl
@[simp] theorem modChan_loadTick (c : Nat) (f : Chan → Chan) (s : State) : (modChan c f s).loadTick = s.loadTick := rfl
@[simp] theorem modChan_balTick (c : Nat) (f : Chan → Chan) (s : State) : (modChan c f s).balTick = s.balTick := rfl
@[simp] theorem modChan_chains (c : Nat) (f : Chan → Chan) (s : State) : (modChan c f s).chains = s.chains := rfl
@[simp] theorem modChan_groups (c : Nat) (f : Chan → Chan) (s : State) : (modChan c f s).groups = s.groups := rfl
@[simp] theorem modChan_tiers (c : Nat) (f : Chan → Chan) (s : State) : (modChan c f s).tiers = s.tiers := rfl
@[simp] theorem modChan_twin (c : Nat) (f : Chan → Chan) (s : State) : (modChan c f s).twin = s.twin := rfl

@[simp] theorem modPort_pending (p : Nat) (f : SaxPort → SaxPort) (s : State) : (modPort p f s).pending = s.pending := rfl
@[simp] theorem modPort_t (p : Nat) (f : SaxPort → SaxPort) (s : State) : (modPort p f s).t = s.t := rfl
@[simp] theorem modPort_mantel (p : Nat) (f : SaxPort → SaxPort) (s : State) : (modPort p f s).mantel = s.mantel := rfl
@[simp] theorem modPort_power (p : Nat) (f : SaxPort → SaxPort) (s : State) : (modPort p f s).power = s.power := rfl
@[simp] theorem modPort_flash (p : Nat) (f : SaxPort → SaxPort) (s : State) : (modPort p f s).flash = s.flash := rfl
@[simp] theorem modPort_ten (p : Nat) (f : SaxPort → SaxPort) (s : State) : (modPort p f s).ten = s.ten := rfl
@[simp] theorem modPort_maps (p : Nat) (f : SaxPort → SaxPort) (s : State) : (modPort p f s).maps = s.maps := rfl
@[simp] theorem modPort_mem (p : Nat) (f : SaxPort → SaxPort) (s : State) : (modPort p f s).mem = s.mem := rfl
@[simp] theorem modPort_dir (p : Nat) (f : SaxPort → SaxPort) (s : State) : (modPort p f s).dir = s.dir := rfl
@[simp] theorem modPort_chans (p : Nat) (f : SaxPort → SaxPort) (s : State) : (modPort p f s).chans = s.chans := rfl
@[simp] theorem modPort_trays (p : Nat) (f : SaxPort → SaxPort) (s : State) : (modPort p f s).trays = s.trays := rfl
@[simp] theorem modPort_dsax (p : Nat) (f : SaxPort → SaxPort) (s : State) : (modPort p f s).dsax = s.dsax := rfl
@[simp] theorem modPort_dtray (p : Nat) (f : SaxPort → SaxPort) (s : State) : (modPort p f s).dtray = s.dtray := rfl
@[simp] theorem modPort_ember (p : Nat) (f : SaxPort → SaxPort) (s : State) : (modPort p f s).ember = s.ember := rfl
@[simp] theorem modPort_cal (p : Nat) (f : SaxPort → SaxPort) (s : State) : (modPort p f s).cal = s.cal := rfl
@[simp] theorem modPort_tables (p : Nat) (f : SaxPort → SaxPort) (s : State) : (modPort p f s).tables = s.tables := rfl
@[simp] theorem modPort_moves (p : Nat) (f : SaxPort → SaxPort) (s : State) : (modPort p f s).moves = s.moves := rfl
@[simp] theorem modPort_loadTick (p : Nat) (f : SaxPort → SaxPort) (s : State) : (modPort p f s).loadTick = s.loadTick := rfl
@[simp] theorem modPort_balTick (p : Nat) (f : SaxPort → SaxPort) (s : State) : (modPort p f s).balTick = s.balTick := rfl
@[simp] theorem modPort_chains (p : Nat) (f : SaxPort → SaxPort) (s : State) : (modPort p f s).chains = s.chains := rfl
@[simp] theorem modPort_groups (p : Nat) (f : SaxPort → SaxPort) (s : State) : (modPort p f s).groups = s.groups := rfl
@[simp] theorem modPort_tiers (p : Nat) (f : SaxPort → SaxPort) (s : State) : (modPort p f s).tiers = s.tiers := rfl
@[simp] theorem modPort_twin (p : Nat) (f : SaxPort → SaxPort) (s : State) : (modPort p f s).twin = s.twin := rfl

@[simp] theorem modTray_pending (k : Nat) (f : TrayPort → TrayPort) (s : State) : (modTray k f s).pending = s.pending := rfl
@[simp] theorem modTray_t (k : Nat) (f : TrayPort → TrayPort) (s : State) : (modTray k f s).t = s.t := rfl
@[simp] theorem modTray_mantel (k : Nat) (f : TrayPort → TrayPort) (s : State) : (modTray k f s).mantel = s.mantel := rfl
@[simp] theorem modTray_power (k : Nat) (f : TrayPort → TrayPort) (s : State) : (modTray k f s).power = s.power := rfl
@[simp] theorem modTray_flash (k : Nat) (f : TrayPort → TrayPort) (s : State) : (modTray k f s).flash = s.flash := rfl
@[simp] theorem modTray_ten (k : Nat) (f : TrayPort → TrayPort) (s : State) : (modTray k f s).ten = s.ten := rfl
@[simp] theorem modTray_maps (k : Nat) (f : TrayPort → TrayPort) (s : State) : (modTray k f s).maps = s.maps := rfl
@[simp] theorem modTray_mem (k : Nat) (f : TrayPort → TrayPort) (s : State) : (modTray k f s).mem = s.mem := rfl
@[simp] theorem modTray_dir (k : Nat) (f : TrayPort → TrayPort) (s : State) : (modTray k f s).dir = s.dir := rfl
@[simp] theorem modTray_chans (k : Nat) (f : TrayPort → TrayPort) (s : State) : (modTray k f s).chans = s.chans := rfl
@[simp] theorem modTray_sax (k : Nat) (f : TrayPort → TrayPort) (s : State) : (modTray k f s).sax = s.sax := rfl
@[simp] theorem modTray_dsax (k : Nat) (f : TrayPort → TrayPort) (s : State) : (modTray k f s).dsax = s.dsax := rfl
@[simp] theorem modTray_dtray (k : Nat) (f : TrayPort → TrayPort) (s : State) : (modTray k f s).dtray = s.dtray := rfl
@[simp] theorem modTray_ember (k : Nat) (f : TrayPort → TrayPort) (s : State) : (modTray k f s).ember = s.ember := rfl
@[simp] theorem modTray_cal (k : Nat) (f : TrayPort → TrayPort) (s : State) : (modTray k f s).cal = s.cal := rfl
@[simp] theorem modTray_tables (k : Nat) (f : TrayPort → TrayPort) (s : State) : (modTray k f s).tables = s.tables := rfl
@[simp] theorem modTray_moves (k : Nat) (f : TrayPort → TrayPort) (s : State) : (modTray k f s).moves = s.moves := rfl
@[simp] theorem modTray_loadTick (k : Nat) (f : TrayPort → TrayPort) (s : State) : (modTray k f s).loadTick = s.loadTick := rfl
@[simp] theorem modTray_balTick (k : Nat) (f : TrayPort → TrayPort) (s : State) : (modTray k f s).balTick = s.balTick := rfl
@[simp] theorem modTray_chains (k : Nat) (f : TrayPort → TrayPort) (s : State) : (modTray k f s).chains = s.chains := rfl
@[simp] theorem modTray_groups (k : Nat) (f : TrayPort → TrayPort) (s : State) : (modTray k f s).groups = s.groups := rfl
@[simp] theorem modTray_tiers (k : Nat) (f : TrayPort → TrayPort) (s : State) : (modTray k f s).tiers = s.tiers := rfl
@[simp] theorem modTray_twin (k : Nat) (f : TrayPort → TrayPort) (s : State) : (modTray k f s).twin = s.twin := rfl

@[simp] theorem modPart_pending (p : Nat) (f : Part → Part) (s : State) : (modPart p f s).pending = s.pending := rfl
@[simp] theorem modPart_t (p : Nat) (f : Part → Part) (s : State) : (modPart p f s).t = s.t := rfl
@[simp] theorem modPart_mantel (p : Nat) (f : Part → Part) (s : State) : (modPart p f s).mantel = s.mantel := rfl
@[simp] theorem modPart_power (p : Nat) (f : Part → Part) (s : State) : (modPart p f s).power = s.power := rfl
@[simp] theorem modPart_flash (p : Nat) (f : Part → Part) (s : State) : (modPart p f s).flash = s.flash := rfl
@[simp] theorem modPart_maps (p : Nat) (f : Part → Part) (s : State) : (modPart p f s).maps = s.maps := rfl
@[simp] theorem modPart_mem (p : Nat) (f : Part → Part) (s : State) : (modPart p f s).mem = s.mem := rfl
@[simp] theorem modPart_dir (p : Nat) (f : Part → Part) (s : State) : (modPart p f s).dir = s.dir := rfl
@[simp] theorem modPart_chans (p : Nat) (f : Part → Part) (s : State) : (modPart p f s).chans = s.chans := rfl
@[simp] theorem modPart_sax (p : Nat) (f : Part → Part) (s : State) : (modPart p f s).sax = s.sax := rfl
@[simp] theorem modPart_trays (p : Nat) (f : Part → Part) (s : State) : (modPart p f s).trays = s.trays := rfl
@[simp] theorem modPart_dsax (p : Nat) (f : Part → Part) (s : State) : (modPart p f s).dsax = s.dsax := rfl
@[simp] theorem modPart_dtray (p : Nat) (f : Part → Part) (s : State) : (modPart p f s).dtray = s.dtray := rfl
@[simp] theorem modPart_ember (p : Nat) (f : Part → Part) (s : State) : (modPart p f s).ember = s.ember := rfl
@[simp] theorem modPart_cal (p : Nat) (f : Part → Part) (s : State) : (modPart p f s).cal = s.cal := rfl
@[simp] theorem modPart_tables (p : Nat) (f : Part → Part) (s : State) : (modPart p f s).tables = s.tables := rfl
@[simp] theorem modPart_moves (p : Nat) (f : Part → Part) (s : State) : (modPart p f s).moves = s.moves := rfl
@[simp] theorem modPart_loadTick (p : Nat) (f : Part → Part) (s : State) : (modPart p f s).loadTick = s.loadTick := rfl
@[simp] theorem modPart_balTick (p : Nat) (f : Part → Part) (s : State) : (modPart p f s).balTick = s.balTick := rfl
@[simp] theorem modPart_chains (p : Nat) (f : Part → Part) (s : State) : (modPart p f s).chains = s.chains := rfl
@[simp] theorem modPart_groups (p : Nat) (f : Part → Part) (s : State) : (modPart p f s).groups = s.groups := rfl
@[simp] theorem modPart_tiers (p : Nat) (f : Part → Part) (s : State) : (modPart p f s).tiers = s.tiers := rfl
@[simp] theorem modPart_twin (p : Nat) (f : Part → Part) (s : State) : (modPart p f s).twin = s.twin := rfl

@[simp] theorem setCause_pending (m : BitVec 32) (s : State) : (setCause m s).pending = s.pending := rfl
@[simp] theorem setCause_t (m : BitVec 32) (s : State) : (setCause m s).t = s.t := rfl
@[simp] theorem setCause_power (m : BitVec 32) (s : State) : (setCause m s).power = s.power := rfl
@[simp] theorem setCause_flash (m : BitVec 32) (s : State) : (setCause m s).flash = s.flash := rfl
@[simp] theorem setCause_ten (m : BitVec 32) (s : State) : (setCause m s).ten = s.ten := rfl
@[simp] theorem setCause_maps (m : BitVec 32) (s : State) : (setCause m s).maps = s.maps := rfl
@[simp] theorem setCause_mem (m : BitVec 32) (s : State) : (setCause m s).mem = s.mem := rfl
@[simp] theorem setCause_dir (m : BitVec 32) (s : State) : (setCause m s).dir = s.dir := rfl
@[simp] theorem setCause_chans (m : BitVec 32) (s : State) : (setCause m s).chans = s.chans := rfl
@[simp] theorem setCause_sax (m : BitVec 32) (s : State) : (setCause m s).sax = s.sax := rfl
@[simp] theorem setCause_trays (m : BitVec 32) (s : State) : (setCause m s).trays = s.trays := rfl
@[simp] theorem setCause_dsax (m : BitVec 32) (s : State) : (setCause m s).dsax = s.dsax := rfl
@[simp] theorem setCause_dtray (m : BitVec 32) (s : State) : (setCause m s).dtray = s.dtray := rfl
@[simp] theorem setCause_ember (m : BitVec 32) (s : State) : (setCause m s).ember = s.ember := rfl
@[simp] theorem setCause_cal (m : BitVec 32) (s : State) : (setCause m s).cal = s.cal := rfl
@[simp] theorem setCause_tables (m : BitVec 32) (s : State) : (setCause m s).tables = s.tables := rfl
@[simp] theorem setCause_moves (m : BitVec 32) (s : State) : (setCause m s).moves = s.moves := rfl
@[simp] theorem setCause_loadTick (m : BitVec 32) (s : State) : (setCause m s).loadTick = s.loadTick := rfl
@[simp] theorem setCause_balTick (m : BitVec 32) (s : State) : (setCause m s).balTick = s.balTick := rfl
@[simp] theorem setCause_chains (m : BitVec 32) (s : State) : (setCause m s).chains = s.chains := rfl
@[simp] theorem setCause_groups (m : BitVec 32) (s : State) : (setCause m s).groups = s.groups := rfl
@[simp] theorem setCause_tiers (m : BitVec 32) (s : State) : (setCause m s).tiers = s.tiers := rfl
@[simp] theorem setCause_twin (m : BitVec 32) (s : State) : (setCause m s).twin = s.twin := rfl

@[simp] theorem raiseIrq_pending (m : BitVec 32) (s : State) : (raiseIrq m s).pending = s.pending := rfl
@[simp] theorem raiseIrq_t (m : BitVec 32) (s : State) : (raiseIrq m s).t = s.t := rfl
@[simp] theorem raiseIrq_power (m : BitVec 32) (s : State) : (raiseIrq m s).power = s.power := rfl
@[simp] theorem raiseIrq_flash (m : BitVec 32) (s : State) : (raiseIrq m s).flash = s.flash := rfl
@[simp] theorem raiseIrq_ten (m : BitVec 32) (s : State) : (raiseIrq m s).ten = s.ten := rfl
@[simp] theorem raiseIrq_maps (m : BitVec 32) (s : State) : (raiseIrq m s).maps = s.maps := rfl
@[simp] theorem raiseIrq_mem (m : BitVec 32) (s : State) : (raiseIrq m s).mem = s.mem := rfl
@[simp] theorem raiseIrq_dir (m : BitVec 32) (s : State) : (raiseIrq m s).dir = s.dir := rfl
@[simp] theorem raiseIrq_chans (m : BitVec 32) (s : State) : (raiseIrq m s).chans = s.chans := rfl
@[simp] theorem raiseIrq_sax (m : BitVec 32) (s : State) : (raiseIrq m s).sax = s.sax := rfl
@[simp] theorem raiseIrq_trays (m : BitVec 32) (s : State) : (raiseIrq m s).trays = s.trays := rfl
@[simp] theorem raiseIrq_dsax (m : BitVec 32) (s : State) : (raiseIrq m s).dsax = s.dsax := rfl
@[simp] theorem raiseIrq_dtray (m : BitVec 32) (s : State) : (raiseIrq m s).dtray = s.dtray := rfl
@[simp] theorem raiseIrq_ember (m : BitVec 32) (s : State) : (raiseIrq m s).ember = s.ember := rfl
@[simp] theorem raiseIrq_cal (m : BitVec 32) (s : State) : (raiseIrq m s).cal = s.cal := rfl
@[simp] theorem raiseIrq_tables (m : BitVec 32) (s : State) : (raiseIrq m s).tables = s.tables := rfl
@[simp] theorem raiseIrq_moves (m : BitVec 32) (s : State) : (raiseIrq m s).moves = s.moves := rfl
@[simp] theorem raiseIrq_loadTick (m : BitVec 32) (s : State) : (raiseIrq m s).loadTick = s.loadTick := rfl
@[simp] theorem raiseIrq_balTick (m : BitVec 32) (s : State) : (raiseIrq m s).balTick = s.balTick := rfl
@[simp] theorem raiseIrq_chains (m : BitVec 32) (s : State) : (raiseIrq m s).chains = s.chains := rfl
@[simp] theorem raiseIrq_groups (m : BitVec 32) (s : State) : (raiseIrq m s).groups = s.groups := rfl
@[simp] theorem raiseIrq_tiers (m : BitVec 32) (s : State) : (raiseIrq m s).tiers = s.tiers := rfl
@[simp] theorem raiseIrq_twin (m : BitVec 32) (s : State) : (raiseIrq m s).twin = s.twin := rfl

@[simp] theorem startJob_pending (j : Job) (s : State) : (startJob j s).pending = s.pending := rfl
@[simp] theorem startJob_t (j : Job) (s : State) : (startJob j s).t = s.t := rfl
@[simp] theorem startJob_power (j : Job) (s : State) : (startJob j s).power = s.power := rfl
@[simp] theorem startJob_flash (j : Job) (s : State) : (startJob j s).flash = s.flash := rfl
@[simp] theorem startJob_ten (j : Job) (s : State) : (startJob j s).ten = s.ten := rfl
@[simp] theorem startJob_maps (j : Job) (s : State) : (startJob j s).maps = s.maps := rfl
@[simp] theorem startJob_mem (j : Job) (s : State) : (startJob j s).mem = s.mem := rfl
@[simp] theorem startJob_dir (j : Job) (s : State) : (startJob j s).dir = s.dir := rfl
@[simp] theorem startJob_chans (j : Job) (s : State) : (startJob j s).chans = s.chans := rfl
@[simp] theorem startJob_sax (j : Job) (s : State) : (startJob j s).sax = s.sax := rfl
@[simp] theorem startJob_trays (j : Job) (s : State) : (startJob j s).trays = s.trays := rfl
@[simp] theorem startJob_dsax (j : Job) (s : State) : (startJob j s).dsax = s.dsax := rfl
@[simp] theorem startJob_dtray (j : Job) (s : State) : (startJob j s).dtray = s.dtray := rfl
@[simp] theorem startJob_ember (j : Job) (s : State) : (startJob j s).ember = s.ember := rfl
@[simp] theorem startJob_cal (j : Job) (s : State) : (startJob j s).cal = s.cal := rfl
@[simp] theorem startJob_tables (j : Job) (s : State) : (startJob j s).tables = s.tables := rfl
@[simp] theorem startJob_moves (j : Job) (s : State) : (startJob j s).moves = s.moves := rfl
@[simp] theorem startJob_loadTick (j : Job) (s : State) : (startJob j s).loadTick = s.loadTick := rfl
@[simp] theorem startJob_balTick (j : Job) (s : State) : (startJob j s).balTick = s.balTick := rfl
@[simp] theorem startJob_chains (j : Job) (s : State) : (startJob j s).chains = s.chains := rfl
@[simp] theorem startJob_groups (j : Job) (s : State) : (startJob j s).groups = s.groups := rfl
@[simp] theorem startJob_tiers (j : Job) (s : State) : (startJob j s).tiers = s.tiers := rfl
@[simp] theorem startJob_twin (j : Job) (s : State) : (startJob j s).twin = s.twin := rfl

@[simp] theorem modTable_pending (p k : Nat) (f : Table → Table) (s : State) : (modTable p k f s).pending = s.pending := rfl
@[simp] theorem modTable_t (p k : Nat) (f : Table → Table) (s : State) : (modTable p k f s).t = s.t := rfl
@[simp] theorem modTable_mantel (p k : Nat) (f : Table → Table) (s : State) : (modTable p k f s).mantel = s.mantel := rfl
@[simp] theorem modTable_power (p k : Nat) (f : Table → Table) (s : State) : (modTable p k f s).power = s.power := rfl
@[simp] theorem modTable_flash (p k : Nat) (f : Table → Table) (s : State) : (modTable p k f s).flash = s.flash := rfl
@[simp] theorem modTable_ten (p k : Nat) (f : Table → Table) (s : State) : (modTable p k f s).ten = s.ten := rfl
@[simp] theorem modTable_maps (p k : Nat) (f : Table → Table) (s : State) : (modTable p k f s).maps = s.maps := rfl
@[simp] theorem modTable_mem (p k : Nat) (f : Table → Table) (s : State) : (modTable p k f s).mem = s.mem := rfl
@[simp] theorem modTable_dir (p k : Nat) (f : Table → Table) (s : State) : (modTable p k f s).dir = s.dir := rfl
@[simp] theorem modTable_chans (p k : Nat) (f : Table → Table) (s : State) : (modTable p k f s).chans = s.chans := rfl
@[simp] theorem modTable_sax (p k : Nat) (f : Table → Table) (s : State) : (modTable p k f s).sax = s.sax := rfl
@[simp] theorem modTable_trays (p k : Nat) (f : Table → Table) (s : State) : (modTable p k f s).trays = s.trays := rfl
@[simp] theorem modTable_dsax (p k : Nat) (f : Table → Table) (s : State) : (modTable p k f s).dsax = s.dsax := rfl
@[simp] theorem modTable_dtray (p k : Nat) (f : Table → Table) (s : State) : (modTable p k f s).dtray = s.dtray := rfl
@[simp] theorem modTable_ember (p k : Nat) (f : Table → Table) (s : State) : (modTable p k f s).ember = s.ember := rfl
@[simp] theorem modTable_cal (p k : Nat) (f : Table → Table) (s : State) : (modTable p k f s).cal = s.cal := rfl
@[simp] theorem modTable_moves (p k : Nat) (f : Table → Table) (s : State) : (modTable p k f s).moves = s.moves := rfl
@[simp] theorem modTable_loadTick (p k : Nat) (f : Table → Table) (s : State) : (modTable p k f s).loadTick = s.loadTick := rfl
@[simp] theorem modTable_balTick (p k : Nat) (f : Table → Table) (s : State) : (modTable p k f s).balTick = s.balTick := rfl
@[simp] theorem modTable_chains (p k : Nat) (f : Table → Table) (s : State) : (modTable p k f s).chains = s.chains := rfl
@[simp] theorem modTable_groups (p k : Nat) (f : Table → Table) (s : State) : (modTable p k f s).groups = s.groups := rfl
@[simp] theorem modTable_tiers (p k : Nat) (f : Table → Table) (s : State) : (modTable p k f s).tiers = s.tiers := rfl
@[simp] theorem modTable_twin (p k : Nat) (f : Table → Table) (s : State) : (modTable p k f s).twin = s.twin := rfl

@[simp] theorem modChain_pending (c : Nat) (f : Chain → Chain) (s : State) : (modChain c f s).pending = s.pending := rfl
@[simp] theorem modChain_t (c : Nat) (f : Chain → Chain) (s : State) : (modChain c f s).t = s.t := rfl
@[simp] theorem modChain_mantel (c : Nat) (f : Chain → Chain) (s : State) : (modChain c f s).mantel = s.mantel := rfl
@[simp] theorem modChain_power (c : Nat) (f : Chain → Chain) (s : State) : (modChain c f s).power = s.power := rfl
@[simp] theorem modChain_flash (c : Nat) (f : Chain → Chain) (s : State) : (modChain c f s).flash = s.flash := rfl
@[simp] theorem modChain_ten (c : Nat) (f : Chain → Chain) (s : State) : (modChain c f s).ten = s.ten := rfl
@[simp] theorem modChain_maps (c : Nat) (f : Chain → Chain) (s : State) : (modChain c f s).maps = s.maps := rfl
@[simp] theorem modChain_mem (c : Nat) (f : Chain → Chain) (s : State) : (modChain c f s).mem = s.mem := rfl
@[simp] theorem modChain_dir (c : Nat) (f : Chain → Chain) (s : State) : (modChain c f s).dir = s.dir := rfl
@[simp] theorem modChain_chans (c : Nat) (f : Chain → Chain) (s : State) : (modChain c f s).chans = s.chans := rfl
@[simp] theorem modChain_sax (c : Nat) (f : Chain → Chain) (s : State) : (modChain c f s).sax = s.sax := rfl
@[simp] theorem modChain_trays (c : Nat) (f : Chain → Chain) (s : State) : (modChain c f s).trays = s.trays := rfl
@[simp] theorem modChain_dsax (c : Nat) (f : Chain → Chain) (s : State) : (modChain c f s).dsax = s.dsax := rfl
@[simp] theorem modChain_dtray (c : Nat) (f : Chain → Chain) (s : State) : (modChain c f s).dtray = s.dtray := rfl
@[simp] theorem modChain_ember (c : Nat) (f : Chain → Chain) (s : State) : (modChain c f s).ember = s.ember := rfl
@[simp] theorem modChain_cal (c : Nat) (f : Chain → Chain) (s : State) : (modChain c f s).cal = s.cal := rfl
@[simp] theorem modChain_tables (c : Nat) (f : Chain → Chain) (s : State) : (modChain c f s).tables = s.tables := rfl
@[simp] theorem modChain_moves (c : Nat) (f : Chain → Chain) (s : State) : (modChain c f s).moves = s.moves := rfl
@[simp] theorem modChain_loadTick (c : Nat) (f : Chain → Chain) (s : State) : (modChain c f s).loadTick = s.loadTick := rfl
@[simp] theorem modChain_balTick (c : Nat) (f : Chain → Chain) (s : State) : (modChain c f s).balTick = s.balTick := rfl
@[simp] theorem modChain_groups (c : Nat) (f : Chain → Chain) (s : State) : (modChain c f s).groups = s.groups := rfl
@[simp] theorem modChain_tiers (c : Nat) (f : Chain → Chain) (s : State) : (modChain c f s).tiers = s.tiers := rfl
@[simp] theorem modChain_twin (c : Nat) (f : Chain → Chain) (s : State) : (modChain c f s).twin = s.twin := rfl

@[simp] theorem modTx_pending (l : Nat) (f : Tx → Tx) (s : State) : (modTx l f s).pending = s.pending := rfl
@[simp] theorem modTx_t (l : Nat) (f : Tx → Tx) (s : State) : (modTx l f s).t = s.t := rfl
@[simp] theorem modTx_mantel (l : Nat) (f : Tx → Tx) (s : State) : (modTx l f s).mantel = s.mantel := rfl
@[simp] theorem modTx_power (l : Nat) (f : Tx → Tx) (s : State) : (modTx l f s).power = s.power := rfl
@[simp] theorem modTx_flash (l : Nat) (f : Tx → Tx) (s : State) : (modTx l f s).flash = s.flash := rfl
@[simp] theorem modTx_ten (l : Nat) (f : Tx → Tx) (s : State) : (modTx l f s).ten = s.ten := rfl
@[simp] theorem modTx_maps (l : Nat) (f : Tx → Tx) (s : State) : (modTx l f s).maps = s.maps := rfl
@[simp] theorem modTx_mem (l : Nat) (f : Tx → Tx) (s : State) : (modTx l f s).mem = s.mem := rfl
@[simp] theorem modTx_chans (l : Nat) (f : Tx → Tx) (s : State) : (modTx l f s).chans = s.chans := rfl
@[simp] theorem modTx_sax (l : Nat) (f : Tx → Tx) (s : State) : (modTx l f s).sax = s.sax := rfl
@[simp] theorem modTx_trays (l : Nat) (f : Tx → Tx) (s : State) : (modTx l f s).trays = s.trays := rfl
@[simp] theorem modTx_dsax (l : Nat) (f : Tx → Tx) (s : State) : (modTx l f s).dsax = s.dsax := rfl
@[simp] theorem modTx_dtray (l : Nat) (f : Tx → Tx) (s : State) : (modTx l f s).dtray = s.dtray := rfl
@[simp] theorem modTx_ember (l : Nat) (f : Tx → Tx) (s : State) : (modTx l f s).ember = s.ember := rfl
@[simp] theorem modTx_cal (l : Nat) (f : Tx → Tx) (s : State) : (modTx l f s).cal = s.cal := rfl
@[simp] theorem modTx_tables (l : Nat) (f : Tx → Tx) (s : State) : (modTx l f s).tables = s.tables := rfl
@[simp] theorem modTx_moves (l : Nat) (f : Tx → Tx) (s : State) : (modTx l f s).moves = s.moves := rfl
@[simp] theorem modTx_loadTick (l : Nat) (f : Tx → Tx) (s : State) : (modTx l f s).loadTick = s.loadTick := rfl
@[simp] theorem modTx_balTick (l : Nat) (f : Tx → Tx) (s : State) : (modTx l f s).balTick = s.balTick := rfl
@[simp] theorem modTx_chains (l : Nat) (f : Tx → Tx) (s : State) : (modTx l f s).chains = s.chains := rfl
@[simp] theorem modTx_groups (l : Nat) (f : Tx → Tx) (s : State) : (modTx l f s).groups = s.groups := rfl
@[simp] theorem modTx_tiers (l : Nat) (f : Tx → Tx) (s : State) : (modTx l f s).tiers = s.tiers := rfl
@[simp] theorem modTx_twin (l : Nat) (f : Tx → Tx) (s : State) : (modTx l f s).twin = s.twin := rfl

@[simp] theorem dropTx_pending (l : Nat) (s : State) : (dropTx l s).pending = s.pending := rfl
@[simp] theorem dropTx_t (l : Nat) (s : State) : (dropTx l s).t = s.t := rfl
@[simp] theorem dropTx_mantel (l : Nat) (s : State) : (dropTx l s).mantel = s.mantel := rfl
@[simp] theorem dropTx_power (l : Nat) (s : State) : (dropTx l s).power = s.power := rfl
@[simp] theorem dropTx_flash (l : Nat) (s : State) : (dropTx l s).flash = s.flash := rfl
@[simp] theorem dropTx_ten (l : Nat) (s : State) : (dropTx l s).ten = s.ten := rfl
@[simp] theorem dropTx_maps (l : Nat) (s : State) : (dropTx l s).maps = s.maps := rfl
@[simp] theorem dropTx_mem (l : Nat) (s : State) : (dropTx l s).mem = s.mem := rfl
@[simp] theorem dropTx_chans (l : Nat) (s : State) : (dropTx l s).chans = s.chans := rfl
@[simp] theorem dropTx_sax (l : Nat) (s : State) : (dropTx l s).sax = s.sax := rfl
@[simp] theorem dropTx_trays (l : Nat) (s : State) : (dropTx l s).trays = s.trays := rfl
@[simp] theorem dropTx_dsax (l : Nat) (s : State) : (dropTx l s).dsax = s.dsax := rfl
@[simp] theorem dropTx_dtray (l : Nat) (s : State) : (dropTx l s).dtray = s.dtray := rfl
@[simp] theorem dropTx_ember (l : Nat) (s : State) : (dropTx l s).ember = s.ember := rfl
@[simp] theorem dropTx_cal (l : Nat) (s : State) : (dropTx l s).cal = s.cal := rfl
@[simp] theorem dropTx_tables (l : Nat) (s : State) : (dropTx l s).tables = s.tables := rfl
@[simp] theorem dropTx_moves (l : Nat) (s : State) : (dropTx l s).moves = s.moves := rfl
@[simp] theorem dropTx_loadTick (l : Nat) (s : State) : (dropTx l s).loadTick = s.loadTick := rfl
@[simp] theorem dropTx_balTick (l : Nat) (s : State) : (dropTx l s).balTick = s.balTick := rfl
@[simp] theorem dropTx_chains (l : Nat) (s : State) : (dropTx l s).chains = s.chains := rfl
@[simp] theorem dropTx_groups (l : Nat) (s : State) : (dropTx l s).groups = s.groups := rfl
@[simp] theorem dropTx_tiers (l : Nat) (s : State) : (dropTx l s).tiers = s.tiers := rfl
@[simp] theorem dropTx_twin (l : Nat) (s : State) : (dropTx l s).twin = s.twin := rfl

@[simp] theorem consume_pending (p : Nat) (v : Vc) (n r : Nat) (s : State) : (consume p v n r s).pending = s.pending := rfl
@[simp] theorem consume_t (p : Nat) (v : Vc) (n r : Nat) (s : State) : (consume p v n r s).t = s.t := rfl
@[simp] theorem consume_mantel (p : Nat) (v : Vc) (n r : Nat) (s : State) : (consume p v n r s).mantel = s.mantel := rfl
@[simp] theorem consume_power (p : Nat) (v : Vc) (n r : Nat) (s : State) : (consume p v n r s).power = s.power := rfl
@[simp] theorem consume_flash (p : Nat) (v : Vc) (n r : Nat) (s : State) : (consume p v n r s).flash = s.flash := rfl
@[simp] theorem consume_ten (p : Nat) (v : Vc) (n r : Nat) (s : State) : (consume p v n r s).ten = s.ten := rfl
@[simp] theorem consume_maps (p : Nat) (v : Vc) (n r : Nat) (s : State) : (consume p v n r s).maps = s.maps := rfl
@[simp] theorem consume_mem (p : Nat) (v : Vc) (n r : Nat) (s : State) : (consume p v n r s).mem = s.mem := rfl
@[simp] theorem consume_dir (p : Nat) (v : Vc) (n r : Nat) (s : State) : (consume p v n r s).dir = s.dir := rfl
@[simp] theorem consume_chans (p : Nat) (v : Vc) (n r : Nat) (s : State) : (consume p v n r s).chans = s.chans := rfl
@[simp] theorem consume_trays (p : Nat) (v : Vc) (n r : Nat) (s : State) : (consume p v n r s).trays = s.trays := rfl
@[simp] theorem consume_dsax (p : Nat) (v : Vc) (n r : Nat) (s : State) : (consume p v n r s).dsax = s.dsax := rfl
@[simp] theorem consume_dtray (p : Nat) (v : Vc) (n r : Nat) (s : State) : (consume p v n r s).dtray = s.dtray := rfl
@[simp] theorem consume_ember (p : Nat) (v : Vc) (n r : Nat) (s : State) : (consume p v n r s).ember = s.ember := rfl
@[simp] theorem consume_cal (p : Nat) (v : Vc) (n r : Nat) (s : State) : (consume p v n r s).cal = s.cal := rfl
@[simp] theorem consume_tables (p : Nat) (v : Vc) (n r : Nat) (s : State) : (consume p v n r s).tables = s.tables := rfl
@[simp] theorem consume_moves (p : Nat) (v : Vc) (n r : Nat) (s : State) : (consume p v n r s).moves = s.moves := rfl
@[simp] theorem consume_loadTick (p : Nat) (v : Vc) (n r : Nat) (s : State) : (consume p v n r s).loadTick = s.loadTick := rfl
@[simp] theorem consume_balTick (p : Nat) (v : Vc) (n r : Nat) (s : State) : (consume p v n r s).balTick = s.balTick := rfl
@[simp] theorem consume_chains (p : Nat) (v : Vc) (n r : Nat) (s : State) : (consume p v n r s).chains = s.chains := rfl
@[simp] theorem consume_groups (p : Nat) (v : Vc) (n r : Nat) (s : State) : (consume p v n r s).groups = s.groups := rfl
@[simp] theorem consume_tiers (p : Nat) (v : Vc) (n r : Nat) (s : State) : (consume p v n r s).tiers = s.tiers := rfl
@[simp] theorem consume_twin (p : Nat) (v : Vc) (n r : Nat) (s : State) : (consume p v n r s).twin = s.twin := rfl

@[simp] theorem count_pending (p : Option Nat) (f : Tele → Tele) (s : State) : (count p f s).pending = s.pending := rfl
@[simp] theorem count_t (p : Option Nat) (f : Tele → Tele) (s : State) : (count p f s).t = s.t := rfl
@[simp] theorem count_power (p : Option Nat) (f : Tele → Tele) (s : State) : (count p f s).power = s.power := rfl
@[simp] theorem count_flash (p : Option Nat) (f : Tele → Tele) (s : State) : (count p f s).flash = s.flash := rfl
@[simp] theorem count_ten (p : Option Nat) (f : Tele → Tele) (s : State) : (count p f s).ten = s.ten := rfl
@[simp] theorem count_maps (p : Option Nat) (f : Tele → Tele) (s : State) : (count p f s).maps = s.maps := rfl
@[simp] theorem count_mem (p : Option Nat) (f : Tele → Tele) (s : State) : (count p f s).mem = s.mem := rfl
@[simp] theorem count_dir (p : Option Nat) (f : Tele → Tele) (s : State) : (count p f s).dir = s.dir := rfl
@[simp] theorem count_chans (p : Option Nat) (f : Tele → Tele) (s : State) : (count p f s).chans = s.chans := rfl
@[simp] theorem count_sax (p : Option Nat) (f : Tele → Tele) (s : State) : (count p f s).sax = s.sax := rfl
@[simp] theorem count_trays (p : Option Nat) (f : Tele → Tele) (s : State) : (count p f s).trays = s.trays := rfl
@[simp] theorem count_dsax (p : Option Nat) (f : Tele → Tele) (s : State) : (count p f s).dsax = s.dsax := rfl
@[simp] theorem count_dtray (p : Option Nat) (f : Tele → Tele) (s : State) : (count p f s).dtray = s.dtray := rfl
@[simp] theorem count_ember (p : Option Nat) (f : Tele → Tele) (s : State) : (count p f s).ember = s.ember := rfl
@[simp] theorem count_cal (p : Option Nat) (f : Tele → Tele) (s : State) : (count p f s).cal = s.cal := rfl
@[simp] theorem count_tables (p : Option Nat) (f : Tele → Tele) (s : State) : (count p f s).tables = s.tables := rfl
@[simp] theorem count_moves (p : Option Nat) (f : Tele → Tele) (s : State) : (count p f s).moves = s.moves := rfl
@[simp] theorem count_loadTick (p : Option Nat) (f : Tele → Tele) (s : State) : (count p f s).loadTick = s.loadTick := rfl
@[simp] theorem count_balTick (p : Option Nat) (f : Tele → Tele) (s : State) : (count p f s).balTick = s.balTick := rfl
@[simp] theorem count_chains (p : Option Nat) (f : Tele → Tele) (s : State) : (count p f s).chains = s.chains := rfl
@[simp] theorem count_groups (p : Option Nat) (f : Tele → Tele) (s : State) : (count p f s).groups = s.groups := rfl
@[simp] theorem count_tiers (p : Option Nat) (f : Tele → Tele) (s : State) : (count p f s).tiers = s.tiers := rfl
@[simp] theorem count_twin (p : Option Nat) (f : Tele → Tele) (s : State) : (count p f s).twin = s.twin := rfl

@[simp] theorem pushP_pending (p : Nat) (e : Event) (s : State) : (pushP p e s).pending = s.pending := rfl
@[simp] theorem pushP_t (p : Nat) (e : Event) (s : State) : (pushP p e s).t = s.t := rfl
@[simp] theorem pushP_power (p : Nat) (e : Event) (s : State) : (pushP p e s).power = s.power := rfl
@[simp] theorem pushP_flash (p : Nat) (e : Event) (s : State) : (pushP p e s).flash = s.flash := rfl
@[simp] theorem pushP_ten (p : Nat) (e : Event) (s : State) : (pushP p e s).ten = s.ten := rfl
@[simp] theorem pushP_maps (p : Nat) (e : Event) (s : State) : (pushP p e s).maps = s.maps := rfl
@[simp] theorem pushP_mem (p : Nat) (e : Event) (s : State) : (pushP p e s).mem = s.mem := rfl
@[simp] theorem pushP_dir (p : Nat) (e : Event) (s : State) : (pushP p e s).dir = s.dir := rfl
@[simp] theorem pushP_chans (p : Nat) (e : Event) (s : State) : (pushP p e s).chans = s.chans := rfl
@[simp] theorem pushP_sax (p : Nat) (e : Event) (s : State) : (pushP p e s).sax = s.sax := rfl
@[simp] theorem pushP_trays (p : Nat) (e : Event) (s : State) : (pushP p e s).trays = s.trays := rfl
@[simp] theorem pushP_dsax (p : Nat) (e : Event) (s : State) : (pushP p e s).dsax = s.dsax := rfl
@[simp] theorem pushP_dtray (p : Nat) (e : Event) (s : State) : (pushP p e s).dtray = s.dtray := rfl
@[simp] theorem pushP_ember (p : Nat) (e : Event) (s : State) : (pushP p e s).ember = s.ember := rfl
@[simp] theorem pushP_cal (p : Nat) (e : Event) (s : State) : (pushP p e s).cal = s.cal := rfl
@[simp] theorem pushP_tables (p : Nat) (e : Event) (s : State) : (pushP p e s).tables = s.tables := rfl
@[simp] theorem pushP_moves (p : Nat) (e : Event) (s : State) : (pushP p e s).moves = s.moves := rfl
@[simp] theorem pushP_loadTick (p : Nat) (e : Event) (s : State) : (pushP p e s).loadTick = s.loadTick := rfl
@[simp] theorem pushP_balTick (p : Nat) (e : Event) (s : State) : (pushP p e s).balTick = s.balTick := rfl
@[simp] theorem pushP_chains (p : Nat) (e : Event) (s : State) : (pushP p e s).chains = s.chains := rfl
@[simp] theorem pushP_groups (p : Nat) (e : Event) (s : State) : (pushP p e s).groups = s.groups := rfl
@[simp] theorem pushP_tiers (p : Nat) (e : Event) (s : State) : (pushP p e s).tiers = s.tiers := rfl
@[simp] theorem pushP_twin (p : Nat) (e : Event) (s : State) : (pushP p e s).twin = s.twin := rfl

@[simp] theorem takeTrk_pending (k : Trk) (s : State) : ((takeTrk k s).2).pending = s.pending := rfl
@[simp] theorem takeTrk_t (k : Trk) (s : State) : ((takeTrk k s).2).t = s.t := rfl
@[simp] theorem takeTrk_mantel (k : Trk) (s : State) : ((takeTrk k s).2).mantel = s.mantel := rfl
@[simp] theorem takeTrk_power (k : Trk) (s : State) : ((takeTrk k s).2).power = s.power := rfl
@[simp] theorem takeTrk_flash (k : Trk) (s : State) : ((takeTrk k s).2).flash = s.flash := rfl
@[simp] theorem takeTrk_ten (k : Trk) (s : State) : ((takeTrk k s).2).ten = s.ten := rfl
@[simp] theorem takeTrk_maps (k : Trk) (s : State) : ((takeTrk k s).2).maps = s.maps := rfl
@[simp] theorem takeTrk_dir (k : Trk) (s : State) : ((takeTrk k s).2).dir = s.dir := rfl
@[simp] theorem takeTrk_chans (k : Trk) (s : State) : ((takeTrk k s).2).chans = s.chans := rfl
@[simp] theorem takeTrk_sax (k : Trk) (s : State) : ((takeTrk k s).2).sax = s.sax := rfl
@[simp] theorem takeTrk_trays (k : Trk) (s : State) : ((takeTrk k s).2).trays = s.trays := rfl
@[simp] theorem takeTrk_dsax (k : Trk) (s : State) : ((takeTrk k s).2).dsax = s.dsax := rfl
@[simp] theorem takeTrk_dtray (k : Trk) (s : State) : ((takeTrk k s).2).dtray = s.dtray := rfl
@[simp] theorem takeTrk_ember (k : Trk) (s : State) : ((takeTrk k s).2).ember = s.ember := rfl
@[simp] theorem takeTrk_cal (k : Trk) (s : State) : ((takeTrk k s).2).cal = s.cal := rfl
@[simp] theorem takeTrk_tables (k : Trk) (s : State) : ((takeTrk k s).2).tables = s.tables := rfl
@[simp] theorem takeTrk_moves (k : Trk) (s : State) : ((takeTrk k s).2).moves = s.moves := rfl
@[simp] theorem takeTrk_loadTick (k : Trk) (s : State) : ((takeTrk k s).2).loadTick = s.loadTick := rfl
@[simp] theorem takeTrk_balTick (k : Trk) (s : State) : ((takeTrk k s).2).balTick = s.balTick := rfl
@[simp] theorem takeTrk_chains (k : Trk) (s : State) : ((takeTrk k s).2).chains = s.chains := rfl
@[simp] theorem takeTrk_groups (k : Trk) (s : State) : ((takeTrk k s).2).groups = s.groups := rfl
@[simp] theorem takeTrk_tiers (k : Trk) (s : State) : ((takeTrk k s).2).tiers = s.tiers := rfl
@[simp] theorem takeTrk_twin (k : Trk) (s : State) : ((takeTrk k s).2).twin = s.twin := rfl

@[simp] theorem drawFree_pending (s : State) : ((drawFree s).2).pending = s.pending := rfl
@[simp] theorem drawFree_t (s : State) : ((drawFree s).2).t = s.t := rfl
@[simp] theorem drawFree_mantel (s : State) : ((drawFree s).2).mantel = s.mantel := rfl
@[simp] theorem drawFree_flash (s : State) : ((drawFree s).2).flash = s.flash := rfl
@[simp] theorem drawFree_ten (s : State) : ((drawFree s).2).ten = s.ten := rfl
@[simp] theorem drawFree_maps (s : State) : ((drawFree s).2).maps = s.maps := rfl
@[simp] theorem drawFree_mem (s : State) : ((drawFree s).2).mem = s.mem := rfl
@[simp] theorem drawFree_dir (s : State) : ((drawFree s).2).dir = s.dir := rfl
@[simp] theorem drawFree_chans (s : State) : ((drawFree s).2).chans = s.chans := rfl
@[simp] theorem drawFree_sax (s : State) : ((drawFree s).2).sax = s.sax := rfl
@[simp] theorem drawFree_trays (s : State) : ((drawFree s).2).trays = s.trays := rfl
@[simp] theorem drawFree_dsax (s : State) : ((drawFree s).2).dsax = s.dsax := rfl
@[simp] theorem drawFree_dtray (s : State) : ((drawFree s).2).dtray = s.dtray := rfl
@[simp] theorem drawFree_ember (s : State) : ((drawFree s).2).ember = s.ember := rfl
@[simp] theorem drawFree_cal (s : State) : ((drawFree s).2).cal = s.cal := rfl
@[simp] theorem drawFree_tables (s : State) : ((drawFree s).2).tables = s.tables := rfl
@[simp] theorem drawFree_moves (s : State) : ((drawFree s).2).moves = s.moves := rfl
@[simp] theorem drawFree_loadTick (s : State) : ((drawFree s).2).loadTick = s.loadTick := rfl
@[simp] theorem drawFree_balTick (s : State) : ((drawFree s).2).balTick = s.balTick := rfl
@[simp] theorem drawFree_chains (s : State) : ((drawFree s).2).chains = s.chains := rfl
@[simp] theorem drawFree_groups (s : State) : ((drawFree s).2).groups = s.groups := rfl
@[simp] theorem drawFree_tiers (s : State) : ((drawFree s).2).tiers = s.tiers := rfl
@[simp] theorem drawFree_twin (s : State) : ((drawFree s).2).twin = s.twin := rfl

@[simp] theorem drawKey_pending (s : State) : ((drawKey s).2).pending = s.pending := rfl
@[simp] theorem drawKey_t (s : State) : ((drawKey s).2).t = s.t := rfl
@[simp] theorem drawKey_mantel (s : State) : ((drawKey s).2).mantel = s.mantel := rfl
@[simp] theorem drawKey_power (s : State) : ((drawKey s).2).power = s.power := rfl
@[simp] theorem drawKey_flash (s : State) : ((drawKey s).2).flash = s.flash := rfl
@[simp] theorem drawKey_maps (s : State) : ((drawKey s).2).maps = s.maps := rfl
@[simp] theorem drawKey_mem (s : State) : ((drawKey s).2).mem = s.mem := rfl
@[simp] theorem drawKey_dir (s : State) : ((drawKey s).2).dir = s.dir := rfl
@[simp] theorem drawKey_chans (s : State) : ((drawKey s).2).chans = s.chans := rfl
@[simp] theorem drawKey_sax (s : State) : ((drawKey s).2).sax = s.sax := rfl
@[simp] theorem drawKey_trays (s : State) : ((drawKey s).2).trays = s.trays := rfl
@[simp] theorem drawKey_dsax (s : State) : ((drawKey s).2).dsax = s.dsax := rfl
@[simp] theorem drawKey_dtray (s : State) : ((drawKey s).2).dtray = s.dtray := rfl
@[simp] theorem drawKey_ember (s : State) : ((drawKey s).2).ember = s.ember := rfl
@[simp] theorem drawKey_cal (s : State) : ((drawKey s).2).cal = s.cal := rfl
@[simp] theorem drawKey_tables (s : State) : ((drawKey s).2).tables = s.tables := rfl
@[simp] theorem drawKey_moves (s : State) : ((drawKey s).2).moves = s.moves := rfl
@[simp] theorem drawKey_loadTick (s : State) : ((drawKey s).2).loadTick = s.loadTick := rfl
@[simp] theorem drawKey_balTick (s : State) : ((drawKey s).2).balTick = s.balTick := rfl
@[simp] theorem drawKey_chains (s : State) : ((drawKey s).2).chains = s.chains := rfl
@[simp] theorem drawKey_groups (s : State) : ((drawKey s).2).groups = s.groups := rfl
@[simp] theorem drawKey_tiers (s : State) : ((drawKey s).2).tiers = s.tiers := rfl
@[simp] theorem drawKey_twin (s : State) : ((drawKey s).2).twin = s.twin := rfl

@[simp] theorem extendMr_pending (i : Nat) (d : Bytes) (w : Nat) (s : State) : (extendMr i d w s).pending = s.pending := rfl
@[simp] theorem extendMr_t (i : Nat) (d : Bytes) (w : Nat) (s : State) : (extendMr i d w s).t = s.t := rfl
@[simp] theorem extendMr_power (i : Nat) (d : Bytes) (w : Nat) (s : State) : (extendMr i d w s).power = s.power := rfl
@[simp] theorem extendMr_flash (i : Nat) (d : Bytes) (w : Nat) (s : State) : (extendMr i d w s).flash = s.flash := rfl
@[simp] theorem extendMr_ten (i : Nat) (d : Bytes) (w : Nat) (s : State) : (extendMr i d w s).ten = s.ten := rfl
@[simp] theorem extendMr_maps (i : Nat) (d : Bytes) (w : Nat) (s : State) : (extendMr i d w s).maps = s.maps := rfl
@[simp] theorem extendMr_mem (i : Nat) (d : Bytes) (w : Nat) (s : State) : (extendMr i d w s).mem = s.mem := rfl
@[simp] theorem extendMr_dir (i : Nat) (d : Bytes) (w : Nat) (s : State) : (extendMr i d w s).dir = s.dir := rfl
@[simp] theorem extendMr_chans (i : Nat) (d : Bytes) (w : Nat) (s : State) : (extendMr i d w s).chans = s.chans := rfl
@[simp] theorem extendMr_sax (i : Nat) (d : Bytes) (w : Nat) (s : State) : (extendMr i d w s).sax = s.sax := rfl
@[simp] theorem extendMr_trays (i : Nat) (d : Bytes) (w : Nat) (s : State) : (extendMr i d w s).trays = s.trays := rfl
@[simp] theorem extendMr_dsax (i : Nat) (d : Bytes) (w : Nat) (s : State) : (extendMr i d w s).dsax = s.dsax := rfl
@[simp] theorem extendMr_dtray (i : Nat) (d : Bytes) (w : Nat) (s : State) : (extendMr i d w s).dtray = s.dtray := rfl
@[simp] theorem extendMr_ember (i : Nat) (d : Bytes) (w : Nat) (s : State) : (extendMr i d w s).ember = s.ember := rfl
@[simp] theorem extendMr_cal (i : Nat) (d : Bytes) (w : Nat) (s : State) : (extendMr i d w s).cal = s.cal := rfl
@[simp] theorem extendMr_tables (i : Nat) (d : Bytes) (w : Nat) (s : State) : (extendMr i d w s).tables = s.tables := rfl
@[simp] theorem extendMr_moves (i : Nat) (d : Bytes) (w : Nat) (s : State) : (extendMr i d w s).moves = s.moves := rfl
@[simp] theorem extendMr_loadTick (i : Nat) (d : Bytes) (w : Nat) (s : State) : (extendMr i d w s).loadTick = s.loadTick := rfl
@[simp] theorem extendMr_balTick (i : Nat) (d : Bytes) (w : Nat) (s : State) : (extendMr i d w s).balTick = s.balTick := rfl
@[simp] theorem extendMr_chains (i : Nat) (d : Bytes) (w : Nat) (s : State) : (extendMr i d w s).chains = s.chains := rfl
@[simp] theorem extendMr_groups (i : Nat) (d : Bytes) (w : Nat) (s : State) : (extendMr i d w s).groups = s.groups := rfl
@[simp] theorem extendMr_tiers (i : Nat) (d : Bytes) (w : Nat) (s : State) : (extendMr i d w s).tiers = s.tiers := rfl
@[simp] theorem extendMr_twin (i : Nat) (d : Bytes) (w : Nat) (s : State) : (extendMr i d w s).twin = s.twin := rfl

end Sys2Proof.Machine
end

