-- ==== Sys2Proof/Laws/Ops.lean ====
section
/-! SUPPORT. What the shared operations leave alone: one lemma for each field and operation, so that no later proof unfolds
them. -/

namespace Sys2Proof.Machine

/-- What a step of a fold keeps, the fold keeps. -/
theorem foldl_keep {σ α β : Type} (F : σ → β) (g : σ → α → σ) (h : ∀ s x, F (g s x) = F s) (l : List α) (s : σ) :
    F (l.foldl g s) = F s := by
  induction l generalizing s with
  | nil => rfl
  | cons x r ih => rw [List.foldl_cons, ih, h]

@[simp] theorem settle_pending (o : State) (s : State) : (settle o s).pending = s.pending := by
  simp only [settle, apply_ite State.pending, raiseIrq_pending, ite_self]
@[simp] theorem settle_t (o : State) (s : State) : (settle o s).t = s.t := by
  simp only [settle, apply_ite State.t, raiseIrq_t, ite_self]
@[simp] theorem settle_power (o : State) (s : State) : (settle o s).power = s.power := by
  simp only [settle, apply_ite State.power, raiseIrq_power, ite_self]
@[simp] theorem settle_flash (o : State) (s : State) : (settle o s).flash = s.flash := by
  simp only [settle, apply_ite State.flash, raiseIrq_flash, ite_self]
@[simp] theorem settle_ten (o : State) (s : State) : (settle o s).ten = s.ten := by
  simp only [settle, apply_ite State.ten, raiseIrq_ten, ite_self]
@[simp] theorem settle_maps (o : State) (s : State) : (settle o s).maps = s.maps := by
  simp only [settle, apply_ite State.maps, raiseIrq_maps, ite_self]
@[simp] theorem settle_mem (o : State) (s : State) : (settle o s).mem = s.mem := by
  simp only [settle, apply_ite State.mem, raiseIrq_mem, ite_self]
@[simp] theorem settle_dir (o : State) (s : State) : (settle o s).dir = s.dir := by
  simp only [settle, apply_ite State.dir, raiseIrq_dir, ite_self]
@[simp] theorem settle_chans (o : State) (s : State) : (settle o s).chans = s.chans := by
  simp only [settle, apply_ite State.chans, raiseIrq_chans, ite_self]
@[simp] theorem settle_sax (o : State) (s : State) : (settle o s).sax = s.sax := by
  simp only [settle, apply_ite State.sax, raiseIrq_sax, ite_self]
@[simp] theorem settle_trays (o : State) (s : State) : (settle o s).trays = s.trays := by
  simp only [settle, apply_ite State.trays, raiseIrq_trays, ite_self]
@[simp] theorem settle_dsax (o : State) (s : State) : (settle o s).dsax = s.dsax := by
  simp only [settle, apply_ite State.dsax, raiseIrq_dsax, ite_self]
@[simp] theorem settle_dtray (o : State) (s : State) : (settle o s).dtray = s.dtray := by
  simp only [settle, apply_ite State.dtray, raiseIrq_dtray, ite_self]
@[simp] theorem settle_ember (o : State) (s : State) : (settle o s).ember = s.ember := by
  simp only [settle, apply_ite State.ember, raiseIrq_ember, ite_self]
@[simp] theorem settle_cal (o : State) (s : State) : (settle o s).cal = s.cal := by
  simp only [settle, apply_ite State.cal, raiseIrq_cal, ite_self]
@[simp] theorem settle_tables (o : State) (s : State) : (settle o s).tables = s.tables := by
  simp only [settle, apply_ite State.tables, raiseIrq_tables, ite_self]
@[simp] theorem settle_moves (o : State) (s : State) : (settle o s).moves = s.moves := by
  simp only [settle, apply_ite State.moves, raiseIrq_moves, ite_self]
@[simp] theorem settle_loadTick (o : State) (s : State) : (settle o s).loadTick = s.loadTick := by
  simp only [settle, apply_ite State.loadTick, raiseIrq_loadTick, ite_self]
@[simp] theorem settle_balTick (o : State) (s : State) : (settle o s).balTick = s.balTick := by
  simp only [settle, apply_ite State.balTick, raiseIrq_balTick, ite_self]
@[simp] theorem settle_chains (o : State) (s : State) : (settle o s).chains = s.chains := by
  simp only [settle, apply_ite State.chains, raiseIrq_chains, ite_self]
@[simp] theorem settle_groups (o : State) (s : State) : (settle o s).groups = s.groups := by
  simp only [settle, apply_ite State.groups, raiseIrq_groups, ite_self]
@[simp] theorem settle_tiers (o : State) (s : State) : (settle o s).tiers = s.tiers := by
  simp only [settle, apply_ite State.tiers, raiseIrq_tiers, ite_self]
@[simp] theorem settle_twin (o : State) (s : State) : (settle o s).twin = s.twin := by
  simp only [settle, apply_ite State.twin, raiseIrq_twin, ite_self]

@[simp] theorem pushM_pending (e : Event) (s : State) : (pushM e s).pending = s.pending := by
  unfold pushM; dsimp only; split <;> (try split) <;> simp
@[simp] theorem pushM_t (e : Event) (s : State) : (pushM e s).t = s.t := by
  unfold pushM; dsimp only; split <;> (try split) <;> simp
@[simp] theorem pushM_power (e : Event) (s : State) : (pushM e s).power = s.power := by
  unfold pushM; dsimp only; split <;> (try split) <;> simp
@[simp] theorem pushM_flash (e : Event) (s : State) : (pushM e s).flash = s.flash := by
  unfold pushM; dsimp only; split <;> (try split) <;> simp
@[simp] theorem pushM_ten (e : Event) (s : State) : (pushM e s).ten = s.ten := by
  unfold pushM; dsimp only; split <;> (try split) <;> simp
@[simp] theorem pushM_maps (e : Event) (s : State) : (pushM e s).maps = s.maps := by
  unfold pushM; dsimp only; split <;> (try split) <;> simp
@[simp] theorem pushM_mem (e : Event) (s : State) : (pushM e s).mem = s.mem := by
  unfold pushM; dsimp only; split <;> (try split) <;> simp
@[simp] theorem pushM_dir (e : Event) (s : State) : (pushM e s).dir = s.dir := by
  unfold pushM; dsimp only; split <;> (try split) <;> simp
@[simp] theorem pushM_chans (e : Event) (s : State) : (pushM e s).chans = s.chans := by
  unfold pushM; dsimp only; split <;> (try split) <;> simp
@[simp] theorem pushM_sax (e : Event) (s : State) : (pushM e s).sax = s.sax := by
  unfold pushM; dsimp only; split <;> (try split) <;> simp
@[simp] theorem pushM_trays (e : Event) (s : State) : (pushM e s).trays = s.trays := by
  unfold pushM; dsimp only; split <;> (try split) <;> simp
@[simp] theorem pushM_dsax (e : Event) (s : State) : (pushM e s).dsax = s.dsax := by
  unfold pushM; dsimp only; split <;> (try split) <;> simp
@[simp] theorem pushM_dtray (e : Event) (s : State) : (pushM e s).dtray = s.dtray := by
  unfold pushM; dsimp only; split <;> (try split) <;> simp
@[simp] theorem pushM_ember (e : Event) (s : State) : (pushM e s).ember = s.ember := by
  unfold pushM; dsimp only; split <;> (try split) <;> simp
@[simp] theorem pushM_cal (e : Event) (s : State) : (pushM e s).cal = s.cal := by
  unfold pushM; dsimp only; split <;> (try split) <;> simp
@[simp] theorem pushM_tables (e : Event) (s : State) : (pushM e s).tables = s.tables := by
  unfold pushM; dsimp only; split <;> (try split) <;> simp
@[simp] theorem pushM_moves (e : Event) (s : State) : (pushM e s).moves = s.moves := by
  unfold pushM; dsimp only; split <;> (try split) <;> simp
@[simp] theorem pushM_loadTick (e : Event) (s : State) : (pushM e s).loadTick = s.loadTick := by
  unfold pushM; dsimp only; split <;> (try split) <;> simp
@[simp] theorem pushM_balTick (e : Event) (s : State) : (pushM e s).balTick = s.balTick := by
  unfold pushM; dsimp only; split <;> (try split) <;> simp
@[simp] theorem pushM_chains (e : Event) (s : State) : (pushM e s).chains = s.chains := by
  unfold pushM; dsimp only; split <;> (try split) <;> simp
@[simp] theorem pushM_groups (e : Event) (s : State) : (pushM e s).groups = s.groups := by
  unfold pushM; dsimp only; split <;> (try split) <;> simp
@[simp] theorem pushM_tiers (e : Event) (s : State) : (pushM e s).tiers = s.tiers := by
  unfold pushM; dsimp only; split <;> (try split) <;> simp
@[simp] theorem pushM_twin (e : Event) (s : State) : (pushM e s).twin = s.twin := by
  unfold pushM; dsimp only; split <;> (try split) <;> simp

@[simp] theorem event_pending (c : Nat) (b : Bool) (ps : List Nat) (k : Option Nat) (d : List Nat) (s : State) : (event c b ps k d s).pending = s.pending := by
  refine (foldl_keep State.pending _ (fun s x => ?_) _ _).trans ?_ <;> (split <;> simp)
@[simp] theorem event_t (c : Nat) (b : Bool) (ps : List Nat) (k : Option Nat) (d : List Nat) (s : State) : (event c b ps k d s).t = s.t := by
  refine (foldl_keep State.t _ (fun s x => ?_) _ _).trans ?_ <;> (split <;> simp)
@[simp] theorem event_power (c : Nat) (b : Bool) (ps : List Nat) (k : Option Nat) (d : List Nat) (s : State) : (event c b ps k d s).power = s.power := by
  refine (foldl_keep State.power _ (fun s x => ?_) _ _).trans ?_ <;> (split <;> simp)
@[simp] theorem event_flash (c : Nat) (b : Bool) (ps : List Nat) (k : Option Nat) (d : List Nat) (s : State) : (event c b ps k d s).flash = s.flash := by
  refine (foldl_keep State.flash _ (fun s x => ?_) _ _).trans ?_ <;> (split <;> simp)
@[simp] theorem event_ten (c : Nat) (b : Bool) (ps : List Nat) (k : Option Nat) (d : List Nat) (s : State) : (event c b ps k d s).ten = s.ten := by
  refine (foldl_keep State.ten _ (fun s x => ?_) _ _).trans ?_ <;> (split <;> simp)
@[simp] theorem event_maps (c : Nat) (b : Bool) (ps : List Nat) (k : Option Nat) (d : List Nat) (s : State) : (event c b ps k d s).maps = s.maps := by
  refine (foldl_keep State.maps _ (fun s x => ?_) _ _).trans ?_ <;> (split <;> simp)
@[simp] theorem event_mem (c : Nat) (b : Bool) (ps : List Nat) (k : Option Nat) (d : List Nat) (s : State) : (event c b ps k d s).mem = s.mem := by
  refine (foldl_keep State.mem _ (fun s x => ?_) _ _).trans ?_ <;> (split <;> simp)
@[simp] theorem event_dir (c : Nat) (b : Bool) (ps : List Nat) (k : Option Nat) (d : List Nat) (s : State) : (event c b ps k d s).dir = s.dir := by
  refine (foldl_keep State.dir _ (fun s x => ?_) _ _).trans ?_ <;> (split <;> simp)
@[simp] theorem event_chans (c : Nat) (b : Bool) (ps : List Nat) (k : Option Nat) (d : List Nat) (s : State) : (event c b ps k d s).chans = s.chans := by
  refine (foldl_keep State.chans _ (fun s x => ?_) _ _).trans ?_ <;> (split <;> simp)
@[simp] theorem event_sax (c : Nat) (b : Bool) (ps : List Nat) (k : Option Nat) (d : List Nat) (s : State) : (event c b ps k d s).sax = s.sax := by
  refine (foldl_keep State.sax _ (fun s x => ?_) _ _).trans ?_ <;> (split <;> simp)
@[simp] theorem event_trays (c : Nat) (b : Bool) (ps : List Nat) (k : Option Nat) (d : List Nat) (s : State) : (event c b ps k d s).trays = s.trays := by
  refine (foldl_keep State.trays _ (fun s x => ?_) _ _).trans ?_ <;> (split <;> simp)
@[simp] theorem event_dsax (c : Nat) (b : Bool) (ps : List Nat) (k : Option Nat) (d : List Nat) (s : State) : (event c b ps k d s).dsax = s.dsax := by
  refine (foldl_keep State.dsax _ (fun s x => ?_) _ _).trans ?_ <;> (split <;> simp)
@[simp] theorem event_dtray (c : Nat) (b : Bool) (ps : List Nat) (k : Option Nat) (d : List Nat) (s : State) : (event c b ps k d s).dtray = s.dtray := by
  refine (foldl_keep State.dtray _ (fun s x => ?_) _ _).trans ?_ <;> (split <;> simp)
@[simp] theorem event_ember (c : Nat) (b : Bool) (ps : List Nat) (k : Option Nat) (d : List Nat) (s : State) : (event c b ps k d s).ember = s.ember := by
  refine (foldl_keep State.ember _ (fun s x => ?_) _ _).trans ?_ <;> (split <;> simp)
@[simp] theorem event_cal (c : Nat) (b : Bool) (ps : List Nat) (k : Option Nat) (d : List Nat) (s : State) : (event c b ps k d s).cal = s.cal := by
  refine (foldl_keep State.cal _ (fun s x => ?_) _ _).trans ?_ <;> (split <;> simp)
@[simp] theorem event_tables (c : Nat) (b : Bool) (ps : List Nat) (k : Option Nat) (d : List Nat) (s : State) : (event c b ps k d s).tables = s.tables := by
  refine (foldl_keep State.tables _ (fun s x => ?_) _ _).trans ?_ <;> (split <;> simp)
@[simp] theorem event_moves (c : Nat) (b : Bool) (ps : List Nat) (k : Option Nat) (d : List Nat) (s : State) : (event c b ps k d s).moves = s.moves := by
  refine (foldl_keep State.moves _ (fun s x => ?_) _ _).trans ?_ <;> (split <;> simp)
@[simp] theorem event_loadTick (c : Nat) (b : Bool) (ps : List Nat) (k : Option Nat) (d : List Nat) (s : State) : (event c b ps k d s).loadTick = s.loadTick := by
  refine (foldl_keep State.loadTick _ (fun s x => ?_) _ _).trans ?_ <;> (split <;> simp)
@[simp] theorem event_balTick (c : Nat) (b : Bool) (ps : List Nat) (k : Option Nat) (d : List Nat) (s : State) : (event c b ps k d s).balTick = s.balTick := by
  refine (foldl_keep State.balTick _ (fun s x => ?_) _ _).trans ?_ <;> (split <;> simp)
@[simp] theorem event_chains (c : Nat) (b : Bool) (ps : List Nat) (k : Option Nat) (d : List Nat) (s : State) : (event c b ps k d s).chains = s.chains := by
  refine (foldl_keep State.chains _ (fun s x => ?_) _ _).trans ?_ <;> (split <;> simp)
@[simp] theorem event_groups (c : Nat) (b : Bool) (ps : List Nat) (k : Option Nat) (d : List Nat) (s : State) : (event c b ps k d s).groups = s.groups := by
  refine (foldl_keep State.groups _ (fun s x => ?_) _ _).trans ?_ <;> (split <;> simp)
@[simp] theorem event_tiers (c : Nat) (b : Bool) (ps : List Nat) (k : Option Nat) (d : List Nat) (s : State) : (event c b ps k d s).tiers = s.tiers := by
  refine (foldl_keep State.tiers _ (fun s x => ?_) _ _).trans ?_ <;> (split <;> simp)
@[simp] theorem event_twin (c : Nat) (b : Bool) (ps : List Nat) (k : Option Nat) (d : List Nat) (s : State) : (event c b ps k d s).twin = s.twin := by
  refine (foldl_keep State.twin _ (fun s x => ?_) _ _).trans ?_ <;> (split <;> simp)

@[simp] theorem eventMO_pending (c : Nat) (k : Option Nat) (d : List Nat) (s : State) : (eventMO c k d s).pending = s.pending := by
  simp [eventMO]
@[simp] theorem eventMO_t (c : Nat) (k : Option Nat) (d : List Nat) (s : State) : (eventMO c k d s).t = s.t := by
  simp [eventMO]
@[simp] theorem eventMO_power (c : Nat) (k : Option Nat) (d : List Nat) (s : State) : (eventMO c k d s).power = s.power := by
  simp [eventMO]
@[simp] theorem eventMO_flash (c : Nat) (k : Option Nat) (d : List Nat) (s : State) : (eventMO c k d s).flash = s.flash := by
  simp [eventMO]
@[simp] theorem eventMO_ten (c : Nat) (k : Option Nat) (d : List Nat) (s : State) : (eventMO c k d s).ten = s.ten := by
  simp [eventMO]
@[simp] theorem eventMO_maps (c : Nat) (k : Option Nat) (d : List Nat) (s : State) : (eventMO c k d s).maps = s.maps := by
  simp [eventMO]
@[simp] theorem eventMO_mem (c : Nat) (k : Option Nat) (d : List Nat) (s : State) : (eventMO c k d s).mem = s.mem := by
  simp [eventMO]
@[simp] theorem eventMO_dir (c : Nat) (k : Option Nat) (d : List Nat) (s : State) : (eventMO c k d s).dir = s.dir := by
  simp [eventMO]
@[simp] theorem eventMO_chans (c : Nat) (k : Option Nat) (d : List Nat) (s : State) : (eventMO c k d s).chans = s.chans := by
  simp [eventMO]
@[simp] theorem eventMO_sax (c : Nat) (k : Option Nat) (d : List Nat) (s : State) : (eventMO c k d s).sax = s.sax := by
  simp [eventMO]
@[simp] theorem eventMO_trays (c : Nat) (k : Option Nat) (d : List Nat) (s : State) : (eventMO c k d s).trays = s.trays := by
  simp [eventMO]
@[simp] theorem eventMO_dsax (c : Nat) (k : Option Nat) (d : List Nat) (s : State) : (eventMO c k d s).dsax = s.dsax := by
  simp [eventMO]
@[simp] theorem eventMO_dtray (c : Nat) (k : Option Nat) (d : List Nat) (s : State) : (eventMO c k d s).dtray = s.dtray := by
  simp [eventMO]
@[simp] theorem eventMO_ember (c : Nat) (k : Option Nat) (d : List Nat) (s : State) : (eventMO c k d s).ember = s.ember := by
  simp [eventMO]
@[simp] theorem eventMO_cal (c : Nat) (k : Option Nat) (d : List Nat) (s : State) : (eventMO c k d s).cal = s.cal := by
  simp [eventMO]
@[simp] theorem eventMO_tables (c : Nat) (k : Option Nat) (d : List Nat) (s : State) : (eventMO c k d s).tables = s.tables := by
  simp [eventMO]
@[simp] theorem eventMO_moves (c : Nat) (k : Option Nat) (d : List Nat) (s : State) : (eventMO c k d s).moves = s.moves := by
  simp [eventMO]
@[simp] theorem eventMO_loadTick (c : Nat) (k : Option Nat) (d : List Nat) (s : State) : (eventMO c k d s).loadTick = s.loadTick := by
  simp [eventMO]
@[simp] theorem eventMO_balTick (c : Nat) (k : Option Nat) (d : List Nat) (s : State) : (eventMO c k d s).balTick = s.balTick := by
  simp [eventMO]
@[simp] theorem eventMO_chains (c : Nat) (k : Option Nat) (d : List Nat) (s : State) : (eventMO c k d s).chains = s.chains := by
  simp [eventMO]
@[simp] theorem eventMO_groups (c : Nat) (k : Option Nat) (d : List Nat) (s : State) : (eventMO c k d s).groups = s.groups := by
  simp [eventMO]
@[simp] theorem eventMO_tiers (c : Nat) (k : Option Nat) (d : List Nat) (s : State) : (eventMO c k d s).tiers = s.tiers := by
  simp [eventMO]
@[simp] theorem eventMO_twin (c : Nat) (k : Option Nat) (d : List Nat) (s : State) : (eventMO c k d s).twin = s.twin := by
  simp [eventMO]

@[simp] theorem eventMA_pending (c : Nat) (d : List Nat) (s : State) : (eventMA c d s).pending = s.pending := by
  simp [eventMA]
@[simp] theorem eventMA_t (c : Nat) (d : List Nat) (s : State) : (eventMA c d s).t = s.t := by
  simp [eventMA]
@[simp] theorem eventMA_power (c : Nat) (d : List Nat) (s : State) : (eventMA c d s).power = s.power := by
  simp [eventMA]
@[simp] theorem eventMA_flash (c : Nat) (d : List Nat) (s : State) : (eventMA c d s).flash = s.flash := by
  simp [eventMA]
@[simp] theorem eventMA_ten (c : Nat) (d : List Nat) (s : State) : (eventMA c d s).ten = s.ten := by
  simp [eventMA]
@[simp] theorem eventMA_maps (c : Nat) (d : List Nat) (s : State) : (eventMA c d s).maps = s.maps := by
  simp [eventMA]
@[simp] theorem eventMA_mem (c : Nat) (d : List Nat) (s : State) : (eventMA c d s).mem = s.mem := by
  simp [eventMA]
@[simp] theorem eventMA_dir (c : Nat) (d : List Nat) (s : State) : (eventMA c d s).dir = s.dir := by
  simp [eventMA]
@[simp] theorem eventMA_chans (c : Nat) (d : List Nat) (s : State) : (eventMA c d s).chans = s.chans := by
  simp [eventMA]
@[simp] theorem eventMA_sax (c : Nat) (d : List Nat) (s : State) : (eventMA c d s).sax = s.sax := by
  simp [eventMA]
@[simp] theorem eventMA_trays (c : Nat) (d : List Nat) (s : State) : (eventMA c d s).trays = s.trays := by
  simp [eventMA]
@[simp] theorem eventMA_dsax (c : Nat) (d : List Nat) (s : State) : (eventMA c d s).dsax = s.dsax := by
  simp [eventMA]
@[simp] theorem eventMA_dtray (c : Nat) (d : List Nat) (s : State) : (eventMA c d s).dtray = s.dtray := by
  simp [eventMA]
@[simp] theorem eventMA_ember (c : Nat) (d : List Nat) (s : State) : (eventMA c d s).ember = s.ember := by
  simp [eventMA]
@[simp] theorem eventMA_cal (c : Nat) (d : List Nat) (s : State) : (eventMA c d s).cal = s.cal := by
  simp [eventMA]
@[simp] theorem eventMA_tables (c : Nat) (d : List Nat) (s : State) : (eventMA c d s).tables = s.tables := by
  simp [eventMA]
@[simp] theorem eventMA_moves (c : Nat) (d : List Nat) (s : State) : (eventMA c d s).moves = s.moves := by
  simp [eventMA]
@[simp] theorem eventMA_loadTick (c : Nat) (d : List Nat) (s : State) : (eventMA c d s).loadTick = s.loadTick := by
  simp [eventMA]
@[simp] theorem eventMA_balTick (c : Nat) (d : List Nat) (s : State) : (eventMA c d s).balTick = s.balTick := by
  simp [eventMA]
@[simp] theorem eventMA_chains (c : Nat) (d : List Nat) (s : State) : (eventMA c d s).chains = s.chains := by
  simp [eventMA]
@[simp] theorem eventMA_groups (c : Nat) (d : List Nat) (s : State) : (eventMA c d s).groups = s.groups := by
  simp [eventMA]
@[simp] theorem eventMA_tiers (c : Nat) (d : List Nat) (s : State) : (eventMA c d s).tiers = s.tiers := by
  simp [eventMA]
@[simp] theorem eventMA_twin (c : Nat) (d : List Nat) (s : State) : (eventMA c d s).twin = s.twin := by
  simp [eventMA]

@[simp] theorem modLink_pending (l : Link) (f : ChimLink → ChimLink) (s : State) : (modLink l f s).pending = s.pending := by
  cases l <;> rfl
@[simp] theorem modLink_t (l : Link) (f : ChimLink → ChimLink) (s : State) : (modLink l f s).t = s.t := by
  cases l <;> rfl
@[simp] theorem modLink_power (l : Link) (f : ChimLink → ChimLink) (s : State) : (modLink l f s).power = s.power := by
  cases l <;> rfl
@[simp] theorem modLink_flash (l : Link) (f : ChimLink → ChimLink) (s : State) : (modLink l f s).flash = s.flash := by
  cases l <;> rfl
@[simp] theorem modLink_ten (l : Link) (f : ChimLink → ChimLink) (s : State) : (modLink l f s).ten = s.ten := by
  cases l <;> rfl
@[simp] theorem modLink_maps (l : Link) (f : ChimLink → ChimLink) (s : State) : (modLink l f s).maps = s.maps := by
  cases l <;> rfl
@[simp] theorem modLink_mem (l : Link) (f : ChimLink → ChimLink) (s : State) : (modLink l f s).mem = s.mem := by
  cases l <;> rfl
@[simp] theorem modLink_dir (l : Link) (f : ChimLink → ChimLink) (s : State) : (modLink l f s).dir = s.dir := by
  cases l <;> rfl
@[simp] theorem modLink_chans (l : Link) (f : ChimLink → ChimLink) (s : State) : (modLink l f s).chans = s.chans := by
  cases l <;> rfl
@[simp] theorem modLink_sax (l : Link) (f : ChimLink → ChimLink) (s : State) : (modLink l f s).sax = s.sax := by
  cases l <;> rfl
@[simp] theorem modLink_trays (l : Link) (f : ChimLink → ChimLink) (s : State) : (modLink l f s).trays = s.trays := by
  cases l <;> rfl
@[simp] theorem modLink_dsax (l : Link) (f : ChimLink → ChimLink) (s : State) : (modLink l f s).dsax = s.dsax := by
  cases l <;> rfl
@[simp] theorem modLink_dtray (l : Link) (f : ChimLink → ChimLink) (s : State) : (modLink l f s).dtray = s.dtray := by
  cases l <;> rfl
@[simp] theorem modLink_ember (l : Link) (f : ChimLink → ChimLink) (s : State) : (modLink l f s).ember = s.ember := by
  cases l <;> rfl
@[simp] theorem modLink_cal (l : Link) (f : ChimLink → ChimLink) (s : State) : (modLink l f s).cal = s.cal := by
  cases l <;> rfl
@[simp] theorem modLink_tables (l : Link) (f : ChimLink → ChimLink) (s : State) : (modLink l f s).tables = s.tables := by
  cases l <;> rfl
@[simp] theorem modLink_moves (l : Link) (f : ChimLink → ChimLink) (s : State) : (modLink l f s).moves = s.moves := by
  cases l <;> rfl
@[simp] theorem modLink_loadTick (l : Link) (f : ChimLink → ChimLink) (s : State) : (modLink l f s).loadTick = s.loadTick := by
  cases l <;> rfl
@[simp] theorem modLink_balTick (l : Link) (f : ChimLink → ChimLink) (s : State) : (modLink l f s).balTick = s.balTick := by
  cases l <;> rfl
@[simp] theorem modLink_chains (l : Link) (f : ChimLink → ChimLink) (s : State) : (modLink l f s).chains = s.chains := by
  cases l <;> rfl
@[simp] theorem modLink_groups (l : Link) (f : ChimLink → ChimLink) (s : State) : (modLink l f s).groups = s.groups := by
  cases l <;> rfl
@[simp] theorem modLink_tiers (l : Link) (f : ChimLink → ChimLink) (s : State) : (modLink l f s).tiers = s.tiers := by
  cases l <;> rfl
@[simp] theorem modLink_twin (l : Link) (f : ChimLink → ChimLink) (s : State) : (modLink l f s).twin = s.twin := by
  cases l <;> rfl

@[simp] theorem modBlk_pending (m : MbxId) (f : MbxBlock → MbxBlock) (s : State) : (modBlk m f s).pending = s.pending := by
  cases m <;> rfl
@[simp] theorem modBlk_t (m : MbxId) (f : MbxBlock → MbxBlock) (s : State) : (modBlk m f s).t = s.t := by
  cases m <;> rfl
@[simp] theorem modBlk_power (m : MbxId) (f : MbxBlock → MbxBlock) (s : State) : (modBlk m f s).power = s.power := by
  cases m <;> rfl
@[simp] theorem modBlk_flash (m : MbxId) (f : MbxBlock → MbxBlock) (s : State) : (modBlk m f s).flash = s.flash := by
  cases m <;> rfl
@[simp] theorem modBlk_ten (m : MbxId) (f : MbxBlock → MbxBlock) (s : State) : (modBlk m f s).ten = s.ten := by
  cases m <;> rfl
@[simp] theorem modBlk_maps (m : MbxId) (f : MbxBlock → MbxBlock) (s : State) : (modBlk m f s).maps = s.maps := by
  cases m <;> rfl
@[simp] theorem modBlk_mem (m : MbxId) (f : MbxBlock → MbxBlock) (s : State) : (modBlk m f s).mem = s.mem := by
  cases m <;> rfl
@[simp] theorem modBlk_dir (m : MbxId) (f : MbxBlock → MbxBlock) (s : State) : (modBlk m f s).dir = s.dir := by
  cases m <;> rfl
@[simp] theorem modBlk_chans (m : MbxId) (f : MbxBlock → MbxBlock) (s : State) : (modBlk m f s).chans = s.chans := by
  cases m <;> rfl
@[simp] theorem modBlk_sax (m : MbxId) (f : MbxBlock → MbxBlock) (s : State) : (modBlk m f s).sax = s.sax := by
  cases m <;> rfl
@[simp] theorem modBlk_trays (m : MbxId) (f : MbxBlock → MbxBlock) (s : State) : (modBlk m f s).trays = s.trays := by
  cases m <;> rfl
@[simp] theorem modBlk_dsax (m : MbxId) (f : MbxBlock → MbxBlock) (s : State) : (modBlk m f s).dsax = s.dsax := by
  cases m <;> rfl
@[simp] theorem modBlk_dtray (m : MbxId) (f : MbxBlock → MbxBlock) (s : State) : (modBlk m f s).dtray = s.dtray := by
  cases m <;> rfl
@[simp] theorem modBlk_ember (m : MbxId) (f : MbxBlock → MbxBlock) (s : State) : (modBlk m f s).ember = s.ember := by
  cases m <;> rfl
@[simp] theorem modBlk_cal (m : MbxId) (f : MbxBlock → MbxBlock) (s : State) : (modBlk m f s).cal = s.cal := by
  cases m <;> rfl
@[simp] theorem modBlk_tables (m : MbxId) (f : MbxBlock → MbxBlock) (s : State) : (modBlk m f s).tables = s.tables := by
  cases m <;> rfl
@[simp] theorem modBlk_moves (m : MbxId) (f : MbxBlock → MbxBlock) (s : State) : (modBlk m f s).moves = s.moves := by
  cases m <;> rfl
@[simp] theorem modBlk_loadTick (m : MbxId) (f : MbxBlock → MbxBlock) (s : State) : (modBlk m f s).loadTick = s.loadTick := by
  cases m <;> rfl
@[simp] theorem modBlk_balTick (m : MbxId) (f : MbxBlock → MbxBlock) (s : State) : (modBlk m f s).balTick = s.balTick := by
  cases m <;> rfl
@[simp] theorem modBlk_chains (m : MbxId) (f : MbxBlock → MbxBlock) (s : State) : (modBlk m f s).chains = s.chains := by
  cases m <;> rfl
@[simp] theorem modBlk_groups (m : MbxId) (f : MbxBlock → MbxBlock) (s : State) : (modBlk m f s).groups = s.groups := by
  cases m <;> rfl
@[simp] theorem modBlk_tiers (m : MbxId) (f : MbxBlock → MbxBlock) (s : State) : (modBlk m f s).tiers = s.tiers := by
  cases m <;> rfl
@[simp] theorem modBlk_twin (m : MbxId) (f : MbxBlock → MbxBlock) (s : State) : (modBlk m f s).twin = s.twin := by
  cases m <;> rfl

@[simp] theorem answerFrame_pending (l : Link) (q : Nat) (st : Status) (s : State) : (answerFrame l q st s).pending = s.pending := by
  simp [answerFrame]
@[simp] theorem answerFrame_t (l : Link) (q : Nat) (st : Status) (s : State) : (answerFrame l q st s).t = s.t := by
  simp [answerFrame]
@[simp] theorem answerFrame_power (l : Link) (q : Nat) (st : Status) (s : State) : (answerFrame l q st s).power = s.power := by
  simp [answerFrame]
@[simp] theorem answerFrame_flash (l : Link) (q : Nat) (st : Status) (s : State) : (answerFrame l q st s).flash = s.flash := by
  simp [answerFrame]
@[simp] theorem answerFrame_ten (l : Link) (q : Nat) (st : Status) (s : State) : (answerFrame l q st s).ten = s.ten := by
  simp [answerFrame]
@[simp] theorem answerFrame_maps (l : Link) (q : Nat) (st : Status) (s : State) : (answerFrame l q st s).maps = s.maps := by
  simp [answerFrame]
@[simp] theorem answerFrame_mem (l : Link) (q : Nat) (st : Status) (s : State) : (answerFrame l q st s).mem = s.mem := by
  simp [answerFrame]
@[simp] theorem answerFrame_dir (l : Link) (q : Nat) (st : Status) (s : State) : (answerFrame l q st s).dir = s.dir := by
  simp [answerFrame]
@[simp] theorem answerFrame_chans (l : Link) (q : Nat) (st : Status) (s : State) : (answerFrame l q st s).chans = s.chans := by
  simp [answerFrame]
@[simp] theorem answerFrame_sax (l : Link) (q : Nat) (st : Status) (s : State) : (answerFrame l q st s).sax = s.sax := by
  simp [answerFrame]
@[simp] theorem answerFrame_trays (l : Link) (q : Nat) (st : Status) (s : State) : (answerFrame l q st s).trays = s.trays := by
  simp [answerFrame]
@[simp] theorem answerFrame_dsax (l : Link) (q : Nat) (st : Status) (s : State) : (answerFrame l q st s).dsax = s.dsax := by
  simp [answerFrame]
@[simp] theorem answerFrame_dtray (l : Link) (q : Nat) (st : Status) (s : State) : (answerFrame l q st s).dtray = s.dtray := by
  simp [answerFrame]
@[simp] theorem answerFrame_ember (l : Link) (q : Nat) (st : Status) (s : State) : (answerFrame l q st s).ember = s.ember := by
  simp [answerFrame]
@[simp] theorem answerFrame_cal (l : Link) (q : Nat) (st : Status) (s : State) : (answerFrame l q st s).cal = s.cal := by
  simp [answerFrame]
@[simp] theorem answerFrame_tables (l : Link) (q : Nat) (st : Status) (s : State) : (answerFrame l q st s).tables = s.tables := by
  simp [answerFrame]
@[simp] theorem answerFrame_moves (l : Link) (q : Nat) (st : Status) (s : State) : (answerFrame l q st s).moves = s.moves := by
  simp [answerFrame]
@[simp] theorem answerFrame_loadTick (l : Link) (q : Nat) (st : Status) (s : State) : (answerFrame l q st s).loadTick = s.loadTick := by
  simp [answerFrame]
@[simp] theorem answerFrame_balTick (l : Link) (q : Nat) (st : Status) (s : State) : (answerFrame l q st s).balTick = s.balTick := by
  simp [answerFrame]
@[simp] theorem answerFrame_chains (l : Link) (q : Nat) (st : Status) (s : State) : (answerFrame l q st s).chains = s.chains := by
  simp [answerFrame]
@[simp] theorem answerFrame_groups (l : Link) (q : Nat) (st : Status) (s : State) : (answerFrame l q st s).groups = s.groups := by
  simp [answerFrame]
@[simp] theorem answerFrame_tiers (l : Link) (q : Nat) (st : Status) (s : State) : (answerFrame l q st s).tiers = s.tiers := by
  simp [answerFrame]
@[simp] theorem answerFrame_twin (l : Link) (q : Nat) (st : Status) (s : State) : (answerFrame l q st s).twin = s.twin := by
  simp [answerFrame]

@[simp] theorem modD_pending (b : Bool) (p : Nat) (f : DPort → DPort) (s : State) : (modD b p f s).pending = s.pending := by
  cases b <;> rfl
@[simp] theorem modD_t (b : Bool) (p : Nat) (f : DPort → DPort) (s : State) : (modD b p f s).t = s.t := by
  cases b <;> rfl
@[simp] theorem modD_mantel (b : Bool) (p : Nat) (f : DPort → DPort) (s : State) : (modD b p f s).mantel = s.mantel := by
  cases b <;> rfl
@[simp] theorem modD_power (b : Bool) (p : Nat) (f : DPort → DPort) (s : State) : (modD b p f s).power = s.power := by
  cases b <;> rfl
@[simp] theorem modD_flash (b : Bool) (p : Nat) (f : DPort → DPort) (s : State) : (modD b p f s).flash = s.flash := by
  cases b <;> rfl
@[simp] theorem modD_ten (b : Bool) (p : Nat) (f : DPort → DPort) (s : State) : (modD b p f s).ten = s.ten := by
  cases b <;> rfl
@[simp] theorem modD_maps (b : Bool) (p : Nat) (f : DPort → DPort) (s : State) : (modD b p f s).maps = s.maps := by
  cases b <;> rfl
@[simp] theorem modD_mem (b : Bool) (p : Nat) (f : DPort → DPort) (s : State) : (modD b p f s).mem = s.mem := by
  cases b <;> rfl
@[simp] theorem modD_dir (b : Bool) (p : Nat) (f : DPort → DPort) (s : State) : (modD b p f s).dir = s.dir := by
  cases b <;> rfl
@[simp] theorem modD_chans (b : Bool) (p : Nat) (f : DPort → DPort) (s : State) : (modD b p f s).chans = s.chans := by
  cases b <;> rfl
@[simp] theorem modD_sax (b : Bool) (p : Nat) (f : DPort → DPort) (s : State) : (modD b p f s).sax = s.sax := by
  cases b <;> rfl
@[simp] theorem modD_trays (b : Bool) (p : Nat) (f : DPort → DPort) (s : State) : (modD b p f s).trays = s.trays := by
  cases b <;> rfl
@[simp] theorem modD_ember (b : Bool) (p : Nat) (f : DPort → DPort) (s : State) : (modD b p f s).ember = s.ember := by
  cases b <;> rfl
@[simp] theorem modD_cal (b : Bool) (p : Nat) (f : DPort → DPort) (s : State) : (modD b p f s).cal = s.cal := by
  cases b <;> rfl
@[simp] theorem modD_tables (b : Bool) (p : Nat) (f : DPort → DPort) (s : State) : (modD b p f s).tables = s.tables := by
  cases b <;> rfl
@[simp] theorem modD_moves (b : Bool) (p : Nat) (f : DPort → DPort) (s : State) : (modD b p f s).moves = s.moves := by
  cases b <;> rfl
@[simp] theorem modD_loadTick (b : Bool) (p : Nat) (f : DPort → DPort) (s : State) : (modD b p f s).loadTick = s.loadTick := by
  cases b <;> rfl
@[simp] theorem modD_balTick (b : Bool) (p : Nat) (f : DPort → DPort) (s : State) : (modD b p f s).balTick = s.balTick := by
  cases b <;> rfl
@[simp] theorem modD_chains (b : Bool) (p : Nat) (f : DPort → DPort) (s : State) : (modD b p f s).chains = s.chains := by
  cases b <;> rfl
@[simp] theorem modD_groups (b : Bool) (p : Nat) (f : DPort → DPort) (s : State) : (modD b p f s).groups = s.groups := by
  cases b <;> rfl
@[simp] theorem modD_tiers (b : Bool) (p : Nat) (f : DPort → DPort) (s : State) : (modD b p f s).tiers = s.tiers := by
  cases b <;> rfl
@[simp] theorem modD_twin (b : Bool) (p : Nat) (f : DPort → DPort) (s : State) : (modD b p f s).twin = s.twin := by
  cases b <;> rfl

@[simp] theorem enqueue_pending (b : Bool) (p v ep : Nat) (o : Out) (s : State) : (enqueue b p v ep o s).pending = s.pending := by
  simp [enqueue]
@[simp] theorem enqueue_t (b : Bool) (p v ep : Nat) (o : Out) (s : State) : (enqueue b p v ep o s).t = s.t := by
  simp [enqueue]
@[simp] theorem enqueue_mantel (b : Bool) (p v ep : Nat) (o : Out) (s : State) : (enqueue b p v ep o s).mantel = s.mantel := by
  simp [enqueue]
@[simp] theorem enqueue_power (b : Bool) (p v ep : Nat) (o : Out) (s : State) : (enqueue b p v ep o s).power = s.power := by
  simp [enqueue]
@[simp] theorem enqueue_flash (b : Bool) (p v ep : Nat) (o : Out) (s : State) : (enqueue b p v ep o s).flash = s.flash := by
  simp [enqueue]
@[simp] theorem enqueue_ten (b : Bool) (p v ep : Nat) (o : Out) (s : State) : (enqueue b p v ep o s).ten = s.ten := by
  simp [enqueue]
@[simp] theorem enqueue_maps (b : Bool) (p v ep : Nat) (o : Out) (s : State) : (enqueue b p v ep o s).maps = s.maps := by
  simp [enqueue]
@[simp] theorem enqueue_mem (b : Bool) (p v ep : Nat) (o : Out) (s : State) : (enqueue b p v ep o s).mem = s.mem := by
  simp [enqueue]
@[simp] theorem enqueue_dir (b : Bool) (p v ep : Nat) (o : Out) (s : State) : (enqueue b p v ep o s).dir = s.dir := by
  simp [enqueue]
@[simp] theorem enqueue_chans (b : Bool) (p v ep : Nat) (o : Out) (s : State) : (enqueue b p v ep o s).chans = s.chans := by
  simp [enqueue]
@[simp] theorem enqueue_sax (b : Bool) (p v ep : Nat) (o : Out) (s : State) : (enqueue b p v ep o s).sax = s.sax := by
  simp [enqueue]
@[simp] theorem enqueue_trays (b : Bool) (p v ep : Nat) (o : Out) (s : State) : (enqueue b p v ep o s).trays = s.trays := by
  simp [enqueue]
@[simp] theorem enqueue_ember (b : Bool) (p v ep : Nat) (o : Out) (s : State) : (enqueue b p v ep o s).ember = s.ember := by
  simp [enqueue]
@[simp] theorem enqueue_cal (b : Bool) (p v ep : Nat) (o : Out) (s : State) : (enqueue b p v ep o s).cal = s.cal := by
  simp [enqueue]
@[simp] theorem enqueue_tables (b : Bool) (p v ep : Nat) (o : Out) (s : State) : (enqueue b p v ep o s).tables = s.tables := by
  simp [enqueue]
@[simp] theorem enqueue_moves (b : Bool) (p v ep : Nat) (o : Out) (s : State) : (enqueue b p v ep o s).moves = s.moves := by
  simp [enqueue]
@[simp] theorem enqueue_loadTick (b : Bool) (p v ep : Nat) (o : Out) (s : State) : (enqueue b p v ep o s).loadTick = s.loadTick := by
  simp [enqueue]
@[simp] theorem enqueue_balTick (b : Bool) (p v ep : Nat) (o : Out) (s : State) : (enqueue b p v ep o s).balTick = s.balTick := by
  simp [enqueue]
@[simp] theorem enqueue_chains (b : Bool) (p v ep : Nat) (o : Out) (s : State) : (enqueue b p v ep o s).chains = s.chains := by
  simp [enqueue]
@[simp] theorem enqueue_groups (b : Bool) (p v ep : Nat) (o : Out) (s : State) : (enqueue b p v ep o s).groups = s.groups := by
  simp [enqueue]
@[simp] theorem enqueue_tiers (b : Bool) (p v ep : Nat) (o : Out) (s : State) : (enqueue b p v ep o s).tiers = s.tiers := by
  simp [enqueue]
@[simp] theorem enqueue_twin (b : Bool) (p v ep : Nat) (o : Out) (s : State) : (enqueue b p v ep o s).twin = s.twin := by
  simp [enqueue]

@[simp] theorem enqueueSch_pending (p : Nat) (m : PktMsg) (s : State) : (enqueueSch p m s).pending = s.pending := by
  simp [enqueueSch]
@[simp] theorem enqueueSch_t (p : Nat) (m : PktMsg) (s : State) : (enqueueSch p m s).t = s.t := by
  simp [enqueueSch]
@[simp] theorem enqueueSch_mantel (p : Nat) (m : PktMsg) (s : State) : (enqueueSch p m s).mantel = s.mantel := by
  simp [enqueueSch]
@[simp] theorem enqueueSch_power (p : Nat) (m : PktMsg) (s : State) : (enqueueSch p m s).power = s.power := by
  simp [enqueueSch]
@[simp] theorem enqueueSch_flash (p : Nat) (m : PktMsg) (s : State) : (enqueueSch p m s).flash = s.flash := by
  simp [enqueueSch]
@[simp] theorem enqueueSch_ten (p : Nat) (m : PktMsg) (s : State) : (enqueueSch p m s).ten = s.ten := by
  simp [enqueueSch]
@[simp] theorem enqueueSch_maps (p : Nat) (m : PktMsg) (s : State) : (enqueueSch p m s).maps = s.maps := by
  simp [enqueueSch]
@[simp] theorem enqueueSch_mem (p : Nat) (m : PktMsg) (s : State) : (enqueueSch p m s).mem = s.mem := by
  simp [enqueueSch]
@[simp] theorem enqueueSch_dir (p : Nat) (m : PktMsg) (s : State) : (enqueueSch p m s).dir = s.dir := by
  simp [enqueueSch]
@[simp] theorem enqueueSch_chans (p : Nat) (m : PktMsg) (s : State) : (enqueueSch p m s).chans = s.chans := by
  simp [enqueueSch]
@[simp] theorem enqueueSch_sax (p : Nat) (m : PktMsg) (s : State) : (enqueueSch p m s).sax = s.sax := by
  simp [enqueueSch]
@[simp] theorem enqueueSch_trays (p : Nat) (m : PktMsg) (s : State) : (enqueueSch p m s).trays = s.trays := by
  simp [enqueueSch]
@[simp] theorem enqueueSch_ember (p : Nat) (m : PktMsg) (s : State) : (enqueueSch p m s).ember = s.ember := by
  simp [enqueueSch]
@[simp] theorem enqueueSch_cal (p : Nat) (m : PktMsg) (s : State) : (enqueueSch p m s).cal = s.cal := by
  simp [enqueueSch]
@[simp] theorem enqueueSch_tables (p : Nat) (m : PktMsg) (s : State) : (enqueueSch p m s).tables = s.tables := by
  simp [enqueueSch]
@[simp] theorem enqueueSch_moves (p : Nat) (m : PktMsg) (s : State) : (enqueueSch p m s).moves = s.moves := by
  simp [enqueueSch]
@[simp] theorem enqueueSch_loadTick (p : Nat) (m : PktMsg) (s : State) : (enqueueSch p m s).loadTick = s.loadTick := by
  simp [enqueueSch]
@[simp] theorem enqueueSch_balTick (p : Nat) (m : PktMsg) (s : State) : (enqueueSch p m s).balTick = s.balTick := by
  simp [enqueueSch]
@[simp] theorem enqueueSch_chains (p : Nat) (m : PktMsg) (s : State) : (enqueueSch p m s).chains = s.chains := by
  simp [enqueueSch]
@[simp] theorem enqueueSch_groups (p : Nat) (m : PktMsg) (s : State) : (enqueueSch p m s).groups = s.groups := by
  simp [enqueueSch]
@[simp] theorem enqueueSch_tiers (p : Nat) (m : PktMsg) (s : State) : (enqueueSch p m s).tiers = s.tiers := by
  simp [enqueueSch]
@[simp] theorem enqueueSch_twin (p : Nat) (m : PktMsg) (s : State) : (enqueueSch p m s).twin = s.twin := by
  simp [enqueueSch]

@[simp] theorem sendCmp_pending (p : Nat) (q : LineMsg) (st : Status) (g h : Nat) (o : Option Nat) (v : Nat) (s : State) : (sendCmp p q st g h o v s).pending = s.pending := by
  simp [sendCmp]
@[simp] theorem sendCmp_t (p : Nat) (q : LineMsg) (st : Status) (g h : Nat) (o : Option Nat) (v : Nat) (s : State) : (sendCmp p q st g h o v s).t = s.t := by
  simp [sendCmp]
@[simp] theorem sendCmp_mantel (p : Nat) (q : LineMsg) (st : Status) (g h : Nat) (o : Option Nat) (v : Nat) (s : State) : (sendCmp p q st g h o v s).mantel = s.mantel := by
  simp [sendCmp]
@[simp] theorem sendCmp_power (p : Nat) (q : LineMsg) (st : Status) (g h : Nat) (o : Option Nat) (v : Nat) (s : State) : (sendCmp p q st g h o v s).power = s.power := by
  simp [sendCmp]
@[simp] theorem sendCmp_flash (p : Nat) (q : LineMsg) (st : Status) (g h : Nat) (o : Option Nat) (v : Nat) (s : State) : (sendCmp p q st g h o v s).flash = s.flash := by
  simp [sendCmp]
@[simp] theorem sendCmp_ten (p : Nat) (q : LineMsg) (st : Status) (g h : Nat) (o : Option Nat) (v : Nat) (s : State) : (sendCmp p q st g h o v s).ten = s.ten := by
  simp [sendCmp]
@[simp] theorem sendCmp_maps (p : Nat) (q : LineMsg) (st : Status) (g h : Nat) (o : Option Nat) (v : Nat) (s : State) : (sendCmp p q st g h o v s).maps = s.maps := by
  simp [sendCmp]
@[simp] theorem sendCmp_mem (p : Nat) (q : LineMsg) (st : Status) (g h : Nat) (o : Option Nat) (v : Nat) (s : State) : (sendCmp p q st g h o v s).mem = s.mem := by
  simp [sendCmp]
@[simp] theorem sendCmp_dir (p : Nat) (q : LineMsg) (st : Status) (g h : Nat) (o : Option Nat) (v : Nat) (s : State) : (sendCmp p q st g h o v s).dir = s.dir := by
  simp [sendCmp]
@[simp] theorem sendCmp_chans (p : Nat) (q : LineMsg) (st : Status) (g h : Nat) (o : Option Nat) (v : Nat) (s : State) : (sendCmp p q st g h o v s).chans = s.chans := by
  simp [sendCmp]
@[simp] theorem sendCmp_sax (p : Nat) (q : LineMsg) (st : Status) (g h : Nat) (o : Option Nat) (v : Nat) (s : State) : (sendCmp p q st g h o v s).sax = s.sax := by
  simp [sendCmp]
@[simp] theorem sendCmp_trays (p : Nat) (q : LineMsg) (st : Status) (g h : Nat) (o : Option Nat) (v : Nat) (s : State) : (sendCmp p q st g h o v s).trays = s.trays := by
  simp [sendCmp]
@[simp] theorem sendCmp_ember (p : Nat) (q : LineMsg) (st : Status) (g h : Nat) (o : Option Nat) (v : Nat) (s : State) : (sendCmp p q st g h o v s).ember = s.ember := by
  simp [sendCmp]
@[simp] theorem sendCmp_cal (p : Nat) (q : LineMsg) (st : Status) (g h : Nat) (o : Option Nat) (v : Nat) (s : State) : (sendCmp p q st g h o v s).cal = s.cal := by
  simp [sendCmp]
@[simp] theorem sendCmp_tables (p : Nat) (q : LineMsg) (st : Status) (g h : Nat) (o : Option Nat) (v : Nat) (s : State) : (sendCmp p q st g h o v s).tables = s.tables := by
  simp [sendCmp]
@[simp] theorem sendCmp_moves (p : Nat) (q : LineMsg) (st : Status) (g h : Nat) (o : Option Nat) (v : Nat) (s : State) : (sendCmp p q st g h o v s).moves = s.moves := by
  simp [sendCmp]
@[simp] theorem sendCmp_loadTick (p : Nat) (q : LineMsg) (st : Status) (g h : Nat) (o : Option Nat) (v : Nat) (s : State) : (sendCmp p q st g h o v s).loadTick = s.loadTick := by
  simp [sendCmp]
@[simp] theorem sendCmp_balTick (p : Nat) (q : LineMsg) (st : Status) (g h : Nat) (o : Option Nat) (v : Nat) (s : State) : (sendCmp p q st g h o v s).balTick = s.balTick := by
  simp [sendCmp]
@[simp] theorem sendCmp_chains (p : Nat) (q : LineMsg) (st : Status) (g h : Nat) (o : Option Nat) (v : Nat) (s : State) : (sendCmp p q st g h o v s).chains = s.chains := by
  simp [sendCmp]
@[simp] theorem sendCmp_groups (p : Nat) (q : LineMsg) (st : Status) (g h : Nat) (o : Option Nat) (v : Nat) (s : State) : (sendCmp p q st g h o v s).groups = s.groups := by
  simp [sendCmp]
@[simp] theorem sendCmp_tiers (p : Nat) (q : LineMsg) (st : Status) (g h : Nat) (o : Option Nat) (v : Nat) (s : State) : (sendCmp p q st g h o v s).tiers = s.tiers := by
  simp [sendCmp]
@[simp] theorem sendCmp_twin (p : Nat) (q : LineMsg) (st : Status) (g h : Nat) (o : Option Nat) (v : Nat) (s : State) : (sendCmp p q st g h o v s).twin = s.twin := by
  simp [sendCmp]

@[simp] theorem sendSnp_pending (p d x o l : Nat) (s : State) : (sendSnp p d x o l s).pending = s.pending := by
  simp [sendSnp]
@[simp] theorem sendSnp_t (p d x o l : Nat) (s : State) : (sendSnp p d x o l s).t = s.t := by
  simp [sendSnp]
@[simp] theorem sendSnp_mantel (p d x o l : Nat) (s : State) : (sendSnp p d x o l s).mantel = s.mantel := by
  simp [sendSnp]
@[simp] theorem sendSnp_power (p d x o l : Nat) (s : State) : (sendSnp p d x o l s).power = s.power := by
  simp [sendSnp]
@[simp] theorem sendSnp_flash (p d x o l : Nat) (s : State) : (sendSnp p d x o l s).flash = s.flash := by
  simp [sendSnp]
@[simp] theorem sendSnp_ten (p d x o l : Nat) (s : State) : (sendSnp p d x o l s).ten = s.ten := by
  simp [sendSnp]
@[simp] theorem sendSnp_maps (p d x o l : Nat) (s : State) : (sendSnp p d x o l s).maps = s.maps := by
  simp [sendSnp]
@[simp] theorem sendSnp_mem (p d x o l : Nat) (s : State) : (sendSnp p d x o l s).mem = s.mem := by
  simp [sendSnp]
@[simp] theorem sendSnp_dir (p d x o l : Nat) (s : State) : (sendSnp p d x o l s).dir = s.dir := by
  simp [sendSnp]
@[simp] theorem sendSnp_chans (p d x o l : Nat) (s : State) : (sendSnp p d x o l s).chans = s.chans := by
  simp [sendSnp]
@[simp] theorem sendSnp_sax (p d x o l : Nat) (s : State) : (sendSnp p d x o l s).sax = s.sax := by
  simp [sendSnp]
@[simp] theorem sendSnp_trays (p d x o l : Nat) (s : State) : (sendSnp p d x o l s).trays = s.trays := by
  simp [sendSnp]
@[simp] theorem sendSnp_ember (p d x o l : Nat) (s : State) : (sendSnp p d x o l s).ember = s.ember := by
  simp [sendSnp]
@[simp] theorem sendSnp_cal (p d x o l : Nat) (s : State) : (sendSnp p d x o l s).cal = s.cal := by
  simp [sendSnp]
@[simp] theorem sendSnp_tables (p d x o l : Nat) (s : State) : (sendSnp p d x o l s).tables = s.tables := by
  simp [sendSnp]
@[simp] theorem sendSnp_moves (p d x o l : Nat) (s : State) : (sendSnp p d x o l s).moves = s.moves := by
  simp [sendSnp]
@[simp] theorem sendSnp_loadTick (p d x o l : Nat) (s : State) : (sendSnp p d x o l s).loadTick = s.loadTick := by
  simp [sendSnp]
@[simp] theorem sendSnp_balTick (p d x o l : Nat) (s : State) : (sendSnp p d x o l s).balTick = s.balTick := by
  simp [sendSnp]
@[simp] theorem sendSnp_chains (p d x o l : Nat) (s : State) : (sendSnp p d x o l s).chains = s.chains := by
  simp [sendSnp]
@[simp] theorem sendSnp_groups (p d x o l : Nat) (s : State) : (sendSnp p d x o l s).groups = s.groups := by
  simp [sendSnp]
@[simp] theorem sendSnp_tiers (p d x o l : Nat) (s : State) : (sendSnp p d x o l s).tiers = s.tiers := by
  simp [sendSnp]
@[simp] theorem sendSnp_twin (p d x o l : Nat) (s : State) : (sendSnp p d x o l s).twin = s.twin := by
  simp [sendSnp]

@[simp] theorem loopReport_pending (m : PktMsg) (s : State) : (loopReport m s).pending = s.pending := by
  simp [loopReport]
@[simp] theorem loopReport_t (m : PktMsg) (s : State) : (loopReport m s).t = s.t := by
  simp [loopReport]
@[simp] theorem loopReport_power (m : PktMsg) (s : State) : (loopReport m s).power = s.power := by
  simp [loopReport]
@[simp] theorem loopReport_flash (m : PktMsg) (s : State) : (loopReport m s).flash = s.flash := by
  simp [loopReport]
@[simp] theorem loopReport_ten (m : PktMsg) (s : State) : (loopReport m s).ten = s.ten := by
  simp [loopReport]
@[simp] theorem loopReport_maps (m : PktMsg) (s : State) : (loopReport m s).maps = s.maps := by
  simp [loopReport]
@[simp] theorem loopReport_mem (m : PktMsg) (s : State) : (loopReport m s).mem = s.mem := by
  simp [loopReport]
@[simp] theorem loopReport_dir (m : PktMsg) (s : State) : (loopReport m s).dir = s.dir := by
  simp [loopReport]
@[simp] theorem loopReport_chans (m : PktMsg) (s : State) : (loopReport m s).chans = s.chans := by
  simp [loopReport]
@[simp] theorem loopReport_sax (m : PktMsg) (s : State) : (loopReport m s).sax = s.sax := by
  simp [loopReport]
@[simp] theorem loopReport_trays (m : PktMsg) (s : State) : (loopReport m s).trays = s.trays := by
  simp [loopReport]
@[simp] theorem loopReport_dsax (m : PktMsg) (s : State) : (loopReport m s).dsax = s.dsax := by
  simp [loopReport]
@[simp] theorem loopReport_dtray (m : PktMsg) (s : State) : (loopReport m s).dtray = s.dtray := by
  simp [loopReport]
@[simp] theorem loopReport_ember (m : PktMsg) (s : State) : (loopReport m s).ember = s.ember := by
  simp [loopReport]
@[simp] theorem loopReport_cal (m : PktMsg) (s : State) : (loopReport m s).cal = s.cal := by
  simp [loopReport]
@[simp] theorem loopReport_tables (m : PktMsg) (s : State) : (loopReport m s).tables = s.tables := by
  simp [loopReport]
@[simp] theorem loopReport_moves (m : PktMsg) (s : State) : (loopReport m s).moves = s.moves := by
  simp [loopReport]
@[simp] theorem loopReport_loadTick (m : PktMsg) (s : State) : (loopReport m s).loadTick = s.loadTick := by
  simp [loopReport]
@[simp] theorem loopReport_balTick (m : PktMsg) (s : State) : (loopReport m s).balTick = s.balTick := by
  simp [loopReport]
@[simp] theorem loopReport_chains (m : PktMsg) (s : State) : (loopReport m s).chains = s.chains := by
  simp [loopReport]
@[simp] theorem loopReport_groups (m : PktMsg) (s : State) : (loopReport m s).groups = s.groups := by
  simp [loopReport]
@[simp] theorem loopReport_tiers (m : PktMsg) (s : State) : (loopReport m s).tiers = s.tiers := by
  simp [loopReport]
@[simp] theorem loopReport_twin (m : PktMsg) (s : State) : (loopReport m s).twin = s.twin := by
  simp [loopReport]

@[simp] theorem sendQuiet_pending (v : Vc) (n : Nat) (m : PktMsg) (s : State) : (sendQuiet v n m s).pending = s.pending := by
  unfold sendQuiet; split <;> simp
@[simp] theorem sendQuiet_t (v : Vc) (n : Nat) (m : PktMsg) (s : State) : (sendQuiet v n m s).t = s.t := by
  unfold sendQuiet; split <;> simp
@[simp] theorem sendQuiet_power (v : Vc) (n : Nat) (m : PktMsg) (s : State) : (sendQuiet v n m s).power = s.power := by
  unfold sendQuiet; split <;> simp
@[simp] theorem sendQuiet_flash (v : Vc) (n : Nat) (m : PktMsg) (s : State) : (sendQuiet v n m s).flash = s.flash := by
  unfold sendQuiet; split <;> simp
@[simp] theorem sendQuiet_ten (v : Vc) (n : Nat) (m : PktMsg) (s : State) : (sendQuiet v n m s).ten = s.ten := by
  unfold sendQuiet; split <;> simp
@[simp] theorem sendQuiet_maps (v : Vc) (n : Nat) (m : PktMsg) (s : State) : (sendQuiet v n m s).maps = s.maps := by
  unfold sendQuiet; split <;> simp
@[simp] theorem sendQuiet_mem (v : Vc) (n : Nat) (m : PktMsg) (s : State) : (sendQuiet v n m s).mem = s.mem := by
  unfold sendQuiet; split <;> simp
@[simp] theorem sendQuiet_dir (v : Vc) (n : Nat) (m : PktMsg) (s : State) : (sendQuiet v n m s).dir = s.dir := by
  unfold sendQuiet; split <;> simp
@[simp] theorem sendQuiet_chans (v : Vc) (n : Nat) (m : PktMsg) (s : State) : (sendQuiet v n m s).chans = s.chans := by
  unfold sendQuiet; split <;> simp
@[simp] theorem sendQuiet_sax (v : Vc) (n : Nat) (m : PktMsg) (s : State) : (sendQuiet v n m s).sax = s.sax := by
  unfold sendQuiet; split <;> simp
@[simp] theorem sendQuiet_trays (v : Vc) (n : Nat) (m : PktMsg) (s : State) : (sendQuiet v n m s).trays = s.trays := by
  unfold sendQuiet; split <;> simp
@[simp] theorem sendQuiet_ember (v : Vc) (n : Nat) (m : PktMsg) (s : State) : (sendQuiet v n m s).ember = s.ember := by
  unfold sendQuiet; split <;> simp
@[simp] theorem sendQuiet_cal (v : Vc) (n : Nat) (m : PktMsg) (s : State) : (sendQuiet v n m s).cal = s.cal := by
  unfold sendQuiet; split <;> simp
@[simp] theorem sendQuiet_tables (v : Vc) (n : Nat) (m : PktMsg) (s : State) : (sendQuiet v n m s).tables = s.tables := by
  unfold sendQuiet; split <;> simp
@[simp] theorem sendQuiet_moves (v : Vc) (n : Nat) (m : PktMsg) (s : State) : (sendQuiet v n m s).moves = s.moves := by
  unfold sendQuiet; split <;> simp
@[simp] theorem sendQuiet_loadTick (v : Vc) (n : Nat) (m : PktMsg) (s : State) : (sendQuiet v n m s).loadTick = s.loadTick := by
  unfold sendQuiet; split <;> simp
@[simp] theorem sendQuiet_balTick (v : Vc) (n : Nat) (m : PktMsg) (s : State) : (sendQuiet v n m s).balTick = s.balTick := by
  unfold sendQuiet; split <;> simp
@[simp] theorem sendQuiet_chains (v : Vc) (n : Nat) (m : PktMsg) (s : State) : (sendQuiet v n m s).chains = s.chains := by
  unfold sendQuiet; split <;> simp
@[simp] theorem sendQuiet_groups (v : Vc) (n : Nat) (m : PktMsg) (s : State) : (sendQuiet v n m s).groups = s.groups := by
  unfold sendQuiet; split <;> simp
@[simp] theorem sendQuiet_tiers (v : Vc) (n : Nat) (m : PktMsg) (s : State) : (sendQuiet v n m s).tiers = s.tiers := by
  unfold sendQuiet; split <;> simp
@[simp] theorem sendQuiet_twin (v : Vc) (n : Nat) (m : PktMsg) (s : State) : (sendQuiet v n m s).twin = s.twin := by
  unfold sendQuiet; split <;> simp

@[simp] theorem answerOnSvc_pending (v p : Nat) (q : PktMsg) (st : Status) (s : State) : (answerOnSvc v p q st s).pending = s.pending := by
  simp [answerOnSvc]
@[simp] theorem answerOnSvc_t (v p : Nat) (q : PktMsg) (st : Status) (s : State) : (answerOnSvc v p q st s).t = s.t := by
  simp [answerOnSvc]
@[simp] theorem answerOnSvc_mantel (v p : Nat) (q : PktMsg) (st : Status) (s : State) : (answerOnSvc v p q st s).mantel = s.mantel := by
  simp [answerOnSvc]
@[simp] theorem answerOnSvc_power (v p : Nat) (q : PktMsg) (st : Status) (s : State) : (answerOnSvc v p q st s).power = s.power := by
  simp [answerOnSvc]
@[simp] theorem answerOnSvc_flash (v p : Nat) (q : PktMsg) (st : Status) (s : State) : (answerOnSvc v p q st s).flash = s.flash := by
  simp [answerOnSvc]
@[simp] theorem answerOnSvc_ten (v p : Nat) (q : PktMsg) (st : Status) (s : State) : (answerOnSvc v p q st s).ten = s.ten := by
  simp [answerOnSvc]
@[simp] theorem answerOnSvc_maps (v p : Nat) (q : PktMsg) (st : Status) (s : State) : (answerOnSvc v p q st s).maps = s.maps := by
  simp [answerOnSvc]
@[simp] theorem answerOnSvc_mem (v p : Nat) (q : PktMsg) (st : Status) (s : State) : (answerOnSvc v p q st s).mem = s.mem := by
  simp [answerOnSvc]
@[simp] theorem answerOnSvc_dir (v p : Nat) (q : PktMsg) (st : Status) (s : State) : (answerOnSvc v p q st s).dir = s.dir := by
  simp [answerOnSvc]
@[simp] theorem answerOnSvc_chans (v p : Nat) (q : PktMsg) (st : Status) (s : State) : (answerOnSvc v p q st s).chans = s.chans := by
  simp [answerOnSvc]
@[simp] theorem answerOnSvc_sax (v p : Nat) (q : PktMsg) (st : Status) (s : State) : (answerOnSvc v p q st s).sax = s.sax := by
  simp [answerOnSvc]
@[simp] theorem answerOnSvc_trays (v p : Nat) (q : PktMsg) (st : Status) (s : State) : (answerOnSvc v p q st s).trays = s.trays := by
  simp [answerOnSvc]
@[simp] theorem answerOnSvc_ember (v p : Nat) (q : PktMsg) (st : Status) (s : State) : (answerOnSvc v p q st s).ember = s.ember := by
  simp [answerOnSvc]
@[simp] theorem answerOnSvc_cal (v p : Nat) (q : PktMsg) (st : Status) (s : State) : (answerOnSvc v p q st s).cal = s.cal := by
  simp [answerOnSvc]
@[simp] theorem answerOnSvc_tables (v p : Nat) (q : PktMsg) (st : Status) (s : State) : (answerOnSvc v p q st s).tables = s.tables := by
  simp [answerOnSvc]
@[simp] theorem answerOnSvc_moves (v p : Nat) (q : PktMsg) (st : Status) (s : State) : (answerOnSvc v p q st s).moves = s.moves := by
  simp [answerOnSvc]
@[simp] theorem answerOnSvc_loadTick (v p : Nat) (q : PktMsg) (st : Status) (s : State) : (answerOnSvc v p q st s).loadTick = s.loadTick := by
  simp [answerOnSvc]
@[simp] theorem answerOnSvc_balTick (v p : Nat) (q : PktMsg) (st : Status) (s : State) : (answerOnSvc v p q st s).balTick = s.balTick := by
  simp [answerOnSvc]
@[simp] theorem answerOnSvc_chains (v p : Nat) (q : PktMsg) (st : Status) (s : State) : (answerOnSvc v p q st s).chains = s.chains := by
  simp [answerOnSvc]
@[simp] theorem answerOnSvc_groups (v p : Nat) (q : PktMsg) (st : Status) (s : State) : (answerOnSvc v p q st s).groups = s.groups := by
  simp [answerOnSvc]
@[simp] theorem answerOnSvc_tiers (v p : Nat) (q : PktMsg) (st : Status) (s : State) : (answerOnSvc v p q st s).tiers = s.tiers := by
  simp [answerOnSvc]
@[simp] theorem answerOnSvc_twin (v p : Nat) (q : PktMsg) (st : Status) (s : State) : (answerOnSvc v p q st s).twin = s.twin := by
  simp [answerOnSvc]

@[simp] theorem answerOn_pending (p : Nat) (q : PktMsg) (st : Status) (s : State) : (answerOn p q st s).pending = s.pending := by
  simp [answerOn]
@[simp] theorem answerOn_t (p : Nat) (q : PktMsg) (st : Status) (s : State) : (answerOn p q st s).t = s.t := by
  simp [answerOn]
@[simp] theorem answerOn_mantel (p : Nat) (q : PktMsg) (st : Status) (s : State) : (answerOn p q st s).mantel = s.mantel := by
  simp [answerOn]
@[simp] theorem answerOn_power (p : Nat) (q : PktMsg) (st : Status) (s : State) : (answerOn p q st s).power = s.power := by
  simp [answerOn]
@[simp] theorem answerOn_flash (p : Nat) (q : PktMsg) (st : Status) (s : State) : (answerOn p q st s).flash = s.flash := by
  simp [answerOn]
@[simp] theorem answerOn_ten (p : Nat) (q : PktMsg) (st : Status) (s : State) : (answerOn p q st s).ten = s.ten := by
  simp [answerOn]
@[simp] theorem answerOn_maps (p : Nat) (q : PktMsg) (st : Status) (s : State) : (answerOn p q st s).maps = s.maps := by
  simp [answerOn]
@[simp] theorem answerOn_mem (p : Nat) (q : PktMsg) (st : Status) (s : State) : (answerOn p q st s).mem = s.mem := by
  simp [answerOn]
@[simp] theorem answerOn_dir (p : Nat) (q : PktMsg) (st : Status) (s : State) : (answerOn p q st s).dir = s.dir := by
  simp [answerOn]
@[simp] theorem answerOn_chans (p : Nat) (q : PktMsg) (st : Status) (s : State) : (answerOn p q st s).chans = s.chans := by
  simp [answerOn]
@[simp] theorem answerOn_sax (p : Nat) (q : PktMsg) (st : Status) (s : State) : (answerOn p q st s).sax = s.sax := by
  simp [answerOn]
@[simp] theorem answerOn_trays (p : Nat) (q : PktMsg) (st : Status) (s : State) : (answerOn p q st s).trays = s.trays := by
  simp [answerOn]
@[simp] theorem answerOn_ember (p : Nat) (q : PktMsg) (st : Status) (s : State) : (answerOn p q st s).ember = s.ember := by
  simp [answerOn]
@[simp] theorem answerOn_cal (p : Nat) (q : PktMsg) (st : Status) (s : State) : (answerOn p q st s).cal = s.cal := by
  simp [answerOn]
@[simp] theorem answerOn_tables (p : Nat) (q : PktMsg) (st : Status) (s : State) : (answerOn p q st s).tables = s.tables := by
  simp [answerOn]
@[simp] theorem answerOn_moves (p : Nat) (q : PktMsg) (st : Status) (s : State) : (answerOn p q st s).moves = s.moves := by
  simp [answerOn]
@[simp] theorem answerOn_loadTick (p : Nat) (q : PktMsg) (st : Status) (s : State) : (answerOn p q st s).loadTick = s.loadTick := by
  simp [answerOn]
@[simp] theorem answerOn_balTick (p : Nat) (q : PktMsg) (st : Status) (s : State) : (answerOn p q st s).balTick = s.balTick := by
  simp [answerOn]
@[simp] theorem answerOn_chains (p : Nat) (q : PktMsg) (st : Status) (s : State) : (answerOn p q st s).chains = s.chains := by
  simp [answerOn]
@[simp] theorem answerOn_groups (p : Nat) (q : PktMsg) (st : Status) (s : State) : (answerOn p q st s).groups = s.groups := by
  simp [answerOn]
@[simp] theorem answerOn_tiers (p : Nat) (q : PktMsg) (st : Status) (s : State) : (answerOn p q st s).tiers = s.tiers := by
  simp [answerOn]
@[simp] theorem answerOn_twin (p : Nat) (q : PktMsg) (st : Status) (s : State) : (answerOn p q st s).twin = s.twin := by
  simp [answerOn]

@[simp] theorem postCmpl_pending (j : Job) (c : Cmpl) (s : State) : (postCmpl j c s).pending = s.pending := by
  unfold postCmpl; dsimp only; split <;> (try split) <;> (try split) <;> simp
@[simp] theorem postCmpl_t (j : Job) (c : Cmpl) (s : State) : (postCmpl j c s).t = s.t := by
  unfold postCmpl; dsimp only; split <;> (try split) <;> (try split) <;> simp
@[simp] theorem postCmpl_power (j : Job) (c : Cmpl) (s : State) : (postCmpl j c s).power = s.power := by
  unfold postCmpl; dsimp only; split <;> (try split) <;> (try split) <;> simp
@[simp] theorem postCmpl_flash (j : Job) (c : Cmpl) (s : State) : (postCmpl j c s).flash = s.flash := by
  unfold postCmpl; dsimp only; split <;> (try split) <;> (try split) <;> simp
@[simp] theorem postCmpl_ten (j : Job) (c : Cmpl) (s : State) : (postCmpl j c s).ten = s.ten := by
  unfold postCmpl; dsimp only; split <;> (try split) <;> (try split) <;> simp
@[simp] theorem postCmpl_maps (j : Job) (c : Cmpl) (s : State) : (postCmpl j c s).maps = s.maps := by
  unfold postCmpl; dsimp only; split <;> (try split) <;> (try split) <;> simp
@[simp] theorem postCmpl_mem (j : Job) (c : Cmpl) (s : State) : (postCmpl j c s).mem = s.mem := by
  unfold postCmpl; dsimp only; split <;> (try split) <;> (try split) <;> simp
@[simp] theorem postCmpl_dir (j : Job) (c : Cmpl) (s : State) : (postCmpl j c s).dir = s.dir := by
  unfold postCmpl; dsimp only; split <;> (try split) <;> (try split) <;> simp
@[simp] theorem postCmpl_chans (j : Job) (c : Cmpl) (s : State) : (postCmpl j c s).chans = s.chans := by
  unfold postCmpl; dsimp only; split <;> (try split) <;> (try split) <;> simp
@[simp] theorem postCmpl_sax (j : Job) (c : Cmpl) (s : State) : (postCmpl j c s).sax = s.sax := by
  unfold postCmpl; dsimp only; split <;> (try split) <;> (try split) <;> simp
@[simp] theorem postCmpl_trays (j : Job) (c : Cmpl) (s : State) : (postCmpl j c s).trays = s.trays := by
  unfold postCmpl; dsimp only; split <;> (try split) <;> (try split) <;> simp
@[simp] theorem postCmpl_ember (j : Job) (c : Cmpl) (s : State) : (postCmpl j c s).ember = s.ember := by
  unfold postCmpl; dsimp only; split <;> (try split) <;> (try split) <;> simp
@[simp] theorem postCmpl_cal (j : Job) (c : Cmpl) (s : State) : (postCmpl j c s).cal = s.cal := by
  unfold postCmpl; dsimp only; split <;> (try split) <;> (try split) <;> simp
@[simp] theorem postCmpl_tables (j : Job) (c : Cmpl) (s : State) : (postCmpl j c s).tables = s.tables := by
  unfold postCmpl; dsimp only; split <;> (try split) <;> (try split) <;> simp
@[simp] theorem postCmpl_moves (j : Job) (c : Cmpl) (s : State) : (postCmpl j c s).moves = s.moves := by
  unfold postCmpl; dsimp only; split <;> (try split) <;> (try split) <;> simp
@[simp] theorem postCmpl_loadTick (j : Job) (c : Cmpl) (s : State) : (postCmpl j c s).loadTick = s.loadTick := by
  unfold postCmpl; dsimp only; split <;> (try split) <;> (try split) <;> simp
@[simp] theorem postCmpl_balTick (j : Job) (c : Cmpl) (s : State) : (postCmpl j c s).balTick = s.balTick := by
  unfold postCmpl; dsimp only; split <;> (try split) <;> (try split) <;> simp
@[simp] theorem postCmpl_chains (j : Job) (c : Cmpl) (s : State) : (postCmpl j c s).chains = s.chains := by
  unfold postCmpl; dsimp only; split <;> (try split) <;> (try split) <;> simp
@[simp] theorem postCmpl_groups (j : Job) (c : Cmpl) (s : State) : (postCmpl j c s).groups = s.groups := by
  unfold postCmpl; dsimp only; split <;> (try split) <;> (try split) <;> simp
@[simp] theorem postCmpl_tiers (j : Job) (c : Cmpl) (s : State) : (postCmpl j c s).tiers = s.tiers := by
  unfold postCmpl; dsimp only; split <;> (try split) <;> (try split) <;> simp
@[simp] theorem postCmpl_twin (j : Job) (c : Cmpl) (s : State) : (postCmpl j c s).twin = s.twin := by
  unfold postCmpl; dsimp only; split <;> (try split) <;> (try split) <;> simp

@[simp] theorem recordLast_pending (j : Job) (c : Cmpl) (s : State) : (recordLast j c s).pending = s.pending := by
  exact (foldl_keep State.pending _ (fun s x => by simp) _ _).trans rfl
@[simp] theorem recordLast_t (j : Job) (c : Cmpl) (s : State) : (recordLast j c s).t = s.t := by
  exact (foldl_keep State.t _ (fun s x => by simp) _ _).trans rfl
@[simp] theorem recordLast_power (j : Job) (c : Cmpl) (s : State) : (recordLast j c s).power = s.power := by
  exact (foldl_keep State.power _ (fun s x => by simp) _ _).trans rfl
@[simp] theorem recordLast_flash (j : Job) (c : Cmpl) (s : State) : (recordLast j c s).flash = s.flash := by
  exact (foldl_keep State.flash _ (fun s x => by simp) _ _).trans rfl
@[simp] theorem recordLast_ten (j : Job) (c : Cmpl) (s : State) : (recordLast j c s).ten = s.ten := by
  exact (foldl_keep State.ten _ (fun s x => by simp) _ _).trans rfl
@[simp] theorem recordLast_maps (j : Job) (c : Cmpl) (s : State) : (recordLast j c s).maps = s.maps := by
  exact (foldl_keep State.maps _ (fun s x => by simp) _ _).trans rfl
@[simp] theorem recordLast_mem (j : Job) (c : Cmpl) (s : State) : (recordLast j c s).mem = s.mem := by
  exact (foldl_keep State.mem _ (fun s x => by simp) _ _).trans rfl
@[simp] theorem recordLast_dir (j : Job) (c : Cmpl) (s : State) : (recordLast j c s).dir = s.dir := by
  exact (foldl_keep State.dir _ (fun s x => by simp) _ _).trans rfl
@[simp] theorem recordLast_chans (j : Job) (c : Cmpl) (s : State) : (recordLast j c s).chans = s.chans := by
  exact (foldl_keep State.chans _ (fun s x => by simp) _ _).trans rfl
@[simp] theorem recordLast_sax (j : Job) (c : Cmpl) (s : State) : (recordLast j c s).sax = s.sax := by
  exact (foldl_keep State.sax _ (fun s x => by simp) _ _).trans rfl
@[simp] theorem recordLast_trays (j : Job) (c : Cmpl) (s : State) : (recordLast j c s).trays = s.trays := by
  exact (foldl_keep State.trays _ (fun s x => by simp) _ _).trans rfl
@[simp] theorem recordLast_ember (j : Job) (c : Cmpl) (s : State) : (recordLast j c s).ember = s.ember := by
  exact (foldl_keep State.ember _ (fun s x => by simp) _ _).trans rfl
@[simp] theorem recordLast_cal (j : Job) (c : Cmpl) (s : State) : (recordLast j c s).cal = s.cal := by
  exact (foldl_keep State.cal _ (fun s x => by simp) _ _).trans rfl
@[simp] theorem recordLast_tables (j : Job) (c : Cmpl) (s : State) : (recordLast j c s).tables = s.tables := by
  exact (foldl_keep State.tables _ (fun s x => by simp) _ _).trans rfl
@[simp] theorem recordLast_moves (j : Job) (c : Cmpl) (s : State) : (recordLast j c s).moves = s.moves := by
  exact (foldl_keep State.moves _ (fun s x => by simp) _ _).trans rfl
@[simp] theorem recordLast_loadTick (j : Job) (c : Cmpl) (s : State) : (recordLast j c s).loadTick = s.loadTick := by
  exact (foldl_keep State.loadTick _ (fun s x => by simp) _ _).trans rfl
@[simp] theorem recordLast_balTick (j : Job) (c : Cmpl) (s : State) : (recordLast j c s).balTick = s.balTick := by
  exact (foldl_keep State.balTick _ (fun s x => by simp) _ _).trans rfl
@[simp] theorem recordLast_chains (j : Job) (c : Cmpl) (s : State) : (recordLast j c s).chains = s.chains := by
  exact (foldl_keep State.chains _ (fun s x => by simp) _ _).trans rfl
@[simp] theorem recordLast_groups (j : Job) (c : Cmpl) (s : State) : (recordLast j c s).groups = s.groups := by
  exact (foldl_keep State.groups _ (fun s x => by simp) _ _).trans rfl
@[simp] theorem recordLast_tiers (j : Job) (c : Cmpl) (s : State) : (recordLast j c s).tiers = s.tiers := by
  exact (foldl_keep State.tiers _ (fun s x => by simp) _ _).trans rfl
@[simp] theorem recordLast_twin (j : Job) (c : Cmpl) (s : State) : (recordLast j c s).twin = s.twin := by
  exact (foldl_keep State.twin _ (fun s x => by simp) _ _).trans rfl

@[simp] theorem finish_pending (i : Nat) (st : Status) (d : Nat) (p : Bytes) (s : State) : (finish i st d p s).pending = s.pending := by
  unfold finish; split <;> (try split) <;> simp
@[simp] theorem finish_t (i : Nat) (st : Status) (d : Nat) (p : Bytes) (s : State) : (finish i st d p s).t = s.t := by
  unfold finish; split <;> (try split) <;> simp
@[simp] theorem finish_power (i : Nat) (st : Status) (d : Nat) (p : Bytes) (s : State) : (finish i st d p s).power = s.power := by
  unfold finish; split <;> (try split) <;> simp
@[simp] theorem finish_flash (i : Nat) (st : Status) (d : Nat) (p : Bytes) (s : State) : (finish i st d p s).flash = s.flash := by
  unfold finish; split <;> (try split) <;> simp
@[simp] theorem finish_ten (i : Nat) (st : Status) (d : Nat) (p : Bytes) (s : State) : (finish i st d p s).ten = s.ten := by
  unfold finish; split <;> (try split) <;> simp
@[simp] theorem finish_maps (i : Nat) (st : Status) (d : Nat) (p : Bytes) (s : State) : (finish i st d p s).maps = s.maps := by
  unfold finish; split <;> (try split) <;> simp
@[simp] theorem finish_mem (i : Nat) (st : Status) (d : Nat) (p : Bytes) (s : State) : (finish i st d p s).mem = s.mem := by
  unfold finish; split <;> (try split) <;> simp
@[simp] theorem finish_dir (i : Nat) (st : Status) (d : Nat) (p : Bytes) (s : State) : (finish i st d p s).dir = s.dir := by
  unfold finish; split <;> (try split) <;> simp
@[simp] theorem finish_chans (i : Nat) (st : Status) (d : Nat) (p : Bytes) (s : State) : (finish i st d p s).chans = s.chans := by
  unfold finish; split <;> (try split) <;> simp
@[simp] theorem finish_sax (i : Nat) (st : Status) (d : Nat) (p : Bytes) (s : State) : (finish i st d p s).sax = s.sax := by
  unfold finish; split <;> (try split) <;> simp
@[simp] theorem finish_trays (i : Nat) (st : Status) (d : Nat) (p : Bytes) (s : State) : (finish i st d p s).trays = s.trays := by
  unfold finish; split <;> (try split) <;> simp
@[simp] theorem finish_ember (i : Nat) (st : Status) (d : Nat) (p : Bytes) (s : State) : (finish i st d p s).ember = s.ember := by
  unfold finish; split <;> (try split) <;> simp
@[simp] theorem finish_cal (i : Nat) (st : Status) (d : Nat) (p : Bytes) (s : State) : (finish i st d p s).cal = s.cal := by
  unfold finish; split <;> (try split) <;> simp
@[simp] theorem finish_tables (i : Nat) (st : Status) (d : Nat) (p : Bytes) (s : State) : (finish i st d p s).tables = s.tables := by
  unfold finish; split <;> (try split) <;> simp
@[simp] theorem finish_moves (i : Nat) (st : Status) (d : Nat) (p : Bytes) (s : State) : (finish i st d p s).moves = s.moves := by
  unfold finish; split <;> (try split) <;> simp
@[simp] theorem finish_loadTick (i : Nat) (st : Status) (d : Nat) (p : Bytes) (s : State) : (finish i st d p s).loadTick = s.loadTick := by
  unfold finish; split <;> (try split) <;> simp
@[simp] theorem finish_balTick (i : Nat) (st : Status) (d : Nat) (p : Bytes) (s : State) : (finish i st d p s).balTick = s.balTick := by
  unfold finish; split <;> (try split) <;> simp
@[simp] theorem finish_chains (i : Nat) (st : Status) (d : Nat) (p : Bytes) (s : State) : (finish i st d p s).chains = s.chains := by
  unfold finish; split <;> (try split) <;> simp
@[simp] theorem finish_groups (i : Nat) (st : Status) (d : Nat) (p : Bytes) (s : State) : (finish i st d p s).groups = s.groups := by
  unfold finish; split <;> (try split) <;> simp
@[simp] theorem finish_tiers (i : Nat) (st : Status) (d : Nat) (p : Bytes) (s : State) : (finish i st d p s).tiers = s.tiers := by
  unfold finish; split <;> (try split) <;> simp
@[simp] theorem finish_twin (i : Nat) (st : Status) (d : Nat) (p : Bytes) (s : State) : (finish i st d p s).twin = s.twin := by
  unfold finish; split <;> (try split) <;> simp

@[simp] theorem finishO_pending (i : Option Nat) (st : Status) (s : State) : (finish? i st s).pending = s.pending := by
  cases i <;> simp [finish?]
@[simp] theorem finishO_t (i : Option Nat) (st : Status) (s : State) : (finish? i st s).t = s.t := by
  cases i <;> simp [finish?]
@[simp] theorem finishO_power (i : Option Nat) (st : Status) (s : State) : (finish? i st s).power = s.power := by
  cases i <;> simp [finish?]
@[simp] theorem finishO_flash (i : Option Nat) (st : Status) (s : State) : (finish? i st s).flash = s.flash := by
  cases i <;> simp [finish?]
@[simp] theorem finishO_ten (i : Option Nat) (st : Status) (s : State) : (finish? i st s).ten = s.ten := by
  cases i <;> simp [finish?]
@[simp] theorem finishO_maps (i : Option Nat) (st : Status) (s : State) : (finish? i st s).maps = s.maps := by
  cases i <;> simp [finish?]
@[simp] theorem finishO_mem (i : Option Nat) (st : Status) (s : State) : (finish? i st s).mem = s.mem := by
  cases i <;> simp [finish?]
@[simp] theorem finishO_dir (i : Option Nat) (st : Status) (s : State) : (finish? i st s).dir = s.dir := by
  cases i <;> simp [finish?]
@[simp] theorem finishO_chans (i : Option Nat) (st : Status) (s : State) : (finish? i st s).chans = s.chans := by
  cases i <;> simp [finish?]
@[simp] theorem finishO_sax (i : Option Nat) (st : Status) (s : State) : (finish? i st s).sax = s.sax := by
  cases i <;> simp [finish?]
@[simp] theorem finishO_trays (i : Option Nat) (st : Status) (s : State) : (finish? i st s).trays = s.trays := by
  cases i <;> simp [finish?]
@[simp] theorem finishO_ember (i : Option Nat) (st : Status) (s : State) : (finish? i st s).ember = s.ember := by
  cases i <;> simp [finish?]
@[simp] theorem finishO_cal (i : Option Nat) (st : Status) (s : State) : (finish? i st s).cal = s.cal := by
  cases i <;> simp [finish?]
@[simp] theorem finishO_tables (i : Option Nat) (st : Status) (s : State) : (finish? i st s).tables = s.tables := by
  cases i <;> simp [finish?]
@[simp] theorem finishO_moves (i : Option Nat) (st : Status) (s : State) : (finish? i st s).moves = s.moves := by
  cases i <;> simp [finish?]
@[simp] theorem finishO_loadTick (i : Option Nat) (st : Status) (s : State) : (finish? i st s).loadTick = s.loadTick := by
  cases i <;> simp [finish?]
@[simp] theorem finishO_balTick (i : Option Nat) (st : Status) (s : State) : (finish? i st s).balTick = s.balTick := by
  cases i <;> simp [finish?]
@[simp] theorem finishO_chains (i : Option Nat) (st : Status) (s : State) : (finish? i st s).chains = s.chains := by
  cases i <;> simp [finish?]
@[simp] theorem finishO_groups (i : Option Nat) (st : Status) (s : State) : (finish? i st s).groups = s.groups := by
  cases i <;> simp [finish?]
@[simp] theorem finishO_tiers (i : Option Nat) (st : Status) (s : State) : (finish? i st s).tiers = s.tiers := by
  cases i <;> simp [finish?]
@[simp] theorem finishO_twin (i : Option Nat) (st : Status) (s : State) : (finish? i st s).twin = s.twin := by
  cases i <;> simp [finish?]

@[simp] theorem police_pending (p e r : Nat) (b : Bool) (s : State) : ((police p e r b s).2.2).pending = s.pending := by
  simp [police, modD]
@[simp] theorem police_t (p e r : Nat) (b : Bool) (s : State) : ((police p e r b s).2.2).t = s.t := by
  simp [police, modD]
@[simp] theorem police_power (p e r : Nat) (b : Bool) (s : State) : ((police p e r b s).2.2).power = s.power := by
  simp [police, modD]
@[simp] theorem police_flash (p e r : Nat) (b : Bool) (s : State) : ((police p e r b s).2.2).flash = s.flash := by
  simp [police, modD]
@[simp] theorem police_ten (p e r : Nat) (b : Bool) (s : State) : ((police p e r b s).2.2).ten = s.ten := by
  simp [police, modD]
@[simp] theorem police_maps (p e r : Nat) (b : Bool) (s : State) : ((police p e r b s).2.2).maps = s.maps := by
  simp [police, modD]
@[simp] theorem police_mem (p e r : Nat) (b : Bool) (s : State) : ((police p e r b s).2.2).mem = s.mem := by
  simp [police, modD]
@[simp] theorem police_dir (p e r : Nat) (b : Bool) (s : State) : ((police p e r b s).2.2).dir = s.dir := by
  simp [police, modD]
@[simp] theorem police_chans (p e r : Nat) (b : Bool) (s : State) : ((police p e r b s).2.2).chans = s.chans := by
  simp [police, modD]
@[simp] theorem police_sax (p e r : Nat) (b : Bool) (s : State) : ((police p e r b s).2.2).sax = s.sax := by
  simp [police, modD]
@[simp] theorem police_trays (p e r : Nat) (b : Bool) (s : State) : ((police p e r b s).2.2).trays = s.trays := by
  simp [police, modD]
@[simp] theorem police_dtray (p e r : Nat) (b : Bool) (s : State) : ((police p e r b s).2.2).dtray = s.dtray := by
  simp [police, modD]
@[simp] theorem police_ember (p e r : Nat) (b : Bool) (s : State) : ((police p e r b s).2.2).ember = s.ember := by
  simp [police, modD]
@[simp] theorem police_cal (p e r : Nat) (b : Bool) (s : State) : ((police p e r b s).2.2).cal = s.cal := by
  simp [police, modD]
@[simp] theorem police_tables (p e r : Nat) (b : Bool) (s : State) : ((police p e r b s).2.2).tables = s.tables := by
  simp [police, modD]
@[simp] theorem police_moves (p e r : Nat) (b : Bool) (s : State) : ((police p e r b s).2.2).moves = s.moves := by
  simp [police, modD]
@[simp] theorem police_loadTick (p e r : Nat) (b : Bool) (s : State) : ((police p e r b s).2.2).loadTick = s.loadTick := by
  simp [police, modD]
@[simp] theorem police_balTick (p e r : Nat) (b : Bool) (s : State) : ((police p e r b s).2.2).balTick = s.balTick := by
  simp [police, modD]
@[simp] theorem police_chains (p e r : Nat) (b : Bool) (s : State) : ((police p e r b s).2.2).chains = s.chains := by
  simp [police, modD]
@[simp] theorem police_groups (p e r : Nat) (b : Bool) (s : State) : ((police p e r b s).2.2).groups = s.groups := by
  simp [police, modD]
@[simp] theorem police_tiers (p e r : Nat) (b : Bool) (s : State) : ((police p e r b s).2.2).tiers = s.tiers := by
  simp [police, modD]
@[simp] theorem police_twin (p e r : Nat) (b : Bool) (s : State) : ((police p e r b s).2.2).twin = s.twin := by
  simp [police, modD]

@[simp] theorem mirrorFrame_pending (v x n : Nat) (s : State) : (mirrorFrame v x n s).pending = s.pending := by
  simp [mirrorFrame]
@[simp] theorem mirrorFrame_t (v x n : Nat) (s : State) : (mirrorFrame v x n s).t = s.t := by
  simp [mirrorFrame]
@[simp] theorem mirrorFrame_mantel (v x n : Nat) (s : State) : (mirrorFrame v x n s).mantel = s.mantel := by
  simp [mirrorFrame]
@[simp] theorem mirrorFrame_power (v x n : Nat) (s : State) : (mirrorFrame v x n s).power = s.power := by
  simp [mirrorFrame]
@[simp] theorem mirrorFrame_flash (v x n : Nat) (s : State) : (mirrorFrame v x n s).flash = s.flash := by
  simp [mirrorFrame]
@[simp] theorem mirrorFrame_ten (v x n : Nat) (s : State) : (mirrorFrame v x n s).ten = s.ten := by
  simp [mirrorFrame]
@[simp] theorem mirrorFrame_maps (v x n : Nat) (s : State) : (mirrorFrame v x n s).maps = s.maps := by
  simp [mirrorFrame]
@[simp] theorem mirrorFrame_mem (v x n : Nat) (s : State) : (mirrorFrame v x n s).mem = s.mem := by
  simp [mirrorFrame]
@[simp] theorem mirrorFrame_dir (v x n : Nat) (s : State) : (mirrorFrame v x n s).dir = s.dir := by
  simp [mirrorFrame]
@[simp] theorem mirrorFrame_chans (v x n : Nat) (s : State) : (mirrorFrame v x n s).chans = s.chans := by
  simp [mirrorFrame]
@[simp] theorem mirrorFrame_sax (v x n : Nat) (s : State) : (mirrorFrame v x n s).sax = s.sax := by
  simp [mirrorFrame]
@[simp] theorem mirrorFrame_trays (v x n : Nat) (s : State) : (mirrorFrame v x n s).trays = s.trays := by
  simp [mirrorFrame]
@[simp] theorem mirrorFrame_ember (v x n : Nat) (s : State) : (mirrorFrame v x n s).ember = s.ember := by
  simp [mirrorFrame]
@[simp] theorem mirrorFrame_cal (v x n : Nat) (s : State) : (mirrorFrame v x n s).cal = s.cal := by
  simp [mirrorFrame]
@[simp] theorem mirrorFrame_tables (v x n : Nat) (s : State) : (mirrorFrame v x n s).tables = s.tables := by
  simp [mirrorFrame]
@[simp] theorem mirrorFrame_moves (v x n : Nat) (s : State) : (mirrorFrame v x n s).moves = s.moves := by
  simp [mirrorFrame]
@[simp] theorem mirrorFrame_loadTick (v x n : Nat) (s : State) : (mirrorFrame v x n s).loadTick = s.loadTick := by
  simp [mirrorFrame]
@[simp] theorem mirrorFrame_balTick (v x n : Nat) (s : State) : (mirrorFrame v x n s).balTick = s.balTick := by
  simp [mirrorFrame]
@[simp] theorem mirrorFrame_chains (v x n : Nat) (s : State) : (mirrorFrame v x n s).chains = s.chains := by
  simp [mirrorFrame]
@[simp] theorem mirrorFrame_groups (v x n : Nat) (s : State) : (mirrorFrame v x n s).groups = s.groups := by
  simp [mirrorFrame]
@[simp] theorem mirrorFrame_tiers (v x n : Nat) (s : State) : (mirrorFrame v x n s).tiers = s.tiers := by
  simp [mirrorFrame]
@[simp] theorem mirrorFrame_twin (v x n : Nat) (s : State) : (mirrorFrame v x n s).twin = s.twin := by
  simp [mirrorFrame]

@[simp] theorem mirrorOut_pending (o : Nat) (d : Bytes) (s : State) : (mirrorOut o d s).pending = s.pending := by
  simp [mirrorOut]
@[simp] theorem mirrorOut_t (o : Nat) (d : Bytes) (s : State) : (mirrorOut o d s).t = s.t := by
  simp [mirrorOut]
@[simp] theorem mirrorOut_mantel (o : Nat) (d : Bytes) (s : State) : (mirrorOut o d s).mantel = s.mantel := by
  simp [mirrorOut]
@[simp] theorem mirrorOut_power (o : Nat) (d : Bytes) (s : State) : (mirrorOut o d s).power = s.power := by
  simp [mirrorOut]
@[simp] theorem mirrorOut_flash (o : Nat) (d : Bytes) (s : State) : (mirrorOut o d s).flash = s.flash := by
  simp [mirrorOut]
@[simp] theorem mirrorOut_ten (o : Nat) (d : Bytes) (s : State) : (mirrorOut o d s).ten = s.ten := by
  simp [mirrorOut]
@[simp] theorem mirrorOut_maps (o : Nat) (d : Bytes) (s : State) : (mirrorOut o d s).maps = s.maps := by
  simp [mirrorOut]
@[simp] theorem mirrorOut_mem (o : Nat) (d : Bytes) (s : State) : (mirrorOut o d s).mem = s.mem := by
  simp [mirrorOut]
@[simp] theorem mirrorOut_dir (o : Nat) (d : Bytes) (s : State) : (mirrorOut o d s).dir = s.dir := by
  simp [mirrorOut]
@[simp] theorem mirrorOut_chans (o : Nat) (d : Bytes) (s : State) : (mirrorOut o d s).chans = s.chans := by
  simp [mirrorOut]
@[simp] theorem mirrorOut_sax (o : Nat) (d : Bytes) (s : State) : (mirrorOut o d s).sax = s.sax := by
  simp [mirrorOut]
@[simp] theorem mirrorOut_trays (o : Nat) (d : Bytes) (s : State) : (mirrorOut o d s).trays = s.trays := by
  simp [mirrorOut]
@[simp] theorem mirrorOut_ember (o : Nat) (d : Bytes) (s : State) : (mirrorOut o d s).ember = s.ember := by
  simp [mirrorOut]
@[simp] theorem mirrorOut_cal (o : Nat) (d : Bytes) (s : State) : (mirrorOut o d s).cal = s.cal := by
  simp [mirrorOut]
@[simp] theorem mirrorOut_tables (o : Nat) (d : Bytes) (s : State) : (mirrorOut o d s).tables = s.tables := by
  simp [mirrorOut]
@[simp] theorem mirrorOut_moves (o : Nat) (d : Bytes) (s : State) : (mirrorOut o d s).moves = s.moves := by
  simp [mirrorOut]
@[simp] theorem mirrorOut_loadTick (o : Nat) (d : Bytes) (s : State) : (mirrorOut o d s).loadTick = s.loadTick := by
  simp [mirrorOut]
@[simp] theorem mirrorOut_balTick (o : Nat) (d : Bytes) (s : State) : (mirrorOut o d s).balTick = s.balTick := by
  simp [mirrorOut]
@[simp] theorem mirrorOut_chains (o : Nat) (d : Bytes) (s : State) : (mirrorOut o d s).chains = s.chains := by
  simp [mirrorOut]
@[simp] theorem mirrorOut_groups (o : Nat) (d : Bytes) (s : State) : (mirrorOut o d s).groups = s.groups := by
  simp [mirrorOut]
@[simp] theorem mirrorOut_tiers (o : Nat) (d : Bytes) (s : State) : (mirrorOut o d s).tiers = s.tiers := by
  simp [mirrorOut]

@[simp] theorem mirrorSend_pending (p : Nat) (m : MirrorMsg) (s : State) : (mirrorSend p m s).pending = s.pending := by
  simp [mirrorSend]
@[simp] theorem mirrorSend_t (p : Nat) (m : MirrorMsg) (s : State) : (mirrorSend p m s).t = s.t := by
  simp [mirrorSend]
@[simp] theorem mirrorSend_mantel (p : Nat) (m : MirrorMsg) (s : State) : (mirrorSend p m s).mantel = s.mantel := by
  simp [mirrorSend]
@[simp] theorem mirrorSend_power (p : Nat) (m : MirrorMsg) (s : State) : (mirrorSend p m s).power = s.power := by
  simp [mirrorSend]
@[simp] theorem mirrorSend_flash (p : Nat) (m : MirrorMsg) (s : State) : (mirrorSend p m s).flash = s.flash := by
  simp [mirrorSend]
@[simp] theorem mirrorSend_ten (p : Nat) (m : MirrorMsg) (s : State) : (mirrorSend p m s).ten = s.ten := by
  simp [mirrorSend]
@[simp] theorem mirrorSend_maps (p : Nat) (m : MirrorMsg) (s : State) : (mirrorSend p m s).maps = s.maps := by
  simp [mirrorSend]
@[simp] theorem mirrorSend_mem (p : Nat) (m : MirrorMsg) (s : State) : (mirrorSend p m s).mem = s.mem := by
  simp [mirrorSend]
@[simp] theorem mirrorSend_dir (p : Nat) (m : MirrorMsg) (s : State) : (mirrorSend p m s).dir = s.dir := by
  simp [mirrorSend]
@[simp] theorem mirrorSend_chans (p : Nat) (m : MirrorMsg) (s : State) : (mirrorSend p m s).chans = s.chans := by
  simp [mirrorSend]
@[simp] theorem mirrorSend_sax (p : Nat) (m : MirrorMsg) (s : State) : (mirrorSend p m s).sax = s.sax := by
  simp [mirrorSend]
@[simp] theorem mirrorSend_trays (p : Nat) (m : MirrorMsg) (s : State) : (mirrorSend p m s).trays = s.trays := by
  simp [mirrorSend]
@[simp] theorem mirrorSend_ember (p : Nat) (m : MirrorMsg) (s : State) : (mirrorSend p m s).ember = s.ember := by
  simp [mirrorSend]
@[simp] theorem mirrorSend_cal (p : Nat) (m : MirrorMsg) (s : State) : (mirrorSend p m s).cal = s.cal := by
  simp [mirrorSend]
@[simp] theorem mirrorSend_tables (p : Nat) (m : MirrorMsg) (s : State) : (mirrorSend p m s).tables = s.tables := by
  simp [mirrorSend]
@[simp] theorem mirrorSend_moves (p : Nat) (m : MirrorMsg) (s : State) : (mirrorSend p m s).moves = s.moves := by
  simp [mirrorSend]
@[simp] theorem mirrorSend_loadTick (p : Nat) (m : MirrorMsg) (s : State) : (mirrorSend p m s).loadTick = s.loadTick := by
  simp [mirrorSend]
@[simp] theorem mirrorSend_balTick (p : Nat) (m : MirrorMsg) (s : State) : (mirrorSend p m s).balTick = s.balTick := by
  simp [mirrorSend]
@[simp] theorem mirrorSend_chains (p : Nat) (m : MirrorMsg) (s : State) : (mirrorSend p m s).chains = s.chains := by
  simp [mirrorSend]
@[simp] theorem mirrorSend_groups (p : Nat) (m : MirrorMsg) (s : State) : (mirrorSend p m s).groups = s.groups := by
  simp [mirrorSend]
@[simp] theorem mirrorSend_tiers (p : Nat) (m : MirrorMsg) (s : State) : (mirrorSend p m s).tiers = s.tiers := by
  simp [mirrorSend]

@[simp] theorem mirrorState_pending (p : Nat) (m : MirrorMsg) (s : State) : (mirrorState p m s).pending = s.pending := by
  unfold mirrorState; split <;> simp
@[simp] theorem mirrorState_t (p : Nat) (m : MirrorMsg) (s : State) : (mirrorState p m s).t = s.t := by
  unfold mirrorState; split <;> simp
@[simp] theorem mirrorState_mantel (p : Nat) (m : MirrorMsg) (s : State) : (mirrorState p m s).mantel = s.mantel := by
  unfold mirrorState; split <;> simp
@[simp] theorem mirrorState_power (p : Nat) (m : MirrorMsg) (s : State) : (mirrorState p m s).power = s.power := by
  unfold mirrorState; split <;> simp
@[simp] theorem mirrorState_flash (p : Nat) (m : MirrorMsg) (s : State) : (mirrorState p m s).flash = s.flash := by
  unfold mirrorState; split <;> simp
@[simp] theorem mirrorState_ten (p : Nat) (m : MirrorMsg) (s : State) : (mirrorState p m s).ten = s.ten := by
  unfold mirrorState; split <;> simp
@[simp] theorem mirrorState_maps (p : Nat) (m : MirrorMsg) (s : State) : (mirrorState p m s).maps = s.maps := by
  unfold mirrorState; split <;> simp
@[simp] theorem mirrorState_mem (p : Nat) (m : MirrorMsg) (s : State) : (mirrorState p m s).mem = s.mem := by
  unfold mirrorState; split <;> simp
@[simp] theorem mirrorState_dir (p : Nat) (m : MirrorMsg) (s : State) : (mirrorState p m s).dir = s.dir := by
  unfold mirrorState; split <;> simp
@[simp] theorem mirrorState_chans (p : Nat) (m : MirrorMsg) (s : State) : (mirrorState p m s).chans = s.chans := by
  unfold mirrorState; split <;> simp
@[simp] theorem mirrorState_sax (p : Nat) (m : MirrorMsg) (s : State) : (mirrorState p m s).sax = s.sax := by
  unfold mirrorState; split <;> simp
@[simp] theorem mirrorState_trays (p : Nat) (m : MirrorMsg) (s : State) : (mirrorState p m s).trays = s.trays := by
  unfold mirrorState; split <;> simp
@[simp] theorem mirrorState_ember (p : Nat) (m : MirrorMsg) (s : State) : (mirrorState p m s).ember = s.ember := by
  unfold mirrorState; split <;> simp
@[simp] theorem mirrorState_cal (p : Nat) (m : MirrorMsg) (s : State) : (mirrorState p m s).cal = s.cal := by
  unfold mirrorState; split <;> simp
@[simp] theorem mirrorState_tables (p : Nat) (m : MirrorMsg) (s : State) : (mirrorState p m s).tables = s.tables := by
  unfold mirrorState; split <;> simp
@[simp] theorem mirrorState_moves (p : Nat) (m : MirrorMsg) (s : State) : (mirrorState p m s).moves = s.moves := by
  unfold mirrorState; split <;> simp
@[simp] theorem mirrorState_loadTick (p : Nat) (m : MirrorMsg) (s : State) : (mirrorState p m s).loadTick = s.loadTick := by
  unfold mirrorState; split <;> simp
@[simp] theorem mirrorState_balTick (p : Nat) (m : MirrorMsg) (s : State) : (mirrorState p m s).balTick = s.balTick := by
  unfold mirrorState; split <;> simp
@[simp] theorem mirrorState_chains (p : Nat) (m : MirrorMsg) (s : State) : (mirrorState p m s).chains = s.chains := by
  unfold mirrorState; split <;> simp
@[simp] theorem mirrorState_groups (p : Nat) (m : MirrorMsg) (s : State) : (mirrorState p m s).groups = s.groups := by
  unfold mirrorState; split <;> simp
@[simp] theorem mirrorState_tiers (p : Nat) (m : MirrorMsg) (s : State) : (mirrorState p m s).tiers = s.tiers := by
  unfold mirrorState; split <;> simp

@[simp] theorem dropCached_pending (o n : Nat) (s : State) : (dropCached o n s).pending = s.pending := by
  rfl
@[simp] theorem dropCached_t (o n : Nat) (s : State) : (dropCached o n s).t = s.t := by
  rfl
@[simp] theorem dropCached_mantel (o n : Nat) (s : State) : (dropCached o n s).mantel = s.mantel := by
  rfl
@[simp] theorem dropCached_power (o n : Nat) (s : State) : (dropCached o n s).power = s.power := by
  rfl
@[simp] theorem dropCached_flash (o n : Nat) (s : State) : (dropCached o n s).flash = s.flash := by
  rfl
@[simp] theorem dropCached_ten (o n : Nat) (s : State) : (dropCached o n s).ten = s.ten := by
  rfl
@[simp] theorem dropCached_maps (o n : Nat) (s : State) : (dropCached o n s).maps = s.maps := by
  rfl
@[simp] theorem dropCached_mem (o n : Nat) (s : State) : (dropCached o n s).mem = s.mem := by
  rfl
@[simp] theorem dropCached_dir (o n : Nat) (s : State) : (dropCached o n s).dir = s.dir := by
  rfl
@[simp] theorem dropCached_chans (o n : Nat) (s : State) : (dropCached o n s).chans = s.chans := by
  rfl
@[simp] theorem dropCached_sax (o n : Nat) (s : State) : (dropCached o n s).sax = s.sax := by
  rfl
@[simp] theorem dropCached_trays (o n : Nat) (s : State) : (dropCached o n s).trays = s.trays := by
  rfl
@[simp] theorem dropCached_dsax (o n : Nat) (s : State) : (dropCached o n s).dsax = s.dsax := by
  rfl
@[simp] theorem dropCached_dtray (o n : Nat) (s : State) : (dropCached o n s).dtray = s.dtray := by
  rfl
@[simp] theorem dropCached_ember (o n : Nat) (s : State) : (dropCached o n s).ember = s.ember := by
  rfl
@[simp] theorem dropCached_cal (o n : Nat) (s : State) : (dropCached o n s).cal = s.cal := by
  rfl
@[simp] theorem dropCached_moves (o n : Nat) (s : State) : (dropCached o n s).moves = s.moves := by
  rfl
@[simp] theorem dropCached_loadTick (o n : Nat) (s : State) : (dropCached o n s).loadTick = s.loadTick := by
  rfl
@[simp] theorem dropCached_balTick (o n : Nat) (s : State) : (dropCached o n s).balTick = s.balTick := by
  rfl
@[simp] theorem dropCached_chains (o n : Nat) (s : State) : (dropCached o n s).chains = s.chains := by
  rfl
@[simp] theorem dropCached_groups (o n : Nat) (s : State) : (dropCached o n s).groups = s.groups := by
  rfl
@[simp] theorem dropCached_tiers (o n : Nat) (s : State) : (dropCached o n s).tiers = s.tiers := by
  rfl
@[simp] theorem dropCached_twin (o n : Nat) (s : State) : (dropCached o n s).twin = s.twin := by
  rfl

@[simp] theorem healOn_pending (e : Extent) (o n : Nat) (s : State) : (healOn e o n s).pending = s.pending := by
  unfold healOn; dsimp only
  split
  · split <;> rfl
  · refine (foldl_keep State.pending _ (fun s x => ?_) _ _).trans ?_ <;> split <;> rfl
@[simp] theorem healOn_t (e : Extent) (o n : Nat) (s : State) : (healOn e o n s).t = s.t := by
  unfold healOn; dsimp only
  split
  · split <;> rfl
  · refine (foldl_keep State.t _ (fun s x => ?_) _ _).trans ?_ <;> split <;> rfl
@[simp] theorem healOn_mantel (e : Extent) (o n : Nat) (s : State) : (healOn e o n s).mantel = s.mantel := by
  unfold healOn; dsimp only
  split
  · split <;> rfl
  · refine (foldl_keep State.mantel _ (fun s x => ?_) _ _).trans ?_ <;> split <;> rfl
@[simp] theorem healOn_power (e : Extent) (o n : Nat) (s : State) : (healOn e o n s).power = s.power := by
  unfold healOn; dsimp only
  split
  · split <;> rfl
  · refine (foldl_keep State.power _ (fun s x => ?_) _ _).trans ?_ <;> split <;> rfl
@[simp] theorem healOn_flash (e : Extent) (o n : Nat) (s : State) : (healOn e o n s).flash = s.flash := by
  unfold healOn; dsimp only
  split
  · split <;> rfl
  · refine (foldl_keep State.flash _ (fun s x => ?_) _ _).trans ?_ <;> split <;> rfl
@[simp] theorem healOn_ten (e : Extent) (o n : Nat) (s : State) : (healOn e o n s).ten = s.ten := by
  unfold healOn; dsimp only
  split
  · split <;> rfl
  · refine (foldl_keep State.ten _ (fun s x => ?_) _ _).trans ?_ <;> split <;> rfl
@[simp] theorem healOn_maps (e : Extent) (o n : Nat) (s : State) : (healOn e o n s).maps = s.maps := by
  unfold healOn; dsimp only
  split
  · split <;> rfl
  · refine (foldl_keep State.maps _ (fun s x => ?_) _ _).trans ?_ <;> split <;> rfl
@[simp] theorem healOn_dir (e : Extent) (o n : Nat) (s : State) : (healOn e o n s).dir = s.dir := by
  unfold healOn; dsimp only
  split
  · split <;> rfl
  · refine (foldl_keep State.dir _ (fun s x => ?_) _ _).trans ?_ <;> split <;> rfl
@[simp] theorem healOn_sax (e : Extent) (o n : Nat) (s : State) : (healOn e o n s).sax = s.sax := by
  unfold healOn; dsimp only
  split
  · split <;> rfl
  · refine (foldl_keep State.sax _ (fun s x => ?_) _ _).trans ?_ <;> split <;> rfl
@[simp] theorem healOn_trays (e : Extent) (o n : Nat) (s : State) : (healOn e o n s).trays = s.trays := by
  unfold healOn; dsimp only
  split
  · split <;> rfl
  · refine (foldl_keep State.trays _ (fun s x => ?_) _ _).trans ?_ <;> split <;> rfl
@[simp] theorem healOn_dsax (e : Extent) (o n : Nat) (s : State) : (healOn e o n s).dsax = s.dsax := by
  unfold healOn; dsimp only
  split
  · split <;> rfl
  · refine (foldl_keep State.dsax _ (fun s x => ?_) _ _).trans ?_ <;> split <;> rfl
@[simp] theorem healOn_dtray (e : Extent) (o n : Nat) (s : State) : (healOn e o n s).dtray = s.dtray := by
  unfold healOn; dsimp only
  split
  · split <;> rfl
  · refine (foldl_keep State.dtray _ (fun s x => ?_) _ _).trans ?_ <;> split <;> rfl
@[simp] theorem healOn_ember (e : Extent) (o n : Nat) (s : State) : (healOn e o n s).ember = s.ember := by
  unfold healOn; dsimp only
  split
  · split <;> rfl
  · refine (foldl_keep State.ember _ (fun s x => ?_) _ _).trans ?_ <;> split <;> rfl
@[simp] theorem healOn_cal (e : Extent) (o n : Nat) (s : State) : (healOn e o n s).cal = s.cal := by
  unfold healOn; dsimp only
  split
  · split <;> rfl
  · refine (foldl_keep State.cal _ (fun s x => ?_) _ _).trans ?_ <;> split <;> rfl
@[simp] theorem healOn_tables (e : Extent) (o n : Nat) (s : State) : (healOn e o n s).tables = s.tables := by
  unfold healOn; dsimp only
  split
  · split <;> rfl
  · refine (foldl_keep State.tables _ (fun s x => ?_) _ _).trans ?_ <;> split <;> rfl
@[simp] theorem healOn_moves (e : Extent) (o n : Nat) (s : State) : (healOn e o n s).moves = s.moves := by
  unfold healOn; dsimp only
  split
  · split <;> rfl
  · refine (foldl_keep State.moves _ (fun s x => ?_) _ _).trans ?_ <;> split <;> rfl
@[simp] theorem healOn_loadTick (e : Extent) (o n : Nat) (s : State) : (healOn e o n s).loadTick = s.loadTick := by
  unfold healOn; dsimp only
  split
  · split <;> rfl
  · refine (foldl_keep State.loadTick _ (fun s x => ?_) _ _).trans ?_ <;> split <;> rfl
@[simp] theorem healOn_balTick (e : Extent) (o n : Nat) (s : State) : (healOn e o n s).balTick = s.balTick := by
  unfold healOn; dsimp only
  split
  · split <;> rfl
  · refine (foldl_keep State.balTick _ (fun s x => ?_) _ _).trans ?_ <;> split <;> rfl
@[simp] theorem healOn_chains (e : Extent) (o n : Nat) (s : State) : (healOn e o n s).chains = s.chains := by
  unfold healOn; dsimp only
  split
  · split <;> rfl
  · refine (foldl_keep State.chains _ (fun s x => ?_) _ _).trans ?_ <;> split <;> rfl
@[simp] theorem healOn_groups (e : Extent) (o n : Nat) (s : State) : (healOn e o n s).groups = s.groups := by
  unfold healOn; dsimp only
  split
  · split <;> rfl
  · refine (foldl_keep State.groups _ (fun s x => ?_) _ _).trans ?_ <;> split <;> rfl
@[simp] theorem healOn_tiers (e : Extent) (o n : Nat) (s : State) : (healOn e o n s).tiers = s.tiers := by
  unfold healOn; dsimp only
  split
  · split <;> rfl
  · refine (foldl_keep State.tiers _ (fun s x => ?_) _ _).trans ?_ <;> split <;> rfl
@[simp] theorem healOn_twin (e : Extent) (o n : Nat) (s : State) : (healOn e o n s).twin = s.twin := by
  unfold healOn; dsimp only
  split
  · split <;> rfl
  · refine (foldl_keep State.twin _ (fun s x => ?_) _ _).trans ?_ <;> split <;> rfl

@[simp] theorem healRun_pending (o n : Nat) (s : State) : (healRun o n s).pending = s.pending := by
  unfold healRun; cases anyExtent s o <;> simp
@[simp] theorem healRun_t (o n : Nat) (s : State) : (healRun o n s).t = s.t := by
  unfold healRun; cases anyExtent s o <;> simp
@[simp] theorem healRun_mantel (o n : Nat) (s : State) : (healRun o n s).mantel = s.mantel := by
  unfold healRun; cases anyExtent s o <;> simp
@[simp] theorem healRun_power (o n : Nat) (s : State) : (healRun o n s).power = s.power := by
  unfold healRun; cases anyExtent s o <;> simp
@[simp] theorem healRun_flash (o n : Nat) (s : State) : (healRun o n s).flash = s.flash := by
  unfold healRun; cases anyExtent s o <;> simp
@[simp] theorem healRun_ten (o n : Nat) (s : State) : (healRun o n s).ten = s.ten := by
  unfold healRun; cases anyExtent s o <;> simp
@[simp] theorem healRun_maps (o n : Nat) (s : State) : (healRun o n s).maps = s.maps := by
  unfold healRun; cases anyExtent s o <;> simp
@[simp] theorem healRun_dir (o n : Nat) (s : State) : (healRun o n s).dir = s.dir := by
  unfold healRun; cases anyExtent s o <;> simp
@[simp] theorem healRun_sax (o n : Nat) (s : State) : (healRun o n s).sax = s.sax := by
  unfold healRun; cases anyExtent s o <;> simp
@[simp] theorem healRun_trays (o n : Nat) (s : State) : (healRun o n s).trays = s.trays := by
  unfold healRun; cases anyExtent s o <;> simp
@[simp] theorem healRun_dsax (o n : Nat) (s : State) : (healRun o n s).dsax = s.dsax := by
  unfold healRun; cases anyExtent s o <;> simp
@[simp] theorem healRun_dtray (o n : Nat) (s : State) : (healRun o n s).dtray = s.dtray := by
  unfold healRun; cases anyExtent s o <;> simp
@[simp] theorem healRun_ember (o n : Nat) (s : State) : (healRun o n s).ember = s.ember := by
  unfold healRun; cases anyExtent s o <;> simp
@[simp] theorem healRun_cal (o n : Nat) (s : State) : (healRun o n s).cal = s.cal := by
  unfold healRun; cases anyExtent s o <;> simp
@[simp] theorem healRun_tables (o n : Nat) (s : State) : (healRun o n s).tables = s.tables := by
  unfold healRun; cases anyExtent s o <;> simp
@[simp] theorem healRun_moves (o n : Nat) (s : State) : (healRun o n s).moves = s.moves := by
  unfold healRun; cases anyExtent s o <;> simp
@[simp] theorem healRun_loadTick (o n : Nat) (s : State) : (healRun o n s).loadTick = s.loadTick := by
  unfold healRun; cases anyExtent s o <;> simp
@[simp] theorem healRun_balTick (o n : Nat) (s : State) : (healRun o n s).balTick = s.balTick := by
  unfold healRun; cases anyExtent s o <;> simp
@[simp] theorem healRun_chains (o n : Nat) (s : State) : (healRun o n s).chains = s.chains := by
  unfold healRun; cases anyExtent s o <;> simp
@[simp] theorem healRun_groups (o n : Nat) (s : State) : (healRun o n s).groups = s.groups := by
  unfold healRun; cases anyExtent s o <;> simp
@[simp] theorem healRun_tiers (o n : Nat) (s : State) : (healRun o n s).tiers = s.tiers := by
  unfold healRun; cases anyExtent s o <;> simp
@[simp] theorem healRun_twin (o n : Nat) (s : State) : (healRun o n s).twin = s.twin := by
  unfold healRun; cases anyExtent s o <;> simp

@[simp] theorem zeroPieces_pending (n : Nat) (q : Nat → Bool) (s : State) : (zeroPieces n q s).pending = s.pending := by
  unfold zeroPieces; dsimp only; split; · rfl
  refine (foldl_keep State.pending _ (fun s x => ?_) _ _).trans rfl; split <;> rfl
@[simp] theorem zeroPieces_t (n : Nat) (q : Nat → Bool) (s : State) : (zeroPieces n q s).t = s.t := by
  unfold zeroPieces; dsimp only; split; · rfl
  refine (foldl_keep State.t _ (fun s x => ?_) _ _).trans rfl; split <;> rfl
@[simp] theorem zeroPieces_mantel (n : Nat) (q : Nat → Bool) (s : State) : (zeroPieces n q s).mantel = s.mantel := by
  unfold zeroPieces; dsimp only; split; · rfl
  refine (foldl_keep State.mantel _ (fun s x => ?_) _ _).trans rfl; split <;> rfl
@[simp] theorem zeroPieces_power (n : Nat) (q : Nat → Bool) (s : State) : (zeroPieces n q s).power = s.power := by
  unfold zeroPieces; dsimp only; split; · rfl
  refine (foldl_keep State.power _ (fun s x => ?_) _ _).trans rfl; split <;> rfl
@[simp] theorem zeroPieces_flash (n : Nat) (q : Nat → Bool) (s : State) : (zeroPieces n q s).flash = s.flash := by
  unfold zeroPieces; dsimp only; split; · rfl
  refine (foldl_keep State.flash _ (fun s x => ?_) _ _).trans rfl; split <;> rfl
@[simp] theorem zeroPieces_maps (n : Nat) (q : Nat → Bool) (s : State) : (zeroPieces n q s).maps = s.maps := by
  unfold zeroPieces; dsimp only; split; · rfl
  refine (foldl_keep State.maps _ (fun s x => ?_) _ _).trans rfl; split <;> rfl
@[simp] theorem zeroPieces_dir (n : Nat) (q : Nat → Bool) (s : State) : (zeroPieces n q s).dir = s.dir := by
  unfold zeroPieces; dsimp only; split; · rfl
  refine (foldl_keep State.dir _ (fun s x => ?_) _ _).trans rfl; split <;> rfl
@[simp] theorem zeroPieces_sax (n : Nat) (q : Nat → Bool) (s : State) : (zeroPieces n q s).sax = s.sax := by
  unfold zeroPieces; dsimp only; split; · rfl
  refine (foldl_keep State.sax _ (fun s x => ?_) _ _).trans rfl; split <;> rfl
@[simp] theorem zeroPieces_trays (n : Nat) (q : Nat → Bool) (s : State) : (zeroPieces n q s).trays = s.trays := by
  unfold zeroPieces; dsimp only; split; · rfl
  refine (foldl_keep State.trays _ (fun s x => ?_) _ _).trans rfl; split <;> rfl
@[simp] theorem zeroPieces_dsax (n : Nat) (q : Nat → Bool) (s : State) : (zeroPieces n q s).dsax = s.dsax := by
  unfold zeroPieces; dsimp only; split; · rfl
  refine (foldl_keep State.dsax _ (fun s x => ?_) _ _).trans rfl; split <;> rfl
@[simp] theorem zeroPieces_dtray (n : Nat) (q : Nat → Bool) (s : State) : (zeroPieces n q s).dtray = s.dtray := by
  unfold zeroPieces; dsimp only; split; · rfl
  refine (foldl_keep State.dtray _ (fun s x => ?_) _ _).trans rfl; split <;> rfl
@[simp] theorem zeroPieces_ember (n : Nat) (q : Nat → Bool) (s : State) : (zeroPieces n q s).ember = s.ember := by
  unfold zeroPieces; dsimp only; split; · rfl
  refine (foldl_keep State.ember _ (fun s x => ?_) _ _).trans rfl; split <;> rfl
@[simp] theorem zeroPieces_cal (n : Nat) (q : Nat → Bool) (s : State) : (zeroPieces n q s).cal = s.cal := by
  unfold zeroPieces; dsimp only; split; · rfl
  refine (foldl_keep State.cal _ (fun s x => ?_) _ _).trans rfl; split <;> rfl
@[simp] theorem zeroPieces_tables (n : Nat) (q : Nat → Bool) (s : State) : (zeroPieces n q s).tables = s.tables := by
  unfold zeroPieces; dsimp only; split; · rfl
  refine (foldl_keep State.tables _ (fun s x => ?_) _ _).trans rfl; split <;> rfl
@[simp] theorem zeroPieces_moves (n : Nat) (q : Nat → Bool) (s : State) : (zeroPieces n q s).moves = s.moves := by
  unfold zeroPieces; dsimp only; split; · rfl
  refine (foldl_keep State.moves _ (fun s x => ?_) _ _).trans rfl; split <;> rfl
@[simp] theorem zeroPieces_loadTick (n : Nat) (q : Nat → Bool) (s : State) : (zeroPieces n q s).loadTick = s.loadTick := by
  unfold zeroPieces; dsimp only; split; · rfl
  refine (foldl_keep State.loadTick _ (fun s x => ?_) _ _).trans rfl; split <;> rfl
@[simp] theorem zeroPieces_balTick (n : Nat) (q : Nat → Bool) (s : State) : (zeroPieces n q s).balTick = s.balTick := by
  unfold zeroPieces; dsimp only; split; · rfl
  refine (foldl_keep State.balTick _ (fun s x => ?_) _ _).trans rfl; split <;> rfl
@[simp] theorem zeroPieces_chains (n : Nat) (q : Nat → Bool) (s : State) : (zeroPieces n q s).chains = s.chains := by
  unfold zeroPieces; dsimp only; split; · rfl
  refine (foldl_keep State.chains _ (fun s x => ?_) _ _).trans rfl; split <;> rfl
@[simp] theorem zeroPieces_groups (n : Nat) (q : Nat → Bool) (s : State) : (zeroPieces n q s).groups = s.groups := by
  unfold zeroPieces; dsimp only; split; · rfl
  refine (foldl_keep State.groups _ (fun s x => ?_) _ _).trans rfl; split <;> rfl
@[simp] theorem zeroPieces_tiers (n : Nat) (q : Nat → Bool) (s : State) : (zeroPieces n q s).tiers = s.tiers := by
  unfold zeroPieces; dsimp only; split; · rfl
  refine (foldl_keep State.tiers _ (fun s x => ?_) _ _).trans rfl; split <;> rfl
@[simp] theorem zeroPieces_twin (n : Nat) (q : Nat → Bool) (s : State) : (zeroPieces n q s).twin = s.twin := by
  unfold zeroPieces; dsimp only; split; · rfl
  refine (foldl_keep State.twin _ (fun s x => ?_) _ _).trans rfl; split <;> rfl

@[simp] theorem zeroFirst_pending (e : Extent) (o : Nat) (s : State) : (zeroFirst e o s).pending = s.pending := by
  unfold zeroFirst; split <;> simp
@[simp] theorem zeroFirst_t (e : Extent) (o : Nat) (s : State) : (zeroFirst e o s).t = s.t := by
  unfold zeroFirst; split <;> simp
@[simp] theorem zeroFirst_mantel (e : Extent) (o : Nat) (s : State) : (zeroFirst e o s).mantel = s.mantel := by
  unfold zeroFirst; split <;> simp
@[simp] theorem zeroFirst_power (e : Extent) (o : Nat) (s : State) : (zeroFirst e o s).power = s.power := by
  unfold zeroFirst; split <;> simp
@[simp] theorem zeroFirst_flash (e : Extent) (o : Nat) (s : State) : (zeroFirst e o s).flash = s.flash := by
  unfold zeroFirst; split <;> simp
@[simp] theorem zeroFirst_maps (e : Extent) (o : Nat) (s : State) : (zeroFirst e o s).maps = s.maps := by
  unfold zeroFirst; split <;> simp
@[simp] theorem zeroFirst_dir (e : Extent) (o : Nat) (s : State) : (zeroFirst e o s).dir = s.dir := by
  unfold zeroFirst; split <;> simp
@[simp] theorem zeroFirst_sax (e : Extent) (o : Nat) (s : State) : (zeroFirst e o s).sax = s.sax := by
  unfold zeroFirst; split <;> simp
@[simp] theorem zeroFirst_trays (e : Extent) (o : Nat) (s : State) : (zeroFirst e o s).trays = s.trays := by
  unfold zeroFirst; split <;> simp
@[simp] theorem zeroFirst_dsax (e : Extent) (o : Nat) (s : State) : (zeroFirst e o s).dsax = s.dsax := by
  unfold zeroFirst; split <;> simp
@[simp] theorem zeroFirst_dtray (e : Extent) (o : Nat) (s : State) : (zeroFirst e o s).dtray = s.dtray := by
  unfold zeroFirst; split <;> simp
@[simp] theorem zeroFirst_ember (e : Extent) (o : Nat) (s : State) : (zeroFirst e o s).ember = s.ember := by
  unfold zeroFirst; split <;> simp
@[simp] theorem zeroFirst_cal (e : Extent) (o : Nat) (s : State) : (zeroFirst e o s).cal = s.cal := by
  unfold zeroFirst; split <;> simp
@[simp] theorem zeroFirst_tables (e : Extent) (o : Nat) (s : State) : (zeroFirst e o s).tables = s.tables := by
  unfold zeroFirst; split <;> simp
@[simp] theorem zeroFirst_moves (e : Extent) (o : Nat) (s : State) : (zeroFirst e o s).moves = s.moves := by
  unfold zeroFirst; split <;> simp
@[simp] theorem zeroFirst_loadTick (e : Extent) (o : Nat) (s : State) : (zeroFirst e o s).loadTick = s.loadTick := by
  unfold zeroFirst; split <;> simp
@[simp] theorem zeroFirst_balTick (e : Extent) (o : Nat) (s : State) : (zeroFirst e o s).balTick = s.balTick := by
  unfold zeroFirst; split <;> simp
@[simp] theorem zeroFirst_chains (e : Extent) (o : Nat) (s : State) : (zeroFirst e o s).chains = s.chains := by
  unfold zeroFirst; split <;> simp
@[simp] theorem zeroFirst_groups (e : Extent) (o : Nat) (s : State) : (zeroFirst e o s).groups = s.groups := by
  unfold zeroFirst; split <;> simp
@[simp] theorem zeroFirst_tiers (e : Extent) (o : Nat) (s : State) : (zeroFirst e o s).tiers = s.tiers := by
  unfold zeroFirst; split <;> simp
@[simp] theorem zeroFirst_twin (e : Extent) (o : Nat) (s : State) : (zeroFirst e o s).twin = s.twin := by
  unfold zeroFirst; split <;> simp

@[simp] theorem memClear_pending (e : Extent) (s : State) : (memClear e s).pending = s.pending := by
  simp [memClear]
@[simp] theorem memClear_t (e : Extent) (s : State) : (memClear e s).t = s.t := by
  simp [memClear]
@[simp] theorem memClear_mantel (e : Extent) (s : State) : (memClear e s).mantel = s.mantel := by
  simp [memClear]
@[simp] theorem memClear_power (e : Extent) (s : State) : (memClear e s).power = s.power := by
  simp [memClear]
@[simp] theorem memClear_flash (e : Extent) (s : State) : (memClear e s).flash = s.flash := by
  simp [memClear]
@[simp] theorem memClear_ten (e : Extent) (s : State) : (memClear e s).ten = s.ten := by
  simp [memClear]
@[simp] theorem memClear_maps (e : Extent) (s : State) : (memClear e s).maps = s.maps := by
  simp [memClear]
@[simp] theorem memClear_dir (e : Extent) (s : State) : (memClear e s).dir = s.dir := by
  simp [memClear]
@[simp] theorem memClear_sax (e : Extent) (s : State) : (memClear e s).sax = s.sax := by
  simp [memClear]
@[simp] theorem memClear_trays (e : Extent) (s : State) : (memClear e s).trays = s.trays := by
  simp [memClear]
@[simp] theorem memClear_dsax (e : Extent) (s : State) : (memClear e s).dsax = s.dsax := by
  simp [memClear]
@[simp] theorem memClear_dtray (e : Extent) (s : State) : (memClear e s).dtray = s.dtray := by
  simp [memClear]
@[simp] theorem memClear_ember (e : Extent) (s : State) : (memClear e s).ember = s.ember := by
  simp [memClear]
@[simp] theorem memClear_cal (e : Extent) (s : State) : (memClear e s).cal = s.cal := by
  simp [memClear]
@[simp] theorem memClear_moves (e : Extent) (s : State) : (memClear e s).moves = s.moves := by
  simp [memClear]
@[simp] theorem memClear_loadTick (e : Extent) (s : State) : (memClear e s).loadTick = s.loadTick := by
  simp [memClear]
@[simp] theorem memClear_balTick (e : Extent) (s : State) : (memClear e s).balTick = s.balTick := by
  simp [memClear]
@[simp] theorem memClear_chains (e : Extent) (s : State) : (memClear e s).chains = s.chains := by
  simp [memClear]
@[simp] theorem memClear_groups (e : Extent) (s : State) : (memClear e s).groups = s.groups := by
  simp [memClear]
@[simp] theorem memClear_tiers (e : Extent) (s : State) : (memClear e s).tiers = s.tiers := by
  simp [memClear]
@[simp] theorem memClear_twin (e : Extent) (s : State) : (memClear e s).twin = s.twin := by
  simp [memClear]

@[simp] theorem memWrite_pending (o : Nat) (d : Bytes) (s : State) : (memWrite o d s).pending = s.pending := by
  unfold memWrite; dsimp only; split <;> (try split) <;> (try split) <;> simp
@[simp] theorem memWrite_t (o : Nat) (d : Bytes) (s : State) : (memWrite o d s).t = s.t := by
  unfold memWrite; dsimp only; split <;> (try split) <;> (try split) <;> simp
@[simp] theorem memWrite_mantel (o : Nat) (d : Bytes) (s : State) : (memWrite o d s).mantel = s.mantel := by
  unfold memWrite; dsimp only; split <;> (try split) <;> (try split) <;> simp
@[simp] theorem memWrite_power (o : Nat) (d : Bytes) (s : State) : (memWrite o d s).power = s.power := by
  unfold memWrite; dsimp only; split <;> (try split) <;> (try split) <;> simp
@[simp] theorem memWrite_flash (o : Nat) (d : Bytes) (s : State) : (memWrite o d s).flash = s.flash := by
  unfold memWrite; dsimp only; split <;> (try split) <;> (try split) <;> simp
@[simp] theorem memWrite_maps (o : Nat) (d : Bytes) (s : State) : (memWrite o d s).maps = s.maps := by
  unfold memWrite; dsimp only; split <;> (try split) <;> (try split) <;> simp
@[simp] theorem memWrite_dir (o : Nat) (d : Bytes) (s : State) : (memWrite o d s).dir = s.dir := by
  unfold memWrite; dsimp only; split <;> (try split) <;> (try split) <;> simp
@[simp] theorem memWrite_sax (o : Nat) (d : Bytes) (s : State) : (memWrite o d s).sax = s.sax := by
  unfold memWrite; dsimp only; split <;> (try split) <;> (try split) <;> simp
@[simp] theorem memWrite_trays (o : Nat) (d : Bytes) (s : State) : (memWrite o d s).trays = s.trays := by
  unfold memWrite; dsimp only; split <;> (try split) <;> (try split) <;> simp
@[simp] theorem memWrite_ember (o : Nat) (d : Bytes) (s : State) : (memWrite o d s).ember = s.ember := by
  unfold memWrite; dsimp only; split <;> (try split) <;> (try split) <;> simp
@[simp] theorem memWrite_cal (o : Nat) (d : Bytes) (s : State) : (memWrite o d s).cal = s.cal := by
  unfold memWrite; dsimp only; split <;> (try split) <;> (try split) <;> simp
@[simp] theorem memWrite_moves (o : Nat) (d : Bytes) (s : State) : (memWrite o d s).moves = s.moves := by
  unfold memWrite; dsimp only; split <;> (try split) <;> (try split) <;> simp
@[simp] theorem memWrite_loadTick (o : Nat) (d : Bytes) (s : State) : (memWrite o d s).loadTick = s.loadTick := by
  unfold memWrite; dsimp only; split <;> (try split) <;> (try split) <;> simp
@[simp] theorem memWrite_balTick (o : Nat) (d : Bytes) (s : State) : (memWrite o d s).balTick = s.balTick := by
  unfold memWrite; dsimp only; split <;> (try split) <;> (try split) <;> simp
@[simp] theorem memWrite_chains (o : Nat) (d : Bytes) (s : State) : (memWrite o d s).chains = s.chains := by
  unfold memWrite; dsimp only; split <;> (try split) <;> (try split) <;> simp
@[simp] theorem memWrite_groups (o : Nat) (d : Bytes) (s : State) : (memWrite o d s).groups = s.groups := by
  unfold memWrite; dsimp only; split <;> (try split) <;> (try split) <;> simp
@[simp] theorem memWrite_tiers (o : Nat) (d : Bytes) (s : State) : (memWrite o d s).tiers = s.tiers := by
  unfold memWrite; dsimp only; split <;> (try split) <;> (try split) <;> simp

@[simp] theorem leaveWaiting_pending (s : State) : (leaveWaiting s).pending = s.pending := by
  unfold leaveWaiting; split; · rfl
  dsimp only; split <;> simp
@[simp] theorem leaveWaiting_t (s : State) : (leaveWaiting s).t = s.t := by
  unfold leaveWaiting; split; · rfl
  dsimp only; split <;> simp
@[simp] theorem leaveWaiting_mantel (s : State) : (leaveWaiting s).mantel = s.mantel := by
  unfold leaveWaiting; split; · rfl
  dsimp only; split <;> simp
@[simp] theorem leaveWaiting_power (s : State) : (leaveWaiting s).power = s.power := by
  unfold leaveWaiting; split; · rfl
  dsimp only; split <;> simp
@[simp] theorem leaveWaiting_flash (s : State) : (leaveWaiting s).flash = s.flash := by
  unfold leaveWaiting; split; · rfl
  dsimp only; split <;> simp
@[simp] theorem leaveWaiting_ten (s : State) : (leaveWaiting s).ten = s.ten := by
  unfold leaveWaiting; split; · rfl
  dsimp only; split <;> simp
@[simp] theorem leaveWaiting_maps (s : State) : (leaveWaiting s).maps = s.maps := by
  unfold leaveWaiting; split; · rfl
  dsimp only; split <;> simp
@[simp] theorem leaveWaiting_dir (s : State) : (leaveWaiting s).dir = s.dir := by
  unfold leaveWaiting; split; · rfl
  dsimp only; split <;> simp
@[simp] theorem leaveWaiting_chans (s : State) : (leaveWaiting s).chans = s.chans := by
  unfold leaveWaiting; split; · rfl
  dsimp only; split <;> simp
@[simp] theorem leaveWaiting_sax (s : State) : (leaveWaiting s).sax = s.sax := by
  unfold leaveWaiting; split; · rfl
  dsimp only; split <;> simp
@[simp] theorem leaveWaiting_trays (s : State) : (leaveWaiting s).trays = s.trays := by
  unfold leaveWaiting; split; · rfl
  dsimp only; split <;> simp
@[simp] theorem leaveWaiting_ember (s : State) : (leaveWaiting s).ember = s.ember := by
  unfold leaveWaiting; split; · rfl
  dsimp only; split <;> simp
@[simp] theorem leaveWaiting_cal (s : State) : (leaveWaiting s).cal = s.cal := by
  unfold leaveWaiting; split; · rfl
  dsimp only; split <;> simp
@[simp] theorem leaveWaiting_tables (s : State) : (leaveWaiting s).tables = s.tables := by
  unfold leaveWaiting; split; · rfl
  dsimp only; split <;> simp
@[simp] theorem leaveWaiting_moves (s : State) : (leaveWaiting s).moves = s.moves := by
  unfold leaveWaiting; split; · rfl
  dsimp only; split <;> simp
@[simp] theorem leaveWaiting_loadTick (s : State) : (leaveWaiting s).loadTick = s.loadTick := by
  unfold leaveWaiting; split; · rfl
  dsimp only; split <;> simp
@[simp] theorem leaveWaiting_balTick (s : State) : (leaveWaiting s).balTick = s.balTick := by
  unfold leaveWaiting; split; · rfl
  dsimp only; split <;> simp
@[simp] theorem leaveWaiting_chains (s : State) : (leaveWaiting s).chains = s.chains := by
  unfold leaveWaiting; split; · rfl
  dsimp only; split <;> simp
@[simp] theorem leaveWaiting_groups (s : State) : (leaveWaiting s).groups = s.groups := by
  unfold leaveWaiting; split; · rfl
  dsimp only; split <;> simp
@[simp] theorem leaveWaiting_tiers (s : State) : (leaveWaiting s).tiers = s.tiers := by
  unfold leaveWaiting; split; · rfl
  dsimp only; split <;> simp
@[simp] theorem leaveWaiting_twin (s : State) : (leaveWaiting s).twin = s.twin := by
  unfold leaveWaiting; split; · rfl
  dsimp only; split <;> simp

@[simp] theorem freeTrk_pending (i : Nat) (s : State) : (freeTrk i s).pending = s.pending := by
  exact (foldl_keep State.pending _ (fun s x => by simp) _ _).trans (leaveWaiting_pending _)
@[simp] theorem freeTrk_t (i : Nat) (s : State) : (freeTrk i s).t = s.t := by
  exact (foldl_keep State.t _ (fun s x => by simp) _ _).trans (leaveWaiting_t _)
@[simp] theorem freeTrk_mantel (i : Nat) (s : State) : (freeTrk i s).mantel = s.mantel := by
  exact (foldl_keep State.mantel _ (fun s x => by simp) _ _).trans (leaveWaiting_mantel _)
@[simp] theorem freeTrk_power (i : Nat) (s : State) : (freeTrk i s).power = s.power := by
  exact (foldl_keep State.power _ (fun s x => by simp) _ _).trans (leaveWaiting_power _)
@[simp] theorem freeTrk_flash (i : Nat) (s : State) : (freeTrk i s).flash = s.flash := by
  exact (foldl_keep State.flash _ (fun s x => by simp) _ _).trans (leaveWaiting_flash _)
@[simp] theorem freeTrk_ten (i : Nat) (s : State) : (freeTrk i s).ten = s.ten := by
  exact (foldl_keep State.ten _ (fun s x => by simp) _ _).trans (leaveWaiting_ten _)
@[simp] theorem freeTrk_maps (i : Nat) (s : State) : (freeTrk i s).maps = s.maps := by
  exact (foldl_keep State.maps _ (fun s x => by simp) _ _).trans (leaveWaiting_maps _)
@[simp] theorem freeTrk_dir (i : Nat) (s : State) : (freeTrk i s).dir = s.dir := by
  exact (foldl_keep State.dir _ (fun s x => by simp) _ _).trans (leaveWaiting_dir _)
@[simp] theorem freeTrk_chans (i : Nat) (s : State) : (freeTrk i s).chans = s.chans := by
  exact (foldl_keep State.chans _ (fun s x => by simp) _ _).trans (leaveWaiting_chans _)
@[simp] theorem freeTrk_sax (i : Nat) (s : State) : (freeTrk i s).sax = s.sax := by
  exact (foldl_keep State.sax _ (fun s x => by simp) _ _).trans (leaveWaiting_sax _)
@[simp] theorem freeTrk_trays (i : Nat) (s : State) : (freeTrk i s).trays = s.trays := by
  exact (foldl_keep State.trays _ (fun s x => by simp) _ _).trans (leaveWaiting_trays _)
@[simp] theorem freeTrk_ember (i : Nat) (s : State) : (freeTrk i s).ember = s.ember := by
  exact (foldl_keep State.ember _ (fun s x => by simp) _ _).trans (leaveWaiting_ember _)
@[simp] theorem freeTrk_cal (i : Nat) (s : State) : (freeTrk i s).cal = s.cal := by
  exact (foldl_keep State.cal _ (fun s x => by simp) _ _).trans (leaveWaiting_cal _)
@[simp] theorem freeTrk_tables (i : Nat) (s : State) : (freeTrk i s).tables = s.tables := by
  exact (foldl_keep State.tables _ (fun s x => by simp) _ _).trans (leaveWaiting_tables _)
@[simp] theorem freeTrk_moves (i : Nat) (s : State) : (freeTrk i s).moves = s.moves := by
  exact (foldl_keep State.moves _ (fun s x => by simp) _ _).trans (leaveWaiting_moves _)
@[simp] theorem freeTrk_loadTick (i : Nat) (s : State) : (freeTrk i s).loadTick = s.loadTick := by
  exact (foldl_keep State.loadTick _ (fun s x => by simp) _ _).trans (leaveWaiting_loadTick _)
@[simp] theorem freeTrk_balTick (i : Nat) (s : State) : (freeTrk i s).balTick = s.balTick := by
  exact (foldl_keep State.balTick _ (fun s x => by simp) _ _).trans (leaveWaiting_balTick _)
@[simp] theorem freeTrk_chains (i : Nat) (s : State) : (freeTrk i s).chains = s.chains := by
  exact (foldl_keep State.chains _ (fun s x => by simp) _ _).trans (leaveWaiting_chains _)
@[simp] theorem freeTrk_groups (i : Nat) (s : State) : (freeTrk i s).groups = s.groups := by
  exact (foldl_keep State.groups _ (fun s x => by simp) _ _).trans (leaveWaiting_groups _)
@[simp] theorem freeTrk_tiers (i : Nat) (s : State) : (freeTrk i s).tiers = s.tiers := by
  exact (foldl_keep State.tiers _ (fun s x => by simp) _ _).trans (leaveWaiting_tiers _)
@[simp] theorem freeTrk_twin (i : Nat) (s : State) : (freeTrk i s).twin = s.twin := by
  exact (foldl_keep State.twin _ (fun s x => by simp) _ _).trans (leaveWaiting_twin _)

@[simp] theorem freeMsg_pending (a b : Nat) (s : State) : (freeMsg a b s).pending = s.pending := by
  unfold freeMsg; cases msgTrk s a b <;> simp
@[simp] theorem freeMsg_t (a b : Nat) (s : State) : (freeMsg a b s).t = s.t := by
  unfold freeMsg; cases msgTrk s a b <;> simp
@[simp] theorem freeMsg_mantel (a b : Nat) (s : State) : (freeMsg a b s).mantel = s.mantel := by
  unfold freeMsg; cases msgTrk s a b <;> simp
@[simp] theorem freeMsg_power (a b : Nat) (s : State) : (freeMsg a b s).power = s.power := by
  unfold freeMsg; cases msgTrk s a b <;> simp
@[simp] theorem freeMsg_flash (a b : Nat) (s : State) : (freeMsg a b s).flash = s.flash := by
  unfold freeMsg; cases msgTrk s a b <;> simp
@[simp] theorem freeMsg_ten (a b : Nat) (s : State) : (freeMsg a b s).ten = s.ten := by
  unfold freeMsg; cases msgTrk s a b <;> simp
@[simp] theorem freeMsg_maps (a b : Nat) (s : State) : (freeMsg a b s).maps = s.maps := by
  unfold freeMsg; cases msgTrk s a b <;> simp
@[simp] theorem freeMsg_dir (a b : Nat) (s : State) : (freeMsg a b s).dir = s.dir := by
  unfold freeMsg; cases msgTrk s a b <;> simp
@[simp] theorem freeMsg_chans (a b : Nat) (s : State) : (freeMsg a b s).chans = s.chans := by
  unfold freeMsg; cases msgTrk s a b <;> simp
@[simp] theorem freeMsg_sax (a b : Nat) (s : State) : (freeMsg a b s).sax = s.sax := by
  unfold freeMsg; cases msgTrk s a b <;> simp
@[simp] theorem freeMsg_trays (a b : Nat) (s : State) : (freeMsg a b s).trays = s.trays := by
  unfold freeMsg; cases msgTrk s a b <;> simp
@[simp] theorem freeMsg_ember (a b : Nat) (s : State) : (freeMsg a b s).ember = s.ember := by
  unfold freeMsg; cases msgTrk s a b <;> simp
@[simp] theorem freeMsg_cal (a b : Nat) (s : State) : (freeMsg a b s).cal = s.cal := by
  unfold freeMsg; cases msgTrk s a b <;> simp
@[simp] theorem freeMsg_tables (a b : Nat) (s : State) : (freeMsg a b s).tables = s.tables := by
  unfold freeMsg; cases msgTrk s a b <;> simp
@[simp] theorem freeMsg_moves (a b : Nat) (s : State) : (freeMsg a b s).moves = s.moves := by
  unfold freeMsg; cases msgTrk s a b <;> simp
@[simp] theorem freeMsg_loadTick (a b : Nat) (s : State) : (freeMsg a b s).loadTick = s.loadTick := by
  unfold freeMsg; cases msgTrk s a b <;> simp
@[simp] theorem freeMsg_balTick (a b : Nat) (s : State) : (freeMsg a b s).balTick = s.balTick := by
  unfold freeMsg; cases msgTrk s a b <;> simp
@[simp] theorem freeMsg_chains (a b : Nat) (s : State) : (freeMsg a b s).chains = s.chains := by
  unfold freeMsg; cases msgTrk s a b <;> simp
@[simp] theorem freeMsg_groups (a b : Nat) (s : State) : (freeMsg a b s).groups = s.groups := by
  unfold freeMsg; cases msgTrk s a b <;> simp
@[simp] theorem freeMsg_tiers (a b : Nat) (s : State) : (freeMsg a b s).tiers = s.tiers := by
  unfold freeMsg; cases msgTrk s a b <;> simp
@[simp] theorem freeMsg_twin (a b : Nat) (s : State) : (freeMsg a b s).twin = s.twin := by
  unfold freeMsg; cases msgTrk s a b <;> simp

@[simp] theorem answerMsg_pending (q : PktMsg) (st : Status) (s : State) : (answerMsg q st s).pending = s.pending := by
  simp [answerMsg]
@[simp] theorem answerMsg_t (q : PktMsg) (st : Status) (s : State) : (answerMsg q st s).t = s.t := by
  simp [answerMsg]
@[simp] theorem answerMsg_power (q : PktMsg) (st : Status) (s : State) : (answerMsg q st s).power = s.power := by
  simp [answerMsg]
@[simp] theorem answerMsg_flash (q : PktMsg) (st : Status) (s : State) : (answerMsg q st s).flash = s.flash := by
  simp [answerMsg]
@[simp] theorem answerMsg_ten (q : PktMsg) (st : Status) (s : State) : (answerMsg q st s).ten = s.ten := by
  simp [answerMsg]
@[simp] theorem answerMsg_maps (q : PktMsg) (st : Status) (s : State) : (answerMsg q st s).maps = s.maps := by
  simp [answerMsg]
@[simp] theorem answerMsg_dir (q : PktMsg) (st : Status) (s : State) : (answerMsg q st s).dir = s.dir := by
  simp [answerMsg]
@[simp] theorem answerMsg_chans (q : PktMsg) (st : Status) (s : State) : (answerMsg q st s).chans = s.chans := by
  simp [answerMsg]
@[simp] theorem answerMsg_sax (q : PktMsg) (st : Status) (s : State) : (answerMsg q st s).sax = s.sax := by
  simp [answerMsg]
@[simp] theorem answerMsg_trays (q : PktMsg) (st : Status) (s : State) : (answerMsg q st s).trays = s.trays := by
  simp [answerMsg]
@[simp] theorem answerMsg_ember (q : PktMsg) (st : Status) (s : State) : (answerMsg q st s).ember = s.ember := by
  simp [answerMsg]
@[simp] theorem answerMsg_cal (q : PktMsg) (st : Status) (s : State) : (answerMsg q st s).cal = s.cal := by
  simp [answerMsg]
@[simp] theorem answerMsg_tables (q : PktMsg) (st : Status) (s : State) : (answerMsg q st s).tables = s.tables := by
  simp [answerMsg]
@[simp] theorem answerMsg_moves (q : PktMsg) (st : Status) (s : State) : (answerMsg q st s).moves = s.moves := by
  simp [answerMsg]
@[simp] theorem answerMsg_loadTick (q : PktMsg) (st : Status) (s : State) : (answerMsg q st s).loadTick = s.loadTick := by
  simp [answerMsg]
@[simp] theorem answerMsg_balTick (q : PktMsg) (st : Status) (s : State) : (answerMsg q st s).balTick = s.balTick := by
  simp [answerMsg]
@[simp] theorem answerMsg_chains (q : PktMsg) (st : Status) (s : State) : (answerMsg q st s).chains = s.chains := by
  simp [answerMsg]
@[simp] theorem answerMsg_groups (q : PktMsg) (st : Status) (s : State) : (answerMsg q st s).groups = s.groups := by
  simp [answerMsg]
@[simp] theorem answerMsg_tiers (q : PktMsg) (st : Status) (s : State) : (answerMsg q st s).tiers = s.tiers := by
  simp [answerMsg]
@[simp] theorem answerMsg_twin (q : PktMsg) (st : Status) (s : State) : (answerMsg q st s).twin = s.twin := by
  simp [answerMsg]

@[simp] theorem leaveChans_pending (c : Nat) (s : State) : (leaveChans c s).pending = s.pending := by
  unfold leaveChans; dsimp only; split <;> rfl
@[simp] theorem leaveChans_t (c : Nat) (s : State) : (leaveChans c s).t = s.t := by
  unfold leaveChans; dsimp only; split <;> rfl
@[simp] theorem leaveChans_mantel (c : Nat) (s : State) : (leaveChans c s).mantel = s.mantel := by
  unfold leaveChans; dsimp only; split <;> rfl
@[simp] theorem leaveChans_power (c : Nat) (s : State) : (leaveChans c s).power = s.power := by
  unfold leaveChans; dsimp only; split <;> rfl
@[simp] theorem leaveChans_flash (c : Nat) (s : State) : (leaveChans c s).flash = s.flash := by
  unfold leaveChans; dsimp only; split <;> rfl
@[simp] theorem leaveChans_ten (c : Nat) (s : State) : (leaveChans c s).ten = s.ten := by
  unfold leaveChans; dsimp only; split <;> rfl
@[simp] theorem leaveChans_maps (c : Nat) (s : State) : (leaveChans c s).maps = s.maps := by
  unfold leaveChans; dsimp only; split <;> rfl
@[simp] theorem leaveChans_mem (c : Nat) (s : State) : (leaveChans c s).mem = s.mem := by
  unfold leaveChans; dsimp only; split <;> rfl
@[simp] theorem leaveChans_dir (c : Nat) (s : State) : (leaveChans c s).dir = s.dir := by
  unfold leaveChans; dsimp only; split <;> rfl
@[simp] theorem leaveChans_sax (c : Nat) (s : State) : (leaveChans c s).sax = s.sax := by
  unfold leaveChans; dsimp only; split <;> rfl
@[simp] theorem leaveChans_trays (c : Nat) (s : State) : (leaveChans c s).trays = s.trays := by
  unfold leaveChans; dsimp only; split <;> rfl
@[simp] theorem leaveChans_dsax (c : Nat) (s : State) : (leaveChans c s).dsax = s.dsax := by
  unfold leaveChans; dsimp only; split <;> rfl
@[simp] theorem leaveChans_dtray (c : Nat) (s : State) : (leaveChans c s).dtray = s.dtray := by
  unfold leaveChans; dsimp only; split <;> rfl
@[simp] theorem leaveChans_ember (c : Nat) (s : State) : (leaveChans c s).ember = s.ember := by
  unfold leaveChans; dsimp only; split <;> rfl
@[simp] theorem leaveChans_cal (c : Nat) (s : State) : (leaveChans c s).cal = s.cal := by
  unfold leaveChans; dsimp only; split <;> rfl
@[simp] theorem leaveChans_tables (c : Nat) (s : State) : (leaveChans c s).tables = s.tables := by
  unfold leaveChans; dsimp only; split <;> rfl
@[simp] theorem leaveChans_moves (c : Nat) (s : State) : (leaveChans c s).moves = s.moves := by
  unfold leaveChans; dsimp only; split <;> rfl
@[simp] theorem leaveChans_loadTick (c : Nat) (s : State) : (leaveChans c s).loadTick = s.loadTick := by
  unfold leaveChans; dsimp only; split <;> rfl
@[simp] theorem leaveChans_balTick (c : Nat) (s : State) : (leaveChans c s).balTick = s.balTick := by
  unfold leaveChans; dsimp only; split <;> rfl
@[simp] theorem leaveChans_chains (c : Nat) (s : State) : (leaveChans c s).chains = s.chains := by
  unfold leaveChans; dsimp only; split <;> rfl
@[simp] theorem leaveChans_groups (c : Nat) (s : State) : (leaveChans c s).groups = s.groups := by
  unfold leaveChans; dsimp only; split <;> rfl
@[simp] theorem leaveChans_tiers (c : Nat) (s : State) : (leaveChans c s).tiers = s.tiers := by
  unfold leaveChans; dsimp only; split <;> rfl
@[simp] theorem leaveChans_twin (c : Nat) (s : State) : (leaveChans c s).twin = s.twin := by
  unfold leaveChans; dsimp only; split <;> rfl

@[simp] theorem dropColl_pending (c : Nat) (s : State) : (dropColl c s).pending = s.pending := by
  unfold dropColl; dsimp only; split <;> rfl
@[simp] theorem dropColl_t (c : Nat) (s : State) : (dropColl c s).t = s.t := by
  unfold dropColl; dsimp only; split <;> rfl
@[simp] theorem dropColl_mantel (c : Nat) (s : State) : (dropColl c s).mantel = s.mantel := by
  unfold dropColl; dsimp only; split <;> rfl
@[simp] theorem dropColl_power (c : Nat) (s : State) : (dropColl c s).power = s.power := by
  unfold dropColl; dsimp only; split <;> rfl
@[simp] theorem dropColl_flash (c : Nat) (s : State) : (dropColl c s).flash = s.flash := by
  unfold dropColl; dsimp only; split <;> rfl
@[simp] theorem dropColl_ten (c : Nat) (s : State) : (dropColl c s).ten = s.ten := by
  unfold dropColl; dsimp only; split <;> rfl
@[simp] theorem dropColl_maps (c : Nat) (s : State) : (dropColl c s).maps = s.maps := by
  unfold dropColl; dsimp only; split <;> rfl
@[simp] theorem dropColl_dir (c : Nat) (s : State) : (dropColl c s).dir = s.dir := by
  unfold dropColl; dsimp only; split <;> rfl
@[simp] theorem dropColl_chans (c : Nat) (s : State) : (dropColl c s).chans = s.chans := by
  unfold dropColl; dsimp only; split <;> rfl
@[simp] theorem dropColl_sax (c : Nat) (s : State) : (dropColl c s).sax = s.sax := by
  unfold dropColl; dsimp only; split <;> rfl
@[simp] theorem dropColl_trays (c : Nat) (s : State) : (dropColl c s).trays = s.trays := by
  unfold dropColl; dsimp only; split <;> rfl
@[simp] theorem dropColl_dtray (c : Nat) (s : State) : (dropColl c s).dtray = s.dtray := by
  unfold dropColl; dsimp only; split <;> rfl
@[simp] theorem dropColl_ember (c : Nat) (s : State) : (dropColl c s).ember = s.ember := by
  unfold dropColl; dsimp only; split <;> rfl
@[simp] theorem dropColl_cal (c : Nat) (s : State) : (dropColl c s).cal = s.cal := by
  unfold dropColl; dsimp only; split <;> rfl
@[simp] theorem dropColl_tables (c : Nat) (s : State) : (dropColl c s).tables = s.tables := by
  unfold dropColl; dsimp only; split <;> rfl
@[simp] theorem dropColl_moves (c : Nat) (s : State) : (dropColl c s).moves = s.moves := by
  unfold dropColl; dsimp only; split <;> rfl
@[simp] theorem dropColl_loadTick (c : Nat) (s : State) : (dropColl c s).loadTick = s.loadTick := by
  unfold dropColl; dsimp only; split <;> rfl
@[simp] theorem dropColl_balTick (c : Nat) (s : State) : (dropColl c s).balTick = s.balTick := by
  unfold dropColl; dsimp only; split <;> rfl
@[simp] theorem dropColl_chains (c : Nat) (s : State) : (dropColl c s).chains = s.chains := by
  unfold dropColl; dsimp only; split <;> rfl
@[simp] theorem dropColl_groups (c : Nat) (s : State) : (dropColl c s).groups = s.groups := by
  unfold dropColl; dsimp only; split <;> rfl
@[simp] theorem dropColl_tiers (c : Nat) (s : State) : (dropColl c s).tiers = s.tiers := by
  unfold dropColl; dsimp only; split <;> rfl
@[simp] theorem dropColl_twin (c : Nat) (s : State) : (dropColl c s).twin = s.twin := by
  unfold dropColl; dsimp only; split <;> rfl

@[simp] theorem halt_pending (c : Nat) (st : Status) (i : Nat) (s : State) : (halt c st i s).pending = s.pending := by
  unfold halt; split; · rfl
  dsimp only; split <;> simp [freeUnits]
@[simp] theorem halt_t (c : Nat) (st : Status) (i : Nat) (s : State) : (halt c st i s).t = s.t := by
  unfold halt; split; · rfl
  dsimp only; split <;> simp [freeUnits]
@[simp] theorem halt_mantel (c : Nat) (st : Status) (i : Nat) (s : State) : (halt c st i s).mantel = s.mantel := by
  unfold halt; split; · rfl
  dsimp only; split <;> simp [freeUnits]
@[simp] theorem halt_power (c : Nat) (st : Status) (i : Nat) (s : State) : (halt c st i s).power = s.power := by
  unfold halt; split; · rfl
  dsimp only; split <;> simp [freeUnits]
@[simp] theorem halt_flash (c : Nat) (st : Status) (i : Nat) (s : State) : (halt c st i s).flash = s.flash := by
  unfold halt; split; · rfl
  dsimp only; split <;> simp [freeUnits]
@[simp] theorem halt_ten (c : Nat) (st : Status) (i : Nat) (s : State) : (halt c st i s).ten = s.ten := by
  unfold halt; split; · rfl
  dsimp only; split <;> simp [freeUnits]
@[simp] theorem halt_maps (c : Nat) (st : Status) (i : Nat) (s : State) : (halt c st i s).maps = s.maps := by
  unfold halt; split; · rfl
  dsimp only; split <;> simp [freeUnits]
@[simp] theorem halt_sax (c : Nat) (st : Status) (i : Nat) (s : State) : (halt c st i s).sax = s.sax := by
  unfold halt; split; · rfl
  dsimp only; split <;> simp [freeUnits]
@[simp] theorem halt_trays (c : Nat) (st : Status) (i : Nat) (s : State) : (halt c st i s).trays = s.trays := by
  unfold halt; split; · rfl
  dsimp only; split <;> simp [freeUnits]
@[simp] theorem halt_dtray (c : Nat) (st : Status) (i : Nat) (s : State) : (halt c st i s).dtray = s.dtray := by
  unfold halt; split; · rfl
  dsimp only; split <;> simp [freeUnits]
@[simp] theorem halt_ember (c : Nat) (st : Status) (i : Nat) (s : State) : (halt c st i s).ember = s.ember := by
  unfold halt; split; · rfl
  dsimp only; split <;> simp [freeUnits]
@[simp] theorem halt_cal (c : Nat) (st : Status) (i : Nat) (s : State) : (halt c st i s).cal = s.cal := by
  unfold halt; split; · rfl
  dsimp only; split <;> simp [freeUnits]
@[simp] theorem halt_moves (c : Nat) (st : Status) (i : Nat) (s : State) : (halt c st i s).moves = s.moves := by
  unfold halt; split; · rfl
  dsimp only; split <;> simp [freeUnits]
@[simp] theorem halt_loadTick (c : Nat) (st : Status) (i : Nat) (s : State) : (halt c st i s).loadTick = s.loadTick := by
  unfold halt; split; · rfl
  dsimp only; split <;> simp [freeUnits]
@[simp] theorem halt_balTick (c : Nat) (st : Status) (i : Nat) (s : State) : (halt c st i s).balTick = s.balTick := by
  unfold halt; split; · rfl
  dsimp only; split <;> simp [freeUnits]
@[simp] theorem halt_groups (c : Nat) (st : Status) (i : Nat) (s : State) : (halt c st i s).groups = s.groups := by
  unfold halt; split; · rfl
  dsimp only; split <;> simp [freeUnits]
@[simp] theorem halt_tiers (c : Nat) (st : Status) (i : Nat) (s : State) : (halt c st i s).tiers = s.tiers := by
  unfold halt; split; · rfl
  dsimp only; split <;> simp [freeUnits]
@[simp] theorem halt_twin (c : Nat) (st : Status) (i : Nat) (s : State) : (halt c st i s).twin = s.twin := by
  unfold halt; split; · rfl
  dsimp only; split <;> simp [freeUnits]

@[simp] theorem dataFault_pending (p c u : Nat) (s : State) : (dataFault p c u s).pending = s.pending := by
  unfold dataFault; split; · rfl
  dsimp only; split; rotate_left; · rfl
  rw [eventMO_pending]; exact (foldl_keep State.pending _ (fun s x => halt_pending ..) _ _).trans rfl
@[simp] theorem dataFault_t (p c u : Nat) (s : State) : (dataFault p c u s).t = s.t := by
  unfold dataFault; split; · rfl
  dsimp only; split; rotate_left; · rfl
  rw [eventMO_t]; exact (foldl_keep State.t _ (fun s x => halt_t ..) _ _).trans rfl
@[simp] theorem dataFault_power (p c u : Nat) (s : State) : (dataFault p c u s).power = s.power := by
  unfold dataFault; split; · rfl
  dsimp only; split; rotate_left; · rfl
  rw [eventMO_power]; exact (foldl_keep State.power _ (fun s x => halt_power ..) _ _).trans rfl
@[simp] theorem dataFault_flash (p c u : Nat) (s : State) : (dataFault p c u s).flash = s.flash := by
  unfold dataFault; split; · rfl
  dsimp only; split; rotate_left; · rfl
  rw [eventMO_flash]; exact (foldl_keep State.flash _ (fun s x => halt_flash ..) _ _).trans rfl
@[simp] theorem dataFault_maps (p c u : Nat) (s : State) : (dataFault p c u s).maps = s.maps := by
  unfold dataFault; split; · rfl
  dsimp only; split; rotate_left; · rfl
  rw [eventMO_maps]; exact (foldl_keep State.maps _ (fun s x => halt_maps ..) _ _).trans rfl
@[simp] theorem dataFault_sax (p c u : Nat) (s : State) : (dataFault p c u s).sax = s.sax := by
  unfold dataFault; split; · rfl
  dsimp only; split; rotate_left; · rfl
  rw [eventMO_sax]; exact (foldl_keep State.sax _ (fun s x => halt_sax ..) _ _).trans rfl
@[simp] theorem dataFault_trays (p c u : Nat) (s : State) : (dataFault p c u s).trays = s.trays := by
  unfold dataFault; split; · rfl
  dsimp only; split; rotate_left; · rfl
  rw [eventMO_trays]; exact (foldl_keep State.trays _ (fun s x => halt_trays ..) _ _).trans rfl
@[simp] theorem dataFault_dtray (p c u : Nat) (s : State) : (dataFault p c u s).dtray = s.dtray := by
  unfold dataFault; split; · rfl
  dsimp only; split; rotate_left; · rfl
  rw [eventMO_dtray]; exact (foldl_keep State.dtray _ (fun s x => halt_dtray ..) _ _).trans rfl
@[simp] theorem dataFault_ember (p c u : Nat) (s : State) : (dataFault p c u s).ember = s.ember := by
  unfold dataFault; split; · rfl
  dsimp only; split; rotate_left; · rfl
  rw [eventMO_ember]; exact (foldl_keep State.ember _ (fun s x => halt_ember ..) _ _).trans rfl
@[simp] theorem dataFault_cal (p c u : Nat) (s : State) : (dataFault p c u s).cal = s.cal := by
  unfold dataFault; split; · rfl
  dsimp only; split; rotate_left; · rfl
  rw [eventMO_cal]; exact (foldl_keep State.cal _ (fun s x => halt_cal ..) _ _).trans rfl
@[simp] theorem dataFault_moves (p c u : Nat) (s : State) : (dataFault p c u s).moves = s.moves := by
  unfold dataFault; split; · rfl
  dsimp only; split; rotate_left; · rfl
  rw [eventMO_moves]; exact (foldl_keep State.moves _ (fun s x => halt_moves ..) _ _).trans rfl
@[simp] theorem dataFault_loadTick (p c u : Nat) (s : State) : (dataFault p c u s).loadTick = s.loadTick := by
  unfold dataFault; split; · rfl
  dsimp only; split; rotate_left; · rfl
  rw [eventMO_loadTick]; exact (foldl_keep State.loadTick _ (fun s x => halt_loadTick ..) _ _).trans rfl
@[simp] theorem dataFault_balTick (p c u : Nat) (s : State) : (dataFault p c u s).balTick = s.balTick := by
  unfold dataFault; split; · rfl
  dsimp only; split; rotate_left; · rfl
  rw [eventMO_balTick]; exact (foldl_keep State.balTick _ (fun s x => halt_balTick ..) _ _).trans rfl
@[simp] theorem dataFault_groups (p c u : Nat) (s : State) : (dataFault p c u s).groups = s.groups := by
  unfold dataFault; split; · rfl
  dsimp only; split; rotate_left; · rfl
  rw [eventMO_groups]; exact (foldl_keep State.groups _ (fun s x => halt_groups ..) _ _).trans rfl
@[simp] theorem dataFault_tiers (p c u : Nat) (s : State) : (dataFault p c u s).tiers = s.tiers := by
  unfold dataFault; split; · rfl
  dsimp only; split; rotate_left; · rfl
  rw [eventMO_tiers]; exact (foldl_keep State.tiers _ (fun s x => halt_tiers ..) _ _).trans rfl
@[simp] theorem dataFault_twin (p c u : Nat) (s : State) : (dataFault p c u s).twin = s.twin := by
  unfold dataFault; split; · rfl
  dsimp only; split; rotate_left; · rfl
  rw [eventMO_twin]; exact (foldl_keep State.twin _ (fun s x => halt_twin ..) _ _).trans rfl

@[simp] theorem accept_pending (m : MbxId) (p a b h : Nat) (d : Bytes) (s : State) : (accept m p a b h d s).pending = s.pending := by
  unfold accept; dsimp only; split <;> (try split) <;> (try split) <;> simp
@[simp] theorem accept_t (m : MbxId) (p a b h : Nat) (d : Bytes) (s : State) : (accept m p a b h d s).t = s.t := by
  unfold accept; dsimp only; split <;> (try split) <;> (try split) <;> simp
@[simp] theorem accept_power (m : MbxId) (p a b h : Nat) (d : Bytes) (s : State) : (accept m p a b h d s).power = s.power := by
  unfold accept; dsimp only; split <;> (try split) <;> (try split) <;> simp
@[simp] theorem accept_flash (m : MbxId) (p a b h : Nat) (d : Bytes) (s : State) : (accept m p a b h d s).flash = s.flash := by
  unfold accept; dsimp only; split <;> (try split) <;> (try split) <;> simp
@[simp] theorem accept_ten (m : MbxId) (p a b h : Nat) (d : Bytes) (s : State) : (accept m p a b h d s).ten = s.ten := by
  unfold accept; dsimp only; split <;> (try split) <;> (try split) <;> simp
@[simp] theorem accept_maps (m : MbxId) (p a b h : Nat) (d : Bytes) (s : State) : (accept m p a b h d s).maps = s.maps := by
  unfold accept; dsimp only; split <;> (try split) <;> (try split) <;> simp
@[simp] theorem accept_mem (m : MbxId) (p a b h : Nat) (d : Bytes) (s : State) : (accept m p a b h d s).mem = s.mem := by
  unfold accept; dsimp only; split <;> (try split) <;> (try split) <;> simp
@[simp] theorem accept_dir (m : MbxId) (p a b h : Nat) (d : Bytes) (s : State) : (accept m p a b h d s).dir = s.dir := by
  unfold accept; dsimp only; split <;> (try split) <;> (try split) <;> simp
@[simp] theorem accept_chans (m : MbxId) (p a b h : Nat) (d : Bytes) (s : State) : (accept m p a b h d s).chans = s.chans := by
  unfold accept; dsimp only; split <;> (try split) <;> (try split) <;> simp
@[simp] theorem accept_sax (m : MbxId) (p a b h : Nat) (d : Bytes) (s : State) : (accept m p a b h d s).sax = s.sax := by
  unfold accept; dsimp only; split <;> (try split) <;> (try split) <;> simp
@[simp] theorem accept_trays (m : MbxId) (p a b h : Nat) (d : Bytes) (s : State) : (accept m p a b h d s).trays = s.trays := by
  unfold accept; dsimp only; split <;> (try split) <;> (try split) <;> simp
@[simp] theorem accept_ember (m : MbxId) (p a b h : Nat) (d : Bytes) (s : State) : (accept m p a b h d s).ember = s.ember := by
  unfold accept; dsimp only; split <;> (try split) <;> (try split) <;> simp
@[simp] theorem accept_cal (m : MbxId) (p a b h : Nat) (d : Bytes) (s : State) : (accept m p a b h d s).cal = s.cal := by
  unfold accept; dsimp only; split <;> (try split) <;> (try split) <;> simp
@[simp] theorem accept_tables (m : MbxId) (p a b h : Nat) (d : Bytes) (s : State) : (accept m p a b h d s).tables = s.tables := by
  unfold accept; dsimp only; split <;> (try split) <;> (try split) <;> simp
@[simp] theorem accept_moves (m : MbxId) (p a b h : Nat) (d : Bytes) (s : State) : (accept m p a b h d s).moves = s.moves := by
  unfold accept; dsimp only; split <;> (try split) <;> (try split) <;> simp
@[simp] theorem accept_loadTick (m : MbxId) (p a b h : Nat) (d : Bytes) (s : State) : (accept m p a b h d s).loadTick = s.loadTick := by
  unfold accept; dsimp only; split <;> (try split) <;> (try split) <;> simp
@[simp] theorem accept_balTick (m : MbxId) (p a b h : Nat) (d : Bytes) (s : State) : (accept m p a b h d s).balTick = s.balTick := by
  unfold accept; dsimp only; split <;> (try split) <;> (try split) <;> simp
@[simp] theorem accept_chains (m : MbxId) (p a b h : Nat) (d : Bytes) (s : State) : (accept m p a b h d s).chains = s.chains := by
  unfold accept; dsimp only; split <;> (try split) <;> (try split) <;> simp
@[simp] theorem accept_groups (m : MbxId) (p a b h : Nat) (d : Bytes) (s : State) : (accept m p a b h d s).groups = s.groups := by
  unfold accept; dsimp only; split <;> (try split) <;> (try split) <;> simp
@[simp] theorem accept_tiers (m : MbxId) (p a b h : Nat) (d : Bytes) (s : State) : (accept m p a b h d s).tiers = s.tiers := by
  unfold accept; dsimp only; split <;> (try split) <;> (try split) <;> simp
@[simp] theorem accept_twin (m : MbxId) (p a b h : Nat) (d : Bytes) (s : State) : (accept m p a b h d s).twin = s.twin := by
  unfold accept; dsimp only; split <;> (try split) <;> (try split) <;> simp

@[simp] theorem submit_pending (i : MbxId) (s : State) : (submit i s).pending = s.pending := by
  unfold submit; dsimp only; split <;> simp
@[simp] theorem submit_t (i : MbxId) (s : State) : (submit i s).t = s.t := by
  unfold submit; dsimp only; split <;> simp
@[simp] theorem submit_power (i : MbxId) (s : State) : (submit i s).power = s.power := by
  unfold submit; dsimp only; split <;> simp
@[simp] theorem submit_flash (i : MbxId) (s : State) : (submit i s).flash = s.flash := by
  unfold submit; dsimp only; split <;> simp
@[simp] theorem submit_ten (i : MbxId) (s : State) : (submit i s).ten = s.ten := by
  unfold submit; dsimp only; split <;> simp
@[simp] theorem submit_maps (i : MbxId) (s : State) : (submit i s).maps = s.maps := by
  unfold submit; dsimp only; split <;> simp
@[simp] theorem submit_mem (i : MbxId) (s : State) : (submit i s).mem = s.mem := by
  unfold submit; dsimp only; split <;> simp
@[simp] theorem submit_dir (i : MbxId) (s : State) : (submit i s).dir = s.dir := by
  unfold submit; dsimp only; split <;> simp
@[simp] theorem submit_chans (i : MbxId) (s : State) : (submit i s).chans = s.chans := by
  unfold submit; dsimp only; split <;> simp
@[simp] theorem submit_sax (i : MbxId) (s : State) : (submit i s).sax = s.sax := by
  unfold submit; dsimp only; split <;> simp
@[simp] theorem submit_trays (i : MbxId) (s : State) : (submit i s).trays = s.trays := by
  unfold submit; dsimp only; split <;> simp
@[simp] theorem submit_ember (i : MbxId) (s : State) : (submit i s).ember = s.ember := by
  unfold submit; dsimp only; split <;> simp
@[simp] theorem submit_cal (i : MbxId) (s : State) : (submit i s).cal = s.cal := by
  unfold submit; dsimp only; split <;> simp
@[simp] theorem submit_tables (i : MbxId) (s : State) : (submit i s).tables = s.tables := by
  unfold submit; dsimp only; split <;> simp
@[simp] theorem submit_moves (i : MbxId) (s : State) : (submit i s).moves = s.moves := by
  unfold submit; dsimp only; split <;> simp
@[simp] theorem submit_loadTick (i : MbxId) (s : State) : (submit i s).loadTick = s.loadTick := by
  unfold submit; dsimp only; split <;> simp
@[simp] theorem submit_balTick (i : MbxId) (s : State) : (submit i s).balTick = s.balTick := by
  unfold submit; dsimp only; split <;> simp
@[simp] theorem submit_chains (i : MbxId) (s : State) : (submit i s).chains = s.chains := by
  unfold submit; dsimp only; split <;> simp
@[simp] theorem submit_groups (i : MbxId) (s : State) : (submit i s).groups = s.groups := by
  unfold submit; dsimp only; split <;> simp
@[simp] theorem submit_tiers (i : MbxId) (s : State) : (submit i s).tiers = s.tiers := by
  unfold submit; dsimp only; split <;> simp
@[simp] theorem submit_twin (i : MbxId) (s : State) : (submit i s).twin = s.twin := by
  unfold submit; dsimp only; split <;> simp

/-! ## What `settle` and raising an interrupt leave of Mantel -/

@[simp] theorem noteIrq_mbxA (t : Nat) (x : BitVec 32) (m : Mantel) : (noteIrq t x m).mbxA = m.mbxA := by
  simp only [noteIrq, sendIrq, apply_ite Mantel.mbxA, ite_self]
@[simp] theorem settle_mantel_mbxA (o s : State) : (settle o s).mantel.mbxA = s.mantel.mbxA := by
  simp only [settle, raiseIrq, apply_ite State.mantel, apply_ite Mantel.mbxA, noteIrq_mbxA, ite_self]
@[simp] theorem noteIrq_mbxB (t : Nat) (x : BitVec 32) (m : Mantel) : (noteIrq t x m).mbxB = m.mbxB := by
  simp only [noteIrq, sendIrq, apply_ite Mantel.mbxB, ite_self]
@[simp] theorem settle_mantel_mbxB (o s : State) : (settle o s).mantel.mbxB = s.mantel.mbxB := by
  simp only [settle, raiseIrq, apply_ite State.mantel, apply_ite Mantel.mbxB, noteIrq_mbxB, ite_self]
@[simp] theorem noteIrq_mbxD (t : Nat) (x : BitVec 32) (m : Mantel) : (noteIrq t x m).mbxD = m.mbxD := by
  simp only [noteIrq, sendIrq, apply_ite Mantel.mbxD, ite_self]
@[simp] theorem settle_mantel_mbxD (o s : State) : (settle o s).mantel.mbxD = s.mantel.mbxD := by
  simp only [settle, raiseIrq, apply_ite State.mantel, apply_ite Mantel.mbxD, noteIrq_mbxD, ite_self]
@[simp] theorem noteIrq_jobs (t : Nat) (x : BitVec 32) (m : Mantel) : (noteIrq t x m).jobs = m.jobs := by
  simp only [noteIrq, sendIrq, apply_ite Mantel.jobs, ite_self]
@[simp] theorem settle_mantel_jobs (o s : State) : (settle o s).mantel.jobs = s.mantel.jobs := by
  simp only [settle, raiseIrq, apply_ite State.mantel, apply_ite Mantel.jobs, noteIrq_jobs, ite_self]
@[simp] theorem noteIrq_nextJob (t : Nat) (x : BitVec 32) (m : Mantel) : (noteIrq t x m).nextJob = m.nextJob := by
  simp only [noteIrq, sendIrq, apply_ite Mantel.nextJob, ite_self]
@[simp] theorem settle_mantel_nextJob (o s : State) : (settle o s).mantel.nextJob = s.mantel.nextJob := by
  simp only [settle, raiseIrq, apply_ite State.mantel, apply_ite Mantel.nextJob, noteIrq_nextJob, ite_self]
@[simp] theorem noteIrq_nextTicket (t : Nat) (x : BitVec 32) (m : Mantel) : (noteIrq t x m).nextTicket = m.nextTicket := by
  simp only [noteIrq, sendIrq, apply_ite Mantel.nextTicket, ite_self]
@[simp] theorem settle_mantel_nextTicket (o s : State) : (settle o s).mantel.nextTicket = s.mantel.nextTicket := by
  simp only [settle, raiseIrq, apply_ite State.mantel, apply_ite Mantel.nextTicket, noteIrq_nextTicket, ite_self]
@[simp] theorem noteIrq_lasts (t : Nat) (x : BitVec 32) (m : Mantel) : (noteIrq t x m).lasts = m.lasts := by
  simp only [noteIrq, sendIrq, apply_ite Mantel.lasts, ite_self]
@[simp] theorem settle_mantel_lasts (o s : State) : (settle o s).mantel.lasts = s.mantel.lasts := by
  simp only [settle, raiseIrq, apply_ite State.mantel, apply_ite Mantel.lasts, noteIrq_lasts, ite_self]
@[simp] theorem noteIrq_posts (t : Nat) (x : BitVec 32) (m : Mantel) : (noteIrq t x m).posts = m.posts := by
  simp only [noteIrq, sendIrq, apply_ite Mantel.posts, ite_self]
@[simp] theorem settle_mantel_posts (o s : State) : (settle o s).mantel.posts = s.mantel.posts := by
  simp only [settle, raiseIrq, apply_ite State.mantel, apply_ite Mantel.posts, noteIrq_posts, ite_self]
@[simp] theorem noteIrq_evM (t : Nat) (x : BitVec 32) (m : Mantel) : (noteIrq t x m).evM = m.evM := by
  simp only [noteIrq, sendIrq, apply_ite Mantel.evM, ite_self]
@[simp] theorem settle_mantel_evM (o s : State) : (settle o s).mantel.evM = s.mantel.evM := by
  simp only [settle, raiseIrq, apply_ite State.mantel, apply_ite Mantel.evM, noteIrq_evM, ite_self]
@[simp] theorem noteIrq_evP (t : Nat) (x : BitVec 32) (m : Mantel) : (noteIrq t x m).evP = m.evP := by
  simp only [noteIrq, sendIrq, apply_ite Mantel.evP, ite_self]
@[simp] theorem settle_mantel_evP (o s : State) : (settle o s).mantel.evP = s.mantel.evP := by
  simp only [settle, raiseIrq, apply_ite State.mantel, apply_ite Mantel.evP, noteIrq_evP, ite_self]
@[simp] theorem noteIrq_irqEnable (t : Nat) (x : BitVec 32) (m : Mantel) : (noteIrq t x m).irqEnable = m.irqEnable := by
  simp only [noteIrq, sendIrq, apply_ite Mantel.irqEnable, ite_self]
@[simp] theorem settle_mantel_irqEnable (o s : State) : (settle o s).mantel.irqEnable = s.mantel.irqEnable := by
  simp only [settle, raiseIrq, apply_ite State.mantel, apply_ite Mantel.irqEnable, noteIrq_irqEnable, ite_self]
@[simp] theorem noteIrq_masterB (t : Nat) (x : BitVec 32) (m : Mantel) : (noteIrq t x m).masterB = m.masterB := by
  simp only [noteIrq, sendIrq, apply_ite Mantel.masterB, ite_self]
@[simp] theorem settle_mantel_masterB (o s : State) : (settle o s).mantel.masterB = s.mantel.masterB := by
  simp only [settle, raiseIrq, apply_ite State.mantel, apply_ite Mantel.masterB, noteIrq_masterB, ite_self]
@[simp] theorem noteIrq_masterArb (t : Nat) (x : BitVec 32) (m : Mantel) : (noteIrq t x m).masterArb = m.masterArb := by
  simp only [noteIrq, sendIrq, apply_ite Mantel.masterArb, ite_self]
@[simp] theorem settle_mantel_masterArb (o s : State) : (settle o s).mantel.masterArb = s.mantel.masterArb := by
  simp only [settle, raiseIrq, apply_ite State.mantel, apply_ite Mantel.masterArb, noteIrq_masterArb, ite_self]
@[simp] theorem noteIrq_linkA (t : Nat) (x : BitVec 32) (m : Mantel) : (noteIrq t x m).linkA = m.linkA := by
  simp only [noteIrq, sendIrq, apply_ite Mantel.linkA, ite_self]
@[simp] theorem settle_mantel_linkA (o s : State) : (settle o s).mantel.linkA = s.mantel.linkA := by
  simp only [settle, raiseIrq, apply_ite State.mantel, apply_ite Mantel.linkA, noteIrq_linkA, ite_self]
@[simp] theorem noteIrq_linkB (t : Nat) (x : BitVec 32) (m : Mantel) : (noteIrq t x m).linkB = m.linkB := by
  simp only [noteIrq, sendIrq, apply_ite Mantel.linkB, ite_self]
@[simp] theorem settle_mantel_linkB (o s : State) : (settle o s).mantel.linkB = s.mantel.linkB := by
  simp only [settle, raiseIrq, apply_ite State.mantel, apply_ite Mantel.linkB, noteIrq_linkB, ite_self]
@[simp] theorem noteIrq_linkJ (t : Nat) (x : BitVec 32) (m : Mantel) : (noteIrq t x m).linkJ = m.linkJ := by
  simp only [noteIrq, sendIrq, apply_ite Mantel.linkJ, ite_self]
@[simp] theorem settle_mantel_linkJ (o s : State) : (settle o s).mantel.linkJ = s.mantel.linkJ := by
  simp only [settle, raiseIrq, apply_ite State.mantel, apply_ite Mantel.linkJ, noteIrq_linkJ, ite_self]
@[simp] theorem noteIrq_emberHi (t : Nat) (x : BitVec 32) (m : Mantel) : (noteIrq t x m).emberHi = m.emberHi := by
  simp only [noteIrq, sendIrq, apply_ite Mantel.emberHi, ite_self]
@[simp] theorem settle_mantel_emberHi (o s : State) : (settle o s).mantel.emberHi = s.mantel.emberHi := by
  simp only [settle, raiseIrq, apply_ite State.mantel, apply_ite Mantel.emberHi, noteIrq_emberHi, ite_self]
@[simp] theorem noteIrq_emberFrac (t : Nat) (x : BitVec 32) (m : Mantel) : (noteIrq t x m).emberFrac = m.emberFrac := by
  simp only [noteIrq, sendIrq, apply_ite Mantel.emberFrac, ite_self]
@[simp] theorem settle_mantel_emberFrac (o s : State) : (settle o s).mantel.emberFrac = s.mantel.emberFrac := by
  simp only [settle, raiseIrq, apply_ite State.mantel, apply_ite Mantel.emberFrac, noteIrq_emberFrac, ite_self]
@[simp] theorem noteIrq_draft (t : Nat) (x : BitVec 32) (m : Mantel) : (noteIrq t x m).draft = m.draft := by
  simp only [noteIrq, sendIrq, apply_ite Mantel.draft, ite_self]
@[simp] theorem settle_mantel_draft (o s : State) : (settle o s).mantel.draft = s.mantel.draft := by
  simp only [settle, raiseIrq, apply_ite State.mantel, apply_ite Mantel.draft, noteIrq_draft, ite_self]
@[simp] theorem noteIrq_debugNonce (t : Nat) (x : BitVec 32) (m : Mantel) : (noteIrq t x m).debugNonce = m.debugNonce := by
  simp only [noteIrq, sendIrq, apply_ite Mantel.debugNonce, ite_self]
@[simp] theorem settle_mantel_debugNonce (o s : State) : (settle o s).mantel.debugNonce = s.mantel.debugNonce := by
  simp only [settle, raiseIrq, apply_ite State.mantel, apply_ite Mantel.debugNonce, noteIrq_debugNonce, ite_self]
@[simp] theorem noteIrq_debugOpen (t : Nat) (x : BitVec 32) (m : Mantel) : (noteIrq t x m).debugOpen = m.debugOpen := by
  simp only [noteIrq, sendIrq, apply_ite Mantel.debugOpen, ite_self]
@[simp] theorem settle_mantel_debugOpen (o s : State) : (settle o s).mantel.debugOpen = s.mantel.debugOpen := by
  simp only [settle, raiseIrq, apply_ite State.mantel, apply_ite Mantel.debugOpen, noteIrq_debugOpen, ite_self]
@[simp] theorem noteIrq_everDebug (t : Nat) (x : BitVec 32) (m : Mantel) : (noteIrq t x m).everDebug = m.everDebug := by
  simp only [noteIrq, sendIrq, apply_ite Mantel.everDebug, ite_self]
@[simp] theorem settle_mantel_everDebug (o s : State) : (settle o s).mantel.everDebug = s.mantel.everDebug := by
  simp only [settle, raiseIrq, apply_ite State.mantel, apply_ite Mantel.everDebug, noteIrq_everDebug, ite_self]
@[simp] theorem noteIrq_everDraft (t : Nat) (x : BitVec 32) (m : Mantel) : (noteIrq t x m).everDraft = m.everDraft := by
  simp only [noteIrq, sendIrq, apply_ite Mantel.everDraft, ite_self]
@[simp] theorem settle_mantel_everDraft (o s : State) : (settle o s).mantel.everDraft = s.mantel.everDraft := by
  simp only [settle, raiseIrq, apply_ite State.mantel, apply_ite Mantel.everDraft, noteIrq_everDraft, ite_self]
@[simp] theorem noteIrq_mr (t : Nat) (x : BitVec 32) (m : Mantel) : (noteIrq t x m).mr = m.mr := by
  simp only [noteIrq, sendIrq, apply_ite Mantel.mr, ite_self]
@[simp] theorem settle_mantel_mr (o s : State) : (settle o s).mantel.mr = s.mantel.mr := by
  simp only [settle, raiseIrq, apply_ite State.mantel, apply_ite Mantel.mr, noteIrq_mr, ite_self]
@[simp] theorem noteIrq_measLog (t : Nat) (x : BitVec 32) (m : Mantel) : (noteIrq t x m).measLog = m.measLog := by
  simp only [noteIrq, sendIrq, apply_ite Mantel.measLog, ite_self]
@[simp] theorem settle_mantel_measLog (o s : State) : (settle o s).mantel.measLog = s.mantel.measLog := by
  simp only [settle, raiseIrq, apply_ite State.mantel, apply_ite Mantel.measLog, noteIrq_measLog, ite_self]
@[simp] theorem noteIrq_fw (t : Nat) (x : BitVec 32) (m : Mantel) : (noteIrq t x m).fw = m.fw := by
  simp only [noteIrq, sendIrq, apply_ite Mantel.fw, ite_self]
@[simp] theorem settle_mantel_fw (o s : State) : (settle o s).mantel.fw = s.mantel.fw := by
  simp only [settle, raiseIrq, apply_ite State.mantel, apply_ite Mantel.fw, noteIrq_fw, ite_self]
@[simp] theorem noteIrq_fwStream (t : Nat) (x : BitVec 32) (m : Mantel) : (noteIrq t x m).fwStream = m.fwStream := by
  simp only [noteIrq, sendIrq, apply_ite Mantel.fwStream, ite_self]
@[simp] theorem settle_mantel_fwStream (o s : State) : (settle o s).mantel.fwStream = s.mantel.fwStream := by
  simp only [settle, raiseIrq, apply_ite State.mantel, apply_ite Mantel.fwStream, noteIrq_fwStream, ite_self]
@[simp] theorem noteIrq_teleM (t : Nat) (x : BitVec 32) (m : Mantel) : (noteIrq t x m).teleM = m.teleM := by
  simp only [noteIrq, sendIrq, apply_ite Mantel.teleM, ite_self]
@[simp] theorem settle_mantel_teleM (o s : State) : (settle o s).mantel.teleM = s.mantel.teleM := by
  simp only [settle, raiseIrq, apply_ite State.mantel, apply_ite Mantel.teleM, noteIrq_teleM, ite_self]
@[simp] theorem noteIrq_teleP (t : Nat) (x : BitVec 32) (m : Mantel) : (noteIrq t x m).teleP = m.teleP := by
  simp only [noteIrq, sendIrq, apply_ite Mantel.teleP, ite_self]
@[simp] theorem settle_mantel_teleP (o s : State) : (settle o s).mantel.teleP = s.mantel.teleP := by
  simp only [settle, raiseIrq, apply_ite State.mantel, apply_ite Mantel.teleP, noteIrq_teleP, ite_self]
@[simp] theorem noteIrq_cntM (t : Nat) (x : BitVec 32) (m : Mantel) : (noteIrq t x m).cntM = m.cntM := by
  simp only [noteIrq, sendIrq, apply_ite Mantel.cntM, ite_self]
@[simp] theorem settle_mantel_cntM (o s : State) : (settle o s).mantel.cntM = s.mantel.cntM := by
  simp only [settle, raiseIrq, apply_ite State.mantel, apply_ite Mantel.cntM, noteIrq_cntM, ite_self]
@[simp] theorem noteIrq_cntP (t : Nat) (x : BitVec 32) (m : Mantel) : (noteIrq t x m).cntP = m.cntP := by
  simp only [noteIrq, sendIrq, apply_ite Mantel.cntP, ite_self]
@[simp] theorem settle_mantel_cntP (o s : State) : (settle o s).mantel.cntP = s.mantel.cntP := by
  simp only [settle, raiseIrq, apply_ite State.mantel, apply_ite Mantel.cntP, noteIrq_cntP, ite_self]
@[simp] theorem noteIrq_stream (t : Nat) (x : BitVec 32) (m : Mantel) : (noteIrq t x m).stream = m.stream := by
  simp only [noteIrq, sendIrq, apply_ite Mantel.stream, ite_self]
@[simp] theorem settle_mantel_stream (o s : State) : (settle o s).mantel.stream = s.mantel.stream := by
  simp only [settle, raiseIrq, apply_ite State.mantel, apply_ite Mantel.stream, noteIrq_stream, ite_self]
@[simp] theorem noteIrq_streamAt (t : Nat) (x : BitVec 32) (m : Mantel) : (noteIrq t x m).streamAt = m.streamAt := by
  simp only [noteIrq, sendIrq, apply_ite Mantel.streamAt, ite_self]
@[simp] theorem settle_mantel_streamAt (o s : State) : (settle o s).mantel.streamAt = s.mantel.streamAt := by
  simp only [settle, raiseIrq, apply_ite State.mantel, apply_ite Mantel.streamAt, noteIrq_streamAt, ite_self]
@[simp] theorem noteIrq_teleAt (t : Nat) (x : BitVec 32) (m : Mantel) : (noteIrq t x m).teleAt = m.teleAt := by
  simp only [noteIrq, sendIrq, apply_ite Mantel.teleAt, ite_self]
@[simp] theorem settle_mantel_teleAt (o s : State) : (settle o s).mantel.teleAt = s.mantel.teleAt := by
  simp only [settle, raiseIrq, apply_ite State.mantel, apply_ite Mantel.teleAt, noteIrq_teleAt, ite_self]
@[simp] theorem noteIrq_sysCe (t : Nat) (x : BitVec 32) (m : Mantel) : (noteIrq t x m).sysCe = m.sysCe := by
  simp only [noteIrq, sendIrq, apply_ite Mantel.sysCe, ite_self]
@[simp] theorem settle_mantel_sysCe (o s : State) : (settle o s).mantel.sysCe = s.mantel.sysCe := by
  simp only [settle, raiseIrq, apply_ite State.mantel, apply_ite Mantel.sysCe, noteIrq_sysCe, ite_self]
@[simp] theorem noteIrq_restarting (t : Nat) (x : BitVec 32) (m : Mantel) : (noteIrq t x m).restarting = m.restarting := by
  simp only [noteIrq, sendIrq, apply_ite Mantel.restarting, ite_self]
@[simp] theorem settle_mantel_restarting (o s : State) : (settle o s).mantel.restarting = s.mantel.restarting := by
  simp only [settle, raiseIrq, apply_ite State.mantel, apply_ite Mantel.restarting, noteIrq_restarting, ite_self]
@[simp] theorem noteIrq_window (t : Nat) (x : BitVec 32) (m : Mantel) : (noteIrq t x m).window = m.window := by
  simp only [noteIrq, sendIrq, apply_ite Mantel.window, ite_self]
@[simp] theorem settle_mantel_window (o s : State) : (settle o s).mantel.window = s.mantel.window := by
  simp only [settle, raiseIrq, apply_ite State.mantel, apply_ite Mantel.window, noteIrq_window, ite_self]

/-- FAULT_CAUSE after `settle`: the bits it had and those whose condition lasts (R424). -/
@[simp] theorem settle_faultCause (o s : State) : (settle o s).mantel.faultCause = s.mantel.faultCause ||| lasting s := by
  simp only [settle, raiseIrq, apply_ite State.mantel, apply_ite Mantel.faultCause, noteIrq, sendIrq, ite_self]

/-! ## Mailbox commands -/

/-- A command of its mailbox's turn runs, and is completed or waits (R403). -/
theorem runCmd_of {m : MbxId} {op : Nat} {j : Job} {s : State} (h : startable s m = some j) (ho : j.op = op)
    (f : Job → State → End × State) : runCmd op m f s = endJob j (f j (startJob j s)) := by
  simp [runCmd, h, ho]

@[simp] theorem endJob_done (j : Job) (st : Status) (d : Nat) (p : Bytes) (s : State) :
    endJob j (.done st d p, s) = finish j.id st d p s := rfl

@[simp] theorem endJob_waits (j : Job) (s : State) : endJob j (.waits, s) = s := rfl

/-! ## Memory cells -/

theorem cellsPut_mem {l : List Host.Cell} {x : Nat} {v : Byte} {c : Host.Cell} (h : c ∈ cellsPut x v l) : c ∈ l ∨ c = (x, v) := by
  induction l with
  | nil => simp_all [cellsPut]
  | cons a r ih =>
    simp only [cellsPut] at h
    split_ifs at h <;> simp_all <;> tauto

theorem cellsPut_sorted {l : List Host.Cell} (h : l.Pairwise fun a b => a.1 < b.1) {x : Nat} (hx : ∀ c ∈ l, c.1 ≠ x) (v : Byte) :
    (cellsPut x v l).Pairwise fun a b => a.1 < b.1 := by
  induction l with
  | nil => simp [cellsPut]
  | cons a r ih =>
    have hp := List.pairwise_cons.1 h
    simp only [cellsPut]
    split_ifs with h1
    · refine List.pairwise_cons.2 ⟨fun c hc => ?_, h⟩
      rcases List.mem_cons.1 hc with rfl | hc
      · exact h1
      · exact lt_trans h1 (hp.1 c hc)
    · refine List.pairwise_cons.2 ⟨fun c hc => ?_, ih hp.2 fun c hc => hx c (List.mem_cons_of_mem _ hc)⟩
      rcases cellsPut_mem hc with hc | rfl
      · exact hp.1 c hc
      · have := hx a (List.mem_cons_self ..)
        simp only
        omega

/-- Writing a byte keeps the canonical form. -/
theorem cellsSet_wf {d : Byte} {l : List Host.Cell} (h : cellsWf d l) (x : Nat) (v : Byte) : cellsWf d (cellsSet d l x v) := by
  have h1 : (l.filter fun c => c.1 != x).Pairwise fun a b => a.1 < b.1 := h.1.filter _
  have h2 : ∀ c ∈ l.filter (fun c => c.1 != x), c.2 ≠ d := fun c hc => h.2 c (List.mem_of_mem_filter hc)
  simp only [cellsSet]
  split_ifs with hv
  · exact ⟨h1, h2⟩
  · refine ⟨cellsPut_sorted h1 (fun c hc => by simpa using (List.mem_filter.1 hc).2) v, fun c hc => ?_⟩
    rcases cellsPut_mem hc with hc | rfl
    · exact h2 c hc
    · exact hv

theorem cellsWrite_wf {d : Byte} (b : Bytes) {l : List Host.Cell} (h : cellsWf d l) (x : Nat) : cellsWf d (cellsWrite d l x b) := by
  induction b generalizing l x with
  | nil => exact h
  | cons v r ih => exact ih (cellsSet_wf h x v) (x + 1)

theorem cellsClear_wf {d : Byte} {l : List Host.Cell} (h : cellsWf d l) (x n : Nat) : cellsWf d (cellsClear l x n) :=
  ⟨h.1.filter _, fun c hc => h.2 c (List.mem_of_mem_filter hc)⟩

theorem cellsCopy_wf {d : Byte} (src : List Host.Cell) {dst : List Host.Cell} (h : cellsWf d dst) (x y n : Nat) :
    cellsWf d (cellsCopy d src dst x y n) := by
  unfold cellsCopy
  generalize src.filter _ = l
  have h' := cellsClear_wf h y n
  generalize cellsClear dst y n = m at h'
  induction l generalizing m with
  | nil => exact h'
  | cons c r ih => exact ih _ (cellsSet_wf h' _ _)

theorem cellsGet_filter {d : Byte} (l : List Host.Cell) (p : Nat → Bool) (y : Nat) :
    cellsGet d (l.filter fun c => p c.1) y = if p y then cellsGet d l y else d := by
  induction l with
  | nil => simp [cellsGet]
  | cons c r ih =>
    obtain ⟨a, b⟩ := c
    by_cases hy : y = a
    · subst hy
      by_cases hp : p y <;> simp_all [cellsGet]
    · by_cases hp : p a <;> simp_all [cellsGet]

theorem cellsGet_put {d : Byte} {l : List Host.Cell} {x : Nat} (hx : ∀ c ∈ l, c.1 ≠ x) (y : Nat) (v : Byte) :
    cellsGet d (cellsPut x v l) y = if y = x then v else cellsGet d l y := by
  induction l with
  | nil => simp [cellsPut, cellsGet]
  | cons c r ih =>
    obtain ⟨a, b⟩ := c
    have ha : x ≠ a := (hx (a, b) (List.mem_cons_self ..)).symm
    have ih := ih fun c hc => hx c (List.mem_cons_of_mem _ hc)
    by_cases h1 : x < a
    · simp only [cellsPut, if_pos h1]
      rfl
    · simp only [cellsPut, if_neg h1, cellsGet, ih]
      by_cases hy : y = x
      · subst hy
        rw [if_neg ha, if_pos rfl, if_pos rfl]
      · rw [if_neg hy, if_neg hy]

/-- A byte reads as it was last written; the others keep theirs. -/
theorem cellsGet_set {d : Byte} (l : List Host.Cell) (x y : Nat) (v : Byte) :
    cellsGet d (cellsSet d l x v) y = if y = x then v else cellsGet d l y := by
  have hf := cellsGet_filter (d := d) l (· != x) y
  simp only [cellsSet]
  split_ifs with hv hy hy
  · simp_all
  · simp_all
  · rw [cellsGet_put (fun c hc => by simpa using (List.mem_filter.1 hc).2), if_pos hy]
  · rw [cellsGet_put (fun c hc => by simpa using (List.mem_filter.1 hc).2), if_neg hy, hf]
    simp_all

/-- Cleared bytes read the default. -/
theorem cellsGet_clear {d : Byte} (l : List Host.Cell) (x n y : Nat) :
    cellsGet d (cellsClear l x n) y = if x ≤ y ∧ y < x + n then d else cellsGet d l y := by
  have := cellsGet_filter (d := d) l (fun a => decide (a < x) || decide (x + n ≤ a)) y
  simp only [cellsClear, this, Bool.or_eq_true, decide_eq_true_eq]
  split_ifs <;> first | rfl | omega

@[simp] theorem healOn_bytes (e : Extent) (o n : Nat) (s : State) : (healOn e o n s).mem.bytes = s.mem.bytes := by
  unfold healOn; dsimp only
  split
  · split <;> rfl
  · refine (foldl_keep (fun s : State => s.mem.bytes) _ (fun s x => ?_) _ _).trans ?_ <;> split <;> rfl

@[simp] theorem healOn_mirror (e : Extent) (o n : Nat) (s : State) : (healOn e o n s).mem.mirror = s.mem.mirror := by
  unfold healOn; dsimp only
  split
  · split <;> rfl
  · refine (foldl_keep (fun s : State => s.mem.mirror) _ (fun s x => ?_) _ _).trans ?_ <;> split <;> rfl

theorem healOn_wf {s : State} (h : s.mem.wf) (e : Extent) (o n : Nat) : (healOn e o n s).mem.wf := by
  simpa [Memory.wf] using h

theorem healRun_wf {s : State} (h : s.mem.wf) (o n : Nat) : (healRun o n s).mem.wf := by
  unfold healRun
  cases anyExtent s o with
  | none => exact h
  | some e => exact healOn_wf h e o n

theorem zeroPieces_wf {s : State} (h : s.mem.wf) (n : Nat) (q : Nat → Bool) : (zeroPieces n q s).mem.wf := by
  unfold zeroPieces
  dsimp only
  split
  · exact h
  · rw [foldl_keep (fun s : State => s.mem)]
    · exact h
    · intro s x
      split <;> rfl

theorem zeroFirst_wf {s : State} (h : s.mem.wf) (e : Extent) (o : Nat) : (zeroFirst e o s).mem.wf := by
  unfold zeroFirst
  split
  · exact zeroPieces_wf h _ _
  · exact h

/-- A write of memory keeps the canonical form of memory and of the tray-pair copy. -/
theorem memWrite_wf {s : State} (h : s.mem.wf) (o : Nat) (d : Bytes) : (memWrite o d s).mem.wf := by
  unfold memWrite
  extract_lets a m b c
  have ha : a.mem = s.mem := dropCached_mem ..
  have hb : b.mem.wf := by
    refine ⟨?_, ?_⟩
    · show cellsWf 0 (cellsWrite 0 a.mem.bytes o d)
      exact ha ▸ cellsWrite_wf d h.1 o
    · show cellsWf 0 a.mem.mirror
      exact ha ▸ h.2
  have hc : c.mem.wf := healRun_wf hb o d.length
  clear_value c
  split
  · exact hc
  · extract_lets u m v
    have hu : u.mem.wf := zeroFirst_wf hc _ _
    have hv : v.mem.wf := by
      simp only [v]
      split
      · exact ⟨hu.1, cellsWrite_wf d hu.2 o⟩
      · exact hu
    clear_value v
    split <;> simpa only [mirrorOut_mem] using hv

theorem memClear_wf {s : State} (h : s.mem.wf) (e : Extent) : (memClear e s).mem.wf := by
  unfold memClear
  extract_lets o n a
  have ha : a.mem = s.mem := dropCached_mem ..
  exact healOn_wf ⟨ha ▸ cellsClear_wf h.1 o n, ha ▸ cellsClear_wf h.2 o n⟩ e o n

end Sys2Proof.Machine
end

