-- ==== Sys2Proof/Laws/Memory.lean ====
section
/-! SUPPORT. Every operation that writes the module's memory keeps its canonical form. -/

namespace Sys2Proof.Machine

/-- Memory after reset is in its canonical form. -/
theorem reset_mem_wf : State.reset.mem.wf := by decide

/-- An operation that leaves memory alone keeps its form. -/
theorem wf_of_mem_eq {s t : State} (h : s.mem.wf) (e : t.mem = s.mem) : t.mem.wf := e ▸ h

theorem memCopy_wf {s : State} (h : s.mem.wf) (o o' n : Nat) : (memCopy o o' n s).mem.wf := by
  unfold memCopy
  extract_lets a m b
  have ha : a.mem.wf := healRun_wf (wf_of_mem_eq h (dropCached_mem ..)) o' n
  have hb : b.mem.wf := ⟨cellsCopy_wf _ ha.1 o o' n, ha.2⟩
  clear_value b
  split
  · extract_lets u m v
    have hu : u.mem.wf := zeroFirst_wf hb _ _
    have hv : v.mem.wf := by
      simp only [v]
      split
      · exact ⟨hu.1, cellsCopy_wf _ hu.2 o o' n⟩
      · exact hu
    clear_value v
    split <;> simpa only [mirrorOut_mem] using hv
  · exact hb

theorem storeLine_wf {s : State} (h : s.mem.wf) (l : Nat) (d : Bytes) : (storeLine l d s).mem.wf := by
  unfold storeLine
  split
  · exact h
  · split_ifs
    · exact h
    · exact memWrite_wf h _ _

theorem setMirror_wf {s : State} (h : s.mem.wf) (e : Extent) (m p : Nat) : (setMirror e m p s).mem.wf := by
  unfold setMirror
  extract_lets new s1 m s2 twin
  have h2 : s2.mem.wf := by
    simp only [s2]
    split
    · exact ⟨h.1, cellsClear_wf h.2 _ _⟩
    · exact h
  clear_value s2
  split_ifs
  · exact h2
  · exact h2
  · exact wf_of_mem_eq h2 (mirrorSend_mem ..)
  · exact h2

theorem mirrorCopyEnd_wf {s : State} (h : s.mem.wf) (b : Nat) : (mirrorCopyEnd b s).mem.wf := by
  unfold mirrorCopyEnd
  dsimp only
  split
  · exact h
  · split_ifs
    · exact h
    · exact ⟨h.1, cellsCopy_wf _ h.2 _ _ _⟩
    · exact h

theorem trayCopyBackEnd_wf {s : State} (h : s.mem.wf) (b : Nat) : (trayCopyBackEnd b s).mem.wf := by
  unfold trayCopyBackEnd
  dsimp only
  split
  · exact h
  · split_ifs
    · exact h
    · exact ⟨h.1, cellsCopy_wf _ h.2 _ _ _⟩

@[simp] theorem endRecovery_mem (p c u : Nat) (s : State) : (endRecovery p c u s).mem = s.mem := rfl

theorem trayFailover_wf {s : State} (h : s.mem.wf) (b : Nat) : (trayFailover b s).mem.wf := by
  unfold trayFailover
  split
  · exact h
  · dsimp only
    split_ifs <;> (try simp only [endRecovery_mem, eventMO_mem]) <;>
      first | exact h | exact ⟨cellsCopy_wf _ h.1 _ _ _, h.2⟩

end Sys2Proof.Machine
end

