-- ==== Sys2Proof/WellFormed.lean ====
section
/-! DEFINITION. Well-formed commands: operands within the widths and ranges the manual gives them. -/

namespace Sys2Proof

/-- A Saxel port number (R13). -/
def saxOk (p : Nat) : Bool := p < 256
/-- A tray port number (R13). -/
def trayOk (t : Nat) : Bool := t < 32
/-- A nook (R15). -/
def nookOk (n : Nat) : Bool := n < 96
/-- A stack channel: channel c of stack k is 32 k + c (R154). -/
def chanOk (c : Nat) : Bool := c < 768
/-- A partition (R18). -/
def partOk (p : Nat) : Bool := p < 16

/-- The mailbox exists (R398). -/
def mbxOk : MbxId → Bool
  | .tenant p => partOk p
  | _ => true

/-- Field widths of R341 and R342. -/
def lineOk (m : LineMsg) : Bool :=
  m.dst < 2 ^ 22 && m.src < 2 ^ 22 && m.txn < 2 ^ 20 && m.heat < 16 && m.status < 256 && m.grant < 8 &&
    m.epoch < 2 ^ 32 && m.addr < 2 ^ 56 && m.acode < 16 && m.ltag < 2 ^ 16 && m.op1 < 2 ^ 64 && m.op2 < 2 ^ 64 &&
    (m.data.isEmpty || m.data.length == 64)

/-- Field widths of R341 and R343. -/
def pktOk (m : PktMsg) : Bool :=
  m.dst < 2 ^ 22 && m.src < 2 ^ 22 && m.txn < 2 ^ 20 && m.opc < 256 && m.status < 256 && m.hops < 16 && m.heat < 16 &&
    m.epoch < 2 ^ 32 && m.tenant < 2 ^ 32 && m.tag < 2 ^ 16 && m.bytes ≤ 2048 && m.body.length ≤ 4064

/-- Field widths of R333. -/
def cfgOk (r : ConfigRec) : Bool :=
  r.serial < 2 ^ 64 && r.credits.length == 7 && r.credits.all (· < 2 ^ 16) && r.cell < 1024 && r.module < 16 &&
    r.port < 256 && r.role < 4 && r.linkKind < 4 && r.rates < 8 && r.version < 256

/-- A flit has 15 slots, a 64-bit header and a 64-bit CRC (R335). -/
def flitOk (f : Flit) : Bool := f.hdr < 2 ^ 64 && f.slots.length == 15 && f.crc < 2 ^ 64

/-- A register offset: a multiple of 4 in the 64 KiB window (R353). -/
def offOk (o : Nat) : Bool := o < 65536 && o % 4 == 0

/-- An 8-bit frame sequence number (R353). -/
def seqOk (q : Nat) : Bool := q < 256

/-- The operands of a command are in range. -/
def Instr.wf : Instr → Bool
  | .deviceInfo m | .warmRestart m | .moduleHealth m | .profileRead m | .profileWrite m | .profileSelect m
  | .twinPair m | .twinUnpair m | .twinStatus m | .twinTakeover m | .partitionCreate m | .partitionDestroy m
  | .nookMove m | .partitionQuiesce m | .partitionResume m | .partitionInfo m | .extentAdd m | .extentRelease m
  | .extentSetAttr m | .routeSet m | .mapCommit m | .mapDiscard m | .mapRead m | .dirRead m | .lineClear m
  | .lostlogRead m | .portMove m | .peerAdmit m | .peerEvict m | .portStatus m | .portRetrain m | .damperPortSet m
  | .damperSvcSet m | .damperSubSet m | .damperSubClear m | .damperStats m | .emberSet m | .emberLinkAsym m
  | .emberStatus m | .calWrite m | .calCopy m | .calArm m | .calCancel m | .calStop m | .calRead m | .tableCreate m
  | .tableDestroy m | .tableCachePin m | .tableCacheUnpin m | .tableUpdateSet m | .tableSlotsAdd m | .stepClose m
  | .tableRowWrite m | .tableGenBegin m | .tableGenSeal m | .tableGenCommit m | .tableGenAbort m
  | .tableMigrateOut m | .tableMigrateCommit m | .tableMigrateRelease m | .tableShardLoad m | .templateRegister m
  | .templateRemove m | .groupCreate m | .groupDestroy m | .bellowsListLoad m | .bellowsListStop m | .ashNsCreate m
  | .ashNsDestroy m | .ashAssign m | .ashWrite m | .ashRead m | .ashTrim m | .ashStatus m | .hallmarkGet m
  | .ckeyLoad m | .ckeyUnload m | .debugOpen m | .debugClose m | .measlogRead m | .eventRead m | .eventNotify m
  | .telemetryGet m | .telemetryStream m | .draftWrite m | .draftRead m | .draftClear m | .fwWrite m | .fwVerify m
  | .fwActivate m | .fwStatus m => mbxOk m
  | .pour (.mbx m) => mbxOk m
  | .pour (.msg p m) => saxOk p && pktOk m
  | .mbxSubmit _ q _ | .doorbell _ q _ | .masterWrite _ q _ _ | .faultCauseClear _ q _ | .irqStatusClear _ q _
  | .irqEnableWrite _ q _ | .chimneyFrameRetry _ q => seqOk q
  | .mbxBufferWrite _ q o d => seqOk q && offOk o && d.length ≤ 256
  | .draftRegisterWrite _ q o _ | .regWr _ q o _ => seqOk q && offOk o
  | .mbxCmd p m | .post p m | .collect p m | .collectAnswer p m | .msgCmp p m | .messageForward p m
  | .neighbourHello p m | .contrib p m | .partialMsg p m | .result p m | .endMsg p m | .syncReq p m _
  | .syncRsp p m _ | .announce p m | .migrationRowArrival p m => saxOk p && pktOk m
  | .rdShared p m | .rdOwn p m | .upgrade p m | .rdNc p m | .wrLine p m | .wrMask p m | .atomic p m | .fence p m
  | .ackInv p m | .ackShared p m | .notHeld p m | .evictClean p m | .placeAck p m | .placeDecline p m
  | .snpData p m | .wbData p m => saxOk p && lineOk m
  | .config p r => saxOk p && cfgOk r
  | .flitReceive p f => saxOk p && flitOk f
  | .tenantCompletionPost p | .eventMessageSend p | .recoveryEnd p | .nonceExpiry p | .takeoverDrainTimeout p
  | .tenantWindowStart p | .shardMoveRow p | .shardMoveEnd p => partOk p
  | .detectProbe p | .peerDetected p | .equalizeConverged p | .codewordLock p | .configRepeat p | .linkUp p
  | .portStep p | .portStepEnd p | .lockLossTimeout p | .lccShutdown p | .retrainDone p _ | .flitSend p
  | .replayTimeout p | .ackStallTimeout p | .spdm p _ | .spdmResponseTimeout p | .handshakeTimeout p
  | .keyUpdateStart p | .heartbeatTimeout p | .helloTimer p => saxOk p
  | .laneTrained p l | .laneLockLoss p l | .adaptationWindow p l _ _ _ => saxOk p && l < 256
  | .mirrorAccess p _ _ _ d => saxOk p && d.length ≤ 64
  | .mirrorWrite p q _ _ => saxOk p && q ≤ 16
  | .frameSelect tr p | .damperParamApply tr p => if tr then trayOk p else saxOk p
  | .cxlMemrd t _ a _ | .cxlMeminv t a _ | .cxlMemclnevct t a _ | .cxlMemspecrd t a | .cxlBirsp t a _
  | .cxlBiconflict t a _ | .trayReadFail t a | .bridgeAccess t a _ => trayOk t && a < 2 ^ 64
  | .cxlMemwr t a _ _ d => trayOk t && a < 2 ^ 64 && d.length == 64
  | .trayCreditResume t | .dcAddAccept t _ | .dcReleaseResponse t _ | .trayLinkDown t | .trayPerstN t _
  | .trayPrsntN t _ | .cinderCompletion t _ _ | .cinderCommandTimeout t _ _ | .cinderAbortTimeout t _
  | .trayLinkUp t => trayOk t
  | .segmentAcquire c _ _ | .segmentAcquired c | .segmentAbandon c | .segmentRelease c | .strokeStart c
  | .strokeEnd c | .refreshDue c | .refreshFallback c | .scrubDue c | .scrubFallback c | .scrubBurst c _ _
  | .benchTransfer c _ | .refreshEnd c | .channelRetireTrigger c _ | .channelRetire c => chanOk c
  | .chainAdmit n | .nookDrainTimeout n | .nookMoveEnd n | .zeroingRegion n _ => nookOk n
  | .placedWrite p _ _ d => partOk p && d.length == 64
  | .templateDeferredStart p _ | .stepApply p _ _ | .applySlotTimeout p _ | .closeComplete p _ | .slotWaveFree p _
  | .genDrainEnd p _ | .genCopyEnd p _ | .collectiveLocalDeadline p _ _ | .collectiveResultDeadline p _ _
  | .bellowsEntryStart p _ _ | .bellowsChunk p _ _ | .bellowsEntryComplete p _ _ | .pushStartTime p _ _
  | .ashUnitProgrammed p _ => partOk p
  | .refclkLost c | .refclkReturn c => c < 3
  | .tempSample _ ts => ts.length == 24
  | .smbusBlockRead c => c < 256
  | .emberDelayCheck ds => ds.length == 7
  | .deferredCommandEnd t => t < 2 ^ 16
  | .mbxOverrunRead _ | .emberNsLoRead _ | .irqAck _ | .irqResend | .fwStreamTimeout | .lineRequestResume _
  | .snoopTimeout _ _ | .writebackTimeout _ _ | .agentCrash _ | .reclaimWalkEnd _ | .agentReclaimEnd _
  | .lineHoldAtomic _ | .homeAtomic _ | .devownRecallEnd _ | .requestTimeout _ | .chainComplete _ | .chainTimeout _
  | .memoryResponse _ _ | .ladleIndex _ _ _ | .rowReadDone _ _ _ | .scatterBatch _ _ _ | .loadBucketTick
  | .balancerTick | .slotBoundary | .gateOpen _ | .gateClose _ | .chainStart _ | .calStepClose _ | .refresh _
  | .scrub _ | .xbarShare _ | .mark _ | .calSwap | .calStopAct | .mapCommitAct | .mapRetire | .releaseDeadline _
  | .releaseEnd _ | .syncExchangeTimer | .announceTimer | .upstreamLost | .ppsEdge | .ppsTimeout | .ppsOutPulse
  | .ppsOutEnd | .ckeyExpiry _ | .keyPoolRefill | .trngHealthFail | .ashBackgroundWork _ | .cleanerCycle _ _
  | .sramUncorrectable _ | .mantelRestartEnd | .trayFailover _ | .trayCopyBackEnd _ | .throttle
  | .telemetrySample _ _ | .suppliesValid | .supplyOutOfRange | .supplyLoss | .modRstNFall | .startInstant _ _
  | .readyBasic | .readyFull | .pwrBrakeAssert | .pwrBrakeRelease | .brakeLatchClear | .twinPaired | .twinDown
  | .twinLinksDown | .twinSyncEnd | .memoryAccessDone _ _ _ | .mirrorCopyEnd _ | .keyPairWaitTimeout
  | .twinPairTimeout | .trngHealthRestored | .chimneyLinkDown _ | .chimneyLinkUp _ | .twinSenseN _
  | .supplyBackInRange => true

end Sys2Proof
end

