-- ==== Sys2Proof/Tests/Slice0.lean ====
section
/-! SUPPORT. Tests: ill-formed commands, the manual's worked examples, and for each clause of a statement that has hypotheses
a state and operands that meet them all. -/

namespace Sys2Proof.Tests

open Sys2Proof.Machine

section

set_option Elab.async false
set_option linter.all false

/-! ## States that the witnesses and tests start from -/

/-- A running module: supplies valid, started, READY_BASIC and READY_FULL. -/
def up0 : State :=
  { State.reset with power := { startDue := false, started := true, readyBasic := true, readyFull := true } }

/-- It with partition 1 on nooks 1 and 2, a system nook, an accelerator on port 0, a stage link on port 4, a twin link on
port 8, an expander on tray port 0, a host on tray port 1 and a bridge on tray port 2. -/
def w : State :=
  let x : SaxPort := { st := .up, owner := some 1, lanes := [0], sess := { phase := 3 } }
  { up0 with
    ten := { parts := [{ id := 1, agents := 4, tag := 5, keyPair := some 7 }],
             nooks := (((List.replicate 96 Owner.free).set 0 .system).set 1 (.part 1)).set 2 (.part 1) },
    flash := { prof := { sysNooks := 1 } },
    sax := ((((List.replicate 256 ({} : SaxPort)).set 0 { x with kind := 0, admitted := true, caching := true }).set 4
      { x with kind := 1, owner := none, lanes := [4], admitted := true, peer := some { linkKind := 1, module := 3, port := 4 } }).set 8
      { x with kind := 2, owner := none, lanes := [8], admitted := true, peer := some { linkKind := 2, module := 2, port := 8 } }),
    trays := (((List.replicate 32 ({} : TrayPort)).set 0 { mode := 1, owner := some 1, present := true, up := true, perstLow := false }).set 1
      { mode := 2, owner := some 1, present := true, up := true, perstLow := false }).set 2
      { mode := 3, owner := some 1, present := true, up := true, perstLow := false } }

/-- A command of a Chimney mailbox that may start. -/
def jb (op : Nat) (b : Bytes) : Job := { id := 1, op := op, part := 1, payload := b }
def run (s : State) (j : Job) : State := { s with mantel := { s.mantel with jobs := [j] } }

def nxt : Host.Outcome State Fault Refusal → State
  | .next t => t
  | _ => {}
/-- The module with a Saxel port changed. -/
def wp (p : Nat) (f : SaxPort → SaxPort) : State := { w with sax := w.sax.modify p f }
def cfgIn (m : Bool) (s : PortSt) : State := wp 4 fun x => { x with st := s, peer := if m then x.peer else none, mismatch := !m }
def cfgRec : ConfigRec := { role := 1, linkKind := 1, credits := [9, 9, 9, 9, 9, 9, 9] }
def wq : State := wp 4 fun x => { x with sess := {}, tx := List.replicate 16 3 }
/-- A flit with the CRC of its header and slots. -/
def mkFl (h : Nat) (l : List (BitVec 128)) : Flit := { hdr := h, slots := l, crc := crc64 (flitBytes h l) }
theorem mkFl_crc (h : Nat) (l : List (BitVec 128)) : crc64 (flitBytes (mkFl h l).hdr (mkFl h l).slots) = (mkFl h l).crc := by simp only [mkFl]
def fl0 : Flit := mkFl (2 ^ 52 * 0) (List.replicate 15 5)
def fl1 : Flit := mkFl (2 ^ 52 * 9) (List.replicate 15 5)
/-- A coherent extent of partition 1 on nook 1, and one that no host caches, agent 3 on port 0 and agent 4 on tray port 1. -/
def exc : Extent := { base := 16, granules := 2, nook := 1, part := 1, coh := true, devown := true, hostmask := 2 }
def exn : Extent := { base := 32, nook := 1, part := 1, devown := true, hostmask := 2 }
def wd : State :=
  { w with maps := { cur := { epoch := 1, exts := [exc, exn] }, ext := [{ base := 16, accepted := [1] }] },
           dir := { agents := [{ id := 3, port := 0, part := 1 }, { id := 4, tray := true, port := 1, part := 1 }] } }
def lm : LineMsg := { src := accelEp w 0, txn := 6, addr := 16 * 2 ^ 28, epoch := 1, mask := 5 }
def pol (s : State) (opc : Nat) : Bool × Nat × State := police 0 lm.src (rawFlits true (1 + lineLen .req opc false)) false (eatLine 0 .req opc s)
/-- The line of `lm`, and the state with a transaction of it. -/
def l0 : Nat := 2 ^ 26
def tx0 (k : ReqKind) : Tx := { line := l0, req := { src := .sax 0, kind := k, m := lm, line := l0, agent := some 3, part := 1 } }
def wx (t : Tx) : State := { wd with dir := { wd.dir with txs := [t] } }
def sn (a k : Nat) : Snoop := { agent := a, line := l0, kind := k, txn := 6 }
def wsn (a k : Nat) (own : Bool) : State :=
  { wd with dir := { wd.dir with snoops := [sn a k], ents := [{ line := l0, nook := 1, st := if own then .m else .s, sharers := [3], fwd := 3 }] } }
def weo : State := { wd with dir := { wd.dir with ents := [{ line := l0, nook := 1, st := .m, sharers := [3], fwd := 3 }] } }
def weh : State := { wd with dir := { wd.dir with ents := [{ line := l0, nook := 1, st := .s, sharers := [4], fwd := 4 }] } }
def wag (g : Agent) : State := { wd with dir := { wd.dir with agents := [g] } }
/-- Every way of the line's set is being evicted. -/
def wev : State :=
  { wd with dir := { wd.dir with ents := (List.range 16).map fun i => { line := l0 + 4096 * (i + 1), nook := 1, way := i, st := .s, sharers := [3], evict := true } } }
def seg0 : Segment := { chan := 8, first := l0, lines := 4 }
def wsg (h : Bool) (t : Nat) : State := { wd with t := t, dir := { wd.dir with segs := [{ seg0 with held := h }] } }
def extBytes (e : Extent) : Bytes := encExtent e
/-- A plain extent of partition 1, in use by nobody. -/
def exp_ : Extent := { base := 64, granules := 2, nook := 1, part := 1 }
def wmap (e : Extent) : State := { w with maps := { cur := { epoch := 1, exts := [e] } } }
def ext0 : Extent := { base := 64, nook := 1, part := 1, tray := true, mirror := 2, trayPort := 0, mirrorPort := 3 }
def wxt (x : ExtState) : State := { wmap ext0 with maps := { cur := { epoch := 1, exts := [ext0] }, ext := [{ x with base := 64 }] } }
def trp (k : TrayPort) : State := { w with trays := w.trays.set 5 k }
/-- A route to module 3 over port 4, a second accelerator on port 12, epoch 1. -/
def wm : State :=
  { w with sax := w.sax.set 12 (w.port 0), maps := { cur := { epoch := 1, routes := [{ own := true, dest := 3, ports := [4] }] } } }
def msg0 : PktMsg := { dst := epId 0 3 4, src := accelEp wm 0, txn := 5, opc := 1, epoch := 1, tag := 9, bytes := 8, body := List.replicate 8 1 }
def pktOf (r : Except Status PktMsg × State) : PktMsg := match r.1 with
  | .ok q => q
  | _ => {}
/-- A message in transit on port 4, and a neighbour hello there. -/
def msgT : PktMsg := { msg0 with src := epId 0 3 4, dst := accelEp wm 12, tag := 0xFF02 }
def msgA (o : Nat) : PktMsg := { msg0 with src := epId 0 3 4, dst := accelEp wm 12, opc := o, bytes := 0, body := [] }
def wtk : State := { wm with mem := { wm.mem with trks := [{ id := 7, vc := .msg, src := accelEp wm 12, txn := 5, svc := 3, opc := 2 }] } }
def wown : State :=
  { wm with mem := { wm.mem with trks := [{ id := 5, vc := .msg, src := ownId wm, txn := 5, svc := 3, opc := 1, own := some msg0 }] } }
def hello3 : Hello := { module := 3, port := 4, linkKind := 1, serial := 11 }
def whello : State := { wm with sax := wm.sax.modify 4 fun x => { x with peer := some { linkKind := 1, module := 3, port := 4, serial := 11 } } }
def msgH : PktMsg := { msg0 with src := epId 0 3 4, dst := ownId wm, tag := helloTag, bytes := 32, body := encHello hello3 }
/-- A group of one rank on port 0 whose module is the root, and one whose parent is module 3. -/
def grp : Group := { id := 2, part := 1, elems := 300, localDl := 1000, nranks := 1, root := true, members := [(0, 0, epId 0 3 9)] }
def grk : Group := { grp with id := 3, root := false, parent := epId 0 3 4, resultDl := 5000, children := [(1, 2, epId 0 5 12)] }
def grpBytes : Bytes :=
  toLE 64 (2 + 2 ^ 38 + 2 ^ 46 + 2 ^ 47 + 2 ^ 56 + 2 ^ 288 + 2 ^ 368 * 0xFFFFFF + 2 ^ 392 + 2 ^ 448 * 1000 + 2 ^ 480 * 300) ++ toLE 8 (accelEp w 0)
def wgr (t : Nat) : State :=
  { wm with ember := { fx := 65536 * t }, groups := { groups := [grp, grk], insts := [{ part := 1, group := 2, inst := 6, cid := 40 }, { part := 1, group := 3, inst := 6, cid := 41 }] },
            chains := { wm.chains with chains := [{ cid := 40, part := 1, admitted := true }, { cid := 41, part := 1, admitted := true }] } }
def collBody (gid kind : Nat) (n : Nat) : Bytes := toLE 16 (2 ^ 112 * gid + 2 ^ 80 * 6 + 2 ^ 36 * n + 2 ^ 8 * kind) ++ List.replicate (4 * n) 0
def msgC (gid kind n : Nat) (src : Nat) : PktMsg :=
  { dst := ownId wm, src := src, txn := 3, opc := 6, epoch := 1, tenant := 5, bytes := (collBody gid kind n).length, body := collBody gid kind n }
/-- A COPY of 64 bytes, and the chain of it: partition 1, HOME 1, epoch 1. -/
def copyB : Bytes := toLE 64 (10 + 2 ^ 64 * 64 + 2 ^ 112 + 2 ^ 128 * (64 * 2 ^ 28 + 4096) + 2 ^ 384 * (64 * 2 ^ 28))
def hdrB (t : Nat) : Bytes := toLE 64 (77 + 2 ^ 100 + 2 ^ 113 + 2 ^ 240 * t + 2 ^ 256)
def pourB : Bytes := hdrB 0xFFFF ++ copyB
def wch : State := { wmap exp_ with sax := w.sax }
def poured : Bytes × List Bytes := (hdrB 0xFFFF, [copyB])
def tpl : Template := { part := 1, id := 6, nook := 1, bytes := hdrB 6 ++ copyB }
def msgP : PktMsg := { dst := ownId w, src := accelEp w 0, txn := 3, opc := 4, epoch := 1, bytes := 128, body := pourB }
/-- A chain in a nook's queue, and with it admitted. -/
def chq : Chain := { newChain (.mbx 1) poured with cid := 50, stages := [{}] }
def chr (d : Bytes) : Chain := { chq with descs := [d], admitted := true }
def withCh (c : Chain) (s : State) : State := { s with chains := { s.chains with chains := [c] } }
def opB (op : Nat) : Bytes := toLE 64 op
/-- A look-up table of partition 1 in plain memory, its shard map and one RIT entry, and a chain that wants row 0. -/
def base64 : Nat := 64 * 2 ^ 28
def tbl : Table := { d := { rit := base64 + 4096, smap := base64 + 65536, rows := 256, nspan := 1, elems := 16, coord := 1, part := 1, id := 4 } }
def lkB : Bytes := toLE 64 (1 + 2 ^ 13 + 2 ^ 112 * 16 + 2 ^ 128 * 4)
def chl (x : RowRef) : Chain := { chr lkB with stages := [{ phase := 1, rows := [{ x with table := 4 }] }] }
def wlk (x : RowRef) (entry : Bool) : State :=
  let m := cellsWrite 0 [] (base64 + 65536) [1]
  let m := if entry then cellsWrite 0 m (base64 + 4096) (toLE 8 (ritEntry 0 true false (base64 / 64 + 16384))) else m
  withCh (chl x) { wch with tables := [tbl], mem := { wch.mem with bytes := m } }
def wcn (f : Chan → Chan) : State := { wch with chans := w.chans.modify 8 f }
def schd (t : Nat) : State := { wch with t := t, cal := { running := true, scheduled := [8] } }
def lf (n : Bool) : Leaf := { cid := 50, accs := 16, left := 0, resent := n }
/-- Plain memory in use by updates; a shard map that names nook 1 for every shard; the addresses of the update areas. -/
def exd : Extent := { exp_ with devown := true }
def smapCells : List Host.Cell := (List.range 256).map fun k => (base64 + 65536 + k, 1)
def uaCells : List Host.Cell := cellsWrite 0 [] (base64 + 131072) (toLE 8 (base64 + 2 ^ 20))
def wua : State := { wmap { exd with nook := 0 } with tables := [tbl], mem := { w.mem with bytes := uaCells } }
def wtb (l : List Table) : State :=
  { wmap exd with tables := l, mem := { w.mem with bytes := smapCells },
                  maps := { cur := { epoch := 1, exts := [exd], routes := [{ own := true, dest := 3, ports := [4] }] } } }
def tblX : Nat := 4 + 2 ^ 84 + 2 ^ 89 + 2 ^ 112 * 16 + 2 ^ 128 + 2 ^ 212 * 256 + 2 ^ 384 * (base64 + 65536) + 2 ^ 448 * (base64 + 4096)
def tblU : Table := { tbl with u := some { slots := 1 } }
def tblC : Table := { tbl with d := { tbl.d with cache := 2 } }
def tblF : Table := { tblU with free := [(1, base64 + 2 ^ 20)] }
def mgr (c : Bool) : Migr := { count := 1, dest := epId 0 3 4, dtable := 5, committed := c }
def tblM (c : Bool) : Table := { tbl with migr := [mgr c] }
def outP : Bytes := [1, 0, 4, 0, 5, 0, 0, 0, 1, 0, 0, 0] ++ toLE 4 (epId 0 3 4)
def outS : Except Status (List Nat) × State :=
  migSend 1 (epId 0 3 4) (migHdr 5 0 0 0 0 0 (ownId w) (migShape tbl.d).length) (migShape tbl.d) (startJob (jb 0x080D outP) (run (wtb [tbl]) (jb 0x080D outP)))
def outL : List Nat := match outS.1 with
  | .ok l => l
  | _ => []
/-- A SCATTER_ADD that has a batch out to nook 1, and its table. -/
def scB (step : Nat) : Bytes := toLE 64 (2 + 2 ^ 112 * 16 + 2 ^ 128 * 4 + 2 ^ 160 * step)
def chS (step : Nat) : Chain :=
  { chr (scB step) with stages := [{ phase := 2, homes := [1], rows := [{ table := 4, row := 3, nook := 1, state := 1 }], ups := [{ data := List.replicate 64 0 }] }] }
def wsc (t : Table) (step : Nat) : State := withCh (chS step) (wtb [t])
def batch (t : Table) (step : Nat) : Batch := takeBatch (wsc t step) t 1 step (ownId w) 77 0 [(3, List.replicate 64 0)]
def tblTaken : Table := match batch tblU 1 with
  | .taken t => t
  | _ => {}
def tblR : Table := { tblU with receipts := [{ src := ownId w, reqId := 77, step := 1, nook := 1 }] }
def acc3 : Accum := { row := 3, step := 1, nook := 1, acc := List.replicate 16 {} }
def tblA (w : Option Nat) : Table := { tblF with closed := 1, accs := [acc3], close := some { step := 1, waits := (w.map fun t => (3, t)).toList } }
def fl3 : List (Melt × Bool) := ((List.range 16).mapM (fun k => (({} : Melt).addImage (acc3.acc.getD k {})).map fun y => (y.1, false || y.2))).getD []
def new3 : Option Bytes × Nat := applyRow (tblA none) { slots := 1 } 3 1 0 (fl3.map (·.1)) (List.replicate 64 0)
def wb (t : Nat) (s : State) : State := { s with ember := { fx := 65536 * t } }
def tblB : Table :=
  { tbl with u := some { slots := 1, move := true, uareas := [0, base64 + 2 ^ 20, base64 + 2 ^ 20] },
             loads := [(0, [0, 100000]), (1, [0, 100000])], free := [(2, base64 + 2 ^ 20)] }
def wbal : State := wb 1000000 (wtb [tblB])
def mv (n : Nat) : ShardMove := { part := 1, table := 4, dst := 2, next := n }
def wmr (n : Nat) (valid : Bool) : State :=
  let m := if valid then cellsWrite 0 smapCells (base64 + 4096) (toLE 8 (ritEntry 0 true false (base64 / 64 + 16384))) else smapCells
  { wtb [tblB] with moves := [mv n], mem := { w.mem with bytes := m } }
def msgM : PktMsg :=
  let b := migHdr 4 0 0 0 0 0 (epId 0 3 4) (migShape tbl.d).length ++ migShape tbl.d
  { dst := ownId w, src := epId 0 3 4, txn := 3, opc := 1, epoch := 1, tenant := 5, tag := migTag, bytes := b.length, body := b }
/-- A Bellows list of one entry in memory, and one loaded. -/
def blCells : List Host.Cell :=
  cellsWrite 0 [] base64 (toLE 64 (1 + 2 ^ 8 * 2 + 2 ^ 368 + 2 ^ 384 + 2 ^ 448 * 1000000)
    ++ toLE 64 (2 ^ 28 + 2 ^ 31 + 2 ^ 352 * 64 + 2 ^ 384 * (base64 + 2 ^ 21) + 2 ^ 448 * (base64 + 2 ^ 20)))
def bent (st : Nat) (f : Option Status) : BEntry := { src := base64 + 2 ^ 20, dst := base64 + 2 ^ 21, srcTier := 2, dstTier := 1, state := st, status := f }
def blist (e : BEntry) : BList := { part := 1, id := 2, entries := [e] }
def wbl (e : BEntry) : State := { wtb [] with tiers := { w.tiers with lists := [blist e] } }
def nonce0 : Bytes := List.replicate 32 7
def part1 : Part := { id := 1, agents := 4, tag := 5, keyPair := some 7 }
def part1n : Part := { part1 with nonces := [(nonce0, 5)] }
def wpt (x : Part) : State := { w with ten := { w.ten with parts := [x] } }
/-- An Ash namespace of partition 1 over one free block behind tray port 5. -/
def ashT : AshTray :=
  { port := 5, part := 1, chans := [0], blocks := [(0, { id := 4 })], ctrlEn := true, identified := true, chanCount := 2, perChan := 1, pages := 64 }
def wash (f : Tiers → Tiers) : State :=
  { wtb [] with tiers := f { w.tiers with ns := [{ part := 1, units := 16, key := some 3 }], trays := [ashT] },
                trays := w.trays.set 5 { mode := 3, owner := some 1, present := true, up := true, perstLow := false } }
def ashJ (op : Nat) : Job := jb op (toLE 4 2 ++ toLE 4 1 ++ toLE 8 base64)
def au : AUnit := { part := 1, unit := 2, tray := 5, block := 4, len := 100, wseq := 7 }
def cin (opc : Nat) : Cinder := { tray := 5, qid := 1, cid := 9, opc := opc, block := 4, len := 4096, buf := 65536 }
def wcin (opc : Nat) : State := wash fun x => { x with cmds := [cin opc] }
def cpl (st : Nat) : CinderCpl := { cid := 9, qid := 1, status := st, phase := true }
/-- An ASH_WRITE of one unit after its reads, from a state of the flash tier, and the tier with no block left. -/
def ashS (f : Tiers → Tiers) : State := startJob (ashJ 0x0A06) (run (wash f) (ashJ 0x0A06))
def ashG (f : Tiers → Tiers) : Bool × State := readsDone (jobTok (ashJ 0x0A06)) 1 [(base64, 65536)] (ashS f)
def ashGo (f : Tiers → Tiers) : Option State := [2].zipIdx.foldl (fun (o : Option State) x => o.bind fun s =>
  writeUnit 1 x.1 (some 1) none none none (engBytes (ashG f).2 (jobTok (ashJ 0x0A06)) (base64 + 65536 * x.2) 65536) s) (some (engForget (jobTok (ashJ 0x0A06)) (ashG f).2))
def noBlk (x : Tiers) : Tiers := { x with trays := x.trays.map fun a => { a with blocks := [] } }
/-- A PARTITION_CREATE of partition 2 on nook 5. -/
def mkB : Bytes := [2, 4] ++ toLE 2 64 ++ toLE 4 9 ++ toLE 12 32 ++ List.replicate 44 0
def wpool (l : List Nat) (c : List PartWait) : State := { w with ten := { w.ten with keyPool := l, creates := c } }
def wmov (n : Nat) : State := { w with ten := { w.ten with moves := [{ nook := n, dst := .part 1 }] } }

/-- What the policer decides of an SPDM message on a port. -/
def pq (s : State) (p : Nat) : Bool × Nat × State := police p (peerId s p) (rawSpdm s p) true s
/-- A command of the tenant mailbox of partition 1 with header `hdr`, as it is queued. -/
def jobOf (hdr tk : Nat) (d : Bytes) : Job :=
  { id := w.mantel.nextJob, mbx := .tenant 1, src := 3, txn := 4, op := (cmdHdr hdr).op, seq := (cmdHdr hdr).seq, part := (cmdHdr hdr).part,
    defer := (cmdHdr hdr).defer, quiet := (cmdHdr hdr).quiet, payload := d.take (cmdHdr hdr).len, ready := w.t, at_ := w.ns, ticket := tk }
def hdPlain : Nat := 0x0306 + 2 ^ 16 * 9 + 2 ^ 48 * 1 + 2 ^ 64
def hdDefer : Nat := 0x0802 + 2 ^ 16 * 9 + 2 ^ 48 * 1 + 2 ^ 65 + 2 ^ 80
def tmb : PktMsg := { opc := 2, src := accelEp w 0, txn := 3, bytes := 65, body := toLE 64 (0x0306 + 2 ^ 16 * 9 + 2 ^ 48 * 1 + 2 ^ 64 * 1) ++ [1] }
def tmb1 : State := eatPkt 0 .mgt tmb w
def tmbP : Bool × Nat × State := police 0 tmb.src (rawFlits ((tmb1.port 0).sess.phase == 3) (1 + pktLen tmb.bytes)) true tmb1
/-- A message in the queue of port 0. -/
def mQd : PktMsg := { opc := 1, src := accelEp w 0, dst := accelEp w 0, txn := 5 }
def fQd : Frame := { svc := 3, out := .pkt .msg mQd }
def ses (f : SaxPort → SaxPort) : State := wp 4 f

/-- Messages of the holder on port 0: data with the right tag, and a line outside coherent extents. -/
def lmD : LineMsg := { lm with dirty := true, data := List.replicate 64 1, ltag := lineTag (64 * l0) (List.replicate 64 1) }
def lmX : LineMsg := { lmD with ltag := lineTag (64 * l0) (List.replicate 64 1) + 1 }
def lmN : LineMsg := { lm with addr := 32 * 2 ^ 28 }
def wna : State := { wd with sax := wd.sax.modify 0 fun x => { x with admitted := false } }
def wdq : State := { wd with ten := { wd.ten with parts := [{ id := 1, agents := 4, tag := 5, quiesced := true }] } }
def weg : State := { weo with chans := weo.chans.map fun k => { k with retired := true } }
def wes : State := { wd with dir := { wd.dir with ents := [{ line := l0, nook := 1, st := .s, sharers := [3], fwd := 3 }] } }
def who4 : State := { wd with dir := { wd.dir with ents := [{ line := l0, nook := 1, st := .m, sharers := [4], fwd := 4 }] } }
/-- The module with partition 1 quiesced, and without a nook and so without trackers. -/
def wqp : State := { wm with ten := { wm.ten with parts := [{ id := 1, agents := 4, tag := 5, quiesced := true }] } }
def wnn : State := { wm with ten := { wm.ten with nooks := List.replicate 96 .free } }
def msgT9 : PktMsg := { msgT with tag := 9 }
/-- A stacked extent of partition 1 on nook 1, and a map with it. -/
def ex1 : Extent := { base := 16, granules := 2, nook := 1, part := 1 }
def wmv : State := { w with maps := { cur := { epoch := 1, exts := [ex1] } } }
/-- A module without a system nook. -/
def w00 : State := { w with flash := {} }

/-- A running calendar of one entry, in slot 10. -/
def wc (kind target svc arg : Nat) : State :=
  { w with
    ember := { fx := 65536 * 2560, st := .locked },
    cal := { running := true, bank0 := cellsWrite 0 [(2, 4)] 262144 (toLE 16 (kind + 2 ^ 40 * svc + 2 ^ 48 * target + 2 ^ 64 * arg)),
             hdr0 := { nEntries := 1 }, gates := [{ port := 4, svc := 1 }] } }
def ev0 (s : State) : CalEv := evAt s.cal.bank0 0 0
def hdrIdle : CalHdr := { swapSlot := 100 }
theorem leNat_toLE_mod (n x : Nat) : leNat (toLE n x) = x % 256 ^ n := by
  induction n generalizing x with
  | zero => simp [toLE, leNat, Nat.mod_one]
  | succ n ih =>
    rw [toLE, leNat, ih, BitVec.toNat_ofNat, show 256 ^ (n + 1) = 256 * 256 ^ n from Nat.pow_succ', Nat.mod_mul (x := x) (a := 256) (b := 256 ^ n)]
theorem crcStep_lt (c : Nat) (h : c < 2 ^ 32) : (if c % 2 = 1 then (c / 2) ^^^ 0xEDB88320 else c / 2) < 2 ^ 32 := by
  split
  · exact Nat.xor_lt_two_pow (by omega) (by decide)
  · omega
theorem crcSteps_lt (l : List Nat) (c : Nat) (h : c < 2 ^ 32) :
    l.foldl (fun c _ => if c % 2 = 1 then (c / 2) ^^^ 0xEDB88320 else c / 2) c < 2 ^ 32 := by
  induction l generalizing c with
  | nil => exact h
  | cons a l ih => exact ih _ (crcStep_lt c h)
theorem crc32_lt (d : Bytes) : crc32 d < 2 ^ 32 := by
  have : ∀ (d : Bytes) (c : Nat), c < 2 ^ 32 → d.foldl (fun c x => (List.range 8).foldl (fun c _ => if c % 2 = 1 then (c / 2) ^^^ 0xEDB88320 else c / 2) (c ^^^ x.toNat)) c < 2 ^ 32 := by
    intro d
    induction d with
    | nil => intro c h; exact h
    | cons x d ih => intro c h; exact ih _ (crcSteps_lt _ _ (Nat.xor_lt_two_pow h (by omega)))
  exact Nat.xor_lt_two_pow (this d _ (by decide)) (by decide)
/-- A calendar header of no entries with `c` as its CRC; the swap slot is 65,536. -/
def calX (c : Nat) : Nat := 2 ^ 384 * 65536 + 2 ^ 352 * c
theorem calX_hdr (c : Nat) (h : c < 2 ^ 32) : decCalHdr (calX c) = { swapSlot := 65536, crc := c } := by
  unfold calX decCalHdr bits
  simp only [CalHdr.mk.injEq]
  refine ⟨?_,?_,?_,?_,?_,?_⟩ <;> omega
theorem calX_rsv (c : Nat) (h : c < 2 ^ 32) : calHdrRsv (calX c) = false := by
  unfold calX calHdrRsv bits
  have a : (2 ^ 384 * 65536 + 2 ^ 352 * c) / 2 ^ 504 % 2 ^ (511 + 1 - 504) = 0 := by omega
  have b : (2 ^ 384 * 65536 + 2 ^ 352 * c) / 2 ^ 440 % 2 ^ (447 + 1 - 440) = 0 := by omega
  have d : (2 ^ 384 * 65536 + 2 ^ 352 * c) / 2 ^ 64 % 2 ^ (319 + 1 - 64) = 0 := by omega
  have e : (2 ^ 384 * 65536 + 2 ^ 352 * c) / 2 ^ 16 % 2 ^ (47 + 1 - 16) = 0 := by omega
  rw [a, b, d, e]; rfl
theorem calX_payload (c : Nat) (h : c < 2 ^ 32) : leNat (toLE 64 (calX c)) = calX c := by
  rw [leNat_toLE_mod]
  unfold calX
  exact Nat.mod_eq_of_lt (by omega)
theorem calX_ok (c : Nat) (h : c < 2 ^ 32) (hc : calCrc [] 0 = c) (s : State) (h0 : s.cal.bank0 = []) (h1 : s.cal.bank1 = [])
    (hs : s.flash.prof.secure = false) (ht : s.slot = 0) :
    calFault s (leNat (toLE 64 (calX c))) = none := by
  have hi : shadowImg s.cal = [] := by unfold shadowImg bankImg; split <;> assumption
  rw [calX_payload c h]
  unfold calFault
  rw [calX_hdr c h, calX_rsv c h, hi, hs, ht]
  simp only [hc]
  have n0 : idxNum [] 0 = 0 := by decide +kernel
  have f0 : idxFirst [] 0 = 0 := by decide +kernel
  have ev : evsAll [] { swapSlot := 65536, crc := c } = [] := by
    simp [evsAll, CalHdr.period, evsOf, n0]
  have hb : badPosition [] { swapSlot := 65536, crc := c } = none := by
    simp [badPosition, CalHdr.period, n0, f0]
  have he : badEntry s [] { swapSlot := 65536, crc := c } = none := by
    simp [badEntry, ev]
  rw [hb, he]
  simp
/-- A module in LOCKED with a calendar command's job, and that the job may start. -/
def calArmed (j : Job) : State := run { w with ember := { st := .locked } } j
theorem calArmed_mayRun (p : Bytes) : mayRun (calArmed (jb 0x0706 p)) .a 0x0706 (jb 0x0706 p) := ⟨by with_unfolding_all rfl, rfl⟩
theorem slot_zero (s : State) (h : s.ember.fx = 0) : s.slot = 0 := by simp [State.slot, State.ns, h]
theorem calArmed_ok (c : Nat) (h : c < 2 ^ 32) (hc : calCrc [] 0 = c) (j : Job) : calFault (startJob j (calArmed j)) (leNat (toLE 64 (calX c))) = none :=
  calX_ok c h hc _ rfl rfl rfl (slot_zero _ rfl)
theorem calArmed_wit (c : Nat) (h : c < 2 ^ 32) (hc : calCrc [] 0 = c) : ∃ (m : MbxId) (j : Job) (s : State),
    mayRun s m 0x0706 j ∧ calState s = true ∧ s.cal.armed = none ∧ calFault (startJob j s) (leNat j.payload) = none :=
  ⟨.a, jb 0x0706 (toLE 64 (calX c)), calArmed _, calArmed_mayRun _, rfl, rfl, calArmed_ok c h hc _⟩
/-- Port 4 with credits and one frame queued. -/
def wfr (f : Frame) : State := { w with sax := w.sax.modify 4 (fun x => { x with cred := List.replicate 7 200 }), dsax := w.dsax.set 4 { q := [f] } }
def fdr : Option Frame × DPort := sendUngated (wfr { svc := 1 }) false 4 65536 ((wfr { svc := 1 }).dport false 4)

/-- What a message passes the steps of R289 as, and the state after them. -/
def mo (m : PktMsg) : PktMsg := (openPkt m).getD {}
def mtS (s : State) (p : Nat) (m : PktMsg) : State :=
  let s1 := eatPkt p .msg m s
  (police p (mo m).src (rawPkt s1 p (mo m)) true s1).2.2
def mq (s : State) (p : Nat) (m : PktMsg) : PktMsg :=
  let s1 := eatPkt p .msg m s
  if (s.port p).kind = 0 then { mo m with tenant := tagOf (mtS s p m) (s.port p).owner, hops := 0, heat := (police p (mo m).src (rawPkt s1 p (mo m)) true s1).2.1 }
  else { mo m with heat := 0 }
def mt1 (s : State) (p : Nat) (m : PktMsg) : State :=
  if (s.port p).kind == 0 then trackMsg p (mq s p m) (mtS s p m) else noteTransit p (mq s p m) (mtS s p m)
def mHops (s : State) (p : Nat) (m : PktMsg) : Nat := match wayOut (mt1 s p m) (mq s p m) with
  | .ok x => x.2
  | _ => 0
def m2 (o : Nat) : PktMsg := { msg0 with opc := o }
def msgAns (o : Nat) : PktMsg := { msg0 with opc := o, bytes := 0, body := [] }
def wun : State := { wm with sax := wm.sax.modify 0 fun x => { x with admitted := false } }
def msgE (st src : Nat) : PktMsg := { msgC 3 3 0 src with bytes := 24, body := collBody 3 3 0 ++ toLE 8 st }
def cw (s : State) (m : PktMsg) : PktMsg × PktMsg × State := (mo m, mq s 4 m, mtS s 4 m)
def ins2 : Inst := { part := 1, group := 2, inst := 6, cid := 40 }
def ins3 : Inst := { part := 1, group := 3, inst := 6, cid := 41 }
def msgW : PktMsg :=
  let b := toLE 16 (2 ^ 112 * 3 + 2 ^ 80 * 6 + 2 ^ 36 * 4 + 2 ^ 8 + 8) ++ List.replicate 64 0
  { dst := ownId wm, src := epId 0 5 12, txn := 3, opc := 6, epoch := 1, tenant := 5, bytes := b.length, body := b }

def mtP (s : State) : State :=
  let s1 := eatPkt 0 .msg msgP s
  (police 0 msgP.src (rawPkt s1 0 msgP) true s1).2.2
def chg : Chain := { chr (opB 1) with stages := [{ phase := 1 }] }
def chw : Chain := { chr copyB with descs := [copyB, toLE 64 (10 + 2 ^ 33)], stages := [{}, {}] }
def cht (c : Chain) : Chain := ((modChain 50 (Chain.take 0) (withCh c wch)).chain? 50).getD {}
def wls (s : State) : State := (takeSpread (chl {}) 0 1 s).getD {}
def chx : Chain := { chq with descs := [opB 6] }
def wst1 : State := { wch with chains := { wch.chains with templates := [{ tpl with waiting := some { due := 256 } }] }, ember := { fx := 65536 * 300 } }
def wst2 : State := { wst1 with chains := { wst1.chains with threads := (List.range 48).map fun k => { nook := 1, no := k } } }
/-- A plain line on which a store of a host waits, and the results a chain's stages hold. -/
def busyAt (l : Nat) (s : State) : State := { s with dir := { s.dir with txs := [{ line := l, req := { src := .sax 0 } }] } }
def badAt (tok : Nat) (s : State) : State := { s with dir := { s.dir with eng := [{ tok := tok, line := base64 / 64, st := .damaged }] } }
def chs1 : Chain := { chq with descs := [opB (2 + 2 ^ 64 + 2 ^ 192 * base64)] }
def chz : Chain := { chr copyB with stages := [{ phase := 5 }] }
def chd : Chain := { chr copyB with status := some (.timeout, 0) }
def chc : Chain := { chq with act := some { due := 256 } }
def wfull (c : Chain) : State :=
  let s := withCh c wch
  { s with chains := { s.chains with threads := (List.range 48).map fun k => { nook := 1, no := k } } }

def strk (k : StrokeKind) : Stroke := { kind := k, cid := 50 }
def atq : LineReq := { kind := .atomic, line := base64 / 64, part := 1 }
def wat : State := { wmap exd with chans := w.chans.modify 8 fun k => { k with strokes := [{ kind := .atomic, reqs := [atq] }] } }
def lft (n : Nat) (r : Bool) : Leaf := { cid := 50, accs := n, taken := true, resent := r }
def wlf (l : Leaf) : State := { withCh (chr copyB) (wcn fun k => { k with leaves := [l], leafUsed := 16 }) with t := 5 }
def wst (k : StrokeKind) (l : List Leaf) : State := wcn fun c => { c with strokes := [strk k], leaves := l }
def wrn (k : StrokeKind) : State := wcn fun c => { c with running := some (strk k) }
def rowJ (g : Nat) : Job := jb 0x0808 ([4, 0, BitVec.ofNat 8 g, 0, 0, 0, 0, 0] ++ toLE 8 9 ++ toLE 8 (base64 + 2 ^ 21))
def outHops : Nat := match wayOut (wtb [tbl]) { (msg0 : PktMsg) with dst := epId 0 3 4, src := ownId w, tenant := tagOf w (some 1) } with
  | .ok x => x.2
  | _ => 0
/-- A stroke on a channel whose leaf store has not enough room, one on a nook that holds no extent, and two leaves of one step. -/
def big : Leaf := { cid := 50, accs := 16384 }
def wbig : State := wcn fun c => { c with strokes := [strk .leaf], leaves := [big], leafUsed := 16 }
def wbare (x : Stroke) : State := { w with chans := w.chans.modify 8 fun c => { c with strokes := [x] } }
def lf3 : Leaf := { lft 16 false with shard := 3 }
def wtwo : State :=
  { wlf lf3 with chans := ((wlf lf3).chans.modify 9 fun k => { k with leaves := [{ lft 16 false with shard := 1 }], leafUsed := 16 }) }
def tblQ (n : Nat) : Table := { tbl with d := { tbl.d with id := n } }
def tblY : Nat := 4 + 2 ^ 84 + 2 ^ 89 + 2 ^ 99 + 2 ^ 112 * 16 + 2 ^ 160 * 3 + 2 ^ 176 * 2 + 2 ^ 212 * 256 + 2 ^ 320 * 256
def mgr9 : Migr := { mgr false with dest := epId 0 9 4 }
def tbl9 : Table := { tbl with accs := [{ acc3 with row := 0 }], migr := [mgr9] }

def rowL : Nat := base64 / 64 + 16384
/-- A table whose one migration has been committed; the table after a batch; accumulators about to pass 2^40. -/
def tblMU : Table := { tblU with migr := [{ mgr true with count := 256 }] }
def t1S : Table := (([(3, List.replicate 64 0)] : List (Nat × Bytes)).foldlM (fun t x => addRowTo t 1 1 x.1 0 x.2) tblU).getD {}
def tblN : Table := { tblU with u := some { slots := 2 }, accs := [{ acc3 with acc := List.replicate 16 { n := 2 ^ 40 } }] }
def tblH : Table := { tblU with u := some { slots := 0 } }
def msgK (kind row total : Nat) (d : Bytes) : PktMsg :=
  let b := migHdr 4 kind 0 1 row 0 (epId 0 3 4) total ++ d
  { dst := ownId w, src := epId 0 3 4, txn := 3, opc := 1, epoch := 1, tenant := 5, tag := migTag, bytes := b.length, body := b }
def wmg : State := wtb [tblF]
def mgS (s : State) (m : PktMsg) : State := (police 4 m.src (rawPkt (eatPkt 4 .msg m s) 4 m) true (eatPkt 4 .msg m s)).2.2
def rowB : Bytes := List.replicate 64 5
def accB : Bytes := List.replicate 1536 0
def batB : Bytes := toLE 8 3 ++ rowB
def inA (s : State) : Status × State := (installAcc tblF 1 3 accB (mgS s (msgK 2 3 1536 accB))).getD (.ok, {})
def inB (s : State) : Status × State := (installBatch tblF (migHdr 4 3 0 1 1 0 (epId 0 3 4) 72) batB (mgS s (msgK 3 1 72 batB))).getD (.ok, {})
/-- A content object of 128 bytes, without and with its trailer; what an entry's next chunk or trailer reads. -/
def be5 : BEntry := { bent 1 none with ckey := 3, length := 128 }
def be5t : BEntry := { be5 with trailer := some (List.replicate 64 0) }
def be5z : BEntry := { be5t with length := 64 }
def s0B (e : BEntry) (s : State) : State := if e.asked ≤ e.done then askNext 1 2 0 (turnTaken 1 s) else turnTaken 1 s
def chB (e : BEntry) (s : State) : Chunk × State := sourceChunk 1 2 0 0 e (s0B e s)
def trB (e : BEntry) (s : State) : Chunk × State := sourceTrailer 1 2 0 e (s0B e s)
def gotB (c : Chunk) : Bytes := match c with
  | .ready d => d
  | _ => []
def busyB (l : Nat) (s : State) : State := { s with dir := { s.dir with txs := [{ line := l, req := { src := .sax 0 } }] } }
def y5 : BList × BEntry :=
  let last := fun (y : BEntry) => { y with done := 64, asked := max y.asked 64, hold := [], cipher := [], state := 1 }
  ((modEntry 1 2 0 last (waited 1 2 0 1 (chB be5z (wbl be5z)).2)).bentry? 1 2 0).getD (blist be5z, be5z)
def beF : BEntry := { bent 1 none with src := 2 ^ 40 }
def wbq : State :=
  { wbl (bent 2 none) with ten := { w.ten with parts := [{ part1 with quiesced := true }] } }
def wbbad : State := { wbl (bent 2 none) with dir := { w.dir with eng := [{ tok := putTok 1 2 0, line := rowL, st := .lineLost }] } }
def be9 : BEntry := { bent 2 none with push := true, eps := [accelEp w 0], hold := List.replicate 64 1, done := 64 }
/-- Row 3's entry is valid; its line is held by a store, or its read has failed; accumulators that no row takes. -/
def wE (t : Table) : State :=
  { wtb [t] with mem := { w.mem with bytes := cellsWrite 0 smapCells (base64 + 4096 + 24) (toLE 8 (ritEntry 0 true false (base64 / 64 + 16384))) } }
def wEb : State := { wE (tblA none) with dir := { w.dir with txs := [{ line := rowL, req := { src := .sax 0 } }] } }
def wEd : State := { wE (tblA none) with dir := { w.dir with eng := [{ tok := applyTok 1 4 3, line := rowL, st := .damaged }] } }
def many : Accum := { acc3 with acc := List.replicate 16 { n := 2 ^ 40 } }
def tblP : Table := { tblA none with accs := [many, { many with nook := 2 }] }
def nanAcc : Accum := { acc3 with acc := List.replicate 16 { nan := true } }
def tblZ : Table := { tblA none with d := { tbl.d with fmt := 5 }, accs := [nanAcc] }
def flOf (t : Table) (l : List Accum) : List (Melt × Bool) := (sumAccs t.d.elems l).getD []
def h3 : Nat := (applyRow (tblA none) { slots := 1 } 3 1 0 (fl3.map (·.1)) (List.replicate 64 0)).2
def hz : Nat := (applyRow tblZ { slots := 1 } 3 1 0 ((flOf tblZ [nanAcc]).map (·.1)) (List.replicate (rowBytes 5 16) 0)).2
def tblO : Table := { tblB with migr := [{ mgr true with released := true }] }
def wmo : State := { wmr 0 true with tables := [tblO] }
def mgQ (s : State) (m : PktMsg) : PktMsg :=
  { m with heat := (police 4 m.src (rawPkt (eatPkt 4 .msg m s) 4 m) true (eatPkt 4 .msg m s)).2.1 }

theorem fold_ok (f : Status → Nat → Status) (l : List Nat) (h : l.all (fun x => decide (f .ok x = .ok)) = true) : l.foldl f .ok = .ok := by
  induction l with
  | nil => rfl
  | cons a l ih =>
    simp only [List.all_cons, Bool.and_eq_true, decide_eq_true_eq] at h
    rw [List.foldl_cons, h.1]
    exact ih h.2
/-- A line that the channel's data path gives with nothing to note. -/
def plainLine (s : State) (l : Nat) : Bool :=
  s.mem.weak.isEmpty && (anyExtent s (64 * l)).elim true fun e => (chanOf e (64 * l)).elim true fun c => unzeroed s e (64 * l) || !tabled s c e l
theorem readLine_plain (s : State) (l : Nat) (h : plainLine s l = true) : readLine l s = (true, s) := by
  unfold plainLine at h
  unfold readLine
  rw [Bool.and_eq_true, List.isEmpty_iff] at h
  obtain ⟨hw, h⟩ := h
  rw [hw]
  cases he : anyExtent s (64 * l) with
  | none => rfl
  | some e =>
    rw [he] at h
    cases hc : chanOf e (64 * l) with
    | none => simp only [hc]
    | some c =>
      simp only [Option.elim, hc, Bool.or_eq_true, Bool.not_eq_true'] at h
      rcases h with h | h <;> simp only [hc, h, List.find?_nil, Option.map_none, if_true, ite_self]
theorem readLines_plain (s : State) (ls : List Nat) (h : ls.all (plainLine s) = true) : readLines ls s = (true, s) := by
  unfold readLines
  induction ls with
  | nil => rfl
  | cons a l ih =>
    rw [List.all_cons, Bool.and_eq_true] at h
    rw [List.foldl_cons, readLine_plain s a h.1]
    exact ih h.2
theorem engRead_quiet (tok p o n : Nat) (s : State) (h : (linesOf o n).all (quietLine s) = true) : engRead tok p o n s = s := by
  unfold engRead askLines
  revert h
  generalize linesOf o n = ls
  intro h
  induction ls with
  | nil => rfl
  | cons a l ih =>
    rw [List.all_cons, Bool.and_eq_true] at h
    rw [List.foldl_cons, h.1, Bool.true_or, if_pos rfl]
    exact ih h.2
/-- A unit's bytes are read without more ado. -/
theorem readsDone_plain (tok p o n : Nat) (s : State) (hq : (linesOf o n).all (quietLine s) = true) (hp : (linesOf o n).all (plainLine s) = true)
    (he : s.dir.eng = []) : readsDone tok p [(o, n)] s = (true, s) := by
  unfold readsDone engLines
  simp only [List.foldl_cons, List.foldl_nil, engRead_quiet tok p o n s hq, he, List.any_nil, Bool.not_false, List.filter_true,
    readLines_plain s _ hp, Bool.true_and]
theorem ash_quiet : (linesOf base64 65536).all (quietLine (ashS id)) = true := by decide +kernel
theorem ash_plain : (linesOf base64 65536).all (plainLine (ashS id)) = true := by decide +kernel
theorem ashG_eq : ashG id = (true, ashS id) := readsDone_plain _ _ _ _ _ ash_quiet ash_plain rfl
theorem ash_quiet0 : (linesOf base64 65536).all (quietLine (ashS noBlk)) = true := by decide +kernel
theorem ash_plain0 : (linesOf base64 65536).all (plainLine (ashS noBlk)) = true := by decide +kernel
theorem ashG_eq0 : ashG noBlk = (true, ashS noBlk) := readsDone_plain _ _ _ _ _ ash_quiet0 ash_plain0 rfl
theorem pour_ok (s : State) (map : MapV) (p : Nat) (store : Bool) (o n : Nat) (h0 : o / 2 ^ 52 = 0)
    (h : (linesOf o n).all (fun l => match extentAt s map (64 * l) with
      | .error _ => false
      | .ok e => decide ((if e.part ≠ p then Status.noAccess
        else if heldForTwin s e then .quiesced
        else if releasing s e then .extentGone
        else if e.tray && !s.power.readyFull then .busy
        else lineStatus s e { src := .engine 0, kind := if store then .wrLine else .rdNc, line := l, part := p }) = .ok)) = true) :
    pourAccess s map p store o n = .ok := by
  unfold pourAccess
  rw [if_neg (by simpa using h0)]
  refine fold_ok _ _ (List.all_eq_true.mpr fun l hl => ?_)
  have := List.all_eq_true.mp h l hl
  split at this
  · cases this
  · rename_i e he
    rw [decide_eq_true_eq] at this ⊢
    simp only [he, ne_eq, not_true_eq_false, if_false]
    exact this
/-- A unit's bytes lie in the partition's memory. -/
theorem ash_pour : pourAccess (ashS id) (wash id).maps.cur 1 false base64 65536 = .ok := pour_ok _ _ _ _ _ _ (by decide) (by decide +kernel)
theorem ash_pour0 : pourAccess (ashS noBlk) (wash noBlk).maps.cur 1 false base64 65536 = .ok := pour_ok _ _ _ _ _ _ (by decide) (by decide +kernel)
theorem ash_pour7 : pourAccess (run (wash id) (ashJ 0x0A07)) (wash id).maps.cur 1 true base64 65536 = .ok :=
  pour_ok _ _ _ _ _ _ (by decide) (by decide +kernel)
theorem comes (tok p o n : Nat) (s : State) (map : MapV) (hp : pourAccess s map p false o n = .ok) (hq : (linesOf o n).all (quietLine s) = true)
    (hd : readsDone tok p [(o, n)] s = (true, s)) (he : engBusy s tok = false) (hs : engStatus s tok o n = .ok) : readsCome tok p map [(o, n)] s := by
  refine ⟨?_, ?_, by rw [hd], ?_⟩
  · simp only [List.all_cons, List.all_nil, Bool.and_true, hp, beq_self_eq_true]
  · rw [List.foldl_cons, List.foldl_nil, engRead_quiet _ _ _ _ _ hq]; exact he
  · rw [List.foldl_cons, List.foldl_nil, engRead_quiet _ _ _ _ _ hq]; simp only [List.all_cons, List.all_nil, hs, beq_self_eq_true, Bool.and_true]
theorem ash_come : readsCome (jobTok (ashJ 0x0A06)) 1 (wash id).maps.cur [(base64, 65536)] (ashS id) :=
  comes _ _ _ _ _ _ ash_pour ash_quiet ashG_eq rfl rfl
theorem ash_come0 : readsCome (jobTok (ashJ 0x0A06)) 1 (wash noBlk).maps.cur [(base64, 65536)] (ashS noBlk) :=
  comes _ _ _ _ _ _ ash_pour0 ash_quiet0 ashG_eq0 rfl rfl
theorem blockFor_free (a : AshTray) (ch n : Nat) (h : (a.blocks.all fun x => x.2.free) = true) : blockFor a ch n none = freeBlock a ch false := by
  unfold blockFor
  generalize hb : List.map _ (List.filter _ a.blocks) = bs
  have hf : bs.find? (fun b => !b.free) = none := by
    rw [List.find?_eq_none]
    intro b h1
    rw [← hb, List.mem_map] at h1
    obtain ⟨x, h2, rfl⟩ := h1
    simp [List.all_eq_true.mp h x (List.mem_filter.mp h2).1]
  have hi : bs.find? (fun b => (none : Option Nat) == some b.id) = none := by
    rw [List.find?_eq_none]; intro b _; simp
  simp only [hf, hi]
theorem writeUnit_some (p unit : Nat) (job : Option Nat) (d : Bytes) (s : State) (n : Ns) (x : Nat × Nat × Nat) (hn : s.ns? p = some n)
    (hp : ∀ k, placeUnit s p unit k none none = some x) : (writeUnit p unit job none none none d s).isSome = true := by
  simp only [writeUnit, hn, hp, Option.isSome_some]
theorem ash_ns : (engForget (jobTok (ashJ 0x0A06)) (ashS id)).ns? 1 = some { part := 1, units := 16, key := some 3 } := by decide +kernel
theorem ash_ns0 : (engForget (jobTok (ashJ 0x0A06)) (ashS noBlk)).ns? 1 = some { part := 1, units := 16, key := some 3 } := by decide +kernel
theorem ash_place (k : Nat) : placeUnit (engForget (jobTok (ashJ 0x0A06)) (ashS id)) 1 2 k none none = some (5, 0, 4) := by
  have hc : ashChans (engForget (jobTok (ashJ 0x0A06)) (ashS id)) 1 = [(ashT, 0)] := by decide +kernel
  simp only [placeUnit, hc]
  have hb : blockFor ashT 0 k none = some 4 := by
    rw [blockFor_free _ _ _ (by decide)]; decide
  simp [hb]
  decide
theorem one_bind (g : Nat × Nat → State → Option State) (y : State) :
    [2].zipIdx.foldl (fun (o : Option State) x => o.bind fun s => g x s) (some y) = g (2, 0) y := rfl
theorem ashGo_eq (f : Tiers → Tiers) : ashGo f = writeUnit 1 2 (some 1) none none none
    (engBytes (ashG f).2 (jobTok (ashJ 0x0A06)) (base64 + 65536 * 0) 65536) (engForget (jobTok (ashJ 0x0A06)) (ashG f).2) :=
  one_bind (fun x s => writeUnit 1 x.1 (some 1) none none none (engBytes (ashG f).2 (jobTok (ashJ 0x0A06)) (base64 + 65536 * x.2) 65536) s) _
theorem ashGo_some : (ashGo id).isSome = true := by
  rw [ashGo_eq, ashG_eq]
  exact writeUnit_some _ _ _ _ _ _ _ ash_ns ash_place
theorem ash_place0 (k : Nat) : placeUnit (engForget (jobTok (ashJ 0x0A06)) (ashS noBlk)) 1 2 k none none = none := by
  have hc : ashChans (engForget (jobTok (ashJ 0x0A06)) (ashS noBlk)) 1 = [({ ashT with blocks := [] }, 0)] := by decide +kernel
  have hb : blockFor { ashT with blocks := [] } 0 k none = none := by
    rw [blockFor_free _ _ _ (by decide)]; decide
  simp [placeUnit, hc, hb]
theorem writeUnit_none (p unit : Nat) (job : Option Nat) (d : Bytes) (s : State) (n : Ns) (hn : s.ns? p = some n)
    (hp : ∀ k, placeUnit s p unit k none none = none) : writeUnit p unit job none none none d s = none := by
  simp only [writeUnit, hn, hp]
theorem ashGo_none : ashGo noBlk = none := by
  rw [ashGo_eq, ashG_eq0]
  exact writeUnit_none _ _ _ _ _ _ ash_ns0 ash_place0
theorem ash_full : freeRoom 1 (engForget (jobTok (ashJ 0x0A06)) (ashG noBlk).2) = (false, engForget (jobTok (ashJ 0x0A06)) (ashG noBlk).2) := by
  rw [ashG_eq0]
  decide +kernel
def ashC : AshTray := { ashT with readLimit := 10, blocks := [(0, { id := 4, free := false, used := 100 })] }
def ashR : AshJob := { job := 1, part := 1 }
def wnokey : State := { wmov 4 with power := { w.power with trngFail := true } }
def mkB1 : Bytes := 1 :: mkB.drop 1

/-- The smallest profile record: MAGIC, VERSION, LENGTH 128, its CRC-32 (computed by hand with an outside CRC), and zeros. -/
def profRec : Bytes := toLE 4 0x4C465250 ++ [1, 0] ++ List.replicate 66 0 ++ toLE 4 128 ++ toLE 4 3011008934 ++ List.replicate 48 0
def wslot : State := { w with flash := { w.flash with cf0 := cellsWrite 0xFF [] 262144 profRec } }
/-- In slot 1 of Ember time, the last boundary done in slot 0. -/
def wslot1 (due : List (Nat × Nat)) : State := { w with ember := { fx := 65536 * 256 }, flash := { w.flash with selectDue := due } }
def wpw (f : Power → Power) : State := { w with power := f w.power }
def hotTs : List Int := List.replicate 24 1888
/-- A paired module that is primary for partition 1, with twin links on ports 8 and 16. -/
def wtw (f : Twin → Twin) : State :=
  let x : SaxPort := { w.port 8 with wide := true, hello := some { serial := 9, twinSerial := 1 } }
  { wmap { exp_ with mirror := 1 } with
    sax := (w.sax.set 8 x).set 16 x, flash := { w.flash with serial := 1 },
    twin := f { w.twin with st := .paired, portA := 8, portB := 16, serial := 9, twinned := [1] } }
def part1r : Part := { part1 with recs := [{ code := 0x30, ended := true }] }
def wtk1 (f : State → State) : State := f { wtw (fun x => { x with giving := some (1, 0), primary := [1] }) with t := 4000000 }
/-- What the policer of twin link 8 decides of a message of `n` bytes, and the pair with the peer's request bucket in debt. -/
def twP (s : State) (n : Nat) : Bool × Nat × State := police 8 (peerId s 8) (rawFlits ((s.port 8).sess.phase == 3) (1 + pktLen n)) true s
def wdebt : State := modD false 8 (fun d => d.modSub (subOf (wtw id) false 8 (peerId (wtw id) 8)) fun x => { x with rq := { rate := 1, level := -1 } }) (wtw id)
def wpair9 : State := { w with chans := w.chans.modify 9 fun k => { k with retiring := some 0 } }
def mAsh : MirrorMsg := .ash 3 5 0 4 0 100 7 false

/-! ## Ill-formed commands that WellFormed refuses, one for each check -/

theorem test_wf_saxel_port : (Instr.detectProbe 256).wf = false := by decide
theorem test_wf_lane : (Instr.laneTrained 0 256).wf = false := by decide
theorem test_wf_tray_port : (Instr.trayLinkUp 32).wf = false := by decide
theorem test_wf_tray_address : (Instr.trayReadFail 0 (2 ^ 64)).wf = false := by decide
theorem test_wf_host_line : (Instr.cxlMemwr 0 0 0 0 []).wf = false := by decide
theorem test_wf_nook : (Instr.chainAdmit 96).wf = false := by decide
theorem test_wf_channel : (Instr.strokeStart 768).wf = false := by decide
theorem test_wf_partition : (Instr.nonceExpiry 16).wf = false := by decide
theorem test_wf_mailbox : (Instr.deviceInfo (.tenant 16)).wf = false := by decide
theorem test_wf_pour_message : (Instr.pour (.msg 256 {})).wf = false := by decide
theorem test_wf_line_field : (Instr.rdShared 0 { txn := 2 ^ 20 }).wf = false := by decide
theorem test_wf_line_data : (Instr.wrLine 0 { data := [1] }).wf = false := by decide
theorem test_wf_message_bytes : (Instr.post 0 { bytes := 2049 }).wf = false := by decide
theorem test_wf_config_credits : (Instr.config 0 {}).wf = false := by decide
theorem test_wf_flit_slots : (Instr.flitReceive 0 {}).wf = false := by decide
theorem test_wf_frame_seq : (Instr.doorbell .a 256 0).wf = false := by decide
theorem test_wf_register_offset : (Instr.regWr .a 0 2 {}).wf = false := by decide
theorem test_wf_frame_data : (Instr.mbxBufferWrite .a 0 0x1040 (List.replicate 257 0)).wf = false := by decide +kernel
theorem test_wf_ticket : (Instr.deferredCommandEnd (2 ^ 16)).wf = false := by decide
theorem test_wf_clock : (Instr.refclkLost 3).wf = false := by decide
theorem test_wf_temperatures : (Instr.tempSample 0 []).wf = false := by decide
theorem test_wf_smbus_command : (Instr.smbusBlockRead 256).wf = false := by decide
theorem test_wf_delays : (Instr.emberDelayCheck []).wf = false := by decide
theorem test_wf_placed_line : (Instr.placedWrite 0 0 0 [1]).wf = false := by decide
theorem test_wf_mirror_data : (Instr.mirrorAccess 8 true 0 0 (List.replicate 65 0)).wf = false := by decide +kernel
theorem test_wf_accepts : (Instr.wrLine 255 { txn := 2 ^ 20 - 1, data := List.replicate 64 1 }).wf = true := by decide +kernel

/-! ## The manual's worked examples -/

/-- Chapter 1: nook 37 owns channels 8 to 15 of stack 9. -/
theorem test_nook_37 : nookChans 37 = [296, 297, 298, 299, 300, 301, 302, 303] := by decide

/-- Chapter 10: module offset 0x10_0000_5A40 of a STRIPED extent on nook 37 lies on channel 13 of stack 9. -/
theorem test_striped_channel : chanOf { base := 0x100, granules := 4, nook := 37, part := 3 } 0x1000005A40 = some (32 * 9 + 13) := by decide

/-- Chapter 10: endpoint ids. -/
theorem test_endpoint_ids : epId 5 2 40 = 0x5228 ∧ epId 9 4 0 = 0x9400 := by decide

/-- Chapter 2: the W128 words of 2^25 + 2^-30, of 2^100 + 2^-50 and of -2^100, and the FP32 that the root reads out. -/
theorem test_w128 :
    ({ v := 2 ^ 325 + 2 ^ 270 } : Melt).w128 = 0x34200000000000004000000000000000 ∧
    ({ v := 2 ^ 400 + 2 ^ 250 } : Melt).w128 = 0x46E00000000000000000000000000001 ∧
    ({ v := -(2 ^ 400) } : Melt).w128 = 0xC6E00000000000000000000000000000 := by decide +kernel
theorem test_w128_root :
    ((({} : Melt).addW128 0x46E00000000000000000000000000001).bind fun a =>
      (a.1.addW128 0xC6E00000000000000000000000000000).map fun b => b.1.read fp32 false 1) = some 0x37000000 := by decide +kernel

/-- Chapter 2: the EXACT sum of the weighted Q4 bag, both elements. -/
def rowQ4A : Bytes := [0x00, 0x3F, 0x80, 0x3F, 0xB3]
def rowQ4B : Bytes := [0x80, 0x3A, 0x00, 0x00, 0x17]
theorem test_q4_bag : (List.range 2).map (fun k =>
    ((cycles (some {}) [exactTerms 6 (bf16.dec 0x4B80) rowQ4A k, exactTerms 6 (bf16.dec 0x3F80) rowQ4B k, exactTerms 6 (bf16.dec 0xCB80) rowQ4A k]).map
      fun m => m.read fp32 false 1)) = [some 0x3BE00000, some 0x3A800000] := by decide +kernel

/-- Chapter 4: index 5 of the HASHED table is row 23,301, in shard 11, and its RIT entry. -/
def hashed : TDesc := { storage := 1, hbits := 20, ha := 0x0123456789ABCDEF, hb := 0x1000, nspan := 2 }
theorem test_hashed_row : physRow hashed 5 = 23301 ∧ hashed.shardOf 23301 = 11 ∧ hashed.ritAt 0 23301 = 0x2D828 := by decide +kernel
theorem test_rit_entry : entGen 0x0007800048D159E1 = 7 ∧ entValid 0x0007800048D159E1 = true ∧ entFwd 0x0007800048D159E1 = false ∧
    entAddr 0x0007800048D159E1 = 0x1234567840 ∧ ritEntry 8 true false 0x48D16000 = 0x0008800048D16000 := by decide

/-- Chapter 5: the SGD apply of row 77, with S = [1, 0]. -/
theorem test_sgd_apply :
    applyRow { d := { elems := 2 } } { lr := 0x3F000000, lo := 0xFF800000, hi := 0x7F800000, rule := 1 } 77 42 0
      [{ v := 2 ^ 300 }, {}] (toLE 4 0x3F800000 ++ toLE 4 0xC0000000) = (some (toLE 4 0x3F000000 ++ toLE 4 0xC0000000), 0) := by decide +kernel

/-- Chapter 6: 1.0 + 2^-24 stays 1.0 under RNE; then 1.0 + 3.0 is 4.0. -/
theorem test_add_fp32 : atomicNew 1 32 0x3F800000 0x33800000 0 = 0x3F800000 ∧ atomicNew 1 32 0x3F800000 0x40400000 0 = 0x40800000 := by decide +kernel

/-- Chapter 7: of the candidates that pass the filter, 5,001 and 5,002 are the two best. -/
def cand (score idx : Nat) : Item := { data := toLE 4 score ++ toLE 4 idx }
theorem test_topk : (topk 2 false [cand 0x3F400000 5002, cand 0x3F000000 5005, cand 0x3F400000 5001]).map (fun x => pairIdx x.data) = [5001, 5002] := by
  decide +kernel

/-- Chapter 8: the two gate entries of port 40. -/
def gateImg : List Host.Cell :=
  cellsWrite 0 [] 262144 (toLE 8 0x0028080000000000 ++ toLE 8 9 ++ toLE 8 0x0028080000001001 ++ toLE 8 0)
theorem test_gate_open : evAt gateImg 100 0 = { e := 0, pos := 100, arg := 9, target := 40, svc := 8 } := by decide +kernel
theorem test_gate_close : evAt gateImg 101 1 = { e := 1, pos := 101, target := 40, svc := 8, offset := 16, kind := 1 } := by decide +kernel

/-- Chapter 14: a BF16 ramp codes as DELTA W16 in 124 bytes, and a zero block in 4. -/
def rampBlock : Bytes := (List.range 128).flatMap fun j => toLE 2 (0x3F80 + j)
theorem test_flux_ramp : (fluxCodeBlock rampBlock).take 9 = [0x0F, 0x00, 0x07, 0x51, 0x80, 0x3F, 0x80, 0x80, 0x60] ∧ (fluxCodeBlock rampBlock).length = 124 := by
  decide +kernel
theorem test_flux_zero : fluxCodeBlock (List.replicate 256 0) = [0x00, 0x00, 0x00, 0x10] := by decide +kernel

/-- R345, chapter 14: 34 slots take three flits under a session. -/
theorem test_raw_flits : rawFlits true 34 = 3 := by decide

/-- IEEE 802.3: the CRC-32 of the nine digits. -/
theorem test_crc32 : crc32 [0x31, 0x32, 0x33, 0x34, 0x35, 0x36, 0x37, 0x38, 0x39] = 0xCBF43926 := by decide +kernel

/-! ## Witnesses: `wit_<statement>_<clause>` meets the hypotheses of that clause together -/

theorem wit_StepRunsFront_2 : ∃ (s : State), (s.pending = []) :=
  ⟨w, by decide +kernel⟩

theorem wit_EveryStepShowsCauses_1 : ∃ (s : State) (t : State), (causesShown s) ∧ (step s = .next t) :=
  ⟨{ w with power := { w.power with outOfRange := true }, mantel := { w.mantel with faultCause := 8 } }, tick { w with power := { w.power with outOfRange := true }, mantel := { w.mantel with faultCause := 8 } }, by decide +kernel, rfl⟩

theorem wit_MemoryReadsBack_3 : ∃ (l : Nat) (a : Nat) (d : Bytes) (e : Extent) (s : State), (d.length = 64) ∧ (anyExtent s (64 * l) = some e) :=
  ⟨16 * 2 ^ 22, 16 * 2 ^ 28 + 3, List.replicate 64 7, ex1, wmv, by decide +kernel⟩

theorem wit_NoStepUnderCalendar_1 : ∃ (c : Instr) (s : State) (t : State), (s.cal.running = true) ∧ ((match c with | .emberSet _ | .syncExchangeTimer | .syncReq _ _ _ | .syncRsp _ _ _ | .announce _ _ | .announceTimer | .upstreamLost | .emberDelayCheck _ | .ppsEdge | .ppsTimeout | .ppsOutPulse | .ppsOutEnd | .emberLinkAsym _ | .emberStatus _ => True | _ => False)) ∧ (exec c s = .next t) :=
  ⟨.ppsTimeout, { w with cal := { running := true } }, nxt (exec .ppsTimeout { w with cal := { running := true } }), by decide +kernel, trivial, rfl⟩

theorem wit_NoSystemNookNoAccess_1 : ∃ (m : MbxId) (j : Job) (s : State), (s.flash.prof.sysNooks = 0) ∧
    let r := Host.Outcome.next (φ := Fault) (ρ := Refusal) (settle s (finish j.id .noAccess 0 [] (startJob j s)))
    (mayRun s m 0x0A03 j) ∧ (zeroAt j.payload 1 3 = true) :=
  ⟨.a, jb 0x0A03 [1, 0, 0, 0, 1, 0, 0, 0], run w00 (jb 0x0A03 [1, 0, 0, 0, 1, 0, 0, 0]), by decide +kernel⟩

theorem wit_NoSystemNookNoAccess_2 : ∃ (m : MbxId) (j : Job) (s : State), (s.flash.prof.sysNooks = 0) ∧
    let r := Host.Outcome.next (φ := Fault) (ρ := Refusal) (settle s (finish j.id .noAccess 0 [] (startJob j s)))
    (mayRun s m 0x0A04 j) :=
  ⟨.a, jb 0x0A04 [1, 0, 0, 0], run w00 (jb 0x0A04 [1, 0, 0, 0]), by decide +kernel⟩

theorem wit_NoSystemNookNoAccess_3 : ∃ (m : MbxId) (j : Job) (s : State), (s.flash.prof.sysNooks = 0) ∧
    let r := Host.Outcome.next (φ := Fault) (ρ := Refusal) (settle s (finish j.id .noAccess 0 [] (startJob j s)))
    (mayRun s m 0x0A05 j) ∧ (zeroAt j.payload 1 7 = true) :=
  ⟨.a, jb 0x0A05 (List.replicate 16 0), run w00 (jb 0x0A05 (List.replicate 16 0)), by decide +kernel⟩

theorem wit_NoSystemNookNoAccess_4 : ∃ (m : MbxId) (j : Job) (s : State), (s.flash.prof.sysNooks = 0) ∧
    let r := Host.Outcome.next (φ := Fault) (ρ := Refusal) (settle s (finish j.id .noAccess 0 [] (startJob j s)))
    (mayRun s m 0x0A06 j) :=
  ⟨.a, jb 0x0A06 (List.replicate 16 0), run w00 (jb 0x0A06 (List.replicate 16 0)), by decide +kernel⟩

theorem wit_NoSystemNookNoAccess_5 : ∃ (m : MbxId) (j : Job) (s : State), (s.flash.prof.sysNooks = 0) ∧
    let r := Host.Outcome.next (φ := Fault) (ρ := Refusal) (settle s (finish j.id .noAccess 0 [] (startJob j s)))
    (mayRun s m 0x0A07 j) :=
  ⟨.a, jb 0x0A07 (List.replicate 16 0), run w00 (jb 0x0A07 (List.replicate 16 0)), by decide +kernel⟩

theorem wit_NoSystemNookNoAccess_6 : ∃ (m : MbxId) (j : Job) (s : State), (s.flash.prof.sysNooks = 0) ∧
    let r := Host.Outcome.next (φ := Fault) (ρ := Refusal) (settle s (finish j.id .noAccess 0 [] (startJob j s)))
    (mayRun s m 0x0A08 j) :=
  ⟨.a, jb 0x0A08 (List.replicate 8 0), run w00 (jb 0x0A08 (List.replicate 8 0)), by decide +kernel⟩

theorem wit_NoSystemNookNoAccess_7 : ∃ (m : MbxId) (j : Job) (s : State), (s.flash.prof.sysNooks = 0) ∧
    let r := Host.Outcome.next (φ := Fault) (ρ := Refusal) (settle s (finish j.id .noAccess 0 [] (startJob j s)))
    (mayRun s m 0x0A09 j) :=
  ⟨.a, jb 0x0A09 [], run w00 (jb 0x0A09 []), by decide +kernel⟩

theorem wit_NoSystemNookNoAccess_8 : ∃ (m : MbxId) (j : Job) (s : State), (s.flash.prof.sysNooks = 0) ∧
    let r := Host.Outcome.next (φ := Fault) (ρ := Refusal) (settle s (finish j.id .noAccess 0 [] (startJob j s)))
    (mayRun s m 0x0204 j) ∧ (zeroAt j.payload 2 6 = true) :=
  ⟨.a, jb 0x0204 (List.replicate 16 0), run w00 (jb 0x0204 (List.replicate 16 0)), by decide +kernel⟩

theorem wit_NoSystemNookNoAccess_9 : ∃ (m : MbxId) (j : Job) (s : State), (s.flash.prof.sysNooks = 0) ∧
    let r := Host.Outcome.next (φ := Fault) (ρ := Refusal) (settle s (finish j.id .noAccess 0 [] (startJob j s)))
    (mayRun s m 0x0205 j) :=
  ⟨.a, jb 0x0205 [], run w00 (jb 0x0205 []), by decide +kernel⟩

theorem wit_NoSystemNookNoAccess_10 : ∃ (m : MbxId) (j : Job) (s : State), (s.flash.prof.sysNooks = 0) ∧
    let r := Host.Outcome.next (φ := Fault) (ρ := Refusal) (settle s (finish j.id .noAccess 0 [] (startJob j s)))
    (mayRun s m 0x0206 j) :=
  ⟨.a, jb 0x0206 [], run w00 (jb 0x0206 []), by decide +kernel⟩

theorem wit_NoSystemNookNoAccess_11 : ∃ (m : MbxId) (j : Job) (s : State), (s.flash.prof.sysNooks = 0) ∧
    let r := Host.Outcome.next (φ := Fault) (ρ := Refusal) (settle s (finish j.id .noAccess 0 [] (startJob j s)))
    (mayRun s m 0x0207 j) :=
  ⟨.a, jb 0x0207 [1, 0, 0, 0], run w00 (jb 0x0207 [1, 0, 0, 0]), by decide +kernel⟩

theorem wit_NookMoveRefused_1 : ∃ (m : MbxId) (j : Job) (s : State), (mayRun s m 0x0303 j) ∧
    let n := fldLE j.payload 0 1

    let o := fldLE j.payload 1 1
    (n ≤ 95) ∧ ((o = 255 ∨ (o ≤ 15 ∧ (s.part? o).isSome = true))) ∧ (s.nookOwner n ≠ .system) ∧
    let r := Host.Outcome.next (φ := Fault) (ρ := Refusal) (settle s (finish j.id .busy 0 [] (startJob j s)))
    ((heldExts s).any (·.nook == n) = true) :=
  ⟨.a, jb 0x0303 [1, 255, 0, 0], run wmv (jb 0x0303 [1, 255, 0, 0]), by decide +kernel⟩

theorem wit_NookMoveRefused_2 : ∃ (m : MbxId) (j : Job) (s : State), (mayRun s m 0x0303 j) ∧
    let n := fldLE j.payload 0 1

    let o := fldLE j.payload 1 1
    (n ≤ 95) ∧ ((o = 255 ∨ (o ≤ 15 ∧ (s.part? o).isSome = true))) ∧ (s.nookOwner n ≠ .system) ∧
    let r := Host.Outcome.next (φ := Fault) (ρ := Refusal) (settle s (finish j.id .busy 0 [] (startJob j s)))
    (moving s n = true) :=
  ⟨.a, jb 0x0303 [95, 1, 0, 0], run { w with ten.moves := [{ nook := 95, dst := .part 1 }] } (jb 0x0303 [95, 1, 0, 0]), by decide +kernel⟩

theorem wit_NookMoveRefused_3 : ∃ (m : MbxId) (j : Job) (s : State), (mayRun s m 0x0303 j) ∧
    let n := fldLE j.payload 0 1

    let o := fldLE j.payload 1 1
    (n ≤ 95) ∧ ((o = 255 ∨ (o ≤ 15 ∧ (s.part? o).isSome = true))) ∧ (s.nookOwner n ≠ .system) ∧
    let r := Host.Outcome.next (φ := Fault) (ρ := Refusal) (settle s (finish j.id .busy 0 [] (startJob j s)))
    ∃ p, (s.nookOwner n = .part p) ∧ ((o = 255 ∨ o ≠ p)) ∧ ((s.nooksOf p).find? (fun k => k != n && !moving s k) = none) := by
  refine ⟨.a, jb 0x0303 [1, 255, 0, 0], run { w with ten.nooks := w.ten.nooks.set 2 .free } (jb 0x0303 [1, 255, 0, 0]), ?_, ?_, ?_, ?_, 1, ?_⟩ <;> decide +kernel

theorem wit_NookMoveRefused_4 : ∃ (m : MbxId) (j : Job) (s : State), (mayRun s m 0x0303 j) ∧
    let n := fldLE j.payload 0 1

    let o := fldLE j.payload 1 1
    (n ≤ 95) ∧ ((o = 255 ∨ (o ≤ 15 ∧ (s.part? o).isSome = true))) ∧ (s.nookOwner n ≠ .system) ∧
    let r := Host.Outcome.next (φ := Fault) (ρ := Refusal) (settle s (finish j.id .busy 0 [] (startJob j s)))
    ∃ p k, (s.nookOwner n = .part p) ∧ ((o = 255 ∨ o ≠ p)) ∧ ((s.nooksOf p).find? (fun k => k != n && !moving s k) = some k) ∧ (moveBusy s p n k = true) := by
  refine ⟨.a, jb 0x0303 [1, 255, 0, 0], run { w with chains.templates := [{ part := 1, id := 3, nook := 1 }] } (jb 0x0303 [1, 255, 0, 0]), ?_, ?_, ?_, ?_, 1, 2, ?_⟩ <;> decide +kernel

theorem wit_FluxStreamBounded_1 : ∃ (n : Nat) (b : Bytes), (b.length = 256 * n) :=
  ⟨1, List.replicate 256 3, List.length_replicate ..⟩

theorem wit_FluxStreamBounded_2 : ∃ (b : Bytes), (b.length = 65536) :=
  ⟨List.replicate 65536 0, List.length_replicate ..⟩

theorem wit_FluxStreamBounded_3 : ∃ (m : PktMsg), (m.flux = false) ∧ (m.body.length = m.bytes) :=
  ⟨{ bytes := 256, body := List.replicate 256 9 }, by decide +kernel, List.length_replicate ..⟩

theorem wit_RecordsRoundTrip_1 : ∃ (e : Extent), (e.base < 2 ^ 24) ∧ (e.granules < 2 ^ 24) ∧ (e.trayBase < 2 ^ 24) ∧ (e.hostmask < 2 ^ 32) ∧ (e.mirrorPort < 32) ∧ (e.trayPort < 32) ∧ (e.trayLd < 16) ∧ (e.dcRegion < 8) ∧ (e.nook < 128) ∧ (e.ch0 < 8) ∧ (e.mirror < 4) ∧ (e.part < 16) :=
  ⟨{ base := 2 ^ 24 - 1, granules := 2 ^ 24 - 1, trayBase := 2 ^ 24 - 1, hostmask := 2 ^ 32 - 1, mirrorPort := 31, trayPort := 31, trayLd := 15, dcRegion := 7, nook := 127, ch0 := 7, channelMap := true, mirror := 3, devown := true, coh := true, tray := true, part := 15 }, by decide +kernel⟩

theorem wit_RecordsRoundTrip_2 : ∃ (h : Hello), (h.serial < 2 ^ 64) ∧ (h.twinSerial < 2 ^ 64) ∧ (h.epoch < 2 ^ 32) ∧ (h.cell < 1024) ∧ (h.module < 16) ∧ (h.port < 256) ∧ (h.role < 4) ∧ (h.linkKind < 4) ∧ (h.ready < 4) :=
  ⟨{ serial := 2 ^ 64 - 1, twinSerial := 2 ^ 64 - 1, epoch := 2 ^ 32 - 1, cell := 1023, module := 15, port := 255, role := 3, linkKind := 3, ready := 3, secure := true }, by decide +kernel⟩

theorem wit_MasterWritesRegisters_1 : ∃ (l : Link) (q : Nat) (v : BitVec 32) (s : State), (freshFrame s l q) ∧ (holds s l = true) :=
  ⟨.a, 255, 0xFFFFFFFF, { w with mantel := { w.mantel with faultCause := 0x30, irqStatus := 0x7F } }, by decide +kernel⟩

theorem wit_MasterWritesRegisters_2 : ∃ (l : Link) (q : Nat) (v : BitVec 32) (s : State), (freshFrame s l q) ∧ (l ≠ .jtag) :=
  ⟨.b, 0, 1, w, by decide +kernel⟩

theorem wit_RegisterWriteCompletes_1 : ∃ (l : Link) (q : Nat) (off : Nat) (v : BitVec 32) (st : Status) (s : State), (freshFrame s l q) ∧ (writeStatus s l off = st) ∧ (st ≠ .ok) :=
  ⟨.b, 1, 0x1004, 5, .noAccess, w, by decide +kernel⟩

theorem wit_RegisterWriteCompletes_2 : ∃ (l : Link) (q : Nat) (off : Nat) (v : BitVec 32) (s : State), (freshFrame s l q) ∧ (holds s l = true) ∧ (off ∈ [0x0000, 0x0004, 0x0008, 0x000C, 0x0010, 0x0100, 0x0110, 0x0208, 0x2000, 0x2004, 0x2008, 0x200C]) :=
  ⟨.a, 1, 0x200C, 5, w, by decide +kernel⟩

theorem wit_RegisterWriteCompletes_3 : ∃ (q : Nat) (v : BitVec 32) (s : State), (freshFrame s .a q) :=
  ⟨1, 0xFF, w, by decide +kernel⟩

theorem wit_RegisterWriteCompletes_4 : ∃ (q : Nat) (v : BitVec 32) (s : State), (freshFrame s .b q) :=
  ⟨1, 0xFF, w, by decide +kernel⟩

theorem wit_RegisterWriteCompletes_6 : ∃ (l : Link) (q : Nat) (off : Nat) (v : BitVec 32) (s : State), (freshFrame s l q) ∧ (draftOff off = true) ∧ (draftWorks s = true) ∧ ((l = .jtag ∨ holds s l = true)) :=
  ⟨.a, 1, 0x3000, 0xFFFFFFFF, { w with flash := { prof := { test := true } } }, by decide +kernel⟩

theorem wit_MailboxBufferTakesBytes_1 : ∃ (q : Nat) (off : Nat) (d : Bytes) (s : State), (freshFrame s .a q) ∧ (s.mantel.mbxA.st ≠ 1) ∧ (d.length % 4 = 0) ∧ (0x1040 ≤ off) ∧ (off + d.length ≤ 0x1080) ∧ (off < 0x1080) :=
  ⟨1, 0x107C, [1, 2, 3, 4], { w with mantel.mbxA := { st := 2 } }, by decide +kernel⟩

theorem wit_MailboxBufferTakesBytes_2 : ∃ (q : Nat) (off : Nat) (d : Bytes) (s : State), (freshFrame s .a q) ∧ (s.mantel.mbxA.st ≠ 1) ∧ (d.length % 4 = 0) ∧ (0x1200 ≤ off) ∧ (off + d.length ≤ 0x1400) ∧ (off < 0x1400) :=
  ⟨1, 0x13FC, [1, 2, 3, 4], { w with mantel.mbxA := { page := 7 } }, by decide +kernel⟩

theorem wit_SubmissionQueuesCommand_1 : ∃ (l : Link) (q : Nat) (v : BitVec 32) (b : MbxBlock) (s : State), (freshFrame s l q) ∧ (mailboxesServe s = true) ∧ (v.getLsbD 0 = true) ∧ ((l = .jtag → jtagWorks s = true)) ∧ (s.mantel.blk (ownMbx l) = b) ∧ (b.st ≠ 1) :=
  ⟨.b, 1, 1, { w.mantel.mbxB with cmdHdr := 0x0101 + 2 ^ 16 * 9 }, { w with mantel.mbxB.cmdHdr := 0x0101 + 2 ^ 16 * 9 }, by decide +kernel⟩

theorem wit_SubmissionQueuesCommand_2 : ∃ (l : Link) (q : Nat) (v : BitVec 32) (s : State), (freshFrame s l q) ∧ (mailboxesServe s = true) ∧ (v.getLsbD 0 = true) ∧ ((l = .jtag → jtagWorks s = true)) ∧ ((s.mantel.blk (ownMbx l)).st = 1) :=
  ⟨.a, 1, 1, { w with mantel.mbxA.st := 1 }, by decide +kernel⟩

theorem wit_SubmissionQueuesCommand_3 : ∃ (l : Link) (q : Nat) (v : BitVec 32) (s : State), (freshFrame s l q) ∧ (mailboxesServe s = true) ∧ (v.getLsbD 0 = false) ∧ ((l = .jtag → jtagWorks s = true)) :=
  ⟨.a, 1, 0, w, by decide +kernel⟩

theorem wit_SubmissionQueuesCommand_4 : ∃ (l : Link) (q : Nat) (b : MbxBlock) (s : State), (freshFrame s l q) ∧ (mailboxesServe s = true) ∧ (l ≠ .jtag) ∧ (s.mantel.blk (ownMbx l) = b) ∧ (b.st ≠ 1) :=
  ⟨.a, 1, { w.mantel.mbxA with cmdHdr := 0x0101 + 2 ^ 16 * 9 }, { w with mantel.mbxA.cmdHdr := 0x0101 + 2 ^ 16 * 9 }, by decide +kernel⟩

theorem wit_SubmissionQueuesCommand_5 : ∃ (l : Link) (q : Nat) (s : State), (freshFrame s l q) ∧ (mailboxesServe s = true) ∧ (l ≠ .jtag) ∧ ((s.mantel.blk (ownMbx l)).st = 1) :=
  ⟨.b, 1, { w with mantel.mbxB.st := 1 }, by decide +kernel⟩

theorem wit_SubmissionQueuesCommand_6 : ∃ (l : Link) (q : Nat) (s : State), (freshFrame s l q) ∧ (l ≠ .jtag) :=
  ⟨.b, 1, w, by decide +kernel⟩

theorem wit_SubmissionQueuesCommand_7 : ∃ (m : MbxId) (port : Nat) (src : Nat) (txn : Nat) (hdr : Nat) (data : Bytes) (h : CmdHdr) (j : Job) (s : State), (h = cmdHdr hdr) ∧ ((s.mantel.lasts.find? fun l => l.mbx == m && l.seq == h.seq && l.op == h.op) = none) ∧ (acceptStatus s m h data.length = .ok) ∧ (h.defer = false) ∧ (j = { id := s.mantel.nextJob, mbx := m, port := port, src := src, txn := txn, op := h.op, seq := h.seq, part := h.part, quiet := h.quiet, payload := data.take h.len, ready := s.t, at_ := s.ns }) :=
  ⟨.tenant 1, 0, 3, 4, hdPlain, [1], cmdHdr hdPlain, jobOf hdPlain 0 [1], w, by decide +kernel⟩

theorem wit_SubmissionQueuesCommand_8 : ∃ (m : MbxId) (port : Nat) (src : Nat) (txn : Nat) (hdr : Nat) (tk : Nat) (data : Bytes) (h : CmdHdr) (j : Job) (c : Cmpl) (s : State), (h = cmdHdr hdr) ∧ ((s.mantel.lasts.find? fun l => l.mbx == m && l.seq == h.seq && l.op == h.op) = none) ∧ (acceptStatus s m h data.length = .ok) ∧ (h.defer = true) ∧ (tk = s.mantel.nextTicket) ∧ (j = { id := s.mantel.nextJob, mbx := m, port := port, src := src, txn := txn, op := h.op, seq := h.seq, part := h.part, defer := true, quiet := h.quiet, payload := data.take h.len, ready := s.t, at_ := s.ns, ticket := tk }) ∧ (c = { op := h.op, seq := h.seq, ticket := tk, endTime := s.ns }) :=
  ⟨.tenant 1, 0, 3, 4, hdDefer, w.mantel.nextTicket, [1, 0], cmdHdr hdDefer, jobOf hdDefer w.mantel.nextTicket [1, 0], { op := 0x0802, seq := 9, ticket := w.mantel.nextTicket, endTime := w.ns }, w, by decide +kernel⟩

theorem wit_SubmissionQueuesCommand_9 : ∃ (m : MbxId) (port : Nat) (src : Nat) (txn : Nat) (hdr : Nat) (data : Bytes) (h : CmdHdr) (st : Status) (j : Job) (s : State), (h = cmdHdr hdr) ∧ ((s.mantel.lasts.find? fun l => l.mbx == m && l.seq == h.seq && l.op == h.op) = none) ∧ (acceptStatus s m h data.length = st) ∧ (st ≠ .ok) ∧ (j = { id := s.mantel.nextJob, mbx := m, port := port, src := src, txn := txn, op := h.op, seq := h.seq, part := h.part, defer := h.defer, quiet := h.quiet, payload := data.take h.len, ready := s.t, at_ := s.ns }) :=
  ⟨.tenant 1, 0, 3, 4, hdPlain + 2 ^ 80, [1], cmdHdr (hdPlain + 2 ^ 80), .badDescriptor, jobOf (hdPlain + 2 ^ 80) 0 [1], w, by decide +kernel⟩

theorem wit_ChimneyEventsComplete_3 : ∃ (l : Link) (s : State), (inReset s = false) :=
  ⟨.b, { w with ember.fx := 2 ^ 79 + 12345 }, by decide +kernel⟩

theorem wit_ChimneyEventsComplete_4 : ∃ (l : Link) (s : State), (s.mantel.irqOut.isSome = true) ∧ (holds s l = true) ∧ (s.mantel.irqMore = false) :=
  ⟨.a, { w with mantel.irqOut := some 3 }, by decide +kernel⟩

theorem wit_ChimneyEventsComplete_5 : ∃ (l : Link) (s : State), (s.mantel.irqOut.isSome = true) ∧ (holds s l = true) ∧ (s.mantel.irqMore = true) :=
  ⟨.a, { w with mantel := { w.mantel with irqOut := some 3, irqMore := true, irqStatus := 7, irqEnable := 7, linkA := { up := true } } }, by decide +kernel⟩

theorem wit_ChimneyEventsComplete_6 : ∃ (s : State), (s.mantel.irqOut.isSome = true) ∧ (masterUp s.mantel = true) ∧ (s.mantel.irqAt + 10000 ≤ s.t) :=
  ⟨{ w with t := 10000, mantel := { w.mantel with irqOut := some 3, linkA := { up := true } } }, by decide +kernel⟩

theorem wit_ChimneyEventsComplete_7 : ∃ (l : Link) (q : Nat) (s : State), (inReset s = false) ∧ ((linkOf s l).lastSeq = some q) :=
  ⟨.a, 7, { w with mantel.linkA := { up := true, lastSeq := some 7 } }, by decide +kernel⟩

theorem wit_ChimneyEventsComplete_9 : ∃ (l : Link) (s : State), (inReset s = false) ∧ (s.power.refLost = [false, false, false]) :=
  ⟨.b, w, by decide +kernel⟩

theorem wit_TenantMailboxCompletes_1 : ∃ (p : Nat) (q : Nat) (h : Nat) (m : PktMsg) (s : State) (s1 : State) (s2 : State), (s1 = eatPkt p .mgt m s) ∧ ((s1.port p).kind = 0) ∧ ((s1.port p).owner = some q) ∧ ((s1.port p).admitted = true) ∧ (m.src = epId s1.flash.prof.cell s1.modNum p) ∧ (m.rsv = false) ∧ (m.flux = false) ∧ (64 ≤ m.body.length) ∧ (m.bytes = m.body.length) ∧ (police p m.src (rawFlits ((s1.port p).sess.phase == 3) (1 + pktLen m.bytes)) true s1 = (true, h, s2)) ∧ (trkFree s2 none = true) :=
  ⟨0, 1, tmbP.2.1, tmb, w, tmb1, tmbP.2.2, rfl, by decide +kernel⟩

theorem wit_TenantMailboxCompletes_2 : ∃ (p : Nat) (s : State),
    let due := s.mantel.posts.filter fun x => x.part == p && decide (x.at_ ≤ s.ns)
    (due ≠ []) :=
  ⟨1, { w with mantel.posts := [{ part := 1, port := 0, dst := accelEp w 0, txn := 3 }] }, by decide +kernel⟩

theorem wit_TenantMailboxCompletes_4 : ∃ (p : Nat) (at_ : Nat) (q : EventQ) (s : State), (s.mantel.evP[p]? = some q) ∧ (q.notifyDue = some at_) ∧ (at_ ≤ s.ns) ∧ (q.notify ≠ 0) :=
  ⟨1, 0, { recs := [{}], notify := 5, notifyDue := some 0 }, { w with mantel.evP := w.mantel.evP.set 1 { recs := [{}], notify := 5, notifyDue := some 0 } }, by decide +kernel⟩

theorem wit_TenantMailboxCompletes_5 : ∃ (ticket : Nat) (st : Nat) (d : Nat) (e : Nat) (p : Nat) (j : Job) (s : State), ((s.mantel.jobs.find? fun j => j.defer && j.ticket == ticket && j.res.isSome) = some j) ∧ (j.res = some (st, d, e)) ∧ (j.mbx = .tenant p) :=
  ⟨4, 0, 2, 9, 1, { jb 0x0306 [] with mbx := .tenant 1, defer := true, ticket := 4, res := some (0, 2, 9) }, run w { jb 0x0306 [] with mbx := .tenant 1, defer := true, ticket := 4, res := some (0, 2, 9) }, by decide +kernel⟩

theorem wit_TenantMailboxCompletes_6 : ∃ (ticket : Nat) (st : Nat) (d : Nat) (e : Nat) (j : Job) (s : State), ((s.mantel.jobs.find? fun j => j.defer && j.ticket == ticket && j.res.isSome) = some j) ∧ (j.res = some (st, d, e)) ∧ ((mbxTenant j.mbx).isNone = true) :=
  ⟨4, 0, 2, 9, { jb 0x0306 [] with defer := true, ticket := 4, res := some (0, 2, 9) }, run w { jb 0x0306 [] with defer := true, ticket := 4, res := some (0, 2, 9) }, by decide +kernel⟩

theorem wit_TenantMailboxCompletes_7 : ∃ (p : Nat) (s : State), (s.flash.prof.secure = true) ∧ (s.ns % 100000 / 6000 = p) :=
  ⟨3, { w with flash := { prof := { secure := true } }, ember.fx := 65536 * 18000 }, by decide +kernel⟩

theorem wit_RegisterWriteCompletes_5 : ∃ (l : Link) (q : Nat) (off : Nat) (v : BitVec 32) (s : State), (freshFrame s l q) :=
  ⟨.a, 1, 0x200C, 5, w, by decide +kernel⟩

theorem wit_ChimneyEventsComplete_1 : ∃ (l : Link) (m : MbxId) (s : State), (inReset s = false) ∧ (l ≠ .jtag) ∧ ((m = .a ∨ m = .b)) :=
  ⟨.a, .b, { w with mantel.mbxB.overrun := true }, by decide +kernel⟩

theorem wit_ChimneyEventsComplete_2 : ∃ (m : MbxId) (s : State), (inReset s = false) ∧ (jtagWorks s = true) ∧ ((m = .a ∨ m = .b ∨ m = .debug)) :=
  ⟨.a, { w with mantel.mbxA.overrun := true, flash := { prof := { test := true } } }, by decide +kernel⟩

theorem wit_QueriesAndEventsComplete_1 : ∃ (m : MbxId) (j : Job) (s : State), (mayRun s m 0x0101 j) :=
  ⟨.a, jb 0x0101 ([]), run (w) (jb 0x0101 ([])), by decide +kernel⟩

theorem wit_QueriesAndEventsComplete_2 : ∃ (m : MbxId) (j : Job) (s : State), (mayRun s m 0x0103 j) :=
  ⟨.b, { jb 0x0103 [] with mbx := .b }, run w { jb 0x0103 [] with mbx := .b }, by decide +kernel⟩

theorem wit_QueriesAndEventsComplete_3 : ∃ (p : Nat) (j : Job) (s : State), (mayRun s (.tenant p) 0x0C03 j) ∧ (j.mbx = .tenant p) :=
  ⟨1, { jb 0x0C03 ([]) with mbx := .tenant 1 }, run (w) { jb 0x0C03 ([]) with mbx := .tenant 1 }, by decide +kernel⟩

theorem wit_QueriesAndEventsComplete_4 : ∃ (m : MbxId) (j : Job) (s : State), (mayRun s m 0x0C03 j) ∧ ((mbxTenant j.mbx).isNone = true) :=
  ⟨.a, jb 0x0C03 ([]), run (w) (jb 0x0C03 ([])), by decide +kernel⟩

theorem wit_QueriesAndEventsComplete_5 : ∃ (m : MbxId) (j : Job) (s : State), (mayRun s m 0x0B06 j) ∧ ((mbxTenant j.mbx).isNone = true) :=
  ⟨.a, jb 0x0B06 ([0, 0, 0, 0]), run (w) (jb 0x0B06 ([0, 0, 0, 0])), by decide +kernel⟩

theorem wit_QueriesAndEventsComplete_6 : ∃ (m : MbxId) (j : Job) (s : State), (mayRun s m 0x0D02 j) ∧ (draftOff (fldLE j.payload 0 2) = true) ∧ (fldLE j.payload 0 2 % 4 = 0) :=
  ⟨.a, jb 0x0D02 ([0, 0x30]), run (w) (jb 0x0D02 ([0, 0x30])), by decide +kernel⟩

theorem wit_QueriesAndEventsComplete_7 : ∃ (m : MbxId) (j : Job) (s : State), (mayRun s m 0x0E04 j) :=
  ⟨.a, jb 0x0E04 ([]), run (w) (jb 0x0E04 ([])), by decide +kernel⟩

theorem wit_QueriesAndEventsComplete_8 : ∃ (m : MbxId) (j : Job) (s : State), (mayRun s m 0x0C01 j) ∧ ((mbxTenant j.mbx).isNone = true) ∧ (1 ≤ fldLE j.payload 0 2) ∧ (fldLE j.payload 0 2 ≤ 64) :=
  ⟨.a, jb 0x0C01 ([64, 0]), run { w with mantel.evM := { recs := [{ code := 1 }] } } (jb 0x0C01 [64, 0]), by decide +kernel⟩

theorem wit_QueriesAndEventsComplete_9 : ∃ (p : Nat) (j : Job) (s : State), (mayRun s (.tenant p) 0x0C01 j) ∧ (j.mbx = .tenant p) ∧ (1 ≤ fldLE j.payload 0 2) ∧ (fldLE j.payload 0 2 ≤ 31) :=
  ⟨1, { jb 0x0C01 ([31, 0]) with mbx := .tenant 1 }, run (w) { jb 0x0C01 ([31, 0]) with mbx := .tenant 1 }, by decide +kernel⟩

theorem wit_QueriesAndEventsComplete_10 : ∃ (m : MbxId) (j : Job) (s : State), (mayRun s m 0x0C02 j) ∧ ((s.part? j.part).isSome = true) ∧ ((fldLE j.payload 0 4 = 0 ∨ admittedPeer s j.part (fldLE j.payload 0 4) = true)) :=
  ⟨.a, jb 0x0C02 (toLE 4 (accelEp w 0)), run (w) (jb 0x0C02 (toLE 4 (accelEp w 0))), by decide +kernel⟩

theorem wit_QueriesAndEventsComplete_11 : ∃ (m : MbxId) (j : Job) (s : State), (mayRun s m 0x0C04 j) ∧ (fldLE j.payload 0 4 < 2 ^ 22) :=
  ⟨.a, jb 0x0C04 ([0, 0, 0, 0, 1, 0]), run (w) (jb 0x0C04 ([0, 0, 0, 0, 1, 0])), by decide +kernel⟩

theorem wit_DraftAndDebugCommandsComplete_1 : ∃ (m : MbxId) (j : Job) (s : State), (mayRun s m 0x0D01 j) ∧ (zeroAt j.payload 2 2 = true) ∧ (fldLE j.payload 0 2 % 4 = 0) ∧ (draftOff (fldLE j.payload 0 2) = true) ∧ (draftWorks s = true) :=
  ⟨.a, jb 0x0D01 ([0, 0x30, 0, 0, 255, 255, 255, 255]), run { w with flash := { prof := { test := true } } } (jb 0x0D01 [0, 0x30, 0, 0, 255, 255, 255, 255]), by decide +kernel⟩

theorem wit_DraftAndDebugCommandsComplete_2 : ∃ (m : MbxId) (j : Job) (s : State), (mayRun s m 0x0D03 j) :=
  ⟨.a, jb 0x0D03 ([]), run { w with mantel.draft := [(0x3000, 7)] } (jb 0x0D03 []), by decide +kernel⟩

theorem wit_DraftAndDebugCommandsComplete_3 : ∃ (m : MbxId) (j : Job) (s : State), (mayRun s m 0x0B04 j) ∧ (j.payload.length = 8) ∧ (fldLE j.payload 0 1 = 0) ∧ (zeroAt j.payload 1 7 = true) ∧ (s.flash.prof.secure = false) :=
  ⟨.a, jb 0x0B04 (List.replicate 8 0), run (w) (jb 0x0B04 (List.replicate 8 0)), by decide +kernel⟩

theorem wit_DraftAndDebugCommandsComplete_4 : ∃ (m : MbxId) (j : Job) (n : Bytes) (s : State), (mayRun s m 0x0B04 j) ∧ (393 ≤ j.payload.length) ∧ (fldLE j.payload 0 1 = 1) ∧ (zeroAt j.payload 1 7 = true) ∧ (s.flash.prof.secure = false) ∧ (s.mantel.debugNonce = some n) :=
  ⟨.a, jb 0x0B04 (1 :: List.replicate 392 0), [5], run { w with mantel.debugNonce := some [5] } (jb 0x0B04 (1 :: List.replicate 392 0)), by decide +kernel⟩

theorem wit_DraftAndDebugCommandsComplete_5 : ∃ (m : MbxId) (j : Job) (s : State), (mayRun s m 0x0B05 j) :=
  ⟨.a, jb 0x0B05 ([]), run { w with mantel := { w.mantel with debugOpen := true, draft := [(0x3000, 7)] } } (jb 0x0B05 []), by decide +kernel⟩

theorem wit_FirmwareCommandsComplete_1 : ∃ (m : MbxId) (j : Job) (k : Nat) (f : FwKind) (s : State), (mayRun s m 0x0E01 j) ∧ (fldLE j.payload 0 1 = k) ∧ (k ≤ 4) ∧ (zeroAt j.payload 1 3 = true) ∧ (s.mantel.fwStream = none) ∧ (fldLE j.payload 4 4 = 0) ∧ ((j.payload.drop 8).length ≤ fwSize k) ∧ (s.mantel.fw[k]? = some f) :=
  ⟨.a, jb 0x0E01 ([4, 0, 0, 0, 0, 0, 0, 0, 9, 8]), 4, {}, run (w) (jb 0x0E01 ([4, 0, 0, 0, 0, 0, 0, 0, 9, 8])), by decide +kernel⟩

theorem wit_FirmwareCommandsComplete_3 : ∃ (m : MbxId) (j : Job) (k : Nat) (f : FwKind) (s : State), (mayRun s m 0x0E03 j) ∧ (fldLE j.payload 0 1 = k) ∧ (k ≤ 4) ∧ (s.mantel.fw[k]? = some f) ∧ (f.inactive.verified = true) :=
  ⟨.a, jb 0x0E03 ([2]), 2, { slotB := { verified := true } }, run { w with mantel.fw := w.mantel.fw.set 2 { slotB := { verified := true } } } (jb 0x0E03 [2]), by decide +kernel⟩

theorem wit_FirmwareCommandsComplete_4 : ∃ (x : FwStream) (s : State), (s.mantel.fwStream = some x) ∧ (x.lastAt + 60000000000 ≤ s.t) :=
  ⟨{ kind := 1 }, { w with t := 60000000000, mantel.fwStream := some { kind := 1 } }, by decide +kernel⟩

theorem wit_DamperParametersTakeEffect_4 : ∃ (d : Nat) (p : DParam) (x : DPort) (s : State), (bit d 15 = false) ∧ (s.dsax[bits d 7 0]? = some x) :=
  ⟨255, .port 255, {}, w, by decide +kernel⟩

theorem wit_DamperParametersTakeEffect_6 : ∃ (m : MbxId) (j : Job) (p : Nat) (i : Nat) (x : DPort) (s : State), (mayRun s m 0x0604 j) ∧ (fldLE j.payload 0 1 = p) ∧ (fldLE j.payload 1 1 = 0) ∧ (fldLE j.payload 2 2 = i) ∧ (1 ≤ i) ∧ (i < 4095) ∧ (s.dsax[p]? = some x) ∧ (x.subs.any (·.idx == i) = true) :=
  ⟨.a, jb 0x0604 ([0, 0, 9, 0]), 0, 9, { subs := [{}, { idx := 9 }], q := [{ sub := 9 }] }, run { w with dsax := w.dsax.set 0 { subs := [{}, { idx := 9 }], q := [{ sub := 9 }] } } (jb 0x0604 [0, 0, 9, 0]), by decide +kernel⟩

theorem wit_FramesAreScheduled_1 : ∃ (p : Nat) (f : Frame) (d : DPort) (s : State), (nextFrame s false p (readyPort s p (s.dport false p)) = (some f, d)) ∧ ((s.port p).tx = []) :=
  ⟨4, { svc := 8 }, { q := [] }, { w with sax := w.sax.modify 4 (fun x => { x with cred := List.replicate 7 200 }), dsax := w.dsax.set 4 { q := [{ svc := 8 }] } }, by decide +kernel⟩

theorem wit_FramesAreScheduled_2 : ∃ (p : Nat) (f : Frame) (s : State), ((readyPort s p (s.dport false p)).q.find? (·.svc == 8) = some f) ∧ ((s.port p).tx = []) :=
  ⟨4, { svc := 8 }, wfr { svc := 8 }, by decide +kernel⟩

theorem wit_FramesAreScheduled_3 : ∃ (p : Nat) (f : Frame) (d : DPort) (d0 : DPort) (d1 : DPort) (s : State), (d0 = readyPort s p (s.dport false p)) ∧ (d0.q.find? (·.svc == 8) = none) ∧ (gatedPick s false p d0 = none) ∧ (sendUngated s false p 65536 d0 = (some f, d)) ∧ (d1 = takeFrame s f (chargeShapers s.ns f d)) ∧ ((s.port p).tx = []) :=
  ⟨4, { svc := 1 }, fdr.2, readyPort (wfr { svc := 1 }) 4 ((wfr { svc := 1 }).dport false 4), takeFrame (wfr { svc := 1 }) { svc := 1 } (chargeShapers (wfr { svc := 1 }).ns { svc := 1 } fdr.2), wfr { svc := 1 }, by decide +kernel⟩

theorem wit_FramesAreScheduled_4 : ∃ (p : Nat) (f : Frame) (q : List Frame) (s : State), (f ∈ readyQ s p q) :=
  ⟨4, { svc := 8 }, [{ svc := 8 }], wfr { svc := 8 }, by decide +kernel⟩

theorem wit_FramesAreScheduled_5 : ∃ (p : Nat) (f : Frame) (d : DPort) (s : State), (nextFrame s true p (s.dport true p) = (some f, d)) :=
  ⟨0, { svc := 8, out := .tray .cmp 1 64 0 [] }, { q := [] }, { w with dtray := w.dtray.set 0 { q := [{ svc := 8, out := .tray .cmp 1 64 0 [] }] } }, by decide +kernel⟩

theorem wit_FramesAreScheduled_6 : ∃ (tray : Bool) (p : Nat) (d : DPort) (f : Frame) (s : State), (d.q.find? (·.svc == 8) = some f) :=
  ⟨false, 4, { q := [{ svc := 1 }, { svc := 8 }] }, { svc := 8 }, w, by decide +kernel⟩

theorem wit_CalendarBankCommandsComplete_1 : ∃ (m : MbxId) (j : Job) (s : State), (mayRun s m 0x0704 j) ∧ (zeroAt j.payload 4 4 = true) ∧ (fldLE j.payload 0 4 + (j.payload.drop 8).length ≤ 4194304) ∧ (s.cal.armed = none) :=
  ⟨.a, jb 0x0704 (toLE 4 4194302 ++ [0, 0, 0, 0, 7, 8]), run (w) (jb 0x0704 (toLE 4 4194302 ++ [0, 0, 0, 0, 7, 8])), by decide +kernel⟩

theorem wit_CalendarBankCommandsComplete_2 : ∃ (m : MbxId) (j : Job) (s : State), (mayRun s m 0x0705 j) ∧ (fldLE j.payload 0 8 + fldLE j.payload 8 4 ≤ 4194304) ∧ (s.flash.prof.sysNooks ≠ 0) ∧ (s.cal.armed = none) :=
  ⟨.a, jb 0x0705 (toLE 8 4194302 ++ toLE 4 2), run { w with twin.calImage := [(4194303, 9)] } (jb 0x0705 (toLE 8 4194302 ++ toLE 4 2)), by decide +kernel⟩

theorem wit_CalendarBankCommandsComplete_3 : ∃ (m : MbxId) (j : Job) (s : State), (mayRun s m 0x0709 j) ∧ (fldLE j.payload 0 1 ≤ 1) ∧ (zeroAt j.payload 1 3 = true) ∧ (fldLE j.payload 8 4 ≤ 4096) ∧ (fldLE j.payload 4 4 + fldLE j.payload 8 4 ≤ 4194304) :=
  ⟨.a, jb 0x0709 ([1, 0, 0, 0, 0, 0, 0, 0] ++ toLE 4 16), run (w) (jb 0x0709 ([1, 0, 0, 0, 0, 0, 0, 0] ++ toLE 4 16)), by decide +kernel⟩

theorem wit_CalendarArmingCompletes_1 : ∃ (m : MbxId) (j : Job) (s : State), (mayRun s m 0x0706 j) ∧ (calState s = true) ∧ (s.cal.armed = none) ∧ ∃ d, (calFault (startJob j s) (leNat j.payload) = some d) := by
  refine ⟨.a, jb 0x0706 (List.replicate 64 255), run { w with ember.st := .locked } (jb 0x0706 (List.replicate 64 255)), ?_, ?_, ?_, 0xFFFFFFFF, ?_⟩ <;> decide +kernel

theorem wit_CalendarArmingCompletes_3 : ∃ (m : MbxId) (j : Job) (h : CalHdr) (s : State), (mayRun s m 0x0707 j) ∧ (s.cal.armed = some h) ∧ (s.ns + 512 ≤ 256 * h.swapSlot) :=
  ⟨.a, jb 0x0707 ([]), hdrIdle, run { w with cal := { hdr1 := hdrIdle, isArmed := true } } (jb 0x0707 []), by decide +kernel⟩

theorem wit_CalendarArmingCompletes_4 : ∃ (m : MbxId) (j : Job) (s : State), (mayRun s m 0x0708 j) ∧ (s.slot + 4096 ≤ fldLE j.payload 0 8) :=
  ⟨.a, jb 0x0708 (toLE 8 4096), run (w) (jb 0x0708 (toLE 8 4096)), by decide +kernel⟩

theorem wit_CalendarEventsAct_2 : ∃ (a : Nat) (s : State), (s.cal.stopAt = some a) ∧ (a ≤ s.slot) ∧ (s.cal.armed = none) :=
  ⟨10, { wc 7 1 0 9 with cal.stopAt := some 10 }, by decide +kernel⟩

theorem wit_CalendarEventsAct_3 : ∃ (e : Nat) (k : Nat) (v : CalEv) (s : State), (dueEvent s e 0 = some (k, v)) :=
  ⟨0, 10, ev0 (wc 0 4 2 9), wc 0 4 2 9, by decide +kernel⟩

theorem wit_CalendarEventsAct_4 : ∃ (e : Nat) (k : Nat) (v : CalEv) (s : State), (dueEvent s e 1 = some (k, v)) :=
  ⟨0, 10, ev0 (wc 1 4 2 0), wc 1 4 2 0, by decide +kernel⟩

theorem wit_CalendarEventsAct_5 : ∃ (e : Nat) (k : Nat) (v : CalEv) (s : State), (dueEvent s e 2 = some (k, v)) :=
  ⟨0, 10, ev0 (wc 2 1 0 5), wc 2 1 0 5, by decide +kernel⟩

theorem wit_CalendarEventsAct_6 : ∃ (e : Nat) (k : Nat) (v : CalEv) (tb : Table) (s : State), (dueEvent s e 3 = some (k, v)) ∧ ((s.tables.filter fun t => t.d.id == v.target && t.u.isSome) = [tb]) ∧ (tb.closeWait = []) :=
  ⟨0, 10, ev0 (wc 3 9 0 0), { d := { id := 9, part := 1 }, u := some {} }, { wc 3 9 0 0 with tables := [{ d := { id := 9, part := 1 }, u := some {} }] }, by decide +kernel⟩

theorem wit_CalendarEventsAct_7 : ∃ (e : Nat) (k : Nat) (c : Nat) (v : CalEv) (x : Chan) (s : State), (dueEvent s e 4 = some (k, v)) ∧ (v.chans = [c]) ∧ (s.chans[c]? = some x) ∧ (x.refBusy = true) :=
  ⟨0, 10, 32, ev0 (wc 4 1 0 1), { refBusy := true }, { wc 4 1 0 1 with chans := w.chans.set 32 { refBusy := true } }, by decide +kernel⟩

theorem wit_CalendarEventsAct_8 : ∃ (e : Nat) (k : Nat) (c : Nat) (v : CalEv) (x : Chan) (s : State), (dueEvent s e 4 = some (k, v)) ∧ (v.chans = [c]) ∧ (s.chans[c]? = some x) ∧ (x.refBusy = false) ∧ (x.refPend = false) :=
  ⟨0, 10, 767, ev0 (wc 4 23 0 (2 ^ 31)), {}, wc 4 23 0 (2 ^ 31), by decide +kernel⟩

theorem wit_CalendarEventsAct_9 : ∃ (e : Nat) (k : Nat) (c : Nat) (v : CalEv) (s : State), (dueEvent s e 5 = some (k, v)) ∧ (v.chans = [c]) :=
  ⟨0, 10, 0, ev0 (wc 5 0 0 1), wc 5 0 0 1, by decide +kernel⟩

theorem wit_CalendarEventsAct_10 : ∃ (e : Nat) (k : Nat) (v : CalEv) (s : State), (dueEvent s e 6 = some (k, v)) :=
  ⟨0, 10, ev0 (wc 6 0 0 0xFEDCBA9876543210), wc 6 0 0 0xFEDCBA9876543210, by decide +kernel⟩

theorem wit_CalendarEventsAct_11 : ∃ (e : Nat) (k : Nat) (v : CalEv) (s : State), (dueEvent s e 7 = some (k, v)) :=
  ⟨0, 10, ev0 (wc 7 1 0 9), wc 7 1 0 9, by decide +kernel⟩

theorem wit_EmberCommandsComplete_1 : ∃ (m : MbxId) (j : Job) (s : State), (mayRun s m 0x0701 j) ∧ (s.ember.isFm = true) ∧ (s.cal.running = false) ∧ (s.cal.armed = none) ∧ (s.cal.stopAt = none) ∧ (fldLE j.payload 0 10 < 2 ^ 80) :=
  ⟨.a, jb 0x0701 (toLE 10 (2 ^ 80 - 1)), run (w) (jb 0x0701 (toLE 10 (2 ^ 80 - 1))), by decide +kernel⟩

theorem wit_EmberCommandsComplete_2 : ∃ (m : MbxId) (j : Job) (s : State), (mayRun s m 0x0702 j) ∧ (zeroAt j.payload 1 3 = true) :=
  ⟨.a, jb 0x0702 ([4, 0, 0, 0, 255, 255, 255, 255]), run (w) (jb 0x0702 ([4, 0, 0, 0, 255, 255, 255, 255])), by decide +kernel⟩

theorem wit_EmberCommandsComplete_3 : ∃ (m : MbxId) (j : Job) (s : State), (mayRun s m 0x0703 j) :=
  ⟨.a, jb 0x0703 ([]), run (w) (jb 0x0703 ([])), by decide +kernel⟩

theorem wit_EmberEventsAct_1 : ∃ (p : Nat) (x : SaxPort) (s : State), (s.ember.up = some p) ∧ (s.ember.syncAt + 1000000 ≤ s.t) ∧ (linkAlive s p = true) ∧ (s.sax[p]? = some x) :=
  ⟨4, w.port 4, { w with t := 1000000, ember := { up := some 4, fx := 77 } }, by decide +kernel⟩

theorem wit_EmberEventsAct_2 : ∃ (p : Nat) (t2 : Nat) (seq : Nat) (steps : Nat) (m : PktMsg) (s : State), (decSync 0 m.body = some (0, 0, seq, steps)) ∧ (m.rsv = false) ∧ ((s.port p).kind < 2) :=
  ⟨4, 6, 3, 2, { opc := 1, bytes := 32, body := encSync 0 0 2 3 0 0 }, w, by decide +kernel⟩

theorem wit_EmberEventsAct_4 : ∃ (p : Nat) (t2 : Nat) (t3 : Nat) (t4 : Nat) (seq : Nat) (steps : Nat) (m : PktMsg) (x : SaxPort) (s : State), (decSync 1 m.body = some (t2, t3, seq, steps)) ∧ (m.rsv = false) ∧ (s.ember.up = some p) ∧ (s.sax[p]? = some x) ∧ (x.syncOpen = true) ∧ (x.syncSeq = seq) :=
  ⟨4, 5, 6, 20, 3, 2, { opc := 1, bytes := 32, body := encSync 1 0 2 3 6 5 }, { w.port 4 with syncOpen := true, syncSeq := 3, t1 := 1 }, { w with ember := { up := some 4, fx := 20, isFm := false }, sax := w.sax.set 4 { w.port 4 with syncOpen := true, syncSeq := 3, t1 := 1 } }, by decide +kernel⟩

theorem wit_EmberEventsAct_5 : ∃ (s : State), (s.ember.annAt + 1000000 ≤ s.t) ∧ (s.power.readyBasic = true) :=
  ⟨{ w with t := 1000000 }, by decide +kernel⟩

theorem wit_EmberEventsAct_6 : ∃ (p : Nat) (m : PktMsg) (a : Ann) (s : State), (decAnn m.body = some a) ∧ (m.rsv = false) ∧ ((s.port p).kind = 1) ∧ (s.ember.up ≠ some p) :=
  ⟨4, { opc := 1, bytes := 32, body := encAnn { fmSerial := 9, cmSerial := 9, fmPrio := 1, cmPrio := 1, cell := 2, levels := 1 } }, { fmSerial := 9, cmSerial := 9, fmPrio := 1, cmPrio := 1, cell := 2, levels := 1 }, w, by decide +kernel⟩

theorem wit_EmberEventsAct_7 : ∃ (p : Nat) (s : State), (s.ember.up = some p) ∧ (s.ember.upAt + 3000000 ≤ s.t) :=
  ⟨4, { w with t := 3000000, ember := { up := some 4 } }, by decide +kernel⟩

theorem wit_EmberEventsAct_8 : ∃ (ds : List Nat) (s : State), (s.ember.delayAt + 1000000 ≤ s.t) :=
  ⟨[1, 2, 3, 4, 5, 6, 7], { w with t := 1000000 }, by decide +kernel⟩

theorem wit_EmberEventsAct_9 : ∃ (s : State), (s.ember.ppsEdges = []) :=
  ⟨w, by decide +kernel⟩

theorem wit_EmberEventsAct_10 : ∃ (x : Nat) (s : State), (s.ember.ppsEdges = [x]) ∧ (x + 1000010000 < s.ns) :=
  ⟨5, { w with ember := { fx := 65536 * 1000010006, ppsEdges := [5] } }, by decide +kernel⟩

theorem wit_EmberEventsAct_11 : ∃ (x : Nat) (s : State), (s.ember.ppsEdges = [x]) ∧ (x + 999990000 ≤ s.ns) ∧ (s.ns ≤ x + 1000010000) ∧ (s.ember.ppsEver = false) ∧ (s.ember.ppsGood = 0) ∧ (s.ember.ppsQual = false) ∧ (s.ember.isFm = false) :=
  ⟨5, { w with ember := { fx := 65536 * 1000010005, ppsEdges := [5], isFm := false } }, by decide +kernel⟩

theorem wit_EmberEventsAct_12 : ∃ (x : Nat) (r : List Nat) (s : State), (s.ember.ppsEdges = x :: r) ∧ (x + 1100000000 ≤ s.ns) :=
  ⟨5, [4], { w with ember := { fx := 65536 * 1100000005, ppsEdges := [5, 4] } }, by decide +kernel⟩

theorem wit_CalendarArmingCompletes_2 : ∃ (m : MbxId) (j : Job) (s : State), (mayRun s m 0x0706 j) ∧ (calState s = true) ∧ (s.cal.armed = none) ∧ (calFault (startJob j s) (leNat j.payload) = none) :=
  calArmed_wit _ (crc32_lt _) rfl

theorem wit_FirmwareCommandsComplete_2 : ∃ (m : MbxId) (j : Job) (k : Nat) (f : FwKind) (s : State), (mayRun s m 0x0E02 j) ∧ (fldLE j.payload 0 1 = k) ∧ (k ≤ 4) ∧ (fwOther s j.mbx = false) ∧ (s.mantel.fw[k]? = some f) :=
  ⟨.a, jb 0x0E02 ([0]), 0, {}, run (w) (jb 0x0E02 ([0])), by decide +kernel⟩

theorem wit_FirmwareCommandsComplete_5 : ∃ (m : MbxId) (j : Job) (k : Nat) (f : FwKind) (x : FwStream) (s : State), (mayRun s m 0x0E01 j) ∧ (fldLE j.payload 0 1 = k) ∧ (k ≤ 4) ∧ (zeroAt j.payload 1 3 = true) ∧ (s.mantel.fwStream = some x) ∧ (x.mbx = j.mbx) ∧ (x.kind = k) ∧ (x.endAt = fldLE j.payload 4 4) ∧ (fldLE j.payload 4 4 + (j.payload.drop 8).length ≤ fwSize k) ∧ (s.mantel.fw[k]? = some f) :=
  ⟨.a, jb 0x0E01 ([1, 0, 0, 0, 4, 0, 0, 0, 9, 8]), 1, {}, { kind := 1, endAt := 4 }, run { w with mantel.fwStream := some { kind := 1, endAt := 4 } } (jb 0x0E01 [1, 0, 0, 0, 4, 0, 0, 0, 9, 8]), by decide +kernel⟩

theorem wit_FirmwareCommandsComplete_6 : ∃ (m : MbxId) (j : Job) (k : Nat) (f : FwKind) (s : State), (mayRun s m 0x0E03 j) ∧ (fldLE j.payload 0 1 = k) ∧ (k ≤ 4) ∧ (s.mantel.fw[k]? = some f) ∧ (f.inactive.verified = false) :=
  ⟨.a, jb 0x0E03 ([4]), 4, {}, run (w) (jb 0x0E03 ([4])), by decide +kernel⟩

theorem wit_DamperParametersTakeEffect_1 : ∃ (m : MbxId) (j : Job) (s : State), (mayRun s m 0x0601 j) ∧
    let d := leNat j.payload

    let x := accepted (s.dport (bit d 15) (bits d 7 0))
    (bits d 214 208 = 0) ∧ (bits d 169 16 = 0) ∧ (bits d 14 8 = 0) ∧ ((bit d 15 = true → bits d 7 0 < 32)) ∧ (bwBad (bits d 255 224) (bits d 223 215) = false) ∧ ((bits d 191 170 = x.mask ∨ x.subs.any (·.idx != 0) = false)) ∧ (portWorks s (bit d 15) (bits d 7 0) = true) :=
  ⟨.a, jb 0x0601 (toLE 32 (2 ^ 170 * 0x3FFFFF)), run (w) (jb 0x0601 (toLE 32 (2 ^ 170 * 0x3FFFFF))), by decide +kernel⟩

theorem wit_DamperParametersTakeEffect_2 : ∃ (m : MbxId) (j : Job) (s : State), (mayRun s m 0x0602 j) ∧
    let d := leNat j.payload
    (bits d 86 80 = 0) ∧ (bits d 63 16 = 0) ∧ (bits d 14 11 = 0) ∧ ((bit d 15 = true → bits d 7 0 < 32)) ∧ (bwBad (bits d 127 96) (bits d 95 87) = false) ∧ (1 ≤ bits d 79 64) ∧ (bits d 79 64 ≤ 4096) ∧ (portWorks s (bit d 15) (bits d 7 0) = true) :=
  ⟨.a, jb 0x0602 (toLE 16 (2 ^ 64 * 4096 + 2 ^ 8 * 7)), run (w) (jb 0x0602 (toLE 16 (2 ^ 64 * 4096 + 2 ^ 8 * 7))), by decide +kernel⟩

theorem wit_DamperParametersTakeEffect_3 : ∃ (m : MbxId) (j : Job) (s : State), (mayRun s m 0x0603 j) ∧
    let d := leNat j.payload

    let x := accepted (s.dport (bit d 15) (bits d 7 0))
    (bits d 214 208 = 0) ∧ (bits d 126 112 = 0) ∧ (bits d 57 28 = 0) ∧ (bits d 14 8 = 0) ∧ ((bit d 15 = true → bits d 7 0 < 32)) ∧ (bwBad (bits d 255 224) (bits d 223 215) = false) ∧ (rqBad (bits d 207 184) (bits d 183 168) = false) ∧ (bwBad (bits d 167 136) (bits d 135 127) = false) ∧ (1 ≤ bits d 111 96) ∧ (bits d 111 96 ≤ 4096) ∧ (bits d 27 16 ≤ 4094) ∧ ((bits d 27 16 = 0 → bits d 79 58 = 0)) ∧ (bits d 79 58 &&& x.mask = bits d 79 58) ∧ (portWorks s (bit d 15) (bits d 7 0) = true) ∧ ((bits d 27 16 = 0 ∨ x.subs.any (fun y => y.idx != 0 && y.idx != bits d 27 16 && y.key == bits d 79 58) = false)) ∧ ((x.subs.any (·.idx == bits d 27 16) = true ∨ (x.subs.length + 1 < 4096 ∧ subEntries s < 65536))) :=
  ⟨.a, jb 0x0603 (toLE 32 (2 ^ 96 + 2 ^ 16 * 4094 + 2 ^ 58 * 77)), run (w) (jb 0x0603 (toLE 32 (2 ^ 96 + 2 ^ 16 * 4094 + 2 ^ 58 * 77))), by decide +kernel⟩

theorem wit_DamperParametersTakeEffect_7 : ∃ (m : MbxId) (j : Job) (p : Nat) (i : Nat) (x : DPort) (s : State), (mayRun s m 0x0604 j) ∧ (fldLE j.payload 0 1 = p) ∧ (fldLE j.payload 1 1 = 1) ∧ (p ≤ 31) ∧ (fldLE j.payload 2 2 = i) ∧ (1 ≤ i) ∧ (i < 4095) ∧ (s.dtray[p]? = some x) ∧ (x.subs.any (·.idx == i) = true) :=
  ⟨.a, jb 0x0604 ([0, 1, 9, 0]), 0, 9, { subs := [{}, { idx := 9 }], q := [{ sub := 9 }] }, run { w with dtray := w.dtray.set 0 { subs := [{}, { idx := 9 }], q := [{ sub := 9 }] } } (jb 0x0604 [0, 1, 9, 0]), by decide +kernel⟩

theorem wit_DamperParametersTakeEffect_8 : ∃ (m : MbxId) (j : Job) (p : Nat) (i : Nat) (s : State), (mayRun s m 0x0604 j) ∧ (fldLE j.payload 0 1 = p) ∧ (fldLE j.payload 1 1 = 0) ∧ (fldLE j.payload 2 2 = i) ∧ (1 ≤ i) ∧ (i < 4095) ∧ ((s.dport false p).subs.any (·.idx == i) = false) :=
  ⟨.a, jb 0x0604 ([0, 0, 9, 0]), 0, 9, run (w) (jb 0x0604 ([0, 0, 9, 0])), by decide +kernel⟩

theorem wit_DamperStatsComplete_1 : ∃ (m : MbxId) (j : Job) (p : Nat) (tr : Nat) (ids : List Nat) (s : State), (mayRun s m 0x0605 j) ∧ (fldLE j.payload 0 1 = p) ∧ (fldLE j.payload 1 1 = tr) ∧ ((mbxTenant j.mbx).isNone = true) ∧ (tr ≤ 1) ∧ ((tr = 1 → p ≤ 31)) ∧ (1 ≤ fldLE j.payload 4 2) ∧ (fldLE j.payload 4 2 ≤ 64) ∧ (fldLE j.payload 2 2 + fldLE j.payload 4 2 ≤ 4096) ∧ (ids = (List.range (fldLE j.payload 4 2)).map (fldLE j.payload 2 2 + ·)) :=
  ⟨.a, jb 0x0605 ([31, 1, 192, 15, 64, 0]), 31, 1, (List.range 64).map (4032 + ·), run (w) (jb 0x0605 ([31, 1, 192, 15, 64, 0])), by decide +kernel⟩

theorem wit_DamperStatsComplete_2 : ∃ (q : Nat) (j : Job) (p : Nat) (tr : Nat) (ids : List Nat) (s : State), (mayRun s (.tenant q) 0x0605 j) ∧ (fldLE j.payload 0 1 = p) ∧ (fldLE j.payload 1 1 = tr) ∧ (j.mbx = .tenant q) ∧ (tr ≤ 1) ∧ ((tr = 1 → p ≤ 31)) ∧ ((if tr = 1 then (s.tray p).owner else (s.port p).owner) = some q) ∧ (1 ≤ fldLE j.payload 4 2) ∧ (fldLE j.payload 4 2 ≤ 31) ∧ (fldLE j.payload 2 2 + fldLE j.payload 4 2 ≤ 4096) ∧ (ids = (List.range (fldLE j.payload 4 2)).map (fldLE j.payload 2 2 + ·)) :=
  ⟨1, { jb 0x0605 ([0, 0, 0, 0, 31, 0]) with mbx := .tenant 1 }, 0, 0, (List.range 31).map (0 + ·), run (w) { jb 0x0605 ([0, 0, 0, 0, 31, 0]) with mbx := .tenant 1 }, by decide +kernel⟩

theorem wit_DamperStatsComplete_4 : ∃ (d : DPort) (ids : List Nat) (i : Nat), (i ∈ ids) :=
  ⟨{}, [3, 5], 5, by decide +kernel⟩

theorem wit_DamperStatsComplete_5 : ∃ (d : DPort) (ids : List Nat) (i : Nat), (i ∉ ids) :=
  ⟨{}, [3, 5], 4, by decide +kernel⟩

theorem wit_CalendarEventsAct_1 : ∃ (h : CalHdr) (s : State), (s.cal.armed = some h) ∧ (h.swapSlot ≤ s.slot) ∧ (s.cal.stopAt = none) ∧ (calState s = true) :=
  ⟨hdrIdle, { w with cal := { hdr1 := hdrIdle, isArmed := true }, ember := { st := .locked, fx := 65536 * 256 * 100 } }, by decide +kernel⟩

theorem wit_EmberEventsAct_3 : ∃ (p : Nat) (t2 : Nat) (m : PktMsg) (s : State), (decSync 0 m.body = none) :=
  ⟨4, 7, { opc := 1, bytes := 32, body := List.replicate 32 255 }, w, by decide +kernel⟩

theorem wit_EmberEventsAct_13 : ∃ (s : State), (calState s = true) ∧ (s.ember.fx % (1000000000 * 65536) ≤ 2 * 65536) ∧ (s.power.ppsOut = false) :=
  ⟨{ w with ember := { fx := 65536 * 1000000002, st := .locked } }, by decide +kernel⟩

theorem wit_EmberEventsAct_14 : ∃ (s : State), (s.power.ppsOut = true) ∧ (s.power.ppsOutAt + 100000 ≤ s.t) :=
  ⟨{ w with t := 100000, power := { w.power with ppsOut := true } }, by decide +kernel⟩

theorem wit_LinkBringUpAdvances_1 : ∃ (p : Nat) (s : State), (portWorks s false p = true) ∧ (s.power.started = true) ∧ ((s.port p).st = .disabled) ∧ (inReset s = false) ∧ (s.power.refLost.getD (p / 128) false = false) :=
  ⟨4, wp 4 fun x => { x with st := .disabled }, by decide +kernel⟩

theorem wit_LinkBringUpAdvances_2 : ∃ (p : Nat) (s : State), (portWorks s false p = true) ∧ ((s.port p).st = .detect) ∧ (inReset s = false) ∧ (s.power.refLost.getD (p / 128) false = false) :=
  ⟨4, wp 4 fun x => { x with st := .detect }, by decide +kernel⟩

theorem wit_LinkBringUpAdvances_3 : ∃ (p : Nat) (s : State), ((s.port p).st = .equalize) :=
  ⟨4, wp 4 fun x => { x with st := .equalize }, by decide +kernel⟩

theorem wit_LinkBringUpAdvances_4 : ∃ (p : Nat) (s : State), ((s.port p).st = .align) :=
  ⟨4, wp 4 fun x => { x with st := .align }, by decide +kernel⟩

theorem wit_LinkBringUpAdvances_5 : ∃ (p : Nat) (r : ConfigRec) (s : State), ((s.port p).st = .config) ∧ (configAgrees (s.port p).kind r = true) :=
  ⟨4, cfgRec, cfgIn true .config, by decide +kernel⟩

theorem wit_LinkBringUpAdvances_6 : ∃ (p : Nat) (r : ConfigRec) (s : State), ((s.port p).st = .config) ∧ (configAgrees (s.port p).kind r = false) :=
  ⟨4, { cfgRec with linkKind := 2 }, cfgIn true .config, by decide +kernel⟩

theorem wit_LinkBringUpAdvances_7 : ∃ (p : Nat) (s : State), ((s.port p).st = .config) ∧ ((s.port p).mismatch = true) ∧ ((s.port p).cfgAt + 100000000 ≤ s.t) :=
  ⟨4, { cfgIn false .config with t := 100000000 }, by decide +kernel⟩

theorem wit_LinkBringUpAdvances_8 : ∃ (p : Nat) (x : SaxPort) (s : State), (s.sax[p]? = some x) ∧ (x.st = .config) ∧ (x.peer.isSome = true) ∧ (x.mismatch = false) :=
  ⟨4, (cfgIn true .config).port 4, cfgIn true .config, by decide +kernel⟩

theorem wit_LinkBringUpAdvances_9 : ∃ (p : Nat) (l : Nat) (s : State), ((s.port p).st = .up) ∧ ((portLanes s p).contains l = true) ∧ ((s.port p).lanes.contains l = false) ∧ ((s.port p).trained.contains l = false) :=
  ⟨4, 7, w, by decide +kernel⟩

theorem wit_LinkBringUpAdvances_10 : ∃ (p : Nat) (s : State), ((s.port p).st = .up) ∧ ((s.port p).stepping = false) ∧ ((s.port p).trained ≠ []) :=
  ⟨4, wp 4 fun x => { x with trained := [7] }, by decide +kernel⟩

theorem wit_LinkBringUpAdvances_11 : ∃ (p : Nat) (x : SaxPort) (s : State), (s.sax[p]? = some x) ∧ (x.stepping = true) :=
  ⟨4, { w.port 4 with stepping := true, trained := [7] }, wp 4 fun x => { x with stepping := true, trained := [7] }, by decide +kernel⟩

theorem wit_LinksGoDownAndRetrain_1 : ∃ (p : Nat) (x : SaxPort) (s : State), (s.sax[p]? = some x) ∧ (linkAlive s p = true) :=
  ⟨0, w.port 0, w, by decide +kernel⟩

theorem wit_LinksGoDownAndRetrain_2 : ∃ (p : Nat) (x : SaxPort) (s : State), (s.sax[p]? = some x) ∧ (linkAlive s p = true) :=
  ⟨4, w.port 4, w, by decide +kernel⟩

theorem wit_LinksGoDownAndRetrain_3 : ∃ (p : Nat) (l : Nat) (x : SaxPort) (s : State), (s.sax[p]? = some x) ∧ (x.st = .up) ∧ (x.lanes.contains l = true) :=
  ⟨4, 5, { w.port 4 with lanes := [4, 5] }, wp 4 fun x => { x with lanes := [4, 5] }, by decide +kernel⟩

theorem wit_LinksGoDownAndRetrain_4 : ∃ (p : Nat) (l : Nat) (c : Nat) (r : Nat) (b : Nat) (s : State), (c * 10000 ≤ r) ∧ (b < 4) :=
  ⟨4, 4, 10, 100000, 3, w, by decide +kernel⟩

theorem wit_LinksGoDownAndRetrain_5 : ∃ (p : Nat) (l : Nat) (c : Nat) (r : Nat) (b : Nat) (x : SaxPort) (s : State), ((r < c * 10000 ∨ 4 ≤ b)) ∧ (s.sax[p]? = some x) ∧ (x.st = .up) ∧ (x.lanes.contains l = true) :=
  ⟨4, 4, 0, 0, 4, w.port 4, w, by decide +kernel⟩

theorem wit_LinksGoDownAndRetrain_6 : ∃ (p : Nat) (s : State), ((s.port p).st = .retrain) :=
  ⟨4, wp 4 fun x => { x with st := .retrain }, by decide +kernel⟩

theorem wit_LinksGoDownAndRetrain_7 : ∃ (p : Nat) (x : SaxPort) (s : State), (s.sax[p]? = some x) ∧ (x.st = .retrain) :=
  ⟨4, { w.port 4 with st := .retrain }, wp 4 fun x => { x with st := .retrain }, by decide +kernel⟩

theorem wit_LinksGoDownAndRetrain_8 : ∃ (p : Nat) (x : SaxPort) (s : State), (s.sax[p]? = some x) ∧ (x.st = .retrain) :=
  ⟨4, { w.port 4 with st := .retrain }, wp 4 fun x => { x with st := .retrain }, by decide +kernel⟩

theorem wit_LinksGoDownAndRetrain_9 : ∃ (p : Nat) (s : State), ((s.port p).st = .up) ∧ ((s.port p).replay ≠ []) ∧ (((s.port p).ackAt + 20000 ≤ s.t ∨ 8 ≤ (s.port p).nakRuns)) :=
  ⟨4, wp 4 fun x => { x with replay := [{}], nakRuns := 8 }, by decide +kernel⟩

theorem wit_LinksGoDownAndRetrain_10 : ∃ (p : Nat) (s : State), ((s.port p).st = .up) ∧ ((s.port p).sess.phase ≠ 3) ∧ ((s.port p).sess.startAt + 1000000000 ≤ s.t) :=
  ⟨4, { wq with t := 1000000000 }, by decide +kernel⟩

theorem wit_LinksGoDownAndRetrain_11 : ∃ (p : Nat) (s : State), ((s.port p).alive + 1000000 ≤ s.t) :=
  ⟨0, { w with t := 1000000 }, by decide +kernel⟩

theorem wit_LinksGoDownAndRetrain_12 : ∃ (p : Nat) (f : Frame) (m : PktMsg) (s : State), ((s.port p).going = []) ∧ ((s.dport false p).q = [f]) ∧ (f.out = .pkt .msg m) ∧ ((m.opc = 1 ∨ m.opc = 2 ∨ m.opc = 4 ∨ m.opc = 6)) ∧ ((msgTrk s m.src m.txn).elim true (·.own.isNone) = true) :=
  ⟨0, fQd, mQd, { w with dsax := w.dsax.set 0 { q := [fQd] } }, by decide +kernel⟩

theorem wit_FlitSendActs_3 : ∃ (p : Nat) (x : SaxPort) (f : TxFlit) (r : List TxFlit) (s : State), (s.sax[p]? = some x) ∧ (x.st = .up) ∧ (s.power.emergency = false) ∧ (x.replaying = f :: r) ∧ (x.stepping = false) :=
  ⟨4, { w.port 4 with replaying := [{}] }, {}, [], wp 4 fun x => { x with replaying := [{}] }, by decide +kernel⟩

theorem wit_FlitReceiveActs_1 : ∃ (p : Nat) (f : Flit) (s : State), ((s.port p).st = .up) ∧ (s.power.emergency = false) ∧ ((f.fecOk = false ∨ crc64 (flitBytes f.hdr f.slots) ≠ f.crc)) :=
  ⟨4, { fl0 with fecOk := false }, w, by decide +kernel, by decide +kernel, Or.inl rfl⟩

theorem wit_FlitReceiveActs_2 : ∃ (p : Nat) (f : Flit) (x : SaxPort) (s : State), (s.sax[p]? = some x) ∧ (x.st = .up) ∧ (s.power.emergency = false) ∧ (f.fecOk = true) ∧ (crc64 (flitBytes f.hdr f.slots) = f.crc) ∧ (bits f.hdr 10 8 = 0) ∧ (bits f.hdr 63 52 = (x.rxSeq + 1) % 4096) ∧ (bit f.hdr 7 = false) ∧ (x.sess.rxEnc = false) := by
  refine ⟨4, fl0, wq.port 4, wq, ?_, ?_, ?_, ?_, mkFl_crc .., ?_⟩ <;> decide +kernel

theorem wit_FlitReceiveActs_3 : ∃ (p : Nat) (f : Flit) (x : SaxPort) (s : State), (s.sax[p]? = some x) ∧ (x.st = .up) ∧ (s.power.emergency = false) ∧ (f.fecOk = true) ∧ (crc64 (flitBytes f.hdr f.slots) = f.crc) ∧ (bits f.hdr 10 8 = 0) ∧ (bits f.hdr 63 52 ≠ (x.rxSeq + 1) % 4096) := by
  refine ⟨4, fl1, wq.port 4, wq, ?_, ?_, ?_, ?_, mkFl_crc .., ?_⟩ <;> decide +kernel

theorem wit_SessionsAct_1 : ∃ (p : Nat) (a : Nat) (s : State), ((s.port p).lastNak = some a) ∧ ((s.port p).st = .up) ∧ ((s.port p).replay ≠ []) ∧ ((s.port p).txAck = a) ∧ ((s.port p).nakAt + 2000 ≤ s.t) :=
  ⟨4, 9, { wp 4 (fun x => { x with lastNak := some 9, txAck := 9, replay := [{}] }) with t := 2000 }, by decide +kernel⟩

theorem wit_SessionsAct_2 : ∃ (p : Nat) (h : Nat) (x : SaxPort) (s : State) (s1 : State), (s.sax[p]? = some x) ∧ (x.st = .up) ∧ (police p (peerId s p) (rawSpdm s p) true s = (true, h, s1)) ∧ (x.sess.phase ≤ 1) :=
  ⟨4, (pq wq 4).2.1, wq.port 4, wq, (pq wq 4).2.2, by decide +kernel⟩

theorem wit_SessionsAct_3 : ∃ (p : Nat) (h : Nat) (x : SaxPort) (s : State) (s1 : State), (s.sax[p]? = some x) ∧ (x.st = .up) ∧ (police p (peerId s p) (rawSpdm s p) true s = (true, h, s1)) ∧ (x.sess.phase = 1) ∧ (s.power.noIdentity = false) ∧ (s.power.trngFail = false) ∧ (x.owner.elim (sysShare s1) (inWindow s1) = true) :=
  ⟨4, (pq (ses fun x => { x with sess := { phase := 1 } }) 4).2.1, { w.port 4 with sess := { phase := 1 } }, ses fun x => { x with sess := { phase := 1 } }, (pq (ses fun x => { x with sess := { phase := 1 } }) 4).2.2, by decide +kernel⟩

theorem wit_SessionsAct_4 : ∃ (p : Nat) (h : Nat) (x : SaxPort) (s : State) (s1 : State), (s.sax[p]? = some x) ∧ (x.st = .up) ∧ (police p (peerId s p) (rawSpdm s p) true s = (true, h, s1)) ∧ (x.sess.phase = 2) ∧ (x.owner.elim (sysShare s1) (inWindow s1) = true) :=
  ⟨4, (pq (ses fun x => { x with sess := { phase := 2 } }) 4).2.1, { w.port 4 with sess := { phase := 2 } }, ses fun x => { x with sess := { phase := 2 } }, (pq (ses fun x => { x with sess := { phase := 2 } }) 4).2.2, by decide +kernel⟩

theorem wit_SessionsAct_5 : ∃ (p : Nat) (h : Nat) (x : SaxPort) (s : State) (s1 : State), (s.sax[p]? = some x) ∧ (x.st = .up) ∧ (police p (peerId s p) (rawSpdm s p) true s = (true, h, s1)) :=
  ⟨4, (pq w 4).2.1, w.port 4, w, (pq w 4).2.2, by decide +kernel⟩

theorem wit_SessionsAct_6 : ∃ (p : Nat) (h : Nat) (x : SaxPort) (s : State) (s1 : State), (s.sax[p]? = some x) ∧ (x.st = .up) ∧ (police p (peerId s p) (rawSpdm s p) true s = (true, h, s1)) ∧ (x.sess.phase = 3) ∧ (x.sess.updating = true) ∧ (s.power.trngFail = false) :=
  ⟨4, (pq (ses fun x => { x with sess := { phase := 3, updating := true } }) 4).2.1, { w.port 4 with sess := { phase := 3, updating := true } }, ses fun x => { x with sess := { phase := 3, updating := true } }, (pq (ses fun x => { x with sess := { phase := 3, updating := true } }) 4).2.2, by decide +kernel⟩

theorem wit_SessionsAct_7 : ∃ (p : Nat) (a : Nat) (x : SaxPort) (s : State), (s.sax[p]? = some x) ∧ (x.sess.reqAt = some a) ∧ (a + 100000000 ≤ s.t) :=
  ⟨4, 0, { w.port 4 with sess := { phase := 3, reqAt := some 0 } }, { wp 4 (fun x => { x with sess := { phase := 3, reqAt := some 0 } }) with t := 100000000 }, by decide +kernel⟩

theorem wit_SessionsAct_8 : ∃ (p : Nat) (x : SaxPort) (s : State), (s.sax[p]? = some x) ∧ (x.sess.phase = 3) ∧ (x.sess.updating = false) ∧ (s.power.trngFail = false) ∧ ((2 ^ 31 ≤ x.sess.txCount ∨ x.sess.keyAt + 60000000000 ≤ s.t)) :=
  ⟨4, { w.port 4 with sess := { phase := 3, txCount := 2 ^ 31 } }, wp 4 fun x => { x with sess := { phase := 3, txCount := 2 ^ 31 } }, by decide +kernel⟩

theorem wit_SessionsAct_9 : ∃ (p : Nat) (s : State), (carriesHello s p = true) ∧ ((s.port p).helloAt + 1000000000 ≤ s.t) :=
  ⟨4, { w with t := 1000000000 }, by decide +kernel⟩

theorem wit_SessionsAct_10 : ∃ (m : MbxId) (j : Job) (s : State), (mayRun s m 0x0504 j) ∧ (fldLE j.payload 1 1 = 0) ∧ ((mbxTenant j.mbx).isNone = true) :=
  ⟨.a, jb 0x0504 ([4, 0]), run (w) (jb 0x0504 ([4, 0])), by decide +kernel⟩

theorem wit_SessionsAct_11 : ∃ (m : MbxId) (j : Job) (s : State), (mayRun s m 0x0505 j) ∧ (fldLE j.payload 1 1 = 0) ∧ ((s.port (fldLE j.payload 0 1)).st = .up) :=
  ⟨.a, jb 0x0505 ([4, 0]), run (w) (jb 0x0505 ([4, 0])), by decide +kernel⟩

theorem wit_SessionsAct_12 : ∃ (m : MbxId) (j : Job) (s : State), (mayRun s m 0x0505 j) ∧ (fldLE j.payload 1 1 = 1) ∧ (fldLE j.payload 0 1 ≤ 31) :=
  ⟨.a, jb 0x0505 ([0, 1]), run (w) (jb 0x0505 ([0, 1])), by decide +kernel⟩

theorem wit_SessionsAct_13 : ∃ (m : MbxId) (j : Job) (s : State), (mayRun s m 0x0504 j) ∧ (fldLE j.payload 1 1 = 1) ∧ (fldLE j.payload 0 1 ≤ 31) ∧ ((mbxTenant j.mbx).isNone = true) :=
  ⟨.a, jb 0x0504 ([0, 1]), run (w) (jb 0x0504 ([0, 1])), by decide +kernel⟩

theorem wit_SessionsAct_14 : ∃ (p : Nat) (j : Job) (s : State), (mayRun s (.tenant p) 0x0504 j) ∧ (j.mbx = .tenant p) ∧ (fldLE j.payload 1 1 = 0) ∧ ((s.port (fldLE j.payload 0 1)).owner = some p) :=
  ⟨1, { jb 0x0504 ([0, 0]) with mbx := .tenant 1 }, run (w) { jb 0x0504 ([0, 0]) with mbx := .tenant 1 }, by decide +kernel⟩

theorem wit_SessionsAct_15 : ∃ (p : Nat) (h : Nat) (x : SaxPort) (s : State) (s1 : State), (s.sax[p]? = some x) ∧ (x.st = .up) ∧ (police p (peerId s p) (rawSpdm s p) true s = (true, h, s1)) ∧ (x.sess.phase = 3) ∧ (s.power.trngFail = false) :=
  ⟨4, (pq w 4).2.1, w.port 4, w, (pq w 4).2.2, by decide +kernel⟩

theorem wit_SessionsAct_16 : ∃ (p : Nat) (txn : Nat) (h : Nat) (s : State) (s1 : State), ((s.port p).st = .up) ∧ (police p (peerId s p) (rawSpdm s p) true s = (true, h, s1)) :=
  ⟨4, 9, (pq w 4).2.1, w, (pq w 4).2.2, by decide +kernel⟩

theorem wit_LineRequestsReachTheirSlice_8 : ∃ (p : Nat) (m : LineMsg) (s : State),
    let s1 := eatLine p .req 4 s

    let h := heat s1 false p (subOf s1 false p m.src)
    ((s.port p).kind = 0) ∧ ((m.src ≠ accelEp s p ∨ (s.port p).admitted = false)) :=
  ⟨0, { lm with src := 0x3FFFFF }, wd, by decide +kernel⟩

theorem wit_LineRequestsReachTheirSlice_9 : ∃ (p : Nat) (m : LineMsg) (s : State),
    let s1 := eatLine p .req 4 s

    let h := heat s1 false p (subOf s1 false p m.src)
    ((s.port p).kind = 0) ∧ (m.src = accelEp s p) ∧ ((s.port p).admitted = true) ∧ ((m.rsv = true ∨ m.addr / 2 ^ 52 ≠ s.modNum ∨ m.addr % 64 ≠ 0)) :=
  ⟨0, { lm with addr := 2 ^ 52 }, wd, by decide +kernel⟩

theorem wit_LineRequestsReachTheirSlice_10 : ∃ (p : Nat) (m : LineMsg) (s : State),
    let s1 := eatLine p .req 4 s

    let h := heat s1 false p (subOf s1 false p m.src)
    ((s.port p).kind ≠ 0) :=
  ⟨4, lm, wd, by decide +kernel⟩

theorem wit_LineRequestsReachTheirSlice_11 : ∃ (p : Nat) (m : LineMsg) (s : State),
    let s1 := eatLine p .req 4 s

    let h := heat s1 false p (subOf s1 false p m.src)
    ∃ map, ((s.port p).kind = 0) ∧ (m.src = accelEp s p) ∧ ((s.port p).admitted = true) ∧ (m.rsv = false) ∧ (m.addr / 2 ^ 52 = s.modNum) ∧ (m.addr % 64 = 0) ∧ (mapFor s m.epoch = .ok map) ∧ (trkFree s (s.port p).owner = false) :=
  ⟨0, lm, { wd with sax := wd.sax.modify 0 (fun x => { x with owner := some 3 }) }, wd.maps.cur, by decide +kernel⟩

theorem wit_FenceAndPlacedWriteComplete_1 : ∃ (p : Nat) (h : Nat) (m : LineMsg) (map : MapV) (s : State) (s2 : State), ((s.port p).kind = 0) ∧ ((s.port p).admitted = true) ∧ (m.src = accelEp s p) ∧ (m.rsv = false) ∧ (m.addr = 0) ∧ (mapFor s m.epoch = .ok map) ∧ (((s.port p).owner.elim false s2.isQuiesced) = false) ∧ (police p m.src (rawFlits ((s.port p).sess.phase == 3) 2) false (eatLine p .req 8 s) = (true, h, s2)) :=
  ⟨0, (police 0 lm.src 1 false (eatLine 0 .req 8 wd)).2.1, { lm with addr := 0 }, wd.maps.cur, wd, (police 0 lm.src 1 false (eatLine 0 .req 8 wd)).2.2, by decide +kernel⟩

theorem wit_FenceAndPlacedWriteComplete_4 : ∃ (q : LineReq) (s : State), ((blocked s q = true ∨ s.dir.waitq.any (·.line == q.line) = true)) :=
  ⟨(tx0 .rdNc).req, wx (tx0 .rdOwn), by decide +kernel⟩

theorem wit_FenceAndPlacedWriteComplete_6 : ∃ (l : Nat) (q : LineReq) (s : State) (s' : State), (s.dir.waitq.find? (·.line == l) = some q) ∧ (blocked s q = false) ∧ (serve q { s with dir.waitq := s.dir.waitq.eraseP (·.line == l) } = (true, s')) :=
  ⟨l0, (tx0 .rdNc).req, { wd with dir := { wd.dir with waitq := [(tx0 .rdNc).req] } }, (serve (tx0 .rdNc).req wd).2, by decide +kernel⟩

theorem wit_FenceAndPlacedWriteComplete_7 : ∃ (l : Nat) (q : LineReq) (s : State) (s' : State), (s.dir.waitq.find? (·.line == l) = some q) ∧ (blocked s q = false) ∧ (serve q { s with dir.waitq := s.dir.waitq.eraseP (·.line == l) } = (false, s')) :=
  ⟨l0, (tx0 .atomic).req, { wev with dir := { wev.dir with waitq := [(tx0 .atomic).req] } }, (serve (tx0 .atomic).req wev).2, by decide +kernel⟩

theorem wit_SnoopAnswersMoveTheEntry_1 : ∃ (p : Nat) (m : LineMsg) (x : Snoop) (s : State) (s1 : State),
    let mine := fun (x : Snoop) => (agentsAt s1 false p).contains x.agent && x.txn == m.txn

    let s0 := dropSnoop x s1

    let gone := fun (t : State) => (anyExtent t (64 * x.line)).elim t fun e => recallGone e x.line t
    (holderSends s p m .rsp 1 s1) ∧ (s1.dir.snoops.find? (fun x => mine x && x.kind != 5) = some x) ∧ (x.kind = 1) :=
  ⟨0, lm, sn 3 1, wsn 3 1 true, eatLine 0 .rsp 1 (wsn 3 1 true), by decide +kernel⟩

theorem wit_SnoopAnswersMoveTheEntry_2 : ∃ (p : Nat) (m : LineMsg) (x : Snoop) (s : State) (s1 : State),
    let mine := fun (x : Snoop) => (agentsAt s1 false p).contains x.agent && x.txn == m.txn

    let s0 := dropSnoop x s1

    let gone := fun (t : State) => (anyExtent t (64 * x.line)).elim t fun e => recallGone e x.line t
    (holderSends s p m .rsp 2 s1) ∧ (s1.dir.snoops.find? (fun x => mine x && x.kind != 5) = some x) ∧ (x.kind = 2) ∧ ((s1.ent x.line).owner = some x.agent) :=
  ⟨0, lm, sn 3 2, wsn 3 2 true, eatLine 0 .rsp 2 (wsn 3 2 true), by decide +kernel⟩

theorem wit_SnoopAnswersMoveTheEntry_3 : ∃ (p : Nat) (m : LineMsg) (x : Snoop) (s : State) (s1 : State),
    let mine := fun (x : Snoop) => (agentsAt s1 false p).contains x.agent && x.txn == m.txn

    let s0 := dropSnoop x s1

    let gone := fun (t : State) => (anyExtent t (64 * x.line)).elim t fun e => recallGone e x.line t
    (holderSends s p m .rsp 3 s1) ∧ (s1.dir.snoops.find? mine = some x) ∧ (x.kind ≠ 5) ∧ ((s1.ent x.line).owner ≠ some x.agent) :=
  ⟨0, lm, sn 3 1, wsn 3 1 false, eatLine 0 .rsp 3 (wsn 3 1 false), by decide +kernel⟩

theorem wit_SnoopAnswersMoveTheEntry_4 : ∃ (p : Nat) (m : LineMsg) (x : Snoop) (s : State) (s1 : State),
    let mine := fun (x : Snoop) => (agentsAt s1 false p).contains x.agent && x.txn == m.txn

    let s0 := dropSnoop x s1

    let gone := fun (t : State) => (anyExtent t (64 * x.line)).elim t fun e => recallGone e x.line t
    (holderSends s p m .rsp 3 s1) ∧ (s1.dir.snoops.find? mine = some x) ∧ (x.kind ≠ 5) ∧ ((s1.ent x.line).owner = some x.agent) :=
  ⟨0, lm, sn 3 2, wsn 3 2 true, eatLine 0 .rsp 3 (wsn 3 2 true), by decide +kernel⟩

theorem wit_SnoopAnswersMoveTheEntry_5 : ∃ (p : Nat) (m : LineMsg) (x : Snoop) (s : State) (s1 : State),
    let mine := fun (x : Snoop) => (agentsAt s1 false p).contains x.agent && x.txn == m.txn

    let s0 := dropSnoop x s1

    let gone := fun (t : State) => (anyExtent t (64 * x.line)).elim t fun e => recallGone e x.line t
    (holderSends s p m .rsp 5 s1) ∧ (s1.dir.snoops.find? (fun x => mine x && x.kind == 5) = some x) :=
  ⟨0, lm, sn 3 5, wsn 3 5 false, eatLine 0 .rsp 5 (wsn 3 5 false), by decide +kernel⟩

theorem wit_SnoopAnswersMoveTheEntry_6 : ∃ (p : Nat) (m : LineMsg) (x : Snoop) (s : State) (s1 : State),
    let mine := fun (x : Snoop) => (agentsAt s1 false p).contains x.agent && x.txn == m.txn

    let s0 := dropSnoop x s1

    let gone := fun (t : State) => (anyExtent t (64 * x.line)).elim t fun e => recallGone e x.line t
    (holderSends s p m .rsp 6 s1) ∧ (s1.dir.snoops.find? (fun x => mine x && x.kind == 5) = some x) :=
  ⟨0, lm, sn 3 5, wsn 3 5 false, eatLine 0 .rsp 6 (wsn 3 5 false), by decide +kernel⟩

theorem wit_SnoopAnswersMoveTheEntry_7 : ∃ (p : Nat) (m : LineMsg) (s : State),
    let out := fun (opc : Nat) => ((eatLine p .rsp opc s).port p).kind = 0 ∧ ((eatLine p .rsp opc s).port p).admitted = false ∧
        answersReclaim (eatLine p .rsp opc s) p m .rsp opc = false
    (out 1) :=
  ⟨0, lm, wna, by decide +kernel⟩

theorem wit_SnoopAnswersMoveTheEntry_8 : ∃ (p : Nat) (m : LineMsg) (s : State),
    let out := fun (opc : Nat) => ((eatLine p .rsp opc s).port p).kind = 0 ∧ ((eatLine p .rsp opc s).port p).admitted = false ∧
        answersReclaim (eatLine p .rsp opc s) p m .rsp opc = false
    (out 2) :=
  ⟨0, lm, wna, by decide +kernel⟩

theorem wit_SnoopAnswersMoveTheEntry_9 : ∃ (p : Nat) (m : LineMsg) (s : State),
    let out := fun (opc : Nat) => ((eatLine p .rsp opc s).port p).kind = 0 ∧ ((eatLine p .rsp opc s).port p).admitted = false ∧
        answersReclaim (eatLine p .rsp opc s) p m .rsp opc = false
    (out 3) :=
  ⟨0, lm, wna, by decide +kernel⟩

theorem wit_SnoopAnswersMoveTheEntry_10 : ∃ (p : Nat) (m : LineMsg) (s : State),
    let out := fun (opc : Nat) => ((eatLine p .rsp opc s).port p).kind = 0 ∧ ((eatLine p .rsp opc s).port p).admitted = false ∧
        answersReclaim (eatLine p .rsp opc s) p m .rsp opc = false
    (out 5) :=
  ⟨0, lm, wna, by decide +kernel⟩

theorem wit_SnoopAnswersMoveTheEntry_11 : ∃ (p : Nat) (m : LineMsg) (s : State),
    let out := fun (opc : Nat) => ((eatLine p .rsp opc s).port p).kind = 0 ∧ ((eatLine p .rsp opc s).port p).admitted = false ∧
        answersReclaim (eatLine p .rsp opc s) p m .rsp opc = false
    (out 6) :=
  ⟨0, lm, wna, by decide +kernel⟩

theorem wit_HolderNoticesAct_1 : ∃ (p : Nat) (m : LineMsg) (x : Snoop) (s : State) (s1 : State), (holderSends s p m .dat 2 s1) ∧
    let l := m.addr % 2 ^ 52 / 64
    (s1.dir.snoops.find? (fun x => (agentsAt s1 false p).contains x.agent && x.line == l && x.kind != 5) = some x) ∧ ((m.dirty = false ∨ wouldWrite s1 l = false ∨ (s1.ent l).owner ≠ some x.agent ∨ m.ltag = lineTag (64 * l) m.data)) :=
  ⟨0, lmD, sn 3 1, wsn 3 1 true, eatLine 0 .dat 2 (wsn 3 1 true), by decide +kernel⟩

theorem wit_HolderNoticesAct_2 : ∃ (p : Nat) (m : LineMsg) (x : Snoop) (s : State) (s1 : State), (holderSends s p m .dat 2 s1) ∧
    let l := m.addr % 2 ^ 52 / 64
    (s1.dir.snoops.find? (fun x => (agentsAt s1 false p).contains x.agent && x.line == l && x.kind != 5) = some x) ∧ (m.dirty = true) ∧ (wouldWrite s1 l = true) ∧ ((s1.ent l).owner = some x.agent) ∧ (m.ltag ≠ lineTag (64 * l) m.data) :=
  ⟨0, lmX, sn 3 1, wsn 3 1 true, eatLine 0 .dat 2 (wsn 3 1 true), by decide +kernel⟩

theorem wit_HolderNoticesAct_3 : ∃ (p : Nat) (m : LineMsg) (s : State) (s1 : State), (holderSends s p m .dat 2 s1) ∧
    let l := m.addr % 2 ^ 52 / 64
    (s1.dir.snoops.find? (fun x => (agentsAt s1 false p).contains x.agent && x.line == l && x.kind != 5) = none) :=
  ⟨0, lmD, wd, eatLine 0 .dat 2 wd, by decide +kernel⟩

theorem wit_HolderNoticesAct_4 : ∃ (p : Nat) (m : LineMsg) (s : State) (s1 : State), (s1 = eatLine p .dat 2 s) ∧ ((s1.port p).kind = 0) ∧ (m.src = accelEp s1 p) ∧ ((s1.port p).admitted = false) ∧ (answersReclaim s1 p m .dat 2 = false) :=
  ⟨0, lmD, wna, eatLine 0 .dat 2 wna, by decide +kernel⟩

theorem wit_HolderNoticesAct_5 : ∃ (p : Nat) (m : LineMsg) (s : State) (s1 : State), (s1 = eatLine p .dat 3 s) ∧ ((s1.port p).kind = 0) ∧ (m.src = accelEp s1 p) ∧ ((s1.port p).admitted = false) ∧ (answersReclaim s1 p m .dat 3 = false) :=
  ⟨0, lmD, wna, eatLine 0 .dat 3 wna, by decide +kernel⟩

theorem wit_HolderNoticesAct_6 : ∃ (p : Nat) (m : LineMsg) (s : State) (s1 : State), (holderSends s p m .dat 3 s1) ∧
    let l := m.addr % 2 ^ 52 / 64
    (anyExtent s1 (64 * l) = none) :=
  ⟨0, { lmD with addr := 0 }, wd, eatLine 0 .dat 3 wd, by decide +kernel⟩

theorem wit_HolderNoticesAct_7 : ∃ (p : Nat) (m : LineMsg) (e : Extent) (s : State) (s1 : State), (holderSends s p m .dat 3 s1) ∧
    let l := m.addr % 2 ^ 52 / 64
    (anyExtent s1 (64 * l) = some e) ∧ (e.coh = false) ∧ ((s1.port p).owner = some e.part) ∧ (s1.isQuiesced e.part = false) ∧ (guarded s1 (64 * l) 64 = false) ∧ (releasing s1 e = false) :=
  ⟨0, lmN, exn, wd, eatLine 0 .dat 3 wd, by decide +kernel⟩

theorem wit_HolderNoticesAct_8 : ∃ (p : Nat) (m : LineMsg) (e : Extent) (s : State) (s1 : State), (holderSends s p m .dat 3 s1) ∧
    let l := m.addr % 2 ^ 52 / 64
    (anyExtent s1 (64 * l) = some e) ∧ (e.coh = false) ∧ (((s1.port p).owner ≠ some e.part ∨ s1.isQuiesced e.part = true ∨ guarded s1 (64 * l) 64 = true ∨ releasing s1 e = true)) :=
  ⟨0, lmN, exn, wdq, eatLine 0 .dat 3 wdq, by decide +kernel⟩

theorem wit_HolderNoticesAct_9 : ∃ (p : Nat) (m : LineMsg) (a : Nat) (e : Extent) (s : State) (s1 : State), (holderSends s p m .dat 3 s1) ∧
    let l := m.addr % 2 ^ 52 / 64
    (anyExtent s1 (64 * l) = some e) ∧ (e.coh = true) ∧ ((agentsAt s1 false p).find? (fun a => (s1.ent l).sharers.contains a) = some a) ∧ ((s1.ent l).owner = some a) ∧ (writeGone s1 e (64 * l) = false) ∧ (guarded s1 (64 * l) 64 = false) ∧ (m.ltag = lineTag (64 * l) m.data) :=
  ⟨0, lmD, 3, exc, weo, eatLine 0 .dat 3 weo, by decide +kernel⟩

theorem wit_HolderNoticesAct_10 : ∃ (p : Nat) (m : LineMsg) (a : Nat) (e : Extent) (s : State) (s1 : State), (holderSends s p m .dat 3 s1) ∧
    let l := m.addr % 2 ^ 52 / 64
    (anyExtent s1 (64 * l) = some e) ∧ (e.coh = true) ∧ ((agentsAt s1 false p).find? (fun a => (s1.ent l).sharers.contains a) = some a) ∧ ((s1.ent l).owner = some a) ∧ ((writeGone s1 e (64 * l) = true ∨ guarded s1 (64 * l) 64 = true)) :=
  ⟨0, lmX, 3, exc, weg, eatLine 0 .dat 3 weg, by decide +kernel⟩

theorem wit_HolderNoticesAct_11 : ∃ (p : Nat) (m : LineMsg) (a : Nat) (e : Extent) (s : State) (s1 : State), (holderSends s p m .dat 3 s1) ∧
    let l := m.addr % 2 ^ 52 / 64
    (anyExtent s1 (64 * l) = some e) ∧ (e.coh = true) ∧ ((agentsAt s1 false p).find? (fun a => (s1.ent l).sharers.contains a) = some a) ∧ ((s1.ent l).owner = some a) ∧ (writeGone s1 e (64 * l) = false) ∧ (guarded s1 (64 * l) 64 = false) ∧ (m.ltag ≠ lineTag (64 * l) m.data) :=
  ⟨0, lmX, 3, exc, weo, eatLine 0 .dat 3 weo, by decide +kernel⟩

theorem wit_HolderNoticesAct_12 : ∃ (p : Nat) (m : LineMsg) (a : Nat) (e : Extent) (s : State) (s1 : State), (holderSends s p m .dat 3 s1) ∧
    let l := m.addr % 2 ^ 52 / 64
    (anyExtent s1 (64 * l) = some e) ∧ (e.coh = true) ∧ ((agentsAt s1 false p).find? (fun a => (s1.ent l).sharers.contains a) = some a) ∧ ((s1.ent l).owner ≠ some a) :=
  ⟨0, lmD, 3, exc, wes, eatLine 0 .dat 3 wes, by decide +kernel⟩

theorem wit_HolderNoticesAct_13 : ∃ (p : Nat) (m : LineMsg) (e : Extent) (s : State) (s1 : State), (holderSends s p m .dat 3 s1) ∧
    let l := m.addr % 2 ^ 52 / 64
    (anyExtent s1 (64 * l) = some e) ∧ (e.coh = true) ∧ ((agentsAt s1 false p).find? (fun a => (s1.ent l).sharers.contains a) = none) :=
  ⟨0, lmD, exc, wd, eatLine 0 .dat 3 wd, by decide +kernel⟩

theorem wit_HolderNoticesAct_14 : ∃ (p : Nat) (a : Nat) (m : LineMsg) (e : Extent) (s : State) (s1 : State), (holderSends s p m .rsp 4 s1) ∧
    let l := m.addr % 2 ^ 52 / 64
    (anyExtent s1 (64 * l) = some e) ∧ (e.coh = true) ∧ ((agentsAt s1 false p).find? (fun a => (s1.ent l).sharers.contains a) = some a) :=
  ⟨0, 3, lm, exc, weo, eatLine 0 .rsp 4 weo, by decide +kernel⟩

theorem wit_HolderNoticesAct_15 : ∃ (p : Nat) (m : LineMsg) (e : Extent) (s : State) (s1 : State), (holderSends s p m .rsp 4 s1) ∧
    let l := m.addr % 2 ^ 52 / 64
    (anyExtent s1 (64 * l) = some e) ∧ (e.coh = false) :=
  ⟨0, lmN, exn, wd, eatLine 0 .rsp 4 wd, by decide +kernel⟩

theorem wit_HolderNoticesAct_16 : ∃ (p : Nat) (m : LineMsg) (s : State) (s1 : State), (holderSends s p m .rsp 4 s1) ∧
    let l := m.addr % 2 ^ 52 / 64
    ((anyExtent s1 (64 * l)).elim true (·.coh) = true) ∧ ((agentsAt s1 false p).find? (fun a => (s1.ent l).sharers.contains a) = none) :=
  ⟨0, lm, wd, eatLine 0 .rsp 4 wd, by decide +kernel⟩

theorem wit_HolderNoticesAct_17 : ∃ (t : Nat) (a : Nat) (addr : Nat) (tag : Nat) (e : Extent) (s : State) (s1 : State), (hostWorks s t = true) ∧ (s1 = chargeHost t 1 s) ∧ (anyExtent s1 (64 * (addr / 64)) = some e) ∧ (e.coh = true) ∧ ((agentsAt s true t).find? (fun a => (s1.ent (addr / 64)).sharers.contains a) = some a) :=
  ⟨1, 4, 16 * 2 ^ 28, 2, exc, weh, chargeHost 1 1 weh, by decide +kernel⟩

theorem wit_HolderNoticesAct_18 : ∃ (t : Nat) (addr : Nat) (tag : Nat) (s : State) (s1 : State), (hostWorks s t = true) ∧ (s1 = chargeHost t 1 s) ∧ ((anyExtent s1 (64 * (addr / 64))).elim true (·.coh) = true) ∧ ((agentsAt s true t).find? (fun a => (s1.ent (addr / 64)).sharers.contains a) = none) :=
  ⟨1, 16 * 2 ^ 28, 2, wd, chargeHost 1 1 wd, by decide +kernel⟩

theorem wit_HolderNoticesAct_19 : ∃ (t : Nat) (addr : Nat) (tag : Nat) (e : Extent) (s : State) (s1 : State), (hostWorks s t = true) ∧ (s1 = chargeHost t 1 s) ∧ (anyExtent s1 (64 * (addr / 64)) = some e) ∧ (e.coh = false) :=
  ⟨1, 32 * 2 ^ 28, 2, exn, wd, chargeHost 1 1 wd, by decide +kernel⟩

theorem wit_HolderNoticesAct_20 : ∃ (t : Nat) (addr : Nat) (b : Bool) (x : Snoop) (s : State), (s.dir.snoops.find? (fun x => (agentsAt s true t).contains x.agent && x.line == addr / 64) = some x) ∧ ((b = false ∨ x.kind = 1)) :=
  ⟨1, 16 * 2 ^ 28, false, sn 4 1, wsn 4 1 false, by decide +kernel⟩

theorem wit_HolderNoticesAct_21 : ∃ (t : Nat) (addr : Nat) (x : Snoop) (s : State), (s.dir.snoops.find? (fun x => (agentsAt s true t).contains x.agent && x.line == addr / 64) = some x) ∧ (x.kind ≠ 1) :=
  ⟨1, 16 * 2 ^ 28, sn 4 2, { wd with dir := { wd.dir with snoops := [sn 4 2], ents := [{ line := l0, nook := 1, st := .m, sharers := [4], fwd := 4 }] } }, by decide +kernel⟩

theorem wit_HolderNoticesAct_22 : ∃ (t : Nat) (addr : Nat) (tag : Nat) (s : State), (hostWorks s t = true) :=
  ⟨1, 0, 2, wd, by decide +kernel⟩

theorem wit_HolderNoticesAct_24 : ∃ (a : Nat) (d : DirEnt), (d.sharers.contains a = true) ∧ ((d.st = .e ∨ d.st = .m)) :=
  ⟨3, { sharers := [3], st := .m }, by decide +kernel⟩

theorem wit_HostRequestsAct_1 : ∃ (t : Nat) (addr : Nat) (tag : Nat) (mv : CxlMeta) (e : Extent) (s : State), (hostPasses s t addr [] e) :=
  ⟨1, 16 * 2 ^ 28, 2, .s, exc, wd, by decide +kernel⟩

theorem wit_HostRequestsAct_2 : ∃ (t : Nat) (addr : Nat) (tag : Nat) (mask : BitVec 64) (d : Bytes) (e : Extent) (s : State), (mask ≠ 0) ∧ (hostPasses s t addr (storeRuns (if mask == BitVec.allOnes 64 then .wrLine else .wrMask) { addr := addr, mask := mask }) e) ∧ ((agentsAt s true t).find? (fun a => (s.ent (addr / 64)).owner == some a) = none) :=
  ⟨1, 16 * 2 ^ 28, 2, 0xF0, List.replicate 64 1, exc, wd, by decide +kernel⟩

theorem wit_HostRequestsAct_3 : ∃ (t : Nat) (addr : Nat) (tag : Nat) (a : Nat) (d : Bytes) (s : State) (s1 : State), (hostWorks s t = true) ∧ (s1 = chargeHost t 1 s) ∧ ((agentsAt s true t).find? (fun a => (s.ent (addr / 64)).owner == some a) = some a) :=
  ⟨1, 16 * 2 ^ 28, 2, 4, List.replicate 64 1, who4, chargeHost 1 1 who4, by decide +kernel⟩

theorem wit_HostRequestsAct_5 : ∃ (t : Nat) (s : State), (((s.dport true t).sub (subOf s true t 0)).bw.lets s.ns = true) ∧ (((s.dport true t).sub (subOf s true t 0)).rq.lets s.ns = true) :=
  ⟨1, { wd with trays := wd.trays.modify 1 (fun x => { x with creditHeld := true }) }, by decide +kernel⟩

theorem wit_HostRequestsAct_6 : ∃ (t : Nat) (base : Nat) (e : Extent) (s : State), (s.maps.cur.exts.find? (·.base == base) = some e) ∧ (bit e.hostmask t = true) ∧ ((s.ext base).accepted.contains t = false) :=
  ⟨1, 16, exc, { wd with maps := { wd.maps with ext := [] } }, by decide +kernel⟩

theorem wit_AgentsCrashAndLeave_1 : ∃ (a : Nat) (l : Nat) (x : Snoop) (s : State), (x ∈ s.dir.snoops) ∧ (x.agent = a) ∧ (x.line = l) ∧ (x.at_ + 1000000 ≤ s.t) :=
  ⟨3, l0, sn 3 1, { wsn 3 1 true with t := 1000000 }, by decide +kernel⟩

theorem wit_AgentsCrashAndLeave_2 : ∃ (a : Nat) (l : Nat) (x : Snoop) (s : State), (x ∈ s.dir.awaits) ∧ (x.agent = a) ∧ (x.line = l) ∧ (x.at_ + 1000000 ≤ s.t) :=
  ⟨3, l0, sn 3 1, { weo with t := 1000000, dir := { weo.dir with awaits := [sn 3 1] } }, by decide +kernel⟩

theorem wit_AgentsCrashAndLeave_4 : ∃ (a : Nat) (g : Agent) (s : State), (s.dir.agents.find? (fun g => g.id == a && g.walking) = some g) ∧ ((s.dir.ents.any fun d => d.sharers.contains a) = false) :=
  ⟨3, { id := 3, part := 1, crashed := true, walking := true }, wag { id := 3, part := 1, crashed := true, walking := true }, by decide +kernel⟩

theorem wit_FlitSendActs_1 : ∃ (p : Nat) (x : SaxPort) (s : State), (s.sax[p]? = some x) ∧ (x.st = .up) ∧ (s.power.emergency = false) ∧ (x.replaying = []) ∧ (x.stepping = false) ∧ (x.sch = none) ∧ (x.tx ≠ []) ∧ (x.replay.length < 512) :=
  ⟨4, wq.port 4, wq, by decide +kernel⟩

theorem wit_LineRequestsReachTheirSlice_1 : ∃ (p : Nat) (h : Nat) (m : LineMsg) (map : MapV) (e : Extent) (s : State) (s2 : State),
    let go := fun (k : ReqKind) => Host.Outcome.next (φ := Fault) (ρ := Refusal) (settle s (arrive (sliceReq s k p h s2.mem.nextTrk m e) (takeTrk (lineTracker s p h m) s2).2))

    let rd := fun (k : ReqKind) => go (if e.coh then k else .rdNc)
    (linePasses s .rdShared 1 p m map h e s2) ∧ (m.addr % 64 = 0) ∧ ((s.port p).caching = true) :=
  ⟨0, (pol wd 1).2.1, lm, wd.maps.cur, exc, wd, (pol wd 1).2.2, by decide +kernel⟩

theorem wit_LineRequestsReachTheirSlice_2 : ∃ (p : Nat) (h : Nat) (m : LineMsg) (map : MapV) (e : Extent) (s : State) (s2 : State),
    let go := fun (k : ReqKind) => Host.Outcome.next (φ := Fault) (ρ := Refusal) (settle s (arrive (sliceReq s k p h s2.mem.nextTrk m e) (takeTrk (lineTracker s p h m) s2).2))

    let rd := fun (k : ReqKind) => go (if e.coh then k else .rdNc)
    (linePasses s .rdOwn 2 p m map h e s2) ∧ (m.addr % 64 = 0) ∧ ((s.port p).caching = true) :=
  ⟨0, (pol wd 2).2.1, lm, wd.maps.cur, exc, wd, (pol wd 2).2.2, by decide +kernel⟩

theorem wit_LineRequestsReachTheirSlice_3 : ∃ (p : Nat) (h : Nat) (m : LineMsg) (map : MapV) (e : Extent) (s : State) (s2 : State),
    let go := fun (k : ReqKind) => Host.Outcome.next (φ := Fault) (ρ := Refusal) (settle s (arrive (sliceReq s k p h s2.mem.nextTrk m e) (takeTrk (lineTracker s p h m) s2).2))

    let rd := fun (k : ReqKind) => go (if e.coh then k else .rdNc)
    (linePasses s .upgrade 3 p m map h e s2) ∧ (m.addr % 64 = 0) ∧ ((s.port p).caching = true) :=
  ⟨0, (pol wd 3).2.1, lm, wd.maps.cur, exc, wd, (pol wd 3).2.2, by decide +kernel⟩

theorem wit_LineRequestsReachTheirSlice_4 : ∃ (p : Nat) (h : Nat) (m : LineMsg) (map : MapV) (e : Extent) (s : State) (s2 : State),
    let go := fun (k : ReqKind) => Host.Outcome.next (φ := Fault) (ρ := Refusal) (settle s (arrive (sliceReq s k p h s2.mem.nextTrk m e) (takeTrk (lineTracker s p h m) s2).2))

    let rd := fun (k : ReqKind) => go (if e.coh then k else .rdNc)
    (linePasses s .rdNc 4 p m map h e s2) ∧ (m.addr % 64 = 0) :=
  ⟨0, (pol wd 4).2.1, lm, wd.maps.cur, exc, wd, (pol wd 4).2.2, by decide +kernel⟩

theorem wit_LineRequestsReachTheirSlice_5 : ∃ (p : Nat) (h : Nat) (m : LineMsg) (map : MapV) (e : Extent) (s : State) (s2 : State),
    let go := fun (k : ReqKind) => Host.Outcome.next (φ := Fault) (ρ := Refusal) (settle s (arrive (sliceReq s k p h s2.mem.nextTrk m e) (takeTrk (lineTracker s p h m) s2).2))

    let rd := fun (k : ReqKind) => go (if e.coh then k else .rdNc)
    (linePasses s .wrLine 5 p m map h e s2) ∧ (m.addr % 64 = 0) :=
  ⟨0, (pol wd 5).2.1, lm, wd.maps.cur, exc, wd, (pol wd 5).2.2, by decide +kernel⟩

theorem wit_LineRequestsReachTheirSlice_6 : ∃ (p : Nat) (h : Nat) (m : LineMsg) (map : MapV) (e : Extent) (s : State) (s2 : State),
    let go := fun (k : ReqKind) => Host.Outcome.next (φ := Fault) (ρ := Refusal) (settle s (arrive (sliceReq s k p h s2.mem.nextTrk m e) (takeTrk (lineTracker s p h m) s2).2))

    let rd := fun (k : ReqKind) => go (if e.coh then k else .rdNc)
    (linePasses s .wrMask 6 p m map h e s2) ∧ (m.addr % 64 = 0) ∧ (m.mask ≠ 0) :=
  ⟨0, (pol wd 6).2.1, lm, wd.maps.cur, exc, wd, (pol wd 6).2.2, by decide +kernel⟩

theorem wit_LineRequestsReachTheirSlice_7 : ∃ (p : Nat) (h : Nat) (m : LineMsg) (map : MapV) (e : Extent) (s : State) (s2 : State),
    let go := fun (k : ReqKind) => Host.Outcome.next (φ := Fault) (ρ := Refusal) (settle s (arrive (sliceReq s k p h s2.mem.nextTrk m e) (takeTrk (lineTracker s p h m) s2).2))

    let rd := fun (k : ReqKind) => go (if e.coh then k else .rdNc)
    (linePasses s .atomic 7 p m map h e s2) ∧ (atomicBad m = false) :=
  ⟨0, (pol wd 7).2.1, lm, wd.maps.cur, exc, wd, (pol wd 7).2.2, by decide +kernel⟩

theorem wit_FenceAndPlacedWriteComplete_2 : ∃ (part : Nat) (target : Nat) (addr : Nat) (d : Bytes) (e : Extent) (s : State), (addr % 64 = 0) ∧ (accessStatus s s.maps.cur addr (some part) [(addr, 64)] none = .ok e) ∧
    let q : LineReq := { src := .engine 0, m := { addr := addr, data := d }, line := addr / 64, part := part }

    let named := fun (g : Agent) => !g.tray && !g.crashed && !g.leaving && g.part == part && accelEp s g.port == target && (s.port g.port).admitted
    ∃ g, (e.coh = true) ∧ (s.dir.agents.find? named = some g) :=
  ⟨1, accelEp w 0, 16 * 2 ^ 28, List.replicate 64 3, exc, wd, by decide +kernel, by decide +kernel, { id := 3, port := 0, part := 1 }, by decide +kernel⟩

theorem wit_FenceAndPlacedWriteComplete_3 : ∃ (part : Nat) (target : Nat) (addr : Nat) (d : Bytes) (e : Extent) (s : State), (addr % 64 = 0) ∧ (accessStatus s s.maps.cur addr (some part) [(addr, 64)] none = .ok e) ∧
    let q : LineReq := { src := .engine 0, m := { addr := addr, data := d }, line := addr / 64, part := part }

    let named := fun (g : Agent) => !g.tray && !g.crashed && !g.leaving && g.part == part && accelEp s g.port == target && (s.port g.port).admitted
    ((e.coh = false ∨ s.dir.agents.find? named = none)) :=
  ⟨1, accelEp w 0, 32 * 2 ^ 28, List.replicate 64 3, exn, wd, by decide +kernel⟩

theorem wit_MemoryAnswersAct_1 : ∃ (l : Nat) (x : Tx) (e : Extent) (s : State), (s.dir.txs.find? (fun x => x.line == l && x.phase == .memory) = some x) ∧ (anyExtent s (64 * l) = some e) ∧ (x.data = none) ∧ (s.mem.weak.any (·.1 == l) = false) ∧ ((∀ c, chanOf e (64 * l) = some c → servesNext s c l = true ∧ queueHead s c = some (l, false) ∧ tabled s c e l = false)) ∧ ((chanOf e (64 * l) = none → expanderWaits s e l = false)) ∧
    let line := memRead s (64 * l) 64

    let s0 := match chanOf e (64 * l) with
        | some c => modChan c (fun k => { k with served := k.served + 1 }) s
        | none => s

    let s1 := dropTx l s0

    let n := s.twin.nextTxn
    (x.req.kind = .rdNc) := by
  refine ⟨l0, tx0 .rdNc, exc, wx (tx0 .rdNc), ?_, ?_, ?_, ?_, by rintro c h; cases (show chanOf exc (64 * l0) = some 8 by decide +kernel).symm.trans h; decide +kernel, ?_⟩ <;> decide +kernel

theorem wit_MemoryAnswersAct_2 : ∃ (l : Nat) (x : Tx) (e : Extent) (s : State), (s.dir.txs.find? (fun x => x.line == l && x.phase == .memory) = some x) ∧ (anyExtent s (64 * l) = some e) ∧ (x.data = none) ∧ (s.mem.weak.any (·.1 == l) = false) ∧ ((∀ c, chanOf e (64 * l) = some c → servesNext s c l = true ∧ queueHead s c = some (l, false) ∧ tabled s c e l = false)) ∧ ((chanOf e (64 * l) = none → expanderWaits s e l = false)) ∧
    let line := memRead s (64 * l) 64

    let s0 := match chanOf e (64 * l) with
        | some c => modChan c (fun k => { k with served := k.served + 1 }) s
        | none => s

    let s1 := dropTx l s0

    let n := s.twin.nextTxn
    (x.req.kind = .rdShared ∨ x.req.kind = .rdOwn ∨ x.req.kind = .upgrade) := by
  refine ⟨l0, tx0 .rdOwn, exc, wx (tx0 .rdOwn), ?_, ?_, ?_, ?_, by rintro c h; cases (show chanOf exc (64 * l0) = some 8 by decide +kernel).symm.trans h; decide +kernel, ?_⟩ <;> decide +kernel

theorem wit_MemoryAnswersAct_3 : ∃ (l : Nat) (x : Tx) (e : Extent) (s : State), (s.dir.txs.find? (fun x => x.line == l && x.phase == .memory) = some x) ∧ (anyExtent s (64 * l) = some e) ∧ (x.data = none) ∧ (s.mem.weak.any (·.1 == l) = false) ∧ ((∀ c, chanOf e (64 * l) = some c → servesNext s c l = true ∧ queueHead s c = some (l, false) ∧ tabled s c e l = false)) ∧ ((chanOf e (64 * l) = none → expanderWaits s e l = false)) ∧
    let line := memRead s (64 * l) 64

    let s0 := match chanOf e (64 * l) with
        | some c => modChan c (fun k => { k with served := k.served + 1 }) s
        | none => s

    let s1 := dropTx l s0

    let n := s.twin.nextTxn
    (x.req.kind = .wrLine) := by
  refine ⟨l0, tx0 .wrLine, exc, wx (tx0 .wrLine), ?_, ?_, ?_, ?_, by rintro c h; cases (show chanOf exc (64 * l0) = some 8 by decide +kernel).symm.trans h; decide +kernel, ?_⟩ <;> decide +kernel

theorem wit_MemoryAnswersAct_4 : ∃ (l : Nat) (x : Tx) (e : Extent) (s : State), (s.dir.txs.find? (fun x => x.line == l && x.phase == .memory) = some x) ∧ (anyExtent s (64 * l) = some e) ∧ (x.data = none) ∧ (s.mem.weak.any (·.1 == l) = false) ∧ ((∀ c, chanOf e (64 * l) = some c → servesNext s c l = true ∧ queueHead s c = some (l, false) ∧ tabled s c e l = false)) ∧ ((chanOf e (64 * l) = none → expanderWaits s e l = false)) ∧
    let line := memRead s (64 * l) 64

    let s0 := match chanOf e (64 * l) with
        | some c => modChan c (fun k => { k with served := k.served + 1 }) s
        | none => s

    let s1 := dropTx l s0

    let n := s.twin.nextTxn
    (x.req.kind = .wrMask) := by
  refine ⟨l0, tx0 .wrMask, exc, wx (tx0 .wrMask), ?_, ?_, ?_, ?_, by rintro c h; cases (show chanOf exc (64 * l0) = some 8 by decide +kernel).symm.trans h; decide +kernel, ?_⟩ <;> decide +kernel

theorem wit_MemoryAnswersAct_5 : ∃ (l : Nat) (x : Tx) (e : Extent) (s : State), (s.dir.txs.find? (fun x => x.line == l && x.phase == .memory) = some x) ∧ (anyExtent s (64 * l) = some e) ∧ (x.data = none) ∧ (s.mem.weak.any (·.1 == l) = false) ∧ ((∀ c, chanOf e (64 * l) = some c → servesNext s c l = true ∧ queueHead s c = some (l, false) ∧ tabled s c e l = false)) ∧ ((chanOf e (64 * l) = none → expanderWaits s e l = false)) ∧
    let line := memRead s (64 * l) 64

    let s0 := match chanOf e (64 * l) with
        | some c => modChan c (fun k => { k with served := k.served + 1 }) s
        | none => s

    let s1 := dropTx l s0

    let n := s.twin.nextTxn
    (x.req.kind = .atomic) := by
  refine ⟨l0, tx0 .atomic, exc, wx (tx0 .atomic), ?_, ?_, ?_, ?_, by rintro c h; cases (show chanOf exc (64 * l0) = some 8 by decide +kernel).symm.trans h; decide +kernel, ?_⟩ <;> decide +kernel

theorem wit_MemoryAnswersAct_6 : ∃ (l : Nat) (x : Tx) (e : Extent) (s : State), (s.dir.txs.find? (fun x => x.line == l && x.phase == .memory) = some x) ∧ (anyExtent s (64 * l) = some e) ∧ (x.data = none) ∧ (s.mem.weak.any (·.1 == l) = false) ∧ ((∀ c, chanOf e (64 * l) = some c → servesNext s c l = true ∧ queueHead s c = some (l, false) ∧ tabled s c e l = false)) ∧ ((chanOf e (64 * l) = none → expanderWaits s e l = false)) ∧
    let line := memRead s (64 * l) 64

    let s0 := match chanOf e (64 * l) with
        | some c => modChan c (fun k => { k with served := k.served + 1 }) s
        | none => s

    let s1 := dropTx l s0

    let n := s.twin.nextTxn
    ∃ c, (chanOf e (64 * l) = some c) ∧ (x.req.kind = .rdNc) := by
  refine ⟨l0, tx0 .rdNc, exc, wx (tx0 .rdNc), ?_, ?_, ?_, ?_, by rintro c h; cases (show chanOf exc (64 * l0) = some 8 by decide +kernel).symm.trans h; decide +kernel, ?_, 8, ?_⟩ <;> decide +kernel

theorem wit_MemoryAnswersAct_7 : ∃ (l : Nat) (x : Tx) (e : Extent) (s : State), (s.dir.txs.find? (fun x => x.line == l && x.phase == .memory) = some x) ∧ (anyExtent s (64 * l) = some e) ∧ (x.data = none) ∧ (s.mem.weak.any (·.1 == l) = false) ∧ ((∀ c, chanOf e (64 * l) = some c → servesNext s c l = true ∧ queueHead s c = some (l, false) ∧ tabled s c e l = false)) ∧ ((chanOf e (64 * l) = none → expanderWaits s e l = false)) ∧
    let line := memRead s (64 * l) 64

    let s0 := match chanOf e (64 * l) with
        | some c => modChan c (fun k => { k with served := k.served + 1 }) s
        | none => s

    let s1 := dropTx l s0

    let n := s.twin.nextTxn
    ∃ c, (chanOf e (64 * l) = some c) ∧ (x.req.kind = .rdNc) ∧ (e.mirror = 0) := by
  refine ⟨l0, tx0 .rdNc, exc, wx (tx0 .rdNc), ?_, ?_, ?_, ?_, by rintro c h; cases (show chanOf exc (64 * l0) = some 8 by decide +kernel).symm.trans h; decide +kernel, ?_, 8, ?_⟩ <;> decide +kernel

theorem wit_FlitSendActs_2 : ∃ (p : Nat) (x : SaxPort) (s : State), (s.sax[p]? = some x) ∧ (x.st = .up) ∧ (s.power.emergency = false) ∧ (x.replaying = []) ∧ (x.stepping = false) ∧ ((x.tx = [] ∨ 512 ≤ x.replay.length)) :=
  ⟨4, { wq.port 4 with tx := [] }, { wq with sax := wq.sax.modify 4 fun x => { x with tx := [] } }, by decide +kernel⟩

theorem wit_FenceAndPlacedWriteComplete_5 : ∃ (l : Nat) (q : LineReq) (e : Extent) (s : State), (s.dir.waitq.find? (·.line == l) = some q) ∧ (blocked s q = false) ∧
    let s1 := reclaimLine l { s with dir.waitq := s.dir.waitq.eraseP (·.line == l) }
    (anyExtent s (64 * l) = some e) ∧ (lineStatus s1 e q = .ok) ∧ ((e.coh = false ∨ (s1.ent? l).isSome = true ∨ needsEntry q = false)) ∧ (q.kind ≠ .atomic) ∧ (q.kind ≠ .rdShared) ∧ (q.agent.elim false (fun a => ((touch l s1).ent l).owner == some a) = false) :=
  ⟨l0, (tx0 .rdNc).req, exc, { wd with dir := { wd.dir with waitq := [(tx0 .rdNc).req] } }, by decide +kernel⟩

theorem wit_AgentsCrashAndLeave_3 : ∃ (a : Nat) (g : Agent) (s : State), (g ∈ s.dir.agents) ∧ (g.id = a) ∧ (g.crashed = true) ∧ (g.walking = false) ∧ ((s.dir.waitq.any fun q => q.agent == some a) = false) ∧ ((s.dir.txs.any fun x => x.req.agent == some a) = false) ∧ (((s.dir.snoops ++ s.dir.awaits).any fun x => x.agent == a) = false) ∧ (strokeReqs (·.agent == some a) s = []) ∧ ((s.dir.acks.any fun x => x.req.agent == some a) = false) :=
  ⟨3, { id := 3, part := 1, crashed := true }, wag { id := 3, part := 1, crashed := true }, by decide +kernel⟩

theorem wit_AgentsCrashAndLeave_5 : ∃ (a : Nat) (g : Agent) (s : State), (g ∈ s.dir.agents) ∧ (g.id = a) ∧ (g.leaving = true) ∧ (g.crashed = false) ∧ ((s.dir.ents.any fun d => d.sharers.contains a) = false) ∧ ((s.dir.snoops.any fun x => x.agent == a) = false) ∧ ((s.dir.awaits.any fun x => x.agent == a) = false) ∧ ((s.dir.txs.any fun x => x.req.agent == some a) = false) ∧ ((s.dir.waitq.any fun q => q.agent == some a) = false) ∧ (strokeReqs (·.agent == some a) s = []) ∧ ((s.dir.acks.any fun x => x.req.agent == some a) = false) :=
  ⟨3, { id := 3, part := 1, leaving := true }, wag { id := 3, part := 1, leaving := true }, by decide +kernel⟩

theorem wit_AtomicsAndSegmentsAct_3 : ∃ (base : Nat) (j : Nat) (e : Extent) (s : State), ((s.ext base).recallJob = some j) ∧ (s.maps.cur.exts.find? (·.base == base) = some e) ∧ ((s.dir.ents.any fun d => inExt e d.line && !d.sharers.isEmpty) = false) ∧ ((s.dir.snoops.any fun x => inExt e x.line) = false) ∧ ((s.dir.awaits.any fun x => inExt e x.line) = false) :=
  ⟨16, 9, exc, { wd with maps := { wd.maps with ext := [{ base := 16, recallJob := some 9 }] } }, by decide +kernel⟩

theorem wit_AtomicsAndSegmentsAct_5 : ∃ (c : Nat) (g : Segment) (s : State), (s.dir.segs.find? (fun g => g.chan == c && !g.held) = some g) ∧ (segClear s g = true) :=
  ⟨8, seg0, wsg false 0, by decide +kernel⟩

theorem wit_AtomicsAndSegmentsAct_6 : ∃ (c : Nat) (g : Segment) (s : State), (s.dir.segs.find? (fun g => g.chan == c && !g.held) = some g) ∧ (segClear s g = false) ∧ (g.at_ + 16000 ≤ s.t) :=
  ⟨8, seg0, { wsg false 16000 with dir := { (wsg false 16000).dir with ents := [{ line := l0 + 3, nook := 1, st := .s, sharers := [3] }] } }, by decide +kernel⟩

theorem wit_DirectoryCommandsComplete_1 : ∃ (m : MbxId) (j : Job) (s : State), (mayRun s m 0x0408 j) ∧ (zeroAt j.payload 1 1 = true) ∧ (fldLE j.payload 0 1 ≤ 95) ∧ (fldLE j.payload 4 2 ≤ 256) ∧ (fldLE j.payload 2 2 + fldLE j.payload 4 2 ≤ 65536) :=
  ⟨.a, jb 0x0408 ([95, 0] ++ toLE 2 65280 ++ toLE 2 256), run (wd) (jb 0x0408 ([95, 0] ++ toLE 2 65280 ++ toLE 2 256)), by decide +kernel⟩

theorem wit_DirectoryCommandsComplete_2 : ∃ (m : MbxId) (j : Job) (x : Part) (s : State), (mayRun s m 0x0409 j) ∧ (zeroAt j.payload 2 6 = true) ∧ (fldLE j.payload 1 1 = 1) ∧ (s.part? (fldLE j.payload 0 1) = some x) :=
  ⟨.a, jb 0x0409 ([1, 1] ++ List.replicate 14 0), { id := 1, agents := 4, tag := 5, keyPair := some 7 }, run ({ wd with dir := { wd.dir with setLost := [(1, 2)], ents := [{ line := l0, nook := 1, st := .m, sharers := [3], lost := true }] } }) (jb 0x0409 ([1, 1] ++ List.replicate 14 0)), by decide +kernel⟩

theorem wit_DirectoryCommandsComplete_3 : ∃ (m : MbxId) (j : Job) (e : Extent) (x : Part) (s : State), (mayRun s m 0x0409 j) ∧ (zeroAt j.payload 2 6 = true) ∧ (fldLE j.payload 1 1 = 0) ∧ (s.part? (fldLE j.payload 0 1) = some x) ∧ (anyExtent s (fldLE j.payload 8 8) = some e) ∧ (e.part = fldLE j.payload 0 1) :=
  ⟨.a, jb 0x0409 ([1, 0] ++ List.replicate 6 0 ++ toLE 8 (64 * l0)), exc, { id := 1, agents := 4, tag := 5, keyPair := some 7 }, run ({ wd with dir := { wd.dir with ents := [{ line := l0, nook := 1, st := .m, sharers := [3], lost := true }] } }) (jb 0x0409 ([1, 0] ++ List.replicate 6 0 ++ toLE 8 (64 * l0))), by decide +kernel⟩

theorem wit_DirectoryCommandsComplete_4 : ∃ (m : MbxId) (j : Job) (x : Part) (s : State), (mayRun s m 0x040A j) ∧ (zeroAt j.payload 1 3 = true) ∧ (s.part? (fldLE j.payload 0 1) = some x) :=
  ⟨.a, jb 0x040A ([1, 0, 0, 0, 0, 0, 0, 0]), { id := 1, agents := 4, tag := 5, keyPair := some 7 }, run (wd) (jb 0x040A ([1, 0, 0, 0, 0, 0, 0, 0])), by decide +kernel⟩

theorem wit_DirectoryCommandsComplete_5 : ∃ (m : MbxId) (j : Job) (s : State), (mayRun s m 0x0502 j) ∧ (fldLE j.payload 1 1 = 0) ∧
    let p := fldLE j.payload 0 1
    ((s.port p).kind = 0) ∧ ((s.port p).owner = some j.part) ∧ ((s.port p).sess.phase = 3) :=
  ⟨.a, jb 0x0502 ([0, 0]), run (wd) (jb 0x0502 ([0, 0])), by decide +kernel⟩

theorem wit_DirectoryCommandsComplete_6 : ∃ (m : MbxId) (j : Job) (s : State), (mayRun s m 0x0502 j) ∧ (fldLE j.payload 1 1 = 1) ∧
    let p := fldLE j.payload 0 1
    ((s.port p).kind = 0) ∧ ((s.port p).owner = some j.part) ∧ ((s.port p).sess.phase = 3) ∧ ((s.port p).peer.elim false (·.caching) = true) ∧ ((agentOn s false p).isSome = true) :=
  ⟨.a, jb 0x0502 ([0, 1]), run ({ wd with sax := wd.sax.modify 0 (fun x => { x with peer := some { linkKind := 0, caching := true } }) }) (jb 0x0502 ([0, 1])), by decide +kernel⟩

theorem wit_DirectoryCommandsComplete_7 : ∃ (m : MbxId) (j : Job) (s : State), (mayRun s m 0x0503 j) ∧
    let p := fldLE j.payload 0 1
    ((s.port p).kind = 0) ∧ ((s.port p).owner = some j.part) :=
  ⟨.a, jb 0x0503 ([0, 0]), run (wd) (jb 0x0503 ([0, 0])), by decide +kernel⟩

theorem wit_MapCommandsComplete_1 : ∃ (m : MbxId) (j : Job) (s : State), (mayRun s m 0x0401 j) ∧ (extentBad (leNat j.payload) = false) ∧
    let e := decExtent (leNat j.payload)
    ((e.trayLd = 0 ∨ Config.multiLd e.trayPort = true)) ∧ (movingFor s e.part e.nook = false) ∧ (s.nookOwner e.nook = .part e.part) ∧ ((s.part? e.part).isSome = true) ∧ ((e.tray = true → trayRole s e.part e.trayPort 1 = true)) ∧ ((e.mirror = 2 → trayRole s e.part e.mirrorPort 1 = true)) ∧ (((List.range 32).all fun t => !bit e.hostmask t || trayRole s e.part t 2) = true) ∧ ((e.mirror = 1 → twinProfile s = true)) ∧ (frozen s = false) ∧ ((heldExts s).any (granulesMeet e) = false) ∧ ((heldExts s).length < 65536) ∧ (nookRoom s e = true) ∧ (keyMissing s e = false) :=
  ⟨.a, jb 0x0401 (extBytes exp_), run (w) (jb 0x0401 (extBytes exp_)), by decide +kernel⟩

theorem wit_MapCommandsComplete_2 : ∃ (m : MbxId) (j : Job) (e : Extent) (s : State), (mayRun s m 0x0402 j) ∧ (s.maps.cur.exts.find? (fun e => e.base == fldLE j.payload 0 4 && !s.maps.pendRel.contains (fldLE j.payload 0 4)) = some e) ∧ (frozen s = false) ∧ (extentInUse s e = false) ∧ (e.mirror ≠ 1) :=
  ⟨.a, jb 0x0402 ([64, 0, 0, 0]), exp_, run (wmap exp_) (jb 0x0402 ([64, 0, 0, 0])), by decide +kernel⟩

theorem wit_MapCommandsComplete_3 : ∃ (m : MbxId) (j : Job) (e : Extent) (s : State), (mayRun s m 0x0403 j) ∧ (s.maps.cur.exts.find? (fun e => e.base == fldLE j.payload 0 4) = some e) ∧ (fldLE j.payload 4 1 = 1) ∧ (fldLE j.payload 5 1 = e.mirror) ∧ (fldLE j.payload 6 1 = e.mirrorPort) ∧ (zeroAt j.payload 7 1 = true) ∧ (e.mirror = 0) ∧ (e.mirrorPort = 0) ∧ (e.devown = false) ∧ (e.coh = false) ∧ ((s.ext (fldLE j.payload 0 4)).recallJob = none) ∧ ((s.ext (fldLE j.payload 0 4)).clearJob = none) :=
  ⟨.a, jb 0x0403 ([64, 0, 0, 0, 1, 0, 0, 0]), exp_, run (wmap exp_) (jb 0x0403 ([64, 0, 0, 0, 1, 0, 0, 0])), by decide +kernel⟩

theorem wit_MapCommandsComplete_4 : ∃ (m : MbxId) (j : Job) (s : State), (mayRun s m 0x0404 j) ∧ (j.payload.length = 8) ∧ (fldLE j.payload 0 2 = 0) ∧ (zeroAt j.payload 2 6 = true) ∧ (frozen s = false) :=
  ⟨.a, jb 0x0404 (List.replicate 8 0), run (w) (jb 0x0404 (List.replicate 8 0)), by decide +kernel⟩

theorem wit_MapCommandsComplete_5 : ∃ (m : MbxId) (j : Job) (s : State), (mayRun s m 0x0404 j) ∧ (j.payload.length = 16) ∧ (fldLE j.payload 0 2 = 1) ∧ (zeroAt j.payload 2 6 = true) ∧
    let x := fldLE j.payload 8 8

    let r := decRoute x
    (routeBad x = false) ∧ ((r.ports.any fun p => (s.port p).kind != 1) = false) ∧ (frozen s = false) :=
  ⟨.a, jb 0x0404 ([1, 0, 0, 0, 0, 0, 0, 0] ++ toLE 8 (2 ^ 29 + 2 ^ 32 * 4 + 7)), run (w) (jb 0x0404 ([1, 0, 0, 0, 0, 0, 0, 0] ++ toLE 8 (2 ^ 29 + 2 ^ 32 * 4 + 7))), by decide +kernel⟩

theorem wit_MapCommandsComplete_6 : ∃ (m : MbxId) (j : Job) (s : State), (mayRun s m 0x0405 j) ∧ (zeroAt j.payload 4 4 = true) ∧ (fldLE j.payload 0 4 = (s.maps.cur.epoch + 1) % 2 ^ 32) ∧ (fldLE j.payload 8 8 = 0) ∧ (s.maps.prev = none) ∧ (frozen s = false) :=
  ⟨.a, jb 0x0405 ([1, 0, 0, 0] ++ List.replicate 12 0), run (w) (jb 0x0405 ([1, 0, 0, 0] ++ List.replicate 12 0)), by decide +kernel⟩

theorem wit_MapCommandsComplete_7 : ∃ (m : MbxId) (j : Job) (s : State), (mayRun s m 0x0405 j) ∧ (zeroAt j.payload 4 4 = true) ∧ (fldLE j.payload 0 4 = (s.maps.cur.epoch + 1) % 2 ^ 32) ∧ (s.ns < fldLE j.payload 8 8 * 256) ∧ (s.maps.prev = none) ∧ (frozen s = false) :=
  ⟨.a, jb 0x0405 ([1, 0, 0, 0, 0, 0, 0, 0] ++ toLE 8 9), run (w) (jb 0x0405 ([1, 0, 0, 0, 0, 0, 0, 0] ++ toLE 8 9)), by decide +kernel⟩

theorem wit_MapCommandsComplete_8 : ∃ (m : MbxId) (j : Job) (s : State), (mayRun s m 0x0406 j) ∧ (frozen s = false) :=
  ⟨.a, jb 0x0406 ([]), run ({ w with maps := { pend := some {}, pendRel := [3] } }) (jb 0x0406 ([])), by decide +kernel⟩

theorem wit_MapCommandsComplete_9 : ∃ (m : MbxId) (j : Job) (s : State), (mayRun s m 0x0407 j) ∧ (fldLE j.payload 0 1 = 0) ∧ (zeroAt j.payload 1 3 = true) :=
  ⟨.a, jb 0x0407 ([0, 0, 0, 0, 0, 0, 0, 0]), run (wmap exp_) (jb 0x0407 ([0, 0, 0, 0, 0, 0, 0, 0])), by decide +kernel⟩

theorem wit_MapCommandsComplete_16 : ∃ (n : Nat) (s : State), ∃ e, (e ∈ s.maps.cur.exts) ∧ (s.maps.pendRel.contains e.base = true) :=
  ⟨2, { wmap exp_ with maps := { cur := { epoch := 1, exts := [exp_] }, pend := some {}, pendRel := [64] } }, exp_, by decide +kernel⟩

theorem wit_MapEventsAct_1 : ∃ (c : Commit) (s : State), (s.maps.commit = some c) ∧ (c.atSlot ≤ s.slot) :=
  ⟨{ newEpoch := 2, job := 1 }, { wmap exp_ with maps := { cur := { epoch := 1, exts := [exp_] }, commit := some { newEpoch := 2, job := 1 } } }, by decide +kernel⟩

theorem wit_MapEventsAct_2 : ∃ (v : MapV) (s : State), (s.maps.prev = some v) ∧ (inFlight s v.epoch = 0) :=
  ⟨{ epoch := 1 }, { w with maps := { cur := { epoch := 2 }, prev := some { epoch := 1 } } }, by decide +kernel⟩

theorem wit_MapEventsAct_3 : ∃ (base : Nat) (r : Release) (s : State), (s.maps.rels.find? (·.ext.base == base) = some r) ∧ (r.closed = false) ∧ (r.at_ + 2000000 ≤ s.t) :=
  ⟨64, { ext := exp_ }, { w with t := 2000000, maps := { cur := { epoch := 2 }, rels := [{ ext := exp_ }] } }, by decide +kernel⟩

theorem wit_MapEventsAct_4 : ∃ (base : Nat) (r : Release) (s : State), (s.maps.rels.find? (fun r => r.ext.base == base && r.closed) = some r) :=
  ⟨64, { ext := exp_, closed := true }, { w with mem := { w.mem with bytes := [(64 * 2 ^ 28, 7)] }, maps := { cur := { epoch := 2 }, rels := [{ ext := exp_, closed := true }] } }, by decide +kernel⟩

theorem wit_MapEventsAct_5 : ∃ (base : Nat) (e : Extent) (s : State), (s.maps.cur.exts.find? (·.base == base) = some e) ∧ ((s.ext base).copying = true) ∧ (e.mirror = 2) :=
  ⟨64, ext0, wxt { copying := true }, by decide +kernel⟩

theorem wit_MapEventsAct_6 : ∃ (base : Nat) (e : Extent) (s : State), (s.maps.cur.exts.find? (·.base == base) = some e) ∧ ((s.ext base).copying = true) ∧ (e.mirror ≠ 2) ∧ ((e.mirror == 1 && s.mirrors && !s.twin.copying.isEmpty) = false) :=
  ⟨64, { ext0 with mirror := 0 }, { wxt {} with maps := { cur := { epoch := 1, exts := [{ ext0 with mirror := 0 }] }, ext := [{ base := 64, copying := true }] } }, by decide +kernel⟩

theorem wit_TrayEventsAct_1 : ∃ (t : Nat) (low : Bool) (s : State), ((s.tray t).x8 = false) :=
  ⟨5, true, w, by decide +kernel⟩

theorem wit_TrayEventsAct_2 : ∃ (t : Nat) (s : State), ((s.tray t).x8 = false) ∧ ((s.tray t).mode = 2) :=
  ⟨1, w, by decide +kernel⟩

theorem wit_TrayEventsAct_3 : ∃ (t : Nat) (s : State), ((s.tray t).up = true) ∧
    let s1 := modTray t (fun k => { k with up := false, downs := k.downs + 1, creditHeld := false }) s
    ((s.tray t).mode = 1) :=
  ⟨0, w, by decide +kernel⟩

theorem wit_TrayEventsAct_4 : ∃ (t : Nat) (s : State), ((s.tray t).up = true) ∧
    let s1 := modTray t (fun k => { k with up := false, downs := k.downs + 1, creditHeld := false }) s
    ((s.tray t).mode = 2) :=
  ⟨1, w, by decide +kernel⟩

theorem wit_TrayEventsAct_5 : ∃ (t : Nat) (s : State), ((s.tray t).up = true) ∧
    let s1 := modTray t (fun k => { k with up := false, downs := k.downs + 1, creditHeld := false }) s
    ((s.tray t).mode = 3) :=
  ⟨2, w, by decide +kernel⟩

theorem wit_TrayEventsAct_6 : ∃ (t : Nat) (s : State), ((s.tray t).up = false) ∧ ((s.tray t).present = true) ∧ (inReset s = false) ∧ (s.power.started = true) ∧ (s.power.refLost.getD 2 false = false) ∧
    let s1 := modTray t (fun k => { k with up := true, failed := false, perstLow := false }) s
    ((s.tray t).mode = 2) ∧ ((s.tray t).perstLow = false) :=
  ⟨5, trp { mode := 2, owner := some 1, present := true, perstLow := false }, by decide +kernel⟩

theorem wit_TrayEventsAct_7 : ∃ (t : Nat) (s : State), ((s.tray t).up = false) ∧ ((s.tray t).present = true) ∧ (inReset s = false) ∧ (s.power.started = true) ∧ (s.power.refLost.getD 2 false = false) ∧
    let s1 := modTray t (fun k => { k with up := true, failed := false, perstLow := false }) s
    ((s.tray t).mode = 3) :=
  ⟨5, trp { mode := 3, owner := some 1, present := true, perstLow := false }, by decide +kernel⟩

theorem wit_TrayEventsAct_8 : ∃ (t : Nat) (k : TrayPort) (s : State), (s.trays[t]? = some k) ∧ (k.mode = 1) ∧ (k.up = false) ∧ (k.present = true) ∧ (inReset s = false) ∧ (s.power.started = true) ∧ (s.power.refLost.getD 2 false = false) :=
  ⟨5, { mode := 1, owner := some 1, present := true }, trp { mode := 1, owner := some 1, present := true }, by decide +kernel⟩

theorem wit_TrayEventsAct_9 : ∃ (t : Nat) (addr : Nat) (x : Tx) (s : State), ((s.tray t).mode = 1) ∧ (s.dir.txs.find? (fun x => x.phase == .memory && x.line == addr / 64) = some x) :=
  ⟨0, 64 * l0, tx0 .rdNc, wx (tx0 .rdNc), by decide +kernel⟩

theorem wit_TrayEventsAct_10 : ∃ (base : Nat) (e : Extent) (s : State), ((liveExts s).find? (·.base == base) = some e) ∧ ((s.ext base).waiting = true) ∧ ((s.tray e.trayPort).failed = true) ∧ (recoveryRuns s e.part 0x0033 e.trayPort = true) :=
  ⟨64, ext0, { wxt { waiting := true } with trays := (w.trays.modify 0 fun k => { k with failed := true }) }, by decide +kernel⟩

theorem wit_TrayEventsAct_11 : ∃ (base : Nat) (e : Extent) (s : State), ((liveExts s).find? (·.base == base) = some e) ∧ ((s.ext base).copyBack = true) :=
  ⟨64, ext0, wxt { copyBack := true, mirrorOnly := true }, by decide +kernel⟩

theorem wit_AtomicsAndSegmentsAct_1 : ∃ (l : Nat) (x : Tx) (e : Extent) (s : State), (s.dir.txs.find? (fun x => x.line == l && x.phase == .hold) = some x) ∧ (anyExtent s (64 * l) = some e) ∧ (lineDamaged s e (64 * l) = false) ∧ (s.mem.weak.any (·.1 == l) = false) ∧ ((∀ c, chanOf e (64 * l) = some c → strokeFree s c = true ∧ tabled s c e l = false)) := by
  refine ⟨l0, { tx0 .atomic with phase := .hold }, exc, wx { tx0 .atomic with phase := .hold }, ?_, ?_, ?_, ?_, by rintro c h; cases (show chanOf exc (64 * l0) = some 8 by decide +kernel).symm.trans h; decide +kernel⟩ <;> decide +kernel

theorem wit_AtomicsAndSegmentsAct_2 : ∃ (l : Nat) (x : Tx) (e : Extent) (s : State), (s.dir.txs.find? (fun x => x.line == l && x.phase == .home) = some x) ∧ (anyExtent s (64 * l) = some e) ∧ (lineDamaged s e (64 * l) = false) ∧ (atomicRun l s.dir.waitq = []) ∧ (s.mem.weak.any (·.1 == l) = false) ∧ ((∀ c, chanOf e (64 * l) = some c → tabled s c e l = false)) ∧ (homeTurn s x e = true) := by
  refine ⟨l0, { tx0 .atomic with phase := .home, home := true }, exc, wx { tx0 .atomic with phase := .home, home := true }, ?_, ?_, ?_, ?_, ?_, by rintro c h; cases (show chanOf exc (64 * l0) = some 8 by decide +kernel).symm.trans h; decide +kernel, ?_⟩ <;> decide +kernel

theorem wit_AtomicsAndSegmentsAct_4 : ∃ (c : Nat) (first : Nat) (n : Nat) (e : Extent) (s : State), (anyExtent s (64 * first) = some e) ∧ (1 ≤ n) ∧ (n ≤ 16384) ∧ (e.coh = true) ∧ (e.devown = true) ∧ (inExt e (first + n - 1) = true) ∧ (chanOf e (64 * first) = some c) ∧ (s.dir.segs = []) ∧ (s.dir.waitq = []) ∧ (releasing s e = false) ∧ ((s.ext e.base).clearJob = none) ∧ (s.chanOwner c = some e.part) :=
  ⟨8, l0, 16384, exc, wd, by decide +kernel⟩

theorem wit_AtomicsAndSegmentsAct_7 : ∃ (c : Nat) (g : Segment) (s : State), (s.dir.segs.find? (fun g => g.chan == c && g.held) = some g) ∧ ((s.maps.ext.any fun x => x.clearJob.isSome) = false) ∧ ((s.chan c).running = none) :=
  ⟨8, { seg0 with held := true }, wsg true 0, by decide +kernel⟩

theorem wit_MessagesGoTheirWay_1 : ∃ (p : Nat) (m : PktMsg) (o : PktMsg) (q : PktMsg) (s : State) (t : State), (msgPasses s p m o q false t) ∧ ((s.port p).kind ≠ 2) ∧
    let t1 := if (s.port p).kind == 0 then trackMsg p q t else noteTransit p q t

    let plain := linkLocal m = false ∧ ((s.port p).kind = 0 → m.tag < 0xFF00) ∧ (m.tag = migTag → namesMe s m.dst = false)
    ∃ r hops, (wayOut t1 q = .ok (r, hops)) ∧ (quietMsg p q t1 = none) ∧ (waitsTrk s p = false) ∧
    let go := Host.Outcome.next (φ := Fault) (ρ := Refusal)
            (settle s (enqueue false r (msgSvc q.opc q.tag) q.dst (.pkt .msg { q with hops := hops, heat := 0 }) t1))
    (m.opc = 1) ∧ (plain) :=
  ⟨0, msg0, mo msg0, mq wm 0 msg0, wm, mtS wm 0 msg0, by decide +kernel, by decide +kernel, 4, mHops wm 0 msg0, by decide +kernel⟩

theorem wit_MessagesGoTheirWay_2 : ∃ (p : Nat) (m : PktMsg) (o : PktMsg) (q : PktMsg) (s : State) (t : State), (msgPasses s p m o q false t) ∧ ((s.port p).kind ≠ 2) ∧
    let t1 := if (s.port p).kind == 0 then trackMsg p q t else noteTransit p q t

    let plain := linkLocal m = false ∧ ((s.port p).kind = 0 → m.tag < 0xFF00) ∧ (m.tag = migTag → namesMe s m.dst = false)
    ∃ r hops, (wayOut t1 q = .ok (r, hops)) ∧ (quietMsg p q t1 = none) ∧ (waitsTrk s p = false) ∧
    let go := Host.Outcome.next (φ := Fault) (ρ := Refusal)
            (settle s (enqueue false r (msgSvc q.opc q.tag) q.dst (.pkt .msg { q with hops := hops, heat := 0 }) t1))
    (m.opc = 2) :=
  ⟨0, m2 2, mo (m2 2), mq wm 0 (m2 2), wm, mtS wm 0 (m2 2), by decide +kernel, by decide +kernel, 4, mHops wm 0 (m2 2), by decide +kernel⟩

theorem wit_MessagesGoTheirWay_3 : ∃ (p : Nat) (m : PktMsg) (o : PktMsg) (q : PktMsg) (s : State) (t : State), (msgPasses s p m o q false t) ∧ ((s.port p).kind ≠ 2) ∧
    let t1 := if (s.port p).kind == 0 then trackMsg p q t else noteTransit p q t

    let plain := linkLocal m = false ∧ ((s.port p).kind = 0 → m.tag < 0xFF00) ∧ (m.tag = migTag → namesMe s m.dst = false)
    ∃ r hops, (wayOut t1 q = .ok (r, hops)) ∧ (quietMsg p q t1 = none) ∧ (waitsTrk s p = false) ∧
    let go := Host.Outcome.next (φ := Fault) (ρ := Refusal)
            (settle s (enqueue false r (msgSvc q.opc q.tag) q.dst (.pkt .msg { q with hops := hops, heat := 0 }) t1))
    (m.opc = 2 ∨ m.opc = 4 ∨ m.opc = 6) ∧ (namesMe s m.dst = false) :=
  ⟨0, m2 6, mo (m2 6), mq wm 0 (m2 6), wm, mtS wm 0 (m2 6), by decide +kernel, by decide +kernel, 4, mHops wm 0 (m2 6), by decide +kernel⟩

theorem wit_MessagesGoTheirWay_4 : ∃ (p : Nat) (m : PktMsg) (o : PktMsg) (q : PktMsg) (s : State) (t : State), (msgPasses s p m o q false t) ∧ ((s.port p).kind ≠ 2) ∧
    let t1 := if (s.port p).kind == 0 then trackMsg p q t else noteTransit p q t

    let plain := linkLocal m = false ∧ ((s.port p).kind = 0 → m.tag < 0xFF00) ∧ (m.tag = migTag → namesMe s m.dst = false)
    ∃ r hops st, (wayOut t1 q = .ok (r, hops)) ∧ (quietMsg p q t1 = some st) ∧ (waitsTrk s p = false) ∧ (m.opc = 1) ∧ (plain) :=
  ⟨0, msg0, mo msg0, mq wqp 0 msg0, wqp, mtS wqp 0 msg0, by decide +kernel, by decide +kernel, 4, mHops wqp 0 msg0, .quiesced, by decide +kernel⟩

theorem wit_MessagesGoTheirWay_5 : ∃ (p : Nat) (m : PktMsg) (o : PktMsg) (q : PktMsg) (s : State) (t : State), (msgPasses s p m o q false t) ∧ ((s.port p).kind ≠ 2) ∧
    let t1 := if (s.port p).kind == 0 then trackMsg p q t else noteTransit p q t

    let plain := linkLocal m = false ∧ ((s.port p).kind = 0 → m.tag < 0xFF00) ∧ (m.tag = migTag → namesMe s m.dst = false)
    ∃ r hops st, (wayOut t1 q = .ok (r, hops)) ∧ (quietMsg p q t1 = some st) ∧ (waitsTrk s p = false) ∧ (m.opc = 2) :=
  ⟨0, m2 2, mo (m2 2), mq wqp 0 (m2 2), wqp, mtS wqp 0 (m2 2), by decide +kernel, by decide +kernel, 4, mHops wqp 0 (m2 2), .quiesced, by decide +kernel⟩

theorem wit_MessagesGoTheirWay_6 : ∃ (p : Nat) (m : PktMsg) (o : PktMsg) (q : PktMsg) (s : State) (t : State), (msgPasses s p m o q false t) ∧ ((s.port p).kind ≠ 2) ∧
    let t1 := if (s.port p).kind == 0 then trackMsg p q t else noteTransit p q t

    let plain := linkLocal m = false ∧ ((s.port p).kind = 0 → m.tag < 0xFF00) ∧ (m.tag = migTag → namesMe s m.dst = false)
    (m.opc = 1) ∧ (plain) ∧ (quietMsg p q t1 = none) ∧ (waitsTrk s p = false) :=
  ⟨4, msgT9, mo msgT9, mq wm 4 msgT9, wm, mtS wm 4 msgT9, by decide +kernel⟩

theorem wit_MessagesGoTheirWay_7 : ∃ (p : Nat) (m : PktMsg) (o : PktMsg) (q : PktMsg) (s : State) (t : State), (msgPasses s p m o q false t) ∧ ((s.port p).kind ≠ 2) ∧
    let t1 := if (s.port p).kind == 0 then trackMsg p q t else noteTransit p q t

    let plain := linkLocal m = false ∧ ((s.port p).kind = 0 → m.tag < 0xFF00) ∧ (m.tag = migTag → namesMe s m.dst = false)
    (m.opc = 1) ∧ (linkLocal m = true) ∧ (m.tag ≠ helloTag) ∧ ((s.port p).kind ≠ 0) :=
  ⟨4, msgT, mo msgT, mq wm 4 msgT, wm, mtS wm 4 msgT, by decide +kernel⟩

theorem wit_MessagesGoTheirWay_8 : ∃ (p : Nat) (m : PktMsg) (o : PktMsg) (q : PktMsg) (s : State) (t : State), (msgPasses s p m o q false t) ∧ ((s.port p).kind ≠ 2) ∧
    let t1 := if (s.port p).kind == 0 then trackMsg p q t else noteTransit p q t

    let plain := linkLocal m = false ∧ ((s.port p).kind = 0 → m.tag < 0xFF00) ∧ (m.tag = migTag → namesMe s m.dst = false)
    (m.opc = 2) ∧ (quietMsg p q t1 = none) ∧ (waitsTrk s p = false) :=
  ⟨0, m2 2, mo (m2 2), mq wm 0 (m2 2), wm, mtS wm 0 (m2 2), by decide +kernel⟩

theorem wit_MessagesGoTheirWay_9 : ∃ (p : Nat) (m : PktMsg) (o : PktMsg) (q : PktMsg) (s : State) (t : State), (msgPasses s p m o q false t) ∧ ((s.port p).kind ≠ 2) ∧
    let t1 := if (s.port p).kind == 0 then trackMsg p q t else noteTransit p q t

    let plain := linkLocal m = false ∧ ((s.port p).kind = 0 → m.tag < 0xFF00) ∧ (m.tag = migTag → namesMe s m.dst = false)
    (m.opc = 2 ∨ m.opc = 4 ∨ m.opc = 6) ∧ (namesMe s m.dst = false) ∧ (quietMsg p q t1 = none) ∧ (waitsTrk s p = false) :=
  ⟨0, m2 4, mo (m2 4), mq wm 0 (m2 4), wm, mtS wm 0 (m2 4), by decide +kernel⟩

theorem wit_MessagesGoTheirWay_10 : ∃ (p : Nat) (m : PktMsg) (o : PktMsg) (q : PktMsg) (s : State) (t : State), (msgPasses s p m o q false t) ∧ ((s.port p).kind ≠ 2) ∧
    let t1 := if (s.port p).kind == 0 then trackMsg p q t else noteTransit p q t

    let plain := linkLocal m = false ∧ ((s.port p).kind = 0 → m.tag < 0xFF00) ∧ (m.tag = migTag → namesMe s m.dst = false)
    (waitsTrk s p = true) ∧ (m.opc = 1) ∧ (plain) :=
  ⟨0, msg0, mo msg0, mq wnn 0 msg0, wnn, mtS wnn 0 msg0, by decide +kernel⟩

theorem wit_MessagesGoTheirWay_11 : ∃ (p : Nat) (m : PktMsg) (o : PktMsg) (q : PktMsg) (s : State) (t : State), (msgPasses s p m o q false t) ∧ ((s.port p).kind ≠ 2) ∧
    let t1 := if (s.port p).kind == 0 then trackMsg p q t else noteTransit p q t

    let plain := linkLocal m = false ∧ ((s.port p).kind = 0 → m.tag < 0xFF00) ∧ (m.tag = migTag → namesMe s m.dst = false)
    (waitsTrk s p = true) ∧ (m.opc = 2) :=
  ⟨0, m2 2, mo (m2 2), mq wnn 0 (m2 2), wnn, mtS wnn 0 (m2 2), by decide +kernel⟩

theorem wit_MessagesGoTheirWay_12 : ∃ (p : Nat) (m : PktMsg) (o : PktMsg) (q : PktMsg) (s : State) (t : State), (msgPasses s p m o q false t) ∧ ((s.port p).kind ≠ 2) ∧
    let t1 := if (s.port p).kind == 0 then trackMsg p q t else noteTransit p q t

    let plain := linkLocal m = false ∧ ((s.port p).kind = 0 → m.tag < 0xFF00) ∧ (m.tag = migTag → namesMe s m.dst = false)
    (waitsTrk s p = true) ∧ (m.opc = 2 ∨ m.opc = 4 ∨ m.opc = 6) ∧ (namesMe s m.dst = false) :=
  ⟨0, m2 6, mo (m2 6), mq wnn 0 (m2 6), wnn, mtS wnn 0 (m2 6), by decide +kernel⟩

theorem wit_MessagesGoTheirWay_13 : ∃ (svc : Nat) (p : Nat) (m : PktMsg) (s : State), (leave s (routeMap s m.epoch) m = .accel p) ∧ (tagFits s m.tenant p = true) ∧ (attested s p = true) :=
  ⟨3, 12, { msgT with tenant := 5 }, wm, by decide +kernel⟩

theorem wit_MessagesGoTheirWay_14 : ∃ (svc : Nat) (p : Nat) (m : PktMsg) (s : State), (leave s (routeMap s m.epoch) m = .out p) ∧ (linkAlive s p = true) ∧ ((s.port p).sess.phase = 3) :=
  ⟨3, 4, { msg0 with tenant := 5, hops := 14 }, wm, by decide +kernel⟩

theorem wit_MessagesGoTheirWay_15 : ∃ (svc : Nat) (p : Nat) (m : PktMsg) (s : State), (leave s (routeMap s m.epoch) m = .loop) :=
  ⟨3, 4, { msg0 with tenant := 5, hops := 15 }, wm, by decide +kernel⟩

theorem wit_MessagesGoTheirWay_16 : ∃ (svc : Nat) (p : Nat) (m : PktMsg) (s : State), (leave s (routeMap s m.epoch) m = .nowhere) :=
  ⟨3, 4, { msg0 with dst := epId 0 7 1 }, wm, by decide +kernel⟩

theorem wit_AnswersAndHellosAct_1 : ∃ (p : Nat) (q : Nat) (m : PktMsg) (a : PktMsg) (k : Trk) (s : State),
    let s1 := eatPkt p .msg m s
    ((m.opc = 3 ∨ m.opc = 7)) ∧ (openPkt m = some a) ∧ (a.rsv = false) ∧ ((s1.port p).kind = 1) ∧ ((s.port p).kind = 1) ∧ (leave s1 (routeMap s1 a.epoch) a = .accel q) ∧ (tagFits s1 a.tenant q = true) ∧ (msgTrk s1 a.dst a.txn = some k) ∧
    let r := Host.Outcome.next (φ := Fault) (ρ := Refusal)
        (settle s (enqueue false q k.svc a.dst (.pkt .msg { a with heat := pinHeat s1 q k.heat }) (freeTrk k.id s1)))
    (m.opc = 3) :=
  ⟨4, 12, msgA 3, msgA 3, { id := 7, vc := .msg, src := accelEp wm 12, txn := 5, svc := 3, opc := 2 }, wtk, by decide +kernel⟩

theorem wit_AnswersAndHellosAct_2 : ∃ (p : Nat) (q : Nat) (m : PktMsg) (a : PktMsg) (k : Trk) (s : State),
    let s1 := eatPkt p .msg m s
    ((m.opc = 3 ∨ m.opc = 7)) ∧ (openPkt m = some a) ∧ (a.rsv = false) ∧ ((s1.port p).kind = 1) ∧ ((s.port p).kind = 1) ∧ (leave s1 (routeMap s1 a.epoch) a = .accel q) ∧ (tagFits s1 a.tenant q = true) ∧ (msgTrk s1 a.dst a.txn = some k) ∧
    let r := Host.Outcome.next (φ := Fault) (ρ := Refusal)
        (settle s (enqueue false q k.svc a.dst (.pkt .msg { a with heat := pinHeat s1 q k.heat }) (freeTrk k.id s1)))
    (m.opc = 7) :=
  ⟨4, 12, msgA 7, msgA 7, { id := 7, vc := .msg, src := accelEp wm 12, txn := 5, svc := 3, opc := 2 }, wtk, by decide +kernel⟩

theorem wit_AnswersAndHellosAct_3 : ∃ (p : Nat) (m : PktMsg) (a : PktMsg) (k : Trk) (s : State),
    let s1 := eatPkt p .msg m s
    (m.opc = 7) ∧ (openPkt m = some a) ∧ (a.rsv = false) ∧ ((s.port p).kind = 1) ∧ ((s1.port p).kind = 1) ∧ (leave s1 (routeMap s1 a.epoch) a = .here) ∧ (s.mem.trks.find? (fun k => k.vc == .msg && k.own.isSome && k.txn == a.txn) = some k) ∧ (a.status ≠ 1) :=
  ⟨4, { msgA 7 with dst := ownId wm }, { msgA 7 with dst := ownId wm }, { id := 5, vc := .msg, src := ownId wm, txn := 5, svc := 3, opc := 1, own := some msg0 }, wown, by decide +kernel⟩

theorem wit_AnswersAndHellosAct_4 : ∃ (p : Nat) (m : PktMsg) (o : PktMsg) (q : PktMsg) (h : Hello) (r : ConfigRec) (s : State) (t : State), (m.opc = 1) ∧ (m.tag = helloTag) ∧ ((s.port p).kind ≠ 0) ∧ (msgPasses s p m o q true t) ∧ (decHello q.body = some h) ∧ ((t.port p).peer = some r) ∧ (h.serial = r.serial) ∧ (h.cell = r.cell) ∧ (h.module = r.module) ∧ (h.port = r.port) :=
  ⟨4, msgH, mo msgH, mq whello 4 msgH, hello3, { linkKind := 1, module := 3, port := 4, serial := 11 }, whello, mtS whello 4 msgH, by decide +kernel⟩

theorem wit_AnswersAndHellosAct_5 : ∃ (id : Nat) (k : Trk) (s : State), (s.mem.trks.find? (·.id == id) = some k) ∧ (k.failed = true) :=
  ⟨7, { id := 7, vc := .msg, failed := true }, { wm with mem := { wm.mem with trks := [{ id := 7, vc := .msg, failed := true }] } }, by decide +kernel⟩

theorem wit_AnswersAndHellosAct_6 : ∃ (id : Nat) (k : Trk) (s : State), (s.mem.trks.find? (·.id == id) = some k) ∧ (k.failed = false) ∧ (k.at_ + 100000000 ≤ s.t) ∧ (k.vc ≠ .mgt) ∧ (s.mem.transit.contains id = false) ∧ (¬(k.vc = .msg ∧ k.opc = 4)) :=
  ⟨7, { id := 7, vc := .msg, src := accelEp wm 12, txn := 5, svc := 3, opc := 2 }, { wtk with t := 100000000 }, by decide +kernel⟩

theorem wit_AnswersAndHellosAct_7 : ∃ (id : Nat) (k : Trk) (s : State), (s.mem.trks.find? (·.id == id) = some k) ∧ (k.failed = false) ∧ (k.at_ + 100000000 ≤ s.t) ∧ (k.vc ≠ .mgt) ∧ (s.mem.transit.contains id = true) :=
  ⟨7, { id := 7, vc := .msg, src := accelEp wm 12, txn := 5, svc := 3, opc := 2 }, { wtk with t := 100000000, mem := { wtk.mem with transit := [7] } }, by decide +kernel⟩

theorem wit_AnswersAndHellosAct_8 : ∃ (id : Nat) (k : Trk) (s : State), (s.mem.trks.find? (·.id == id) = some k) ∧ (k.failed = false) ∧ (k.vc = .msg) ∧ (k.opc = 4) ∧ (s.mem.transit.contains id = false) :=
  ⟨7, { id := 7, vc := .msg, opc := 4 }, { wm with t := 100000000, mem := { wm.mem with trks := [{ id := 7, vc := .msg, opc := 4 }] } }, by decide +kernel⟩

theorem wit_AnswersAndHellosAct_9 : ∃ (id : Nat) (k : Trk) (s : State), (s.mem.trks.find? (·.id == id) = some k) ∧ (k.failed = false) ∧ (k.vc = .mgt) :=
  ⟨7, { id := 7, vc := .mgt }, { wm with t := 100000000, mem := { wm.mem with trks := [{ id := 7, vc := .mgt }] } }, by decide +kernel⟩

theorem wit_AnswersAndHellosAct_10 : ∃ (p : Nat) (m : PktMsg) (a : PktMsg) (s : State), ((s.port p).kind = 0) ∧ ((s.port p).admitted = true) ∧ (openPkt m = some a) ∧ (a.rsv = false) ∧ (a.src = accelEp s p) ∧
    let r := Host.Outcome.next (φ := Fault) (ρ := Refusal)
        (settle s (answerOnward { a with tenant := tagOf s (s.port p).owner, hops := 0 } (eatPkt p .msg m s)))
    (m.opc = 3) :=
  ⟨0, msgAns 3, mo (msgAns 3), wm, by decide +kernel⟩

theorem wit_AnswersAndHellosAct_11 : ∃ (p : Nat) (m : PktMsg) (a : PktMsg) (s : State), ((s.port p).kind = 0) ∧ ((s.port p).admitted = true) ∧ (openPkt m = some a) ∧ (a.rsv = false) ∧ (a.src = accelEp s p) ∧
    let r := Host.Outcome.next (φ := Fault) (ρ := Refusal)
        (settle s (answerOnward { a with tenant := tagOf s (s.port p).owner, hops := 0 } (eatPkt p .msg m s)))
    (m.opc = 7) :=
  ⟨0, msgAns 7, mo (msgAns 7), wm, by decide +kernel⟩

theorem wit_AnswersAndHellosAct_12 : ∃ (p : Nat) (m : PktMsg) (a : PktMsg) (s : State), ((s.port p).kind = 0) ∧ ((s.port p).admitted = false) ∧ (openPkt m = some a) ∧ (m.opc = 3) :=
  ⟨0, msgAns 3, mo (msgAns 3), wun, by decide +kernel⟩

theorem wit_AnswersAndHellosAct_13 : ∃ (p : Nat) (m : PktMsg) (a : PktMsg) (s : State), ((s.port p).kind = 0) ∧ ((s.port p).admitted = false) ∧ (openPkt m = some a) ∧ (m.opc = 7) :=
  ⟨0, msgAns 7, mo (msgAns 7), wun, by decide +kernel⟩

theorem wit_AnswersAndHellosAct_14 : ∃ (p : Nat) (m : PktMsg) (a : PktMsg) (s : State), (m.opc = 7) ∧ ((s.port p).kind = 2) ∧ (openPkt m = some a) ∧ (a.rsv = false) ∧ (a.status = Status.retry.code) :=
  ⟨8, { msgAns 7 with status := Status.retry.code }, mo { msgAns 7 with status := Status.retry.code }, wm, by decide +kernel⟩

theorem wit_AnswersAndHellosAct_15 : ∃ (p : Nat) (m : PktMsg) (a : PktMsg) (s : State), (m.opc = 7) ∧ ((s.port p).kind = 2) ∧ (openPkt m = some a) ∧ (a.rsv = false) ∧ (a.status ≠ Status.retry.code) ∧ (((eatPkt p .msg m s).twin.accs.any (·.1 == a.txn)) = false) :=
  ⟨8, msgAns 7, mo (msgAns 7), wm, by decide +kernel⟩

theorem wit_GroupsAndDeadlines_1 : ∃ (m : MbxId) (j : Job) (s : State), (mayRun s m 0x0904 j) ∧ (groupBad j.payload = false) ∧
    let g := decGroup j.payload
    ((s.part? g.part).isSome = true) ∧ ((j.manager = true ∨ g.part = j.part)) ∧ (s.group? g.part g.id = none) ∧ ((s.groups.groups.filter (·.part == g.part)).length < 256) :=
  ⟨.a, jb 0x0904 (grpBytes), run (w) (jb 0x0904 (grpBytes)), by decide +kernel⟩

theorem wit_GroupsAndDeadlines_2 : ∃ (m : MbxId) (j : Job) (s : State), (mayRun s m 0x0905 j) ∧
    let id := fldLE j.payload 0 2
    ((s.group? j.part id).isSome = true) ∧ ((s.groups.insts.any fun i => i.of j.part id && liveInst s i) = false) :=
  ⟨.a, jb 0x0905 ([2, 0]), run ({ w with groups := { groups := [grp, grk], insts := [{ part := 1, group := 2, inst := 5, ended := true }] } }) (jb 0x0905 ([2, 0])), by decide +kernel⟩

theorem wit_GroupsAndDeadlines_3 : ∃ (p : Nat) (gid : Nat) (n : Nat) (g : Group) (i : Inst) (s : State), (s.group? p gid = some g) ∧ (s.groups.insts.find? (fun i => i.of p gid && i.inst == n && liveInst s i) = some i) ∧ (i.start + g.localDl ≤ s.ns) ∧ (i.dlPast = false) :=
  ⟨1, 3, 6, grk, { part := 1, group := 3, inst := 6, cid := 41 }, wgr 1000, by decide +kernel⟩

theorem wit_GroupsAndDeadlines_4 : ∃ (p : Nat) (gid : Nat) (n : Nat) (g : Group) (i : Inst) (s : State), (s.group? p gid = some g) ∧ (s.groups.insts.find? (fun i => i.of p gid && i.inst == n && liveInst s i) = some i) ∧ (g.root = false) ∧ (i.start + g.resultDl ≤ s.ns) :=
  ⟨1, 3, 6, grk, { part := 1, group := 3, inst := 6, cid := 41 }, wgr 5000, by decide +kernel⟩

theorem wit_CollectiveMessagesAct_1 : ∃ (p : Nat) (x : Nat) (m : PktMsg) (o : PktMsg) (q : PktMsg) (g : Group) (i : Inst) (s : State) (t : State), (m.opc = 6) ∧ ((s.port p).kind ≠ 2) ∧ (namesMe s m.dst = true) ∧ (msgPasses s p m o q false t) ∧ (t.power.readyFull = true) ∧ (collPart t p q = some x) ∧ (t.isQuiesced x = false) ∧
    let h := decColl q.body
    (t.group? x h.group = some g) ∧ (t.groups.insts.find? (fun i => i.of x g.id && i.inst == h.inst && liveInst t i) = some i) ∧ ∃ src, (collSrc t g q h.rank = some src) ∧ (collBad g src h q.body = false) ∧ (t.ns < i.start + g.localDl) ∧ (((List.range h.count).all fun n => (windowOf g i).contains ((h.first + n) / 256) || i.tiles.contains ((h.first + n) / 256)) = true) ∧
    let l := collElems h q.body

    let t1 := if src.1 && g.exact && l.any (fun x => badWord (leNat x.2)) then event 0x000A true [] (some x) [h.group, h.inst] t else t

    let r := Host.Outcome.next (φ := Fault) (ρ := Refusal) (settle s (refuse p q .ok (advanceInst g i.cid (takeElems i.cid src l t1))))
    (h.kind = 0) := by
  refine ⟨4, 1, msgC 2 0 4 (epId 0 3 9), (cw (wgr 0) (msgC 2 0 4 (epId 0 3 9))).1, (cw (wgr 0) (msgC 2 0 4 (epId 0 3 9))).2.1, grp, ins2, wgr 0, (cw (wgr 0) (msgC 2 0 4 (epId 0 3 9))).2.2, ?_, ?_, ?_, ?_, ?_, ?_, ?_, ?_, ?_, (false, 0), ?_⟩ <;> decide +kernel

theorem wit_CollectiveMessagesAct_2 : ∃ (p : Nat) (x : Nat) (m : PktMsg) (o : PktMsg) (q : PktMsg) (g : Group) (i : Inst) (s : State) (t : State), (m.opc = 6) ∧ ((s.port p).kind ≠ 2) ∧ (namesMe s m.dst = true) ∧ (msgPasses s p m o q false t) ∧ (t.power.readyFull = true) ∧ (collPart t p q = some x) ∧ (t.isQuiesced x = false) ∧
    let h := decColl q.body
    (t.group? x h.group = some g) ∧ (t.groups.insts.find? (fun i => i.of x g.id && i.inst == h.inst && liveInst t i) = some i) ∧ ∃ src, (collSrc t g q h.rank = some src) ∧ (collBad g src h q.body = false) ∧ (t.ns < i.start + g.localDl) ∧ (((List.range h.count).all fun n => (windowOf g i).contains ((h.first + n) / 256) || i.tiles.contains ((h.first + n) / 256)) = true) ∧
    let l := collElems h q.body

    let t1 := if src.1 && g.exact && l.any (fun x => badWord (leNat x.2)) then event 0x000A true [] (some x) [h.group, h.inst] t else t

    let r := Host.Outcome.next (φ := Fault) (ρ := Refusal) (settle s (refuse p q .ok (advanceInst g i.cid (takeElems i.cid src l t1))))
    (h.kind = 1) := by
  refine ⟨4, 1, msgW, (cw (wgr 0) msgW).1, (cw (wgr 0) msgW).2.1, grk, ins3, wgr 0, (cw (wgr 0) msgW).2.2, ?_, ?_, ?_, ?_, ?_, ?_, ?_, ?_, ?_, (true, 0), ?_⟩ <;> decide +kernel

theorem wit_CollectiveMessagesAct_3 : ∃ (p : Nat) (x : Nat) (m : PktMsg) (o : PktMsg) (q : PktMsg) (g : Group) (i : Inst) (s : State) (t : State), (m.opc = 6) ∧ ((s.port p).kind ≠ 2) ∧ (namesMe s m.dst = true) ∧ (msgPasses s p m o q false t) ∧ (t.power.readyFull = true) ∧ (collPart t p q = some x) ∧ (t.isQuiesced x = false) ∧
    let h := decColl q.body
    (t.group? x h.group = some g) ∧ (t.groups.insts.find? (fun i => i.of x g.id && i.inst == h.inst && liveInst t i) = some i) ∧ ∃ src, (collSrc t g q h.rank = some src) ∧ (collBad g src h q.body = false) ∧ (t.ns < i.start + g.localDl) ∧ (h.kind = 3) ∧ (fromParent s p o = false) := by
  refine ⟨4, 1, msgE 0 (epId 0 5 12), (cw (wgr 0) (msgE 0 (epId 0 5 12))).1, (cw (wgr 0) (msgE 0 (epId 0 5 12))).2.1, grk, ins3, wgr 0, (cw (wgr 0) (msgE 0 (epId 0 5 12))).2.2, ?_, ?_, ?_, ?_, ?_, ?_, ?_, ?_, ?_, (true, 0), ?_⟩ <;> decide +kernel

theorem wit_CollectiveMessagesAct_4 : ∃ (p : Nat) (x : Nat) (m : PktMsg) (o : PktMsg) (q : PktMsg) (g : Group) (i : Inst) (s : State) (t : State), (m.opc = 6) ∧ ((s.port p).kind ≠ 2) ∧ (namesMe s m.dst = true) ∧ (msgPasses s p m o q false t) ∧ (t.power.readyFull = true) ∧ (collPart t p q = some x) ∧ (t.isQuiesced x = false) ∧
    let h := decColl q.body
    (t.group? x h.group = some g) ∧ (t.groups.insts.find? (fun i => i.of x g.id && i.inst == h.inst && liveInst t i) = some i) ∧ (h.kind = 2) ∧ (g.root = false) ∧ (sameEp t g.parent q.src = true) ∧ (t.ns < i.start + g.resultDl) ∧ (h.rsv = false) ∧ (h.fmt = g.outFmt) ∧ (q.body.length = 16 + h.count * collBytes h.fmt) ∧ (h.first + h.count ≤ g.range) :=
  ⟨4, 1, msgC 3 2 4 (epId 0 3 4), (cw (wgr 0) (msgC 3 2 4 (epId 0 3 4))).1, (cw (wgr 0) (msgC 3 2 4 (epId 0 3 4))).2.1, grk, ins3, wgr 0, (cw (wgr 0) (msgC 3 2 4 (epId 0 3 4))).2.2, by decide +kernel⟩

theorem wit_CollectiveMessagesAct_5 : ∃ (p : Nat) (x : Nat) (m : PktMsg) (o : PktMsg) (q : PktMsg) (g : Group) (i : Inst) (s : State) (t : State), (m.opc = 6) ∧ ((s.port p).kind ≠ 2) ∧ (namesMe s m.dst = true) ∧ (msgPasses s p m o q false t) ∧ (t.power.readyFull = true) ∧ (collPart t p q = some x) ∧ (t.isQuiesced x = false) ∧
    let h := decColl q.body
    (t.group? x h.group = some g) ∧ (t.groups.insts.find? (fun i => i.of x g.id && i.inst == h.inst && liveInst t i) = some i) ∧ (h.kind = 3) ∧ (fromParent s p o = true) ∧ (g.root = false) ∧ (t.ns < i.start + g.resultDl) ∧ (24 ≤ q.body.length) ∧
    let lost := (i.lostRanks ++ endRanks q.body).eraseDups
    (fldLE q.body 16 2 = 8) :=
  ⟨4, 1, msgE 8 (epId 0 3 4), (cw (wgr 0) (msgE 8 (epId 0 3 4))).1, (cw (wgr 0) (msgE 8 (epId 0 3 4))).2.1, grk, ins3, wgr 0, (cw (wgr 0) (msgE 8 (epId 0 3 4))).2.2, by decide +kernel⟩

theorem wit_CollectiveMessagesAct_6 : ∃ (p : Nat) (x : Nat) (m : PktMsg) (o : PktMsg) (q : PktMsg) (g : Group) (i : Inst) (s : State) (t : State), (m.opc = 6) ∧ ((s.port p).kind ≠ 2) ∧ (namesMe s m.dst = true) ∧ (msgPasses s p m o q false t) ∧ (t.power.readyFull = true) ∧ (collPart t p q = some x) ∧ (t.isQuiesced x = false) ∧
    let h := decColl q.body
    (t.group? x h.group = some g) ∧ (t.groups.insts.find? (fun i => i.of x g.id && i.inst == h.inst && liveInst t i) = some i) ∧ (h.kind = 3) ∧ (fromParent s p o = true) ∧ (g.root = false) ∧ (t.ns < i.start + g.resultDl) ∧ (24 ≤ q.body.length) ∧
    let lost := (i.lostRanks ++ endRanks q.body).eraseDups
    (fldLE q.body 16 2 ≠ 8) :=
  ⟨4, 1, msgE 0 (epId 0 3 4), (cw (wgr 0) (msgE 0 (epId 0 3 4))).1, (cw (wgr 0) (msgE 0 (epId 0 3 4))).2.1, grk, ins3, wgr 0, (cw (wgr 0) (msgE 0 (epId 0 3 4))).2.2, by decide +kernel⟩

theorem wit_ChainsStart_1 : ∃ (m : MbxId) (j : Job) (x : Bytes × List Bytes) (s : State), (mayRun s m 0x0901 j) ∧ (chainOf j.payload = some x) :=
  ⟨.a, jb 0x0901 (pourB), poured, run (wch) (jb 0x0901 (pourB)), by decide +kernel⟩

theorem wit_ChainsStart_2 : ∃ (p : Nat) (m : PktMsg) (o : PktMsg) (q : PktMsg) (x : Bytes × List Bytes) (s : State) (t : State), (m.opc = 4) ∧ (namesMe s m.dst = true) ∧ ((s.port p).kind < 2) ∧ (trkFree s (s.port p).owner = true) ∧ (msgPasses s p m o q false t) ∧ (chainOf o.body = some x) :=
  ⟨0, msgP, msgP, { msgP with tenant := 5, heat := (police 0 msgP.src (rawPkt (eatPkt 0 .msg msgP wch) 0 msgP) true (eatPkt 0 .msg msgP wch)).2.1 }, poured, wch, mtP wch, by decide +kernel⟩

theorem wit_ChainsStart_3 : ∃ (c : Chain) (s : State), (acceptStop s c true = none) ∧ (c.home ≠ 0x7F) :=
  ⟨newChain (.mbx 1) poured, wch, by decide +kernel⟩

theorem wit_ChainsStart_4 : ∃ (m : MbxId) (j : Job) (x : Bytes × List Bytes) (s : State), (mayRun s m 0x0902 j) ∧ (chainOf (j.payload.drop 8) = some x) ∧
    let id := fldLE j.payload 0 2

    let c := newChain (.template 0 id) x
    (zeroAt j.payload 2 6 = true) ∧ (c.h 255 240 = id) ∧ (id ≠ 0xFFFF) ∧ (c.home ≤ 95) ∧ (firstBad c = none) ∧ (tooBig s c = false) ∧ (c.part = j.part) ∧ (s.nookOwner c.home = .part c.part) ∧ (moving s c.home = false) ∧ (s.template? c.home id = none) ∧ ((s.chains.templates.filter (·.nook == c.home)).length < 64) :=
  ⟨.a, jb 0x0902 (toLE 8 6 ++ (hdrB 6 ++ copyB)), (hdrB 6, [copyB]), run (wch) (jb 0x0902 (toLE 8 6 ++ (hdrB 6 ++ copyB))), by decide +kernel⟩

theorem wit_ChainsStart_5 : ∃ (m : MbxId) (j : Job) (t : Template) (s : State), (mayRun s m 0x0903 j) ∧
    let id := fldLE j.payload 0 2

    let nook := fldLE j.payload 2 1
    (s.template? nook id = some t) ∧ (t.part = j.part) ∧ (calendarNames s nook id = false) ∧ (templateRuns s nook id = false) :=
  ⟨.a, jb 0x0903 ([6, 0, 1, 0]), tpl, run ({ wch with chains := { wch.chains with templates := [tpl] } }) (jb 0x0903 ([6, 0, 1, 0])), by decide +kernel⟩

theorem wit_ChainsStart_6 : ∃ (nook : Nat) (c : Chain) (s : State) (s1 : State),
    let q := s.chains.chains.filter fun c => c.waits && c.home == nook && !(s.twin.giving.elim false fun g => g.1 == c.part)

    let forget := fun (s : State) => (List.range c.descs.length).foldl (fun s i => engForget (stageTok c.cid i) s) s
    ((q.find? (·.act.isSome)).or q.head? = some c) ∧ (hasRoom s nook c = true) ∧ (admitRead c s = (true, s1)) ∧ ∃ gs, (chainAdmits s1 c = .ok gs) := by
  refine ⟨1, chq, withCh chq wch, (admitRead chq (withCh chq wch)).2, ?_, ?_, ?_, [], ?_⟩ <;> decide +kernel

theorem wit_ChainsStart_7 : ∃ (nook : Nat) (c : Chain) (s : State) (s1 : State),
    let q := s.chains.chains.filter fun c => c.waits && c.home == nook && !(s.twin.giving.elim false fun g => g.1 == c.part)

    let forget := fun (s : State) => (List.range c.descs.length).foldl (fun s i => engForget (stageTok c.cid i) s) s
    ((q.find? (·.act.isSome)).or q.head? = some c) ∧ (hasRoom s nook c = true) ∧ (admitRead c s = (true, s1)) ∧ ∃ st stage, (chainAdmits s1 c = .error (st, stage)) := by
  refine ⟨1, { chq with descs := [lkB] }, withCh { chq with descs := [lkB] } wch, (admitRead { chq with descs := [lkB] } (withCh { chq with descs := [lkB] } wch)).2, ?_, ?_, ?_, .noAccess, 0, ?_⟩ <;> decide +kernel

theorem wit_ChainsStart_8 : ∃ (nook : Nat) (c : Chain) (s : State) (s1 : State),
    let q := s.chains.chains.filter fun c => c.waits && c.home == nook && !(s.twin.giving.elim false fun g => g.1 == c.part)
    ((q.find? (·.act.isSome)).or q.head? = some c) ∧ (hasRoom s nook c = true) ∧ (admitRead c s = (false, s1)) :=
  ⟨1, chs1, busyAt (base64 / 64) (withCh chs1 wch), (admitRead chs1 (busyAt (base64 / 64) (withCh chs1 wch))).2, by decide +kernel⟩

theorem wit_ChainsStart_9 : ∃ (nook : Nat) (c : Chain) (s : State),
    let q := s.chains.chains.filter fun c => c.waits && c.home == nook && !(s.twin.giving.elim false fun g => g.1 == c.part)

    let forget := fun (s : State) => (List.range c.descs.length).foldl (fun s i => engForget (stageTok c.cid i) s) s
    ((q.find? (·.act.isSome)).or q.head? = some c) ∧ (hasRoom s nook c = true) ∧ ((mapFor s c.epoch).toOption.isSome = true) ∧ ((c.ds.all fun d => [4, 6, 7, 8, 9, 10, 11].contains d.op || (d.op == 3 && d.f 16 2 == 0)) = true) ∧ (c.ds.length = c.descs.length) :=
  ⟨1, chx, withCh chx wch, by decide +kernel⟩

theorem wit_ChainsStart_10 : ∃ (nook : Nat) (c : Chain) (s : State),
    let q := s.chains.chains.filter fun c => c.waits && c.home == nook && !(s.twin.giving.elim false fun g => g.1 == c.part)
    ((q.find? (·.act.isSome)).or q.head? = some c) ∧ (hasRoom s nook c = false) ∧ (c.act.isSome = true) ∧ (c.late = false) :=
  ⟨1, chc, wfull chc, by decide +kernel⟩

theorem wit_ChainsStart_11 : ∃ (part : Nat) (id : Nat) (a : CalAct) (t : Template) (s : State), (s.chains.templates.find? (fun t => t.part == part && t.id == id && t.waiting.isSome && !templateRuns s t.nook id) = some t) ∧ (t.waiting = some a) ∧
    let s1 := launch t a (modTemplate t.nook id (fun t => { t with waiting := none }) s)

    let held := s1.chains.chains.getLast?.elim false fun c => c.late && c.status.isNone
    (held = false) :=
  ⟨1, 6, { due := 256 }, { tpl with waiting := some { due := 256 } }, wst1, by decide +kernel⟩

theorem wit_ChainsStart_12 : ∃ (part : Nat) (id : Nat) (a : CalAct) (t : Template) (s : State), (s.chains.templates.find? (fun t => t.part == part && t.id == id && t.waiting.isSome && !templateRuns s t.nook id) = some t) ∧ (t.waiting = some a) ∧
    let s1 := launch t a (modTemplate t.nook id (fun t => { t with waiting := none }) s)

    let held := s1.chains.chains.getLast?.elim false fun c => c.late && c.status.isNone
    (held = true) :=
  ⟨1, 6, { due := 256 }, { tpl with waiting := some { due := 256 } }, wst2, by decide +kernel⟩

theorem wit_ChainsRunAndEnd_1 : ∃ (cid : Nat) (i : Nat) (c : Chain) (s : State),
    let s0 := writeMarks cid i s
    (s0.chain? cid = some c) ∧ (c.holds = true) ∧ (i < c.descs.length) ∧ ((c.st i).phase ≠ 5) ∧ (engFail s0 c = none) ∧ (ticketLost s0 c = false) ∧
    let s1 := modChain cid (Chain.take i) s0

    let go := fun (t : State) => exec (.memoryResponse cid i) s = .next (settle s (syncThreads cid t))

    let at0 := fun (op : Nat) => fed c i = true ∧ (c.d i).op = op ∧ (c.st i).phase = 0 ∧ c.cid = cid
    (at0 1) :=
  ⟨50, 0, chr (opB 1), withCh (chr (opB 1)) wch, by decide +kernel⟩

theorem wit_ChainsRunAndEnd_2 : ∃ (cid : Nat) (i : Nat) (c : Chain) (s : State),
    let s0 := writeMarks cid i s
    (s0.chain? cid = some c) ∧ (c.holds = true) ∧ (i < c.descs.length) ∧ ((c.st i).phase ≠ 5) ∧ (engFail s0 c = none) ∧ (ticketLost s0 c = false) ∧
    let s1 := modChain cid (Chain.take i) s0

    let go := fun (t : State) => exec (.memoryResponse cid i) s = .next (settle s (syncThreads cid t))

    let at0 := fun (op : Nat) => fed c i = true ∧ (c.d i).op = op ∧ (c.st i).phase = 0 ∧ c.cid = cid
    (at0 2) :=
  ⟨50, 0, chr (opB 2), withCh (chr (opB 2)) wch, by decide +kernel⟩

theorem wit_ChainsRunAndEnd_3 : ∃ (cid : Nat) (i : Nat) (c : Chain) (s : State),
    let s0 := writeMarks cid i s
    (s0.chain? cid = some c) ∧ (c.holds = true) ∧ (i < c.descs.length) ∧ ((c.st i).phase ≠ 5) ∧ (engFail s0 c = none) ∧ (ticketLost s0 c = false) ∧
    let s1 := modChain cid (Chain.take i) s0

    let go := fun (t : State) => exec (.memoryResponse cid i) s = .next (settle s (syncThreads cid t))

    let at0 := fun (op : Nat) => fed c i = true ∧ (c.d i).op = op ∧ (c.st i).phase = 0 ∧ c.cid = cid
    (at0 3) ∧ ((c.d i).f 16 2 = 0) :=
  ⟨50, 0, chr (opB 3), withCh (chr (opB 3)) wch, by decide +kernel⟩

theorem wit_ChainsRunAndEnd_4 : ∃ (cid : Nat) (i : Nat) (c : Chain) (s : State),
    let s0 := writeMarks cid i s
    (s0.chain? cid = some c) ∧ (c.holds = true) ∧ (i < c.descs.length) ∧ ((c.st i).phase ≠ 5) ∧ (engFail s0 c = none) ∧ (ticketLost s0 c = false) ∧
    let s1 := modChain cid (Chain.take i) s0

    let go := fun (t : State) => exec (.memoryResponse cid i) s = .next (settle s (syncThreads cid t))

    let at0 := fun (op : Nat) => fed c i = true ∧ (c.d i).op = op ∧ (c.st i).phase = 0 ∧ c.cid = cid
    (at0 3) ∧ ((c.d i).f 16 2 ≠ 0) :=
  ⟨50, 0, chr (opB (3 + 2 ^ 128)), withCh (chr (opB (3 + 2 ^ 128))) wch, by decide +kernel⟩

theorem wit_ChainsRunAndEnd_5 : ∃ (cid : Nat) (i : Nat) (c : Chain) (s : State),
    let s0 := writeMarks cid i s
    (s0.chain? cid = some c) ∧ (c.holds = true) ∧ (i < c.descs.length) ∧ ((c.st i).phase ≠ 5) ∧ (engFail s0 c = none) ∧ (ticketLost s0 c = false) ∧
    let s1 := modChain cid (Chain.take i) s0

    let go := fun (t : State) => exec (.memoryResponse cid i) s = .next (settle s (syncThreads cid t))

    let at0 := fun (op : Nat) => fed c i = true ∧ (c.d i).op = op ∧ (c.st i).phase = 0 ∧ c.cid = cid
    (at0 4) :=
  ⟨50, 0, chr (opB 4), withCh (chr (opB 4)) wch, by decide +kernel⟩

theorem wit_ChainsRunAndEnd_6 : ∃ (cid : Nat) (i : Nat) (c : Chain) (s : State),
    let s0 := writeMarks cid i s
    (s0.chain? cid = some c) ∧ (c.holds = true) ∧ (i < c.descs.length) ∧ ((c.st i).phase ≠ 5) ∧ (engFail s0 c = none) ∧ (ticketLost s0 c = false) ∧
    let s1 := modChain cid (Chain.take i) s0

    let go := fun (t : State) => exec (.memoryResponse cid i) s = .next (settle s (syncThreads cid t))

    let at0 := fun (op : Nat) => fed c i = true ∧ (c.d i).op = op ∧ (c.st i).phase = 0 ∧ c.cid = cid
    (at0 5) :=
  ⟨50, 0, chr (opB 5), withCh (chr (opB 5)) wch, by decide +kernel⟩

theorem wit_ChainsRunAndEnd_7 : ∃ (cid : Nat) (i : Nat) (c : Chain) (s : State),
    let s0 := writeMarks cid i s
    (s0.chain? cid = some c) ∧ (c.holds = true) ∧ (i < c.descs.length) ∧ ((c.st i).phase ≠ 5) ∧ (engFail s0 c = none) ∧ (ticketLost s0 c = false) ∧
    let s1 := modChain cid (Chain.take i) s0

    let go := fun (t : State) => exec (.memoryResponse cid i) s = .next (settle s (syncThreads cid t))

    let at0 := fun (op : Nat) => fed c i = true ∧ (c.d i).op = op ∧ (c.st i).phase = 0 ∧ c.cid = cid
    (at0 6) :=
  ⟨50, 0, chr (opB 6), withCh (chr (opB 6)) wch, by decide +kernel⟩

theorem wit_ChainsRunAndEnd_8 : ∃ (cid : Nat) (i : Nat) (c : Chain) (s : State),
    let s0 := writeMarks cid i s
    (s0.chain? cid = some c) ∧ (c.holds = true) ∧ (i < c.descs.length) ∧ ((c.st i).phase ≠ 5) ∧ (engFail s0 c = none) ∧ (ticketLost s0 c = false) ∧
    let s1 := modChain cid (Chain.take i) s0

    let go := fun (t : State) => exec (.memoryResponse cid i) s = .next (settle s (syncThreads cid t))

    let at0 := fun (op : Nat) => fed c i = true ∧ (c.d i).op = op ∧ (c.st i).phase = 0 ∧ c.cid = cid
    (at0 7) :=
  ⟨50, 0, chr (opB 7), withCh (chr (opB 7)) wch, by decide +kernel⟩

theorem wit_ChainsRunAndEnd_9 : ∃ (cid : Nat) (i : Nat) (c : Chain) (s : State),
    let s0 := writeMarks cid i s
    (s0.chain? cid = some c) ∧ (c.holds = true) ∧ (i < c.descs.length) ∧ ((c.st i).phase ≠ 5) ∧ (engFail s0 c = none) ∧ (ticketLost s0 c = false) ∧
    let s1 := modChain cid (Chain.take i) s0

    let go := fun (t : State) => exec (.memoryResponse cid i) s = .next (settle s (syncThreads cid t))

    let at0 := fun (op : Nat) => fed c i = true ∧ (c.d i).op = op ∧ (c.st i).phase = 0 ∧ c.cid = cid
    (at0 8) :=
  ⟨50, 0, chr (opB 8), withCh (chr (opB 8)) wch, by decide +kernel⟩

theorem wit_ChainsRunAndEnd_10 : ∃ (cid : Nat) (i : Nat) (c : Chain) (s : State),
    let s0 := writeMarks cid i s
    (s0.chain? cid = some c) ∧ (c.holds = true) ∧ (i < c.descs.length) ∧ ((c.st i).phase ≠ 5) ∧ (engFail s0 c = none) ∧ (ticketLost s0 c = false) ∧
    let s1 := modChain cid (Chain.take i) s0

    let go := fun (t : State) => exec (.memoryResponse cid i) s = .next (settle s (syncThreads cid t))

    let at0 := fun (op : Nat) => fed c i = true ∧ (c.d i).op = op ∧ (c.st i).phase = 0 ∧ c.cid = cid
    (at0 9) :=
  ⟨50, 0, chr (opB 9), withCh (chr (opB 9)) wch, by decide +kernel⟩

theorem wit_ChainsRunAndEnd_11 : ∃ (cid : Nat) (i : Nat) (c : Chain) (s : State),
    let s0 := writeMarks cid i s
    (s0.chain? cid = some c) ∧ (c.holds = true) ∧ (i < c.descs.length) ∧ ((c.st i).phase ≠ 5) ∧ (engFail s0 c = none) ∧ (ticketLost s0 c = false) ∧
    let s1 := modChain cid (Chain.take i) s0

    let go := fun (t : State) => exec (.memoryResponse cid i) s = .next (settle s (syncThreads cid t))

    let at0 := fun (op : Nat) => fed c i = true ∧ (c.d i).op = op ∧ (c.st i).phase = 0 ∧ c.cid = cid
    (at0 10) :=
  ⟨50, 0, chr (opB 10), withCh (chr (opB 10)) wch, by decide +kernel⟩

theorem wit_ChainsRunAndEnd_12 : ∃ (cid : Nat) (i : Nat) (c : Chain) (s : State),
    let s0 := writeMarks cid i s
    (s0.chain? cid = some c) ∧ (c.holds = true) ∧ (i < c.descs.length) ∧ ((c.st i).phase ≠ 5) ∧ (engFail s0 c = none) ∧ (ticketLost s0 c = false) ∧
    let s1 := modChain cid (Chain.take i) s0

    let go := fun (t : State) => exec (.memoryResponse cid i) s = .next (settle s (syncThreads cid t))

    let at0 := fun (op : Nat) => fed c i = true ∧ (c.d i).op = op ∧ (c.st i).phase = 0 ∧ c.cid = cid
    (at0 11) :=
  ⟨50, 0, chr (opB 11), withCh (chr (opB 11)) wch, by decide +kernel⟩

theorem wit_ChainsRunAndEnd_13 : ∃ (cid : Nat) (i : Nat) (c : Chain) (s : State),
    let s0 := writeMarks cid i s
    (s0.chain? cid = some c) ∧ (c.holds = true) ∧ (i < c.descs.length) ∧ ((c.st i).phase ≠ 5) ∧ (engFail s0 c = none) ∧ (ticketLost s0 c = false) ∧
    let s1 := modChain cid (Chain.take i) s0

    let go := fun (t : State) => exec (.memoryResponse cid i) s = .next (settle s (syncThreads cid t))

    let at0 := fun (op : Nat) => fed c i = true ∧ (c.d i).op = op ∧ (c.st i).phase = 0 ∧ c.cid = cid
    (fed c i = true) ∧ ((c.d i).op = 1) ∧ ((c.st i).phase ≠ 0) ∧ (c.cid = cid) :=
  ⟨50, 0, chg, withCh chg wch, by decide +kernel⟩

theorem wit_ChainsRunAndEnd_14 : ∃ (cid : Nat) (i : Nat) (c : Chain) (s : State),
    let s0 := writeMarks cid i s
    (s0.chain? cid = some c) ∧ (c.holds = true) ∧ (i < c.descs.length) ∧ ((c.st i).phase ≠ 5) ∧ (engFail s0 c = none) ∧ (ticketLost s0 c = false) ∧
    let s1 := modChain cid (Chain.take i) s0

    let go := fun (t : State) => exec (.memoryResponse cid i) s = .next (settle s (syncThreads cid t))

    let at0 := fun (op : Nat) => fed c i = true ∧ (c.d i).op = op ∧ (c.st i).phase = 0 ∧ c.cid = cid
    (fed c i = false) :=
  ⟨50, 1, chw, withCh chw wch, by decide +kernel⟩

theorem wit_ChainsRunAndEnd_15 : ∃ (cid : Nat) (i : Nat) (c : Chain) (x : Status × Nat) (s : State),
    let s0 := writeMarks cid i s
    (s0.chain? cid = some c) ∧ (c.holds = true) ∧ (i < c.descs.length) ∧ (engFail s0 c = some x) :=
  ⟨50, 0, chr copyB, (.damaged, 0), badAt (writeTok 50 0) (withCh (chr copyB) wch), by decide +kernel⟩

theorem wit_ChainsRunAndEnd_16 : ∃ (cid : Nat) (i : Nat) (c : Chain) (c1 : Chain) (s : State), (s.chain? cid = some c) ∧ (c.cid = cid) ∧ (c.holds = true) ∧ (i < c.descs.length) ∧ ((c.st i).phase = 0) ∧ (fed c i = true) ∧ (c.unmarked = []) ∧ (engFail s c = none) ∧ (ticketLost s c = false) ∧
    let s1 := modChain cid (Chain.take i) s

    let d := c.d i

    let s2 := readsDone (stageTok cid i) c.part [(d.src, d.count)] s1
    (d.op = 10) ∧ (d.srcA = none) ∧ (s1.chain? cid = some c1) ∧ (c1.cid = cid) ∧ (readsCome (stageTok cid i) c.part (c1.map s1) [(d.src, d.count)] s1) :=
  ⟨50, 0, chr copyB, cht (chr copyB), withCh (chr copyB) wch, by decide +kernel⟩

theorem wit_ChainsRunAndEnd_17 : ∃ (cid : Nat) (i : Nat) (r : Nat) (c : Chain) (x : RowRef) (t : Table) (tx : Table) (s : State) (s0 : State), (s.chain? cid = some c) ∧ ((c.st i).rows[r]? = some x) ∧ (s.table? c.part ((c.d i).f 16 2) = some t) ∧ (s.table? c.part x.table = some tx) ∧ (c.holds = true) ∧ ((c.st i).phase = 1) ∧ ((x.state = 0 ∨ x.state = 3)) ∧ (pourAccess s (c.map s) c.part false (tx.d.smap + x.shard) 1 = .ok) ∧
    let nook := shardNook s tx.d x.shard

    let st := c.st i

    let grp := indexGroup s c i r t x

    let fresh := grp.filter fun k => (st.rows.getD k {}).state == 0

    let m := readLines (linesOf (tx.d.smap + x.shard) 1) s
    (m.1 = true) ∧ (ladleUsed s nook + fresh.length ≤ 2048) ∧ ((moving s nook = true → startedOn st nook = true)) ∧ (takeSpread c i nook m.2 = some s0) ∧
    let asked := grp.foldl (fun s k => (entryRun s c i nook (st.rows.getD k {})).foldl (fun s e => engRead (rowTok cid i k) c.part e.1 e.2 s) s) s0
    ((grp.any fun k => engBusy asked (rowTok cid i k)) = true) :=
  ⟨50, 0, 0, chl {}, { table := 4 }, tbl, tbl, busyAt (base64 / 64 + 64) (wlk {} true), wls (busyAt (base64 / 64 + 64) (wlk {} true)), by decide +kernel⟩

theorem wit_ChainsRunAndEnd_18 : ∃ (cid : Nat) (i : Nat) (r : Nat) (c : Chain) (x : RowRef) (t : Table) (tx : Table) (s : State) (s0 : State), (s.chain? cid = some c) ∧ ((c.st i).rows[r]? = some x) ∧ (s.table? c.part ((c.d i).f 16 2) = some t) ∧ (s.table? c.part x.table = some tx) ∧ (c.holds = true) ∧ ((c.st i).phase = 1) ∧ ((x.state = 0 ∨ x.state = 3)) ∧ (pourAccess s (c.map s) c.part false (tx.d.smap + x.shard) 1 = .ok) ∧
    let nook := shardNook s tx.d x.shard

    let st := c.st i

    let grp := indexGroup s c i r t x

    let fresh := grp.filter fun k => (st.rows.getD k {}).state == 0

    let m := readLines (linesOf (tx.d.smap + x.shard) 1) s
    (m.1 = true) ∧ (ladleUsed s nook + fresh.length ≤ 2048) ∧ ((moving s nook = true → startedOn st nook = true)) ∧ (takeSpread c i nook m.2 = some s0) ∧
    let asked := grp.foldl (fun s k => (entryRun s c i nook (st.rows.getD k {})).foldl (fun s e => engRead (rowTok cid i k) c.part e.1 e.2 s) s) s0
    ∃ c1, ((grp.any fun k => engBusy asked (rowTok cid i k)) = false) ∧
    let s1 := grp.foldl (fun s k => sampleRow cid i k nook s) asked

    let rows := grp.map fun k => (k, (c1.st i).rows.getD k {})
    (s1.chain? cid = some c1) ∧ (c1.status = none) ∧ ((rows.any (·.2.tray) = true → trayUsed s1 c.part ≤ 682 * (s.nooksOf c.part).length)) := by
  refine ⟨50, 0, 0, chl {}, { table := 4 }, tbl, tbl, wlk {} true, wls (wlk {} true), ?_, ?_, ?_, ?_, ?_, ?_, ?_, ?_, ?_, ?_, ?_, ?_, ((sampleRow 50 0 0 1 (wls (wlk {} true))).chain? 50).getD {}, ?_⟩ <;> decide +kernel

theorem wit_ChainsRunAndEnd_19 : ∃ (cid : Nat) (i : Nat) (r : Nat) (c : Chain) (x : RowRef) (s : State), (s.chain? cid = some c) ∧ ((c.st i).rows[r]? = some x) ∧ (x.state = 1) ∧ (x.wait = 0) ∧ (c.status = none) ∧ (engBusy s (rowTok cid i r) = false) ∧ (((anyExtent s x.addr).elim false fun e => (s.ext e.base).waiting) = false) :=
  ⟨50, 0, 0, chl { state := 1, tray := true }, { table := 4, state := 1, tray := true }, wlk { state := 1, tray := true } true, by decide +kernel⟩

theorem wit_ChainsRunAndEnd_20 : ∃ (cid : Nat) (c : Chain) (s : State), (s.chain? cid = some c) ∧ (c.unmarked = []) ∧
    let lost := max (c.lostCount.getD 0) c.lost.length

    let go := fun (st : Status) (stage : Nat) =>
        let t := count (some c.part) (fun t => { t with chainsDone := t.chainsDone + 1, chainsNotOk := t.chainsNotOk + b2n (st != .ok) })
          (answerChain c st stage lost (instStop cid (leaveChans cid (leaveWaves cid s))))
        exec (.chainComplete cid) s = .next (settle s (fencesGo (quiesceCheck c.part (destroyCheck (dropChain cid
          (if c.mirrored then mirrorState c.part (.chainEnd cid) t else t))))))
    ∃ st stage, (c.status = some (st, stage)) :=
  ⟨50, chd, withCh chd wch, by decide +kernel, by decide +kernel, .timeout, 0, by decide +kernel⟩

theorem wit_ChainsRunAndEnd_21 : ∃ (cid : Nat) (c : Chain) (s : State), (s.chain? cid = some c) ∧ (c.unmarked = []) ∧
    let lost := max (c.lostCount.getD 0) c.lost.length

    let go := fun (st : Status) (stage : Nat) =>
        let t := count (some c.part) (fun t => { t with chainsDone := t.chainsDone + 1, chainsNotOk := t.chainsNotOk + b2n (st != .ok) })
          (answerChain c st stage lost (instStop cid (leaveChans cid (leaveWaves cid s))))
        exec (.chainComplete cid) s = .next (settle s (fencesGo (quiesceCheck c.part (destroyCheck (dropChain cid
          (if c.mirrored then mirrorState c.part (.chainEnd cid) t else t))))))
    (c.status = none) ∧ (c.admitted = true) ∧ (c.stages.all (·.phase == 5) = true) ∧ (engQuiet s c = true) ∧ (c.pushes = []) ∧ ∃ st stage, (engFail s c = some (st, stage)) ∧ (st ≠ .partialLost) := by
  refine ⟨50, chz, badAt (writeTok 50 0) (withCh chz wch), ?_, ?_, ?_, ?_, ?_, ?_, ?_, .damaged, 0, ?_⟩ <;> decide +kernel

theorem wit_ChainsRunAndEnd_22 : ∃ (cid : Nat) (c : Chain) (s : State), (s.chain? cid = some c) ∧ (c.unmarked = []) ∧
    let lost := max (c.lostCount.getD 0) c.lost.length

    let go := fun (st : Status) (stage : Nat) =>
        let t := count (some c.part) (fun t => { t with chainsDone := t.chainsDone + 1, chainsNotOk := t.chainsNotOk + b2n (st != .ok) })
          (answerChain c st stage lost (instStop cid (leaveChans cid (leaveWaves cid s))))
        exec (.chainComplete cid) s = .next (settle s (fencesGo (quiesceCheck c.part (destroyCheck (dropChain cid
          (if c.mirrored then mirrorState c.part (.chainEnd cid) t else t))))))
    (c.status = none) ∧ (c.admitted = true) ∧ (c.stages.all (·.phase == 5) = true) ∧ (engQuiet s c = true) ∧ (c.pushes = []) ∧ (engFail s c = none) ∧ (lost = 0) :=
  ⟨50, { chr copyB with stages := [{ phase := 5 }] }, withCh { chr copyB with stages := [{ phase := 5 }] } wch, by decide +kernel⟩

theorem wit_ChainsRunAndEnd_23 : ∃ (cid : Nat) (c : Chain) (s : State), (s.chain? cid = some c) ∧ (c.unmarked = []) ∧
    let lost := max (c.lostCount.getD 0) c.lost.length

    let go := fun (st : Status) (stage : Nat) =>
        let t := count (some c.part) (fun t => { t with chainsDone := t.chainsDone + 1, chainsNotOk := t.chainsNotOk + b2n (st != .ok) })
          (answerChain c st stage lost (instStop cid (leaveChans cid (leaveWaves cid s))))
        exec (.chainComplete cid) s = .next (settle s (fencesGo (quiesceCheck c.part (destroyCheck (dropChain cid
          (if c.mirrored then mirrorState c.part (.chainEnd cid) t else t))))))
    (c.status = none) ∧ (c.admitted = true) ∧ (c.stages.all (·.phase == 5) = true) ∧ (engQuiet s c = true) ∧ (c.pushes = []) ∧ (engFail s c = none) ∧ (lost ≠ 0) :=
  ⟨50, { chz with lost := [3] }, withCh { chz with lost := [3] } wch, by decide +kernel⟩

theorem wit_ChainsRunAndEnd_24 : ∃ (cid : Nat) (c : Chain) (s : State), (s.chain? cid = some c) ∧ (c.unmarked = []) ∧ ((c.status.isSome = true ∨ (c.admitted = true ∧ c.stages.all (·.phase == 5) = true ∧ engQuiet s c = true ∧ c.pushes = []))) :=
  ⟨50, { chr copyB with stages := [{ phase := 5 }] }, withCh { chr copyB with stages := [{ phase := 5 }] } wch, by decide +kernel⟩

theorem wit_ChainsRunAndEnd_25 : ∃ (cid : Nat) (c : Chain) (s : State), (s.chain? cid = some c) ∧ (c.h 319 288 ≠ 0) ∧ (c.acceptedAt + 1000 * c.h 319 288 ≤ s.t) :=
  ⟨50, { chr copyB with hdr := toLE 64 (2 ^ 288) }, { withCh { chr copyB with hdr := toLE 64 (2 ^ 288) } wch with t := 1000 }, by decide +kernel⟩

theorem wit_ChannelEventsAct_1 : ∃ (c : Nat) (x : Stroke) (rest : List Stroke) (s : State), ((s.chan c).strokes = x :: rest) ∧ (strokeFree s c = true) ∧ (chanHolds s c = []) ∧ ((queueHead s c = none ∨ 32 ≤ (s.chan c).served)) ∧ ∃ y ys, (x.kind = .forward) ∧ (shedRows x s = (x, s)) ∧ (x.cols ≠ 0) ∧ (recutRows s x = y :: ys) := by
  refine ⟨8, strk .forward, [], wst .forward [], ?_, ?_, ?_, ?_, strk .forward, [], ?_⟩ <;> decide +kernel

theorem wit_ChannelEventsAct_2 : ∃ (c : Nat) (x : Stroke) (rest : List Stroke) (s : State), ((s.chan c).strokes = x :: rest) ∧ (strokeFree s c = true) ∧ (chanHolds s c = []) ∧ ((queueHead s c = none ∨ 32 ≤ (s.chan c).served)) ∧ (x.kind = .forward) :=
  ⟨8, strk .forward, [], wst .forward [], by decide +kernel⟩

theorem wit_ChannelEventsAct_3 : ∃ (c : Nat) (x : Stroke) (rest : List Stroke) (s : State), ((s.chan c).strokes = x :: rest) ∧ (strokeFree s c = true) ∧ (chanHolds s c = []) ∧ ((queueHead s c = none ∨ 32 ≤ (s.chan c).served)) ∧ ∃ l, (x.kind = .leaf) ∧ ((s.chan c).leaves.find? x.isLeaf = some l) ∧ (l.taken = true) := by
  refine ⟨8, strk .leaf, [], wst .leaf [lft 16 false], ?_, ?_, ?_, ?_, lft 16 false, ?_⟩ <;> decide +kernel

theorem wit_ChannelEventsAct_4 : ∃ (c : Nat) (x : Stroke) (rest : List Stroke) (s : State), ((s.chan c).strokes = x :: rest) ∧ (strokeFree s c = true) ∧ (chanHolds s c = []) ∧ ((queueHead s c = none ∨ 32 ≤ (s.chan c).served)) ∧ ∃ l, (x.kind = .leaf) ∧ ((s.chan c).leaves.find? x.isLeaf = some l) ∧ (l.taken = false) ∧ ((s.chan c).leafUsed + l.accs ≤ 16384) := by
  refine ⟨8, strk .leaf, [], wst .leaf [{ cid := 50, accs := 16384 }], ?_, ?_, ?_, ?_, { cid := 50, accs := 16384 }, ?_⟩ <;> decide +kernel

theorem wit_ChannelEventsAct_5 : ∃ (c : Nat) (x : Stroke) (rest : List Stroke) (s : State), ((s.chan c).strokes = x :: rest) ∧ (strokeFree s c = true) ∧ (chanHolds s c = []) ∧ ((queueHead s c = none ∨ 32 ≤ (s.chan c).served)) ∧ ∃ l, (x.kind = .leaf) ∧ ((s.chan c).leaves.find? x.isLeaf = some l) ∧ (l.taken = false) ∧ (16384 < (s.chan c).leafUsed + l.accs) := by
  refine ⟨8, strk .leaf, [], wbig, ?_, ?_, ?_, ?_, big, ?_⟩ <;> decide +kernel

theorem wit_ChannelEventsAct_6 : ∃ (c : Nat) (x : Stroke) (rest : List Stroke) (s : State), ((s.chan c).strokes = x :: rest) ∧ (strokeFree s c = true) ∧ (chanHolds s c = []) ∧ ((queueHead s c = none ∨ 32 ≤ (s.chan c).served)) ∧ (x.kind = .zero) ∧ (nookBare s (chanNook c) = true) :=
  ⟨8, strk .zero, [], wbare (strk .zero), by decide +kernel⟩

theorem wit_ChannelEventsAct_7 : ∃ (c : Nat) (x : Stroke) (rest : List Stroke) (s : State), ((s.chan c).strokes = x :: rest) ∧ (strokeFree s c = true) ∧ (chanHolds s c = []) ∧ ((queueHead s c = none ∨ 32 ≤ (s.chan c).served)) ∧ (x.kind = .zero) ∧ (nookBare s (chanNook c) = false) :=
  ⟨8, strk .zero, [], wst .zero [], by decide +kernel⟩

theorem wit_ChannelEventsAct_8 : ∃ (c : Nat) (x : Stroke) (rest : List Stroke) (s : State), ((s.chan c).strokes = x :: rest) ∧ (strokeFree s c = true) ∧ (chanHolds s c = []) ∧ ((queueHead s c = none ∨ 32 ≤ (s.chan c).served)) ∧
    let s1 := feedChan c (modChan c (fun k => { k with strokes := rest }) s)

    let cut := recutAtomics s1 x.reqs

    let q := if cut.2.isEmpty then (s1.chan c).strokes else { x with reqs := cut.2 } :: (s1.chan c).strokes
    (x.kind = .atomic) ∧ (x.reqs ≠ []) ∧ (x.reqs.all (fun q => atomicStays s q && !atomicWaits s1 q) = true) :=
  ⟨8, { kind := .atomic, reqs := [atq] }, [], wat, by decide +kernel⟩

theorem wit_ChannelEventsAct_9 : ∃ (c : Nat) (x : Stroke) (rest : List Stroke) (s : State), ((s.chan c).strokes = x :: rest) ∧ (strokeFree s c = true) ∧ (chanHolds s c = []) ∧ ((queueHead s c = none ∨ 32 ≤ (s.chan c).served)) ∧ (x.kind = .atomic) ∧ (x.reqs.any (atomicStays s ·) = false) :=
  ⟨8, { kind := .atomic, reqs := [atq] }, [], wbare { kind := .atomic, reqs := [atq] }, by decide +kernel⟩

theorem wit_ChannelEventsAct_10 : ∃ (c : Nat) (x : Stroke) (s : State), ((s.chan c).running = some x) ∧
    let s1 := modChan c (fun k => { k with running := none, strokeAt := s.t, served := 0 }) s

    let go := fun (t : State) => let u := moreZero c (refill c (feedChan c (clearCheck t)))
        exec (.strokeEnd c) s = .next (settle s (if (u.chan c).refPend then startRefresh c u else u))
    (x.kind = .atomic) :=
  ⟨8, strk .atomic, wrn .atomic, by decide +kernel⟩

theorem wit_ChannelEventsAct_11 : ∃ (c : Nat) (x : Stroke) (s : State), ((s.chan c).running = some x) ∧
    let s1 := modChan c (fun k => { k with running := none, strokeAt := s.t, served := 0 }) s

    let go := fun (t : State) => let u := moreZero c (refill c (feedChan c (clearCheck t)))
        exec (.strokeEnd c) s = .next (settle s (if (u.chan c).refPend then startRefresh c u else u))
    (x.kind = .forward) :=
  ⟨8, strk .forward, wrn .forward, by decide +kernel⟩

theorem wit_ChannelEventsAct_12 : ∃ (c : Nat) (x : Stroke) (s : State), ((s.chan c).running = some x) ∧
    let s1 := modChan c (fun k => { k with running := none, strokeAt := s.t, served := 0 }) s

    let go := fun (t : State) => let u := moreZero c (refill c (feedChan c (clearCheck t)))
        exec (.strokeEnd c) s = .next (settle s (if (u.chan c).refPend then startRefresh c u else u))
    (x.kind = .leaf) :=
  ⟨8, strk .leaf, wrn .leaf, by decide +kernel⟩

theorem wit_ChannelEventsAct_13 : ∃ (c : Nat) (x : Stroke) (s : State), ((s.chan c).running = some x) ∧
    let s1 := modChan c (fun k => { k with running := none, strokeAt := s.t, served := 0 }) s

    let go := fun (t : State) => let u := moreZero c (refill c (feedChan c (clearCheck t)))
        exec (.strokeEnd c) s = .next (settle s (if (u.chan c).refPend then startRefresh c u else u))
    (x.kind = .zero) :=
  ⟨8, strk .zero, wrn .zero, by decide +kernel⟩

theorem wit_ChannelEventsAct_14 : ∃ (c : Nat) (x : Stroke) (q : LineReq) (e : Extent) (s : State), ((s.chan c).running = some x) ∧ (x.kind = .atomic) ∧ ((s.chan c).refPend = false) ∧ ((s.maps.ext.any fun x => x.clearJob.isSome) = false) ∧ ((s.chan c).segWait = []) ∧ (x.reqs = [q]) ∧ (anyExtent s (64 * q.line) = some e) ∧ (releasing s e = false) ∧
    let g := readLine q.line (modChan c (fun k => { k with running := none, strokeAt := s.t, served := 0 }) s)
    (g.1 = true) ∧ (lineDamaged g.2 e (64 * q.line) = false) :=
  ⟨8, { kind := .atomic, reqs := [atq] }, atq, exp_, wcn fun k => { k with running := some { kind := .atomic, reqs := [atq] } }, by decide +kernel⟩

theorem wit_ChannelEventsAct_15 : ∃ (c : Nat) (s : State), (c < 768) ∧ ((s.chan c).retired = false) ∧ (scheduled s c = false) ∧ ((s.chan c).refDue ≤ s.t) ∧ ((s.chan c).refPend = false) ∧ ((s.chan c).refBusy = false) ∧
    let s1 := modChan c (fun k => { k with refDue := k.refDue + tRefi k }) s
    ((s1.chan c).running = none) :=
  ⟨767, wch, by decide +kernel⟩

theorem wit_ChannelEventsAct_16 : ∃ (c : Nat) (s : State), (c < 768) ∧ ((s.chan c).retired = false) ∧ (scheduled s c = false) ∧ ((s.chan c).refDue ≤ s.t) ∧ ((s.chan c).refPend = false) ∧ ((s.chan c).refBusy = false) ∧
    let s1 := modChan c (fun k => { k with refDue := k.refDue + tRefi k }) s
    ((s1.chan c).running.isSome = true) :=
  ⟨8, wcn fun k => { k with running := some {} }, by decide +kernel⟩

theorem wit_ChannelEventsAct_17 : ∃ (c : Nat) (s : State), (c < 768) ∧ ((s.chan c).retired = false) ∧ (scheduled s c = true) ∧ ((s.chan c).refPend = false) ∧ ((s.chan c).refBusy = false) ∧
    let lim := (s.chan c).refLast + tRefi (s.chan c) + 600
    (lim ≤ s.t) :=
  ⟨8, schd 4500, by decide +kernel⟩

theorem wit_ChannelEventsAct_19 : ∃ (c : Nat) (s : State), (c < 768) ∧ ((s.chan c).retired = false) ∧ (scheduled s c = false) ∧ ((s.chan c).scrubDue ≤ s.t) ∧ ((s.chan c).scrubPend = false) :=
  ⟨767, wch, by decide +kernel⟩

theorem wit_ChannelEventsAct_20 : ∃ (c : Nat) (s : State), (c < 768) ∧ ((s.chan c).retired = false) ∧ (scheduled s c = true) ∧ ((s.chan c).scrubPend = false) ∧
    let lim := (s.chan c).scrubLast + 64000600
    (lim ≤ s.t) :=
  ⟨8, schd 64000600, by decide +kernel⟩

theorem wit_ChannelEventsAct_21 : ∃ (c : Nat) (s : State), ((s.chan c).scrubPend = true) ∧ ((s.chan c).running = none) ∧ ((s.chan c).refPend = false) ∧ ((s.chan c).refBusy = false) ∧ (windowOpen s c = false) ∧ (s.mem.weak = []) :=
  ⟨8, wcn fun k => { k with scrubPend := true, scrubNext := 2 ^ 25 - 32 }, by decide +kernel⟩

theorem wit_ChannelEventsAct_22 : ∃ (c : Nat) (s : State), ((s.chan c).scrubPend = true) ∧ ((s.chan c).running = none) ∧ ((s.chan c).refPend = false) ∧ ((s.chan c).refBusy = false) ∧ (windowOpen s c = false) ∧ (s.mem.weak = []) ∧
    let p := (s.chan c).scrubNext

    let s1 := modChan c (fun k => { k with scrubPend := false, scrubLast := s.t, scrubNext := (p + 32) % 2 ^ 25 }) s
    ∃ l j, (j < 32) ∧ (linesAt s1 c (p + j) = [l]) ∧ (inTable s1 c l = false) ∧ (l < 2 ^ 46) := by
  refine ⟨8, wcn fun k => { k with scrubPend := true }, ?_, ?_, ?_, ?_, ?_, ?_, base64 / 64 + 31, 31, ?_⟩ <;> decide +kernel

theorem wit_ChannelEventsAct_23 : ∃ (c : Nat) (s : State), ((s.chan c).scrubPend = true) ∧ ((s.chan c).running = none) ∧ ((s.chan c).refPend = false) ∧ ((s.chan c).refBusy = false) ∧ (windowOpen s c = false) ∧ (s.mem.weak = []) ∧
    let p := (s.chan c).scrubNext

    let s1 := modChan c (fun k => { k with scrubPend := false, scrubLast := s.t, scrubNext := (p + 32) % 2 ^ 25 }) s
    ∃ j, (j < 32) ∧ (linesAt s1 c (p + j) = []) ∧ ((s.chan c).damaged.contains (bareLine (p + j)) = false) := by
  refine ⟨8, { w with chans := w.chans.modify 8 fun k => { k with scrubPend := true } }, ?_, ?_, ?_, ?_, ?_, ?_, 31, ?_⟩ <;> decide +kernel

theorem wit_ChannelEventsAct_24 : ∃ (c : Nat) (n : Nat) (l : Leaf) (s : State), (benchSlot s c = some n) ∧ (benchNext s c = some l) ∧
    let s1 := modChan c (fun k => { k with slotUsed := some n }) s

    let upd := fun (f : Leaf → Leaf) => modChan c (fun k => { k with leaves := modWhere (· == l) f k.leaves }) s1
    (l.hops + 1 < (l.accs + 127) / 128) :=
  ⟨8, 9, lft 256 false, wlf (lft 256 false), by decide +kernel⟩

theorem wit_ChannelEventsAct_25 : ∃ (c : Nat) (n : Nat) (l : Leaf) (s : State), (benchSlot s c = some n) ∧ (benchNext s c = some l) ∧
    let s1 := modChan c (fun k => { k with slotUsed := some n }) s

    let upd := fun (f : Leaf → Leaf) => modChan c (fun k => { k with leaves := modWhere (· == l) f k.leaves }) s1
    ((l.accs + 127) / 128 ≤ l.hops + 1) ∧ (lowest s1 c l = true) :=
  ⟨8, 9, lft 16 false, wlf (lft 16 false), by decide +kernel⟩

theorem wit_ChannelEventsAct_26 : ∃ (c : Nat) (n : Nat) (l : Leaf) (s : State), (benchSlot s c = some n) ∧ (benchNext s c = some l) ∧
    let s1 := modChan c (fun k => { k with slotUsed := some n }) s

    let upd := fun (f : Leaf → Leaf) => modChan c (fun k => { k with leaves := modWhere (· == l) f k.leaves }) s1
    ((l.accs + 127) / 128 ≤ l.hops + 1) ∧ (lowest s1 c l = false) :=
  ⟨8, 9, lf3, wtwo, by decide +kernel⟩

theorem wit_ChannelEventsAct_27 : ∃ (c : Nat) (n : Nat) (l : Leaf) (s : State), (benchSlot s c = some n) ∧ (benchNext s c = some l) ∧
    let s1 := modChan c (fun k => { k with slotUsed := some n }) s

    let upd := fun (f : Leaf → Leaf) => modChan c (fun k => { k with leaves := modWhere (· == l) f k.leaves }) s1
    (l.resent = false) :=
  ⟨8, 9, lft 16 false, wlf (lft 16 false), by decide +kernel⟩

theorem wit_ChannelEventsAct_28 : ∃ (c : Nat) (n : Nat) (l : Leaf) (s : State), (benchSlot s c = some n) ∧ (benchNext s c = some l) ∧
    let s1 := modChan c (fun k => { k with slotUsed := some n }) s

    let upd := fun (f : Leaf → Leaf) => modChan c (fun k => { k with leaves := modWhere (· == l) f k.leaves }) s1
    (l.resent = true) :=
  ⟨8, 9, lft 16 true, wlf (lft 16 true), by decide +kernel⟩

theorem wit_TableCommandsComplete_1 : ∃ (m : MbxId) (j : Job) (s : State), (mayRun s m 0x0801 j) ∧
    let d := decTable (leNat j.payload)
    (tableBad (leNat j.payload) = false) ∧ ((s.part? d.part).isSome = true) ∧ ((j.manager = true ∨ d.part = j.part)) ∧ (s.nookOwner d.coord = .part d.part) ∧ (movingFor s d.part d.coord = false) ∧ (s.table? d.part d.id = none) ∧ ((s.tables.filter (·.d.part == d.part)).length < 4096) ∧
    let s1 := startJob j s

    let g := readsDone (jobTok j) d.part [(d.smap, d.shards)] s1

    let s2 := engForget (jobTok j) g.2
    (d.storage = 2) ∧ (composedBad s d = false) ∧ (composedGone s d = false) :=
  ⟨.a, jb 0x0801 (toLE 64 tblY), run (wtb [tblQ 2, tblQ 3]) (jb 0x0801 (toLE 64 tblY)), by decide +kernel⟩

theorem wit_TableCommandsComplete_2 : ∃ (m : MbxId) (j : Job) (s : State), (mayRun s m 0x0801 j) ∧
    let d := decTable (leNat j.payload)
    (tableBad (leNat j.payload) = false) ∧ ((s.part? d.part).isSome = true) ∧ ((j.manager = true ∨ d.part = j.part)) ∧ (s.nookOwner d.coord = .part d.part) ∧ (movingFor s d.part d.coord = false) ∧ (s.table? d.part d.id = none) ∧ ((s.tables.filter (·.d.part == d.part)).length < 4096) ∧
    let s1 := startJob j s

    let g := readsDone (jobTok j) d.part [(d.smap, d.shards)] s1

    let s2 := engForget (jobTok j) g.2
    (d.storage ≠ 2) ∧ (inExtents s d.part d.rit (16 * d.phys) = true) ∧ (inExtents s d.part d.smap d.shards = true) ∧ (readsCome (jobTok j) d.part s.maps.cur [(d.smap, d.shards)] s1) ∧ ((engBytes g.2 (jobTok j) d.smap d.shards).any (fun b => s.nookOwner b.toNat != .part d.part) = false) :=
  ⟨.a, jb 0x0801 (toLE 64 tblX), run (wtb []) (jb 0x0801 (toLE 64 tblX)), by decide +kernel⟩

theorem wit_TableCommandsComplete_3 : ∃ (m : MbxId) (j : Job) (t : Table) (s : State), (mayRun s m 0x0802 j) ∧
    let id := fldLE j.payload 0 2
    (s.table? j.part id = some t) ∧ (t.destroyJob = none) ∧ ((s.tables.any fun x => x.d.part == j.part && x.d.storage = 2 && (x.d.subQ == id || x.d.subR == id)) = false) :=
  ⟨.a, jb 0x0802 ([4, 0]), tbl, run (wtb [tbl]) (jb 0x0802 ([4, 0])), by decide +kernel⟩

theorem wit_TableCommandsComplete_4 : ∃ (m : MbxId) (j : Job) (t : Table) (s : State), (mayRun s m 0x0804 j) ∧
    let id := fldLE j.payload 0 2

    let n := fldLE j.payload 2 2

    let is := (List.range n).map fun k => fldLE j.payload (8 + 8 * k) 8
    (zeroAt j.payload 4 4 = true) ∧ (j.payload.length = 8 + 8 * n) ∧ (n ≤ 511) ∧ (useTable s j.part id = .ok t) ∧ (t.d.cache = 2) ∧ (t.d.storage ≠ 2) ∧ (is.all (idxValid t.d ·) = true) :=
  ⟨.a, jb 0x0804 ([4, 0, 1, 0, 0, 0, 0, 0] ++ toLE 8 255), { tblC with pinned := [255, 3] }, run (wtb [{ tblC with pinned := [255, 3] }]) (jb 0x0804 ([4, 0, 1, 0, 0, 0, 0, 0] ++ toLE 8 255)), by decide +kernel⟩

theorem wit_TableCommandsComplete_5 : ∃ (m : MbxId) (j : Job) (t : Table) (s : State), (mayRun s m 0x0803 j) ∧
    let id := fldLE j.payload 0 2

    let n := fldLE j.payload 2 2

    let is := (List.range n).map fun k => fldLE j.payload (8 + 8 * k) 8

    let fresh := ((is.map (physRow t.d)).eraseDups).filter (! t.pinned.contains ·)

    let nookOf := fun (r : Nat) => shardNook s t.d (t.d.shardOf r)

    let need := fun (k : Nat) => rowLines t.d * (fresh.filter (nookOf · == k)).length

    let ns := (fresh.map nookOf).eraseDups
    (zeroAt j.payload 4 4 = true) ∧ (j.payload.length = 8 + 8 * n) ∧ (n ≤ 511) ∧ (useTable s j.part id = .ok t) ∧ (t.d.cache = 2) ∧ (t.d.storage ≠ 2) ∧ (is.all (idxValid t.d ·) = true) ∧ ((∀ k ∈ ns, cacheLines s j.part k false + need k ≤ cacheCap s j.part)) :=
  ⟨.a, jb 0x0803 ([4, 0, 1, 0, 0, 0, 0, 0] ++ toLE 8 255), { tblC with pinned := [3] }, run (wtb [{ tblC with pinned := [3] }]) (jb 0x0803 ([4, 0, 1, 0, 0, 0, 0, 0] ++ toLE 8 255)), by decide +kernel⟩

theorem wit_TableCommandsComplete_6 : ∃ (m : MbxId) (j : Job) (t : Table) (s : State), (mayRun s m 0x0803 j) ∧
    let id := fldLE j.payload 0 2

    let n := fldLE j.payload 2 2

    let is := (List.range n).map fun k => fldLE j.payload (8 + 8 * k) 8

    let fresh := ((is.map (physRow t.d)).eraseDups).filter (! t.pinned.contains ·)

    let nookOf := fun (r : Nat) => shardNook s t.d (t.d.shardOf r)

    let need := fun (k : Nat) => rowLines t.d * (fresh.filter (nookOf · == k)).length

    let ns := (fresh.map nookOf).eraseDups
    (zeroAt j.payload 4 4 = true) ∧ (j.payload.length = 8 + 8 * n) ∧ (n ≤ 511) ∧ (useTable s j.part id = .ok t) ∧ (t.d.cache = 2) ∧ (t.d.storage ≠ 2) ∧ (is.all (idxValid t.d ·) = true) ∧ ((∃ k ∈ ns, cacheCap s j.part < cacheLines s j.part k false + need k)) :=
  ⟨.a, jb 0x0803 ([4, 0, 1, 0, 0, 0, 0, 0] ++ toLE 8 255), { tblC with pinned := [3] }, run ({ wtb [{ tblC with pinned := [3] }] with ten := { w.ten with parts := [{ part1 with cacheKib := 0 }] } }) (jb 0x0803 ([4, 0, 1, 0, 0, 0, 0, 0] ++ toLE 8 255)), by decide +kernel⟩

theorem wit_TableCommandsComplete_7 : ∃ (m : MbxId) (j : Job) (t : Table) (s : State), (mayRun s m 0x0806 j) ∧
    let id := fldLE j.payload 0 2

    let n := fldLE j.payload 4 4

    let a := fldLE j.payload 8 8
    (useTable s j.part id = .ok t) ∧ (zeroAt j.payload 2 2 = true) ∧ (n ≠ 0) ∧ (a % 64 = 0) ∧ (addrBad a = false) ∧ (t.d.storage ≠ 2) ∧ (inOneExtent s j.part a (n * (64 * rowLines t.d)) (fun e => !e.coh && e.devown) = true) :=
  ⟨.a, jb 0x0806 ([4, 0, 0, 0, 3, 0, 0, 0] ++ toLE 8 (base64 + 2 ^ 21)), tblU, run (wtb [tblU]) (jb 0x0806 ([4, 0, 0, 0, 3, 0, 0, 0] ++ toLE 8 (base64 + 2 ^ 21))), by decide +kernel⟩

theorem wit_TableCommandsComplete_8 : ∃ (m : MbxId) (j : Job) (t : Table) (s : State), (mayRun s m 0x0807 j) ∧
    let id := fldLE j.payload 0 2

    let step := fldLE j.payload 4 4
    (zeroAt j.payload 2 2 = true) ∧ (useTable s j.part id = .ok t) ∧ (t.u.isSome = true) ∧ (stepClosed t.closed step = true) ∧ (((t.due step).isEmpty = true ∨ t.close.isSome = true)) :=
  ⟨.a, jb 0x0807 ([4, 0, 0, 0, 0, 0, 0, 0]), tblU, run (wtb [tblU]) (jb 0x0807 ([4, 0, 0, 0, 0, 0, 0, 0])), by decide +kernel⟩

theorem wit_TableCommandsComplete_9 : ∃ (m : MbxId) (j : Job) (t : Table) (s : State), (mayRun s m 0x0807 j) ∧
    let id := fldLE j.payload 0 2

    let step := fldLE j.payload 4 4
    (zeroAt j.payload 2 2 = true) ∧ (useTable s j.part id = .ok t) ∧ (t.u.isSome = true) ∧ (stepClosed t.closed step = false) :=
  ⟨.a, jb 0x0807 ([4, 0, 0, 0, 1, 0, 0, 0]), tblU, run (wtb [tblU]) (jb 0x0807 ([4, 0, 0, 0, 1, 0, 0, 0])), by decide +kernel⟩

theorem wit_TableCommandsComplete_10 : ∃ (m : MbxId) (j : Job) (t : Table) (t' : Table) (a : Nat) (s : State), (mayRun s m 0x0808 j) ∧
    let id := fldLE j.payload 0 2

    let r := fldLE j.payload 8 8

    let src := fldLE j.payload 16 8

    let size := rowBytes t.d.fmt t.d.elems

    let s1 := startJob j s

    let g := readsDone (jobTok j) j.part [(src, size)] s1

    let s2 := engForget (jobTok j) g.2

    let new := engBytes g.2 (jobTok j) src size
    (useTable s j.part id = .ok t) ∧ (zeroAt j.payload 3 5 = true) ∧ (t.d.storage ≠ 2) ∧ (r < t.d.phys) ∧ (migrated t r = false) ∧ (readsCome (jobTok j) j.part s1.maps.cur [(src, size)] s1) ∧
    let e := entryOf s2 t t.d.gen r
    (fldLE j.payload 2 1 = 0) ∧ (takeSlot t (entValid e && (slotNook s2 (entAddr e)).isNone) (shardNook s2 t.d (t.d.shardOf r)) = some (a, t')) :=
  ⟨.a, rowJ 0, tblF, tblU, base64 + 2 ^ 20, run (wtb [tblF]) (rowJ 0), by decide +kernel⟩

theorem wit_TableCommandsComplete_11 : ∃ (m : MbxId) (j : Job) (t : Table) (t' : Table) (a : Nat) (s : State), (mayRun s m 0x0808 j) ∧
    let id := fldLE j.payload 0 2

    let r := fldLE j.payload 8 8

    let src := fldLE j.payload 16 8

    let size := rowBytes t.d.fmt t.d.elems

    let s1 := startJob j s

    let g := readsDone (jobTok j) j.part [(src, size)] s1

    let s2 := engForget (jobTok j) g.2

    let new := engBytes g.2 (jobTok j) src size
    (useTable s j.part id = .ok t) ∧ (zeroAt j.payload 3 5 = true) ∧ (t.d.storage ≠ 2) ∧ (r < t.d.phys) ∧ (migrated t r = false) ∧ (readsCome (jobTok j) j.part s1.maps.cur [(src, size)] s1) ∧
    let e := entryOf s2 t (t.d.gen + 1) r
    (fldLE j.payload 2 1 = 1) ∧ (t.genState = 2) ∧ (takeSlot t (entValid e && (slotNook s2 (entAddr e)).isNone) (shardNook s2 t.d (t.d.shardOf r)) = some (a, t')) :=
  ⟨.a, rowJ 1, { tblF with genState := 2 }, { tblU with genState := 2 }, base64 + 2 ^ 20, run (wtb [{ tblF with genState := 2 }]) (rowJ 1), by decide +kernel⟩

theorem wit_TableCommandsComplete_12 : ∃ (m : MbxId) (j : Job) (t : Table) (s : State),
    let id := fldLE j.payload 0 2
    (useTable s j.part id = .ok t) ∧ (t.d.storage ≠ 2) ∧
    let s1 := mirrorTable j j.part id (startJob j s)
    (mayRun s m 0x0809 j) ∧ (t.genState = 0) :=
  ⟨.a, jb 0x0809 ([4, 0]), tblU, run (wtb [tblU]) (jb 0x0809 ([4, 0])), by decide +kernel⟩

theorem wit_TableCommandsComplete_13 : ∃ (m : MbxId) (j : Job) (t : Table) (s : State),
    let id := fldLE j.payload 0 2
    (useTable s j.part id = .ok t) ∧ (t.d.storage ≠ 2) ∧
    let s1 := mirrorTable j j.part id (startJob j s)
    (mayRun s m 0x080A j) ∧ (t.genState = 2) :=
  ⟨.a, jb 0x080A ([4, 0]), { tblU with genState := 2 }, run (wtb [{ tblU with genState := 2 }]) (jb 0x080A ([4, 0])), by decide +kernel⟩

theorem wit_TableCommandsComplete_14 : ∃ (m : MbxId) (j : Job) (t : Table) (s : State),
    let id := fldLE j.payload 0 2
    (useTable s j.part id = .ok t) ∧ (t.d.storage ≠ 2) ∧
    let s1 := mirrorTable j j.part id (startJob j s)
    (mayRun s m 0x080B j) ∧ (t.genState = 3) :=
  ⟨.a, jb 0x080B ([4, 0]), { tblU with genState := 3 }, run (wtb [{ tblU with genState := 3 }]) (jb 0x080B ([4, 0])), by decide +kernel⟩

theorem wit_TableCommandsComplete_15 : ∃ (m : MbxId) (j : Job) (t : Table) (s : State),
    let id := fldLE j.payload 0 2
    (useTable s j.part id = .ok t) ∧ (t.d.storage ≠ 2) ∧
    let s1 := mirrorTable j j.part id (startJob j s)
    (mayRun s m 0x080C j) ∧ (t.genState = 2 ∨ t.genState = 3) :=
  ⟨.a, jb 0x080C ([4, 0]), { tblU with genState := 3 }, run (wtb [{ tblU with genState := 3 }]) (jb 0x080C ([4, 0])), by decide +kernel⟩

theorem wit_TableCommandsComplete_16 : ∃ (m : MbxId) (j : Job) (t : Table) (l : List Nat) (s : State) (s2 : State), (mayRun s m 0x080D j) ∧
    let b := j.payload

    let p := fldLE b 0 1

    let id := fldLE b 2 2
    (zeroAt b 1 1 = true) ∧ (zeroAt b 10 2 = true) ∧ (p ≤ 15) ∧ (fldLE b 12 4 < 2 ^ 22) ∧ (useTable s p id = .ok t) ∧ (t.d.storage ≠ 2) ∧ (fldLE b 8 2 ≠ 0) ∧ (fldLE b 6 2 + fldLE b 8 2 ≤ t.d.shards) ∧ (t.migr = []) ∧
    let sh := migShape t.d
    (migSend p (fldLE b 12 4) (migHdr (fldLE b 4 2) 0 t.d.fmt 0 (fldLE b 6 2) 0 (ownId s) sh.length) sh (startJob j s) = (.ok l, s2)) :=
  ⟨.a, jb 0x080D outP, tbl, outL, run (wtb [tbl]) (jb 0x080D outP), outS.2, by decide +kernel⟩

theorem wit_TableCommandsComplete_17 : ∃ (m : MbxId) (j : Job) (t : Table) (r : Nat) (hops : Nat) (s : State), (mayRun s m 0x080D j) ∧
    let b := j.payload

    let p := fldLE b 0 1

    let id := fldLE b 2 2
    (zeroAt b 1 1 = true) ∧ (zeroAt b 10 2 = true) ∧ (p ≤ 15) ∧ (fldLE b 12 4 < 2 ^ 22) ∧ (useTable s p id = .ok t) ∧ (t.d.storage ≠ 2) ∧ (fldLE b 8 2 ≠ 0) ∧ (fldLE b 6 2 + fldLE b 8 2 ≤ t.d.shards) ∧ (t.migr = []) ∧ ((migShape t.d).length ≤ migData) ∧
    let s1 := startJob j s

    let body := migHdr (fldLE b 4 2) 0 t.d.fmt 0 (fldLE b 6 2) 0 (ownId s) (migShape t.d).length ++ migShape t.d

    let msg : PktMsg := { dst := fldLE b 12 4, src := ownId s, opc := 1, epoch := s.maps.cur.epoch, tenant := tagOf s (some p), tag := migTag, bytes := body.length, body := body }
    (wayOut s1 msg = .ok (r, hops)) ∧ (isAccel s1 r = false) ∧ ((s.dsax[r]?).isSome = true) ∧ (trkFree s1 (some p) = true) :=
  ⟨.a, jb 0x080D (outP), tbl, 4, outHops, run (wtb [tbl]) (jb 0x080D (outP)), by decide +kernel⟩

theorem wit_TableCommandsComplete_18 : ∃ (m : MbxId) (j : Job) (t : Table) (g : Migr) (s : State),
    let b := j.payload
    (zeroAt b 1 1 = true) ∧ (fldLE b 0 1 ≤ 15) ∧ (useTable s (fldLE b 0 1) (fldLE b 2 2) = .ok t) ∧ (t.migr.find? (fun m => m.first == fldLE b 4 2 && m.count == fldLE b 6 2 && !m.released) = some g) ∧ (mayRun s m 0x080E j) ∧ (g.committed = false) ∧ (g.job = none) ∧
    let sent := (t.accs.filter fun a => g.has (t.d.shardOf a.row)).foldl (fun (x : Status × State) a => if x.1 ≠ .ok then x else migAcc t g a x.2)
          (migRows t g g.again (startJob j s))
    (sent.1 = .ok) :=
  ⟨.a, jb 0x080E ([1, 0, 4, 0, 0, 0, 1, 0]), tblM false, mgr false, run (wtb [tblM false]) (jb 0x080E ([1, 0, 4, 0, 0, 0, 1, 0])), by decide +kernel⟩

theorem wit_TableCommandsComplete_19 : ∃ (m : MbxId) (j : Job) (t : Table) (g : Migr) (s : State),
    let b := j.payload
    (zeroAt b 1 1 = true) ∧ (fldLE b 0 1 ≤ 15) ∧ (useTable s (fldLE b 0 1) (fldLE b 2 2) = .ok t) ∧ (t.migr.find? (fun m => m.first == fldLE b 4 2 && m.count == fldLE b 6 2 && !m.released) = some g) ∧ (mayRun s m 0x080E j) ∧ (g.committed = false) ∧ (g.job = none) ∧
    let sent := (t.accs.filter fun a => g.has (t.d.shardOf a.row)).foldl (fun (x : Status × State) a => if x.1 ≠ .ok then x else migAcc t g a x.2)
          (migRows t g g.again (startJob j s))
    (sent.1 ≠ .ok) :=
  ⟨.a, jb 0x080E ([1, 0, 4, 0, 0, 0, 1, 0]), tbl9, mgr9, run (wtb [tbl9]) (jb 0x080E ([1, 0, 4, 0, 0, 0, 1, 0])), by decide +kernel⟩

theorem wit_TableCommandsComplete_20 : ∃ (m : MbxId) (j : Job) (t : Table) (g : Migr) (s : State),
    let b := j.payload
    (zeroAt b 1 1 = true) ∧ (fldLE b 0 1 ≤ 15) ∧ (useTable s (fldLE b 0 1) (fldLE b 2 2) = .ok t) ∧ (t.migr.find? (fun m => m.first == fldLE b 4 2 && m.count == fldLE b 6 2 && !m.released) = some g) ∧ (mayRun s m 0x080F j) ∧ (g.committed = true) ∧ (g.job = none) :=
  ⟨.a, jb 0x080F ([1, 0, 4, 0, 0, 0, 1, 0]), tblM true, mgr true, run (wtb [tblM true]) (jb 0x080F ([1, 0, 4, 0, 0, 0, 1, 0])), by decide +kernel⟩

theorem wit_TableCommandsComplete_21 : ∃ (m : MbxId) (j : Job) (t : Table) (s : State), (mayRun s m 0x0810 j) ∧
    let first := fldLE j.payload 2 2

    let n := fldLE j.payload 4 2
    (useTable s j.part (fldLE j.payload 0 2) = .ok t) ∧ (n ≤ 1023) ∧ (first + n ≤ t.d.shards) :=
  ⟨.a, jb 0x0810 ([4, 0, 254, 0, 2, 0]), tbl, run (wtb [tbl]) (jb 0x0810 ([4, 0, 254, 0, 2, 0])), by decide +kernel⟩

theorem wit_TableCommandsComplete_22 : ∃ (m : MbxId) (j : Job) (t : Table) (s : State), (mayRun s m 0x0805 j) ∧
    let x := leNat j.payload

    let id := bits x 15 0

    let list := bits x 447 384

    let runs := [(list, 768), (t.d.smap, t.d.shards)]

    let g := readsDone (jobTok j) j.part runs (startJob j s)

    let s2 := engForget (jobTok j) g.2

    let raw := engBytes g.2 (jobTok j) list 768

    let u : UDesc := { decUpdate x with uareas := (List.range 96).map fun n => fldLE raw (8 * n) 8 }
    (bits x 199 48 = 0) ∧ (bits x 43 42 = 0) ∧ (bits x 39 16 = 0) ∧ (u.rule ≠ 3) ∧ (addrBad u.stateAddr = false) ∧ ((u.rule = 2 ↔ u.stateAddr ≠ 0)) ∧ (addrBad list = false) ∧ ((fp32.dec u.lo).isNan = false) ∧ ((fp32.dec u.hi).isNan = false) ∧ (Num.lt (fp32.dec u.hi) (fp32.dec u.lo) = false) ∧ (useTable s j.part id = .ok t) ∧ (t.d.storage ≠ 2) ∧ (inExtents s j.part list 768 = true) ∧ ((u.rule = 2 → inExtents s j.part u.stateAddr (4 * t.d.phys) = true)) ∧ (readsCome (jobTok j) j.part s.maps.cur runs (startJob j s)) ∧ ((u.uareas.zipIdx.any fun a => a.1 != 0 && (addrBad a.1 || !inOneExtent s2 j.part a.1 (areaBytes t.d u) fun e => !e.tray && !e.coh && e.devown && e.nook == a.2)) = false) ∧ (((engBytes g.2 (jobTok j) t.d.smap t.d.shards).any fun b => u.uareas.getD b.toNat 0 == 0) = false) ∧ (stepOpen t = false) :=
  ⟨.a, jb 0x0805 (toLE 64 (4 + 2 ^ 200 * 7 + 2 ^ 232 + 2 ^ 384 * (base64 + 131072))), tbl, run (wua) (jb 0x0805 (toLE 64 (4 + 2 ^ 200 * 7 + 2 ^ 232 + 2 ^ 384 * (base64 + 131072)))), by decide +kernel⟩

theorem wit_UpdateEventsAct_1 : ∃ (cid : Nat) (i : Nat) (home : Nat) (c : Chain) (t : Table) (t' : Table) (s : State), (s.chain? cid = some c) ∧ (c.holds = true) ∧ ((c.d i).op = 2) ∧ ((c.st i).phase = 2) ∧ ((c.st i).homes = [home]) ∧ ((c.st i).late = false) ∧ (s.table? c.part ((c.d i).f 16 2) = some t) ∧
    let rows := ((c.st i).rows.zipIdx.filter fun r => r.1.nook == home && !r.1.lost && r.1.state == 1).map fun r => (r.1.row, ((c.st i).ups.getD r.2 {}).data)

    let gone := t.migr.filter (·.committed)

    let rest := rows.filter fun x => !gone.any (·.has (t.d.shardOf x.1))

    let away := fun (s : State) => gone.foldl (fun s m =>
        let mine := rows.filter fun x => m.has (t.d.shardOf x.1)
        if mine.isEmpty then s else forwardBatch cid i t m mine s) s

    let b := takeBatch s t home ((c.d i).f 20 4) (c.requester s) c.reqId (c.d i).inF rest

    let left := fun (late : Bool) (s : State) => modStage cid i (fun x => { x with homes := x.homes.filter (· != home), late := x.late || late }) s
    (rest = []) ∧ (rows ≠ []) :=
  ⟨50, 0, 1, chS 1, tblMU, tblMU, wsc tblMU 1, by decide +kernel⟩

theorem wit_UpdateEventsAct_2 : ∃ (cid : Nat) (i : Nat) (home : Nat) (c : Chain) (t : Table) (t' : Table) (s : State), (s.chain? cid = some c) ∧ (c.holds = true) ∧ ((c.d i).op = 2) ∧ ((c.st i).phase = 2) ∧ ((c.st i).homes = [home]) ∧ ((c.st i).late = false) ∧ (s.table? c.part ((c.d i).f 16 2) = some t) ∧
    let rows := ((c.st i).rows.zipIdx.filter fun r => r.1.nook == home && !r.1.lost && r.1.state == 1).map fun r => (r.1.row, ((c.st i).ups.getD r.2 {}).data)

    let gone := t.migr.filter (·.committed)

    let rest := rows.filter fun x => !gone.any (·.has (t.d.shardOf x.1))

    let away := fun (s : State) => gone.foldl (fun s m =>
        let mine := rows.filter fun x => m.has (t.d.shardOf x.1)
        if mine.isEmpty then s else forwardBatch cid i t m mine s) s

    let b := takeBatch s t home ((c.d i).f 20 4) (c.requester s) c.reqId (c.d i).inF rest

    let left := fun (late : Bool) (s : State) => modStage cid i (fun x => { x with homes := x.homes.filter (· != home), late := x.late || late }) s
    ((rest ≠ [] ∨ rows = [])) ∧ ∃ t1, (stepClosed t.closed ((c.d i).f 20 4) = false) ∧ ((t.receipts.any fun r => r.src == c.requester s && r.reqId == c.reqId && r.step == (c.d i).f 20 4 && r.nook == home) = false) ∧ (slotsUsed t home + (((rest.map (·.1)).eraseDups).filter fun r => !t.accs.any fun a => a.row == r && a.step == (c.d i).f 20 4 && a.nook == home).length ≤ t.u.elim 0 (·.slots)) ∧ (((s.tables.map fun x => (x.receipts.filter (·.nook == home)).length)).sum < 65536) ∧ (rest.foldlM (fun t x => addRowTo t home ((c.d i).f 20 4) x.1 (c.d i).inF x.2) t = some t1) := by
  refine ⟨50, 0, 1, chS 1, tblU, tblU, wsc tblU 1, ?_, ?_, ?_, ?_, ?_, ?_, ?_, ?_, t1S, ?_⟩ <;> decide +kernel

theorem wit_UpdateEventsAct_3 : ∃ (cid : Nat) (i : Nat) (home : Nat) (c : Chain) (t : Table) (t' : Table) (s : State), (s.chain? cid = some c) ∧ (c.holds = true) ∧ ((c.d i).op = 2) ∧ ((c.st i).phase = 2) ∧ ((c.st i).homes = [home]) ∧ ((c.st i).late = false) ∧ (s.table? c.part ((c.d i).f 16 2) = some t) ∧
    let rows := ((c.st i).rows.zipIdx.filter fun r => r.1.nook == home && !r.1.lost && r.1.state == 1).map fun r => (r.1.row, ((c.st i).ups.getD r.2 {}).data)

    let gone := t.migr.filter (·.committed)

    let rest := rows.filter fun x => !gone.any (·.has (t.d.shardOf x.1))

    let away := fun (s : State) => gone.foldl (fun s m =>
        let mine := rows.filter fun x => m.has (t.d.shardOf x.1)
        if mine.isEmpty then s else forwardBatch cid i t m mine s) s

    let b := takeBatch s t home ((c.d i).f 20 4) (c.requester s) c.reqId (c.d i).inF rest

    let left := fun (late : Bool) (s : State) => modStage cid i (fun x => { x with homes := x.homes.filter (· != home), late := x.late || late }) s
    ((rest ≠ [] ∨ rows = [])) ∧ (b = .taken t') :=
  ⟨50, 0, 1, chS 1, tblU, tblTaken, wsc tblU 1, by decide +kernel⟩

theorem wit_UpdateEventsAct_4 : ∃ (cid : Nat) (i : Nat) (home : Nat) (c : Chain) (t : Table) (t' : Table) (s : State), (s.chain? cid = some c) ∧ (c.holds = true) ∧ ((c.d i).op = 2) ∧ ((c.st i).phase = 2) ∧ ((c.st i).homes = [home]) ∧ ((c.st i).late = false) ∧ (s.table? c.part ((c.d i).f 16 2) = some t) ∧
    let rows := ((c.st i).rows.zipIdx.filter fun r => r.1.nook == home && !r.1.lost && r.1.state == 1).map fun r => (r.1.row, ((c.st i).ups.getD r.2 {}).data)

    let gone := t.migr.filter (·.committed)

    let rest := rows.filter fun x => !gone.any (·.has (t.d.shardOf x.1))

    let away := fun (s : State) => gone.foldl (fun s m =>
        let mine := rows.filter fun x => m.has (t.d.shardOf x.1)
        if mine.isEmpty then s else forwardBatch cid i t m mine s) s

    let b := takeBatch s t home ((c.d i).f 20 4) (c.requester s) c.reqId (c.d i).inF rest

    let left := fun (late : Bool) (s : State) => modStage cid i (fun x => { x with homes := x.homes.filter (· != home), late := x.late || late }) s
    ((rest ≠ [] ∨ rows = [])) ∧ (b = .again) :=
  ⟨50, 0, 1, chS 1, tblR, tblR, wsc tblR 1, by decide +kernel⟩

theorem wit_UpdateEventsAct_5 : ∃ (cid : Nat) (i : Nat) (home : Nat) (c : Chain) (t : Table) (t' : Table) (s : State), (s.chain? cid = some c) ∧ (c.holds = true) ∧ ((c.d i).op = 2) ∧ ((c.st i).phase = 2) ∧ ((c.st i).homes = [home]) ∧ ((c.st i).late = false) ∧ (s.table? c.part ((c.d i).f 16 2) = some t) ∧
    let rows := ((c.st i).rows.zipIdx.filter fun r => r.1.nook == home && !r.1.lost && r.1.state == 1).map fun r => (r.1.row, ((c.st i).ups.getD r.2 {}).data)

    let gone := t.migr.filter (·.committed)

    let rest := rows.filter fun x => !gone.any (·.has (t.d.shardOf x.1))

    let away := fun (s : State) => gone.foldl (fun s m =>
        let mine := rows.filter fun x => m.has (t.d.shardOf x.1)
        if mine.isEmpty then s else forwardBatch cid i t m mine s) s

    let b := takeBatch s t home ((c.d i).f 20 4) (c.requester s) c.reqId (c.d i).inF rest

    let left := fun (late : Bool) (s : State) => modStage cid i (fun x => { x with homes := x.homes.filter (· != home), late := x.late || late }) s
    ((rest ≠ [] ∨ rows = [])) ∧ (b = .late) :=
  ⟨50, 0, 1, chS 0, tblU, tblU, wsc tblU 0, by decide +kernel⟩

theorem wit_UpdateEventsAct_6 : ∃ (cid : Nat) (i : Nat) (home : Nat) (c : Chain) (t : Table) (t' : Table) (s : State), (s.chain? cid = some c) ∧ (c.holds = true) ∧ ((c.d i).op = 2) ∧ ((c.st i).phase = 2) ∧ ((c.st i).homes = [home]) ∧ ((c.st i).late = false) ∧ (s.table? c.part ((c.d i).f 16 2) = some t) ∧
    let rows := ((c.st i).rows.zipIdx.filter fun r => r.1.nook == home && !r.1.lost && r.1.state == 1).map fun r => (r.1.row, ((c.st i).ups.getD r.2 {}).data)

    let gone := t.migr.filter (·.committed)

    let rest := rows.filter fun x => !gone.any (·.has (t.d.shardOf x.1))

    let away := fun (s : State) => gone.foldl (fun s m =>
        let mine := rows.filter fun x => m.has (t.d.shardOf x.1)
        if mine.isEmpty then s else forwardBatch cid i t m mine s) s

    let b := takeBatch s t home ((c.d i).f 20 4) (c.requester s) c.reqId (c.d i).inF rest

    let left := fun (late : Bool) (s : State) => modStage cid i (fun x => { x with homes := x.homes.filter (· != home), late := x.late || late }) s
    ((rest ≠ [] ∨ rows = [])) ∧ (b = .bad) :=
  ⟨50, 0, 1, chS 1, tblN, tblN, wsc tblN 1, by decide +kernel⟩

theorem wit_UpdateEventsAct_7 : ∃ (cid : Nat) (i : Nat) (home : Nat) (c : Chain) (t : Table) (t' : Table) (s : State), (s.chain? cid = some c) ∧ (c.holds = true) ∧ ((c.d i).op = 2) ∧ ((c.st i).phase = 2) ∧ ((c.st i).homes = [home]) ∧ ((c.st i).late = false) ∧ (s.table? c.part ((c.d i).f 16 2) = some t) ∧
    let rows := ((c.st i).rows.zipIdx.filter fun r => r.1.nook == home && !r.1.lost && r.1.state == 1).map fun r => (r.1.row, ((c.st i).ups.getD r.2 {}).data)

    let gone := t.migr.filter (·.committed)

    let rest := rows.filter fun x => !gone.any (·.has (t.d.shardOf x.1))

    let away := fun (s : State) => gone.foldl (fun s m =>
        let mine := rows.filter fun x => m.has (t.d.shardOf x.1)
        if mine.isEmpty then s else forwardBatch cid i t m mine s) s

    let b := takeBatch s t home ((c.d i).f 20 4) (c.requester s) c.reqId (c.d i).inF rest

    let left := fun (late : Bool) (s : State) => modStage cid i (fun x => { x with homes := x.homes.filter (· != home), late := x.late || late }) s
    ((rest ≠ [] ∨ rows = [])) ∧ (b = .held) :=
  ⟨50, 0, 1, chS 1, tblH, tblH, wsc tblH 1, by decide +kernel⟩

theorem wit_UpdateEventsAct_8 : ∃ (p : Nat) (tid : Nat) (r : Nat) (step : Nat) (t : Table) (c : Close) (u : UDesc) (s : State), (s.table? p tid = some t) ∧ (t.close = some c) ∧ (t.u = some u) ∧ (applyStep t ((t.due c.step).filter (·.row == r)) = some step) ∧
    let now := ((t.due c.step).filter (·.row == r)).filter (·.step == step)

    let drop := modTable p tid (fun t => { t with accs := t.accs.filter fun x => !(x.row == r && x.step == step) })

    let e := entryOf s t t.d.gen r

    let size := rowBytes t.d.fmt t.d.elems

    let tok := applyTok p tid r

    let runs := (if entValid e then [(entAddr e, size)] else []) ++ (if u.rule = 2 then [(u.stateAddr + 4 * r, 4)] else [])

    let asked := runs.foldl (fun s x => engRead tok p x.1 x.2 s) s

    let g := readsDone tok p runs s

    let s1 := engForget tok g.2

    let old := if entValid e then engBytes g.2 tok (entAddr e) size else List.replicate size 0

    let h := if u.rule = 2 then leNat (engBytes g.2 tok (u.stateAddr + 4 * r) 4) else 0

    let gone := entValid e && (anyExtent s (entAddr e)).elim true fun ex => rowLost s ex (entAddr e) (rowLines t.d)

    let come := g.1 && runs.all fun x => engStatus g.2 tok x.1 x.2 == .ok
    (gone = false) ∧ (engBusy asked tok = true) :=
  ⟨1, 4, 3, 1, tblA none, { step := 1 }, { slots := 1 }, wEb, by decide +kernel⟩

theorem wit_UpdateEventsAct_9 : ∃ (p : Nat) (tid : Nat) (r : Nat) (step : Nat) (t : Table) (c : Close) (u : UDesc) (s : State), (s.table? p tid = some t) ∧ (t.close = some c) ∧ (t.u = some u) ∧ (applyStep t ((t.due c.step).filter (·.row == r)) = some step) ∧
    let now := ((t.due c.step).filter (·.row == r)).filter (·.step == step)

    let drop := modTable p tid (fun t => { t with accs := t.accs.filter fun x => !(x.row == r && x.step == step) })

    let e := entryOf s t t.d.gen r

    let size := rowBytes t.d.fmt t.d.elems

    let tok := applyTok p tid r

    let runs := (if entValid e then [(entAddr e, size)] else []) ++ (if u.rule = 2 then [(u.stateAddr + 4 * r, 4)] else [])

    let asked := runs.foldl (fun s x => engRead tok p x.1 x.2 s) s

    let g := readsDone tok p runs s

    let s1 := engForget tok g.2

    let old := if entValid e then engBytes g.2 tok (entAddr e) size else List.replicate size 0

    let h := if u.rule = 2 then leNat (engBytes g.2 tok (u.stateAddr + 4 * r) 4) else 0

    let gone := entValid e && (anyExtent s (entAddr e)).elim true fun ex => rowLost s ex (entAddr e) (rowLines t.d)

    let come := g.1 && runs.all fun x => engStatus g.2 tok x.1 x.2 == .ok
    (gone = false) ∧ (engBusy asked tok = false) ∧ (sumAccs t.d.elems now = none) :=
  ⟨1, 4, 3, 1, tblP, { step := 1 }, { slots := 1 }, wtb [tblP], by decide +kernel⟩

theorem wit_UpdateEventsAct_10 : ∃ (p : Nat) (tid : Nat) (r : Nat) (step : Nat) (t : Table) (c : Close) (u : UDesc) (s : State), (s.table? p tid = some t) ∧ (t.close = some c) ∧ (t.u = some u) ∧ (applyStep t ((t.due c.step).filter (·.row == r)) = some step) ∧
    let now := ((t.due c.step).filter (·.row == r)).filter (·.step == step)

    let drop := modTable p tid (fun t => { t with accs := t.accs.filter fun x => !(x.row == r && x.step == step) })

    let e := entryOf s t t.d.gen r

    let size := rowBytes t.d.fmt t.d.elems

    let tok := applyTok p tid r

    let runs := (if entValid e then [(entAddr e, size)] else []) ++ (if u.rule = 2 then [(u.stateAddr + 4 * r, 4)] else [])

    let asked := runs.foldl (fun s x => engRead tok p x.1 x.2 s) s

    let g := readsDone tok p runs s

    let s1 := engForget tok g.2

    let old := if entValid e then engBytes g.2 tok (entAddr e) size else List.replicate size 0

    let h := if u.rule = 2 then leNat (engBytes g.2 tok (u.stateAddr + 4 * r) 4) else 0

    let gone := entValid e && (anyExtent s (entAddr e)).elim true fun ex => rowLost s ex (entAddr e) (rowLines t.d)

    let come := g.1 && runs.all fun x => engStatus g.2 tok x.1 x.2 == .ok
    (gone = false) ∧ ∃ fl, (engBusy asked tok = false) ∧ (sumAccs t.d.elems now = some fl) ∧
    let s2 := if fl.any (·.2) then event 0x000A true [] (some p) [tid, r] s1 else s1
    (come = false) := by
  refine ⟨1, 4, 3, 1, tblA none, { step := 1 }, { slots := 1 }, wEd, ?_, ?_, ?_, ?_, ?_, fl3, ?_⟩ <;> decide +kernel

theorem wit_UpdateEventsAct_11 : ∃ (p : Nat) (tid : Nat) (r : Nat) (step : Nat) (t : Table) (c : Close) (u : UDesc) (s : State), (s.table? p tid = some t) ∧ (t.close = some c) ∧ (t.u = some u) ∧ (applyStep t ((t.due c.step).filter (·.row == r)) = some step) ∧
    let now := ((t.due c.step).filter (·.row == r)).filter (·.step == step)

    let drop := modTable p tid (fun t => { t with accs := t.accs.filter fun x => !(x.row == r && x.step == step) })

    let e := entryOf s t t.d.gen r

    let size := rowBytes t.d.fmt t.d.elems

    let tok := applyTok p tid r

    let runs := (if entValid e then [(entAddr e, size)] else []) ++ (if u.rule = 2 then [(u.stateAddr + 4 * r, 4)] else [])

    let asked := runs.foldl (fun s x => engRead tok p x.1 x.2 s) s

    let g := readsDone tok p runs s

    let s1 := engForget tok g.2

    let old := if entValid e then engBytes g.2 tok (entAddr e) size else List.replicate size 0

    let h := if u.rule = 2 then leNat (engBytes g.2 tok (u.stateAddr + 4 * r) 4) else 0

    let gone := entValid e && (anyExtent s (entAddr e)).elim true fun ex => rowLost s ex (entAddr e) (rowLines t.d)

    let come := g.1 && runs.all fun x => engStatus g.2 tok x.1 x.2 == .ok
    (gone = false) ∧ ∃ fl, (engBusy asked tok = false) ∧ (sumAccs t.d.elems now = some fl) ∧
    let s2 := if fl.any (·.2) then event 0x000A true [] (some p) [tid, r] s1 else s1
    ∃ h', (come = true) ∧ (applyRow t u r step h (fl.map (·.1)) old = (none, h')) := by
  refine ⟨1, 4, 3, 1, tblZ, { step := 1 }, { slots := 1 }, wtb [tblZ], ?_, ?_, ?_, ?_, ?_, flOf tblZ [nanAcc], ?_, ?_, hz, ?_⟩ <;> decide +kernel

theorem wit_UpdateEventsAct_12 : ∃ (p : Nat) (tid : Nat) (r : Nat) (step : Nat) (t : Table) (c : Close) (u : UDesc) (s : State), (s.table? p tid = some t) ∧ (t.close = some c) ∧ (t.u = some u) ∧ (applyStep t ((t.due c.step).filter (·.row == r)) = some step) ∧
    let now := ((t.due c.step).filter (·.row == r)).filter (·.step == step)

    let drop := modTable p tid (fun t => { t with accs := t.accs.filter fun x => !(x.row == r && x.step == step) })

    let e := entryOf s t t.d.gen r

    let size := rowBytes t.d.fmt t.d.elems

    let tok := applyTok p tid r

    let runs := (if entValid e then [(entAddr e, size)] else []) ++ (if u.rule = 2 then [(u.stateAddr + 4 * r, 4)] else [])

    let asked := runs.foldl (fun s x => engRead tok p x.1 x.2 s) s

    let g := readsDone tok p runs s

    let s1 := engForget tok g.2

    let old := if entValid e then engBytes g.2 tok (entAddr e) size else List.replicate size 0

    let h := if u.rule = 2 then leNat (engBytes g.2 tok (u.stateAddr + 4 * r) 4) else 0

    let gone := entValid e && (anyExtent s (entAddr e)).elim true fun ex => rowLost s ex (entAddr e) (rowLines t.d)

    let come := g.1 && runs.all fun x => engStatus g.2 tok x.1 x.2 == .ok
    (gone = false) ∧ ∃ fl, (engBusy asked tok = false) ∧ (sumAccs t.d.elems now = some fl) ∧
    let s2 := if fl.any (·.2) then event 0x000A true [] (some p) [tid, r] s1 else s1
    ∃ new h', (come = true) ∧ (applyRow t u r step h (fl.map (·.1)) old = (some new, h')) ∧
    let slot := takeSlot t (entValid e && (slotNook s2 (entAddr e)).isNone) (shardNook s2 t.d (t.d.shardOf r))

    let wait := fun (c : Close) => if c.waits.any (·.1 == r) then c else { c with waits := c.waits ++ [(r, s2.t)] }
    (slot = none) := by
  refine ⟨1, 4, 3, 1, { tblA none with free := [] }, { step := 1 }, { slots := 1 }, wtb [{ tblA none with free := [] }], ?_, ?_, ?_, ?_, ?_, fl3, ?_, ?_, new3.1.getD [], h3, ?_⟩ <;> decide +kernel

theorem wit_UpdateEventsAct_13 : ∃ (p : Nat) (tid : Nat) (r : Nat) (step : Nat) (t : Table) (c : Close) (u : UDesc) (s : State), (s.table? p tid = some t) ∧ (t.close = some c) ∧ (t.u = some u) ∧ (applyStep t ((t.due c.step).filter (·.row == r)) = some step) ∧
    let now := ((t.due c.step).filter (·.row == r)).filter (·.step == step)

    let drop := modTable p tid (fun t => { t with accs := t.accs.filter fun x => !(x.row == r && x.step == step) })

    let e := entryOf s t t.d.gen r

    let size := rowBytes t.d.fmt t.d.elems

    let tok := applyTok p tid r

    let runs := (if entValid e then [(entAddr e, size)] else []) ++ (if u.rule = 2 then [(u.stateAddr + 4 * r, 4)] else [])

    let asked := runs.foldl (fun s x => engRead tok p x.1 x.2 s) s

    let g := readsDone tok p runs s

    let s1 := engForget tok g.2

    let old := if entValid e then engBytes g.2 tok (entAddr e) size else List.replicate size 0

    let h := if u.rule = 2 then leNat (engBytes g.2 tok (u.stateAddr + 4 * r) 4) else 0

    let gone := entValid e && (anyExtent s (entAddr e)).elim true fun ex => rowLost s ex (entAddr e) (rowLines t.d)

    let come := g.1 && runs.all fun x => engStatus g.2 tok x.1 x.2 == .ok
    (gone = false) ∧ ∃ fl, (engBusy asked tok = false) ∧ (sumAccs t.d.elems now = some fl) ∧
    let s2 := if fl.any (·.2) then event 0x000A true [] (some p) [tid, r] s1 else s1
    ∃ new h', (come = true) ∧ (applyRow t u r step h (fl.map (·.1)) old = (some new, h')) ∧
    let slot := takeSlot t (entValid e && (slotNook s2 (entAddr e)).isNone) (shardNook s2 t.d (t.d.shardOf r))

    let wait := fun (c : Close) => if c.waits.any (·.1 == r) then c else { c with waits := c.waits ++ [(r, s2.t)] }
    ∃ a t', (slot = some (a, t')) := by
  refine ⟨1, 4, 3, 1, tblA none, { step := 1 }, { slots := 1 }, wtb [tblA none], ?_, ?_, ?_, ?_, ?_, fl3, ?_, ?_, new3.1.getD [], h3, ?_, ?_, base64 + 2 ^ 20, { tblA none with free := [] }, ?_⟩ <;> decide +kernel

theorem wit_UpdateEventsAct_14 : ∃ (p : Nat) (tid : Nat) (r : Nat) (t0 : Nat) (t : Table) (c : Close) (s : State), (s.table? p tid = some t) ∧ (t.close = some c) ∧ ((r, t0) ∈ c.waits) ∧ (t0 + 10000000 ≤ s.t) :=
  ⟨1, 4, 3, 0, tblA (some 0), { step := 1, waits := [(3, 0)] }, { wtb [tblA (some 0)] with t := 10000000 }, by decide +kernel⟩

theorem wit_UpdateEventsAct_15 : ∃ (p : Nat) (tid : Nat) (t : Table) (c : Close) (s : State), (s.table? p tid = some t) ∧ (t.close = some c) ∧ ((t.due c.step).isEmpty = true) :=
  ⟨1, 4, { tblU with close := some {} }, {}, wtb [{ tblU with close := some {} }], by decide +kernel⟩

theorem wit_UpdateEventsAct_16 : ∃ (p : Nat) (tid : Nat) (t : Table) (s : State), (s.table? p tid = some t) ∧ (t.wave ≠ 0) ∧ ((t.inflight.any fun f => f.2.2 == (t.wave - 1) % 2) = false) :=
  ⟨1, 4, { tblU with wave := 1, retired := [(0, base64)] }, wtb [{ tblU with wave := 1, retired := [(0, base64)] }], by decide +kernel⟩

theorem wit_UpdateEventsAct_17 : ∃ (p : Nat) (tid : Nat) (t : Table) (s : State), (s.table? p tid = some t) ∧ (t.genState = 1) :=
  ⟨1, 4, { tblU with genState := 1, genJob := some 9 }, wtb [{ tblU with genState := 1, genJob := some 9 }], by decide +kernel⟩

theorem wit_UpdateEventsAct_18 : ∃ (p : Nat) (tid : Nat) (t : Table) (s : State), (s.table? p tid = some t) ∧ (t.genState = 5) ∧ ((t.inflight.any fun f => f.2.1 == (t.d.gen + 1) % 65536) = false) :=
  ⟨1, 4, { tblU with genState := 5 }, { w with tables := [{ tblU with genState := 5 }] }, by decide +kernel⟩

theorem wit_UpdateEventsAct_19 : ∃ (p : Nat) (tid : Nat) (t : Table) (s : State), (s.table? p tid = some t) ∧ (t.genState = 4) ∧ ((t.inflight.any fun f => f.2.1 == (t.d.gen + 65535) % 65536) = false) :=
  ⟨1, 4, { tblU with genState := 4 }, { w with tables := [{ tblU with genState := 4 }] }, by decide +kernel⟩

theorem wit_UpdateEventsAct_20 : ∃ (s : State), (s.loadTick < s.ns / 125000) :=
  ⟨wb 125000 w, by decide +kernel⟩

theorem wit_UpdateEventsAct_21 : ∃ (s : State), (s.balTick < s.ns / 1000000) ∧ (s.ten.parts = []) :=
  ⟨wb 1000000 up0, by decide +kernel⟩

theorem wit_UpdateEventsAct_22 : ∃ (p : Part) (v : ShardMove) (s : State), (s.balTick < s.ns / 1000000) ∧ (s.ten.parts = [p]) ∧ (s.moves = []) ∧ (chooseMove { s with balTick := s.ns / 1000000 } p.id = some v) :=
  ⟨part1, (chooseMove { wbal with balTick := 1 } 1).getD {}, wbal, by decide +kernel⟩

theorem wit_UpdateEventsAct_23 : ∃ (p : Nat) (v : ShardMove) (t : Table) (x : Nat × Nat) (s : State), (s.moves.find? (·.part == p) = some v) ∧ (s.table? p v.table = some t) ∧ ((rowsIn t.d v.shard 1).contains v.next = true) ∧ (copying s p = false) ∧
    let e := entryOf s t t.d.gen v.next

    let g := readLines (linesOf (entAddr e) (64 * rowLines t.d)) s
    (entValid e = false) :=
  ⟨1, mv 0, tblB, (0, 0), wmr 0 false, by decide +kernel⟩

theorem wit_UpdateEventsAct_24 : ∃ (p : Nat) (v : ShardMove) (t : Table) (x : Nat × Nat) (s : State), (s.moves.find? (·.part == p) = some v) ∧ (s.table? p v.table = some t) ∧ ((rowsIn t.d v.shard 1).contains v.next = true) ∧ (copying s p = false) ∧
    let e := entryOf s t t.d.gen v.next

    let g := readLines (linesOf (entAddr e) (64 * rowLines t.d)) s
    (entValid e = true) ∧ (t.gone v.next = true) :=
  ⟨1, mv 0, tblO, (0, 0), wmo, by decide +kernel⟩

theorem wit_UpdateEventsAct_25 : ∃ (p : Nat) (v : ShardMove) (t : Table) (x : Nat × Nat) (s : State), (s.moves.find? (·.part == p) = some v) ∧ (s.table? p v.table = some t) ∧ ((rowsIn t.d v.shard 1).contains v.next = true) ∧ (copying s p = false) ∧
    let e := entryOf s t t.d.gen v.next

    let g := readLines (linesOf (entAddr e) (64 * rowLines t.d)) s
    ∃ ex, (entValid e = true) ∧ (t.gone v.next = false) ∧ (t.free.find? (·.1 == v.dst) = some x) ∧ (g.1 = true) ∧ (anyExtent g.2 (entAddr e) = some ex) ∧ (rowLost g.2 ex (entAddr e) (rowLines t.d) = false) := by
  refine ⟨1, mv 0, tblB, (2, base64 + 2 ^ 20), wmr 0 true, ?_, ?_, ?_, ?_, exd, ?_⟩ <;> decide +kernel

theorem wit_UpdateEventsAct_26 : ∃ (p : Nat) (v : ShardMove) (t : Table) (s : State), (s.moves.find? (·.part == p) = some v) ∧ (s.table? p v.table = some t) ∧ ((rowsIn t.d v.shard 1).contains v.next = false) ∧ (copying s p = false) :=
  ⟨1, mv 1, tblB, wmr 1 true, by decide +kernel⟩

theorem wit_UpdateEventsAct_27 : ∃ (p : Nat) (x : Nat) (m : PktMsg) (o : PktMsg) (q : PktMsg) (t : Table) (s : State) (s' : State), (m.opc = 1) ∧ (m.tag = migTag) ∧ (namesMe s m.dst = true) ∧ ((s.port p).kind ≠ 0) ∧ (msgPasses s p m o q false s') ∧ (q.tenant ≠ 0) ∧ (partOfTag s q.tenant = some x) ∧ (s.isQuiesced x = false) ∧
    let hdr := q.body.take 32

    let d := q.body.drop 32

    let k := fldLE hdr 2 1

    let r := fldLE hdr 8 8

    let sofar := ((t.inbox.find? (·.key == hdr)).map (·.bytes)).getD [] ++ d

    let total := fldLE hdr 28 4

    let keep := fun (b : Option Bytes) => modTable x t.d.id (fun t => { t with
        inbox := t.inbox.filter (·.key != hdr) ++ (b.map fun b => ({ key := hdr, bytes := b } : Transfer)).toList })
    (useTable s x (fldLE hdr 0 2) = .ok t) ∧ (32 ≤ q.body.length) ∧ (t.d.storage ≠ 2) ∧ (sofar.length ≤ total) ∧
    let go := fun (st : Status) (u : State) => exec (.migrationRowArrival p m) s = .next (settle s (refuse p q st u))
    (k = 0) :=
  ⟨4, 1, msgM, msgM, mgQ wmg msgM, tblF, wmg, mgS wmg msgM, by decide +kernel⟩

theorem wit_UpdateEventsAct_28 : ∃ (p : Nat) (x : Nat) (m : PktMsg) (o : PktMsg) (q : PktMsg) (t : Table) (s : State) (s' : State), (m.opc = 1) ∧ (m.tag = migTag) ∧ (namesMe s m.dst = true) ∧ ((s.port p).kind ≠ 0) ∧ (msgPasses s p m o q false s') ∧ (q.tenant ≠ 0) ∧ (partOfTag s q.tenant = some x) ∧ (s.isQuiesced x = false) ∧
    let hdr := q.body.take 32

    let d := q.body.drop 32

    let k := fldLE hdr 2 1

    let r := fldLE hdr 8 8

    let sofar := ((t.inbox.find? (·.key == hdr)).map (·.bytes)).getD [] ++ d

    let total := fldLE hdr 28 4

    let keep := fun (b : Option Bytes) => modTable x t.d.id (fun t => { t with
        inbox := t.inbox.filter (·.key != hdr) ++ (b.map fun b => ({ key := hdr, bytes := b } : Transfer)).toList })
    (useTable s x (fldLE hdr 0 2) = .ok t) ∧ (32 ≤ q.body.length) ∧ (t.d.storage ≠ 2) ∧ (sofar.length ≤ total) ∧
    let go := fun (st : Status) (u : State) => exec (.migrationRowArrival p m) s = .next (settle s (refuse p q st u))
    (1 ≤ k) ∧ (k ≤ 3) ∧ (sofar.length < total) :=
  ⟨4, 1, msgK 1 3 64 (rowB.take 9), msgK 1 3 64 (rowB.take 9), mgQ wmg (msgK 1 3 64 (rowB.take 9)), tblF, wmg, mgS wmg (msgK 1 3 64 (rowB.take 9)), by decide +kernel⟩

theorem wit_UpdateEventsAct_29 : ∃ (p : Nat) (x : Nat) (m : PktMsg) (o : PktMsg) (q : PktMsg) (t : Table) (s : State) (s' : State), (m.opc = 1) ∧ (m.tag = migTag) ∧ (namesMe s m.dst = true) ∧ ((s.port p).kind ≠ 0) ∧ (msgPasses s p m o q false s') ∧ (q.tenant ≠ 0) ∧ (partOfTag s q.tenant = some x) ∧ (s.isQuiesced x = false) ∧
    let hdr := q.body.take 32

    let d := q.body.drop 32

    let k := fldLE hdr 2 1

    let r := fldLE hdr 8 8

    let sofar := ((t.inbox.find? (·.key == hdr)).map (·.bytes)).getD [] ++ d

    let total := fldLE hdr 28 4

    let keep := fun (b : Option Bytes) => modTable x t.d.id (fun t => { t with
        inbox := t.inbox.filter (·.key != hdr) ++ (b.map fun b => ({ key := hdr, bytes := b } : Transfer)).toList })
    (useTable s x (fldLE hdr 0 2) = .ok t) ∧ (32 ≤ q.body.length) ∧ (t.d.storage ≠ 2) ∧ (sofar.length ≤ total) ∧
    let go := fun (st : Status) (u : State) => exec (.migrationRowArrival p m) s = .next (settle s (refuse p q st u))
    ∃ u, (k = 1) ∧ (sofar.length = total) ∧ (r < t.d.phys) ∧ (total = rowBytes t.d.fmt t.d.elems) ∧ (installRow t r sofar s' = some u) := by
  refine ⟨4, 1, msgK 1 3 64 rowB, msgK 1 3 64 rowB, mgQ wmg (msgK 1 3 64 rowB), tblF, wmg, mgS wmg (msgK 1 3 64 rowB), ?_, ?_, ?_, ?_, ?_, ?_, ?_, ?_, ?_, ?_, ?_, ?_, (installRow tblF 3 rowB (mgS wmg (msgK 1 3 64 rowB))).getD {}, ?_⟩ <;> decide +kernel

theorem wit_UpdateEventsAct_30 : ∃ (p : Nat) (x : Nat) (m : PktMsg) (o : PktMsg) (q : PktMsg) (t : Table) (s : State) (s' : State), (m.opc = 1) ∧ (m.tag = migTag) ∧ (namesMe s m.dst = true) ∧ ((s.port p).kind ≠ 0) ∧ (msgPasses s p m o q false s') ∧ (q.tenant ≠ 0) ∧ (partOfTag s q.tenant = some x) ∧ (s.isQuiesced x = false) ∧
    let hdr := q.body.take 32

    let d := q.body.drop 32

    let k := fldLE hdr 2 1

    let r := fldLE hdr 8 8

    let sofar := ((t.inbox.find? (·.key == hdr)).map (·.bytes)).getD [] ++ d

    let total := fldLE hdr 28 4

    let keep := fun (b : Option Bytes) => modTable x t.d.id (fun t => { t with
        inbox := t.inbox.filter (·.key != hdr) ++ (b.map fun b => ({ key := hdr, bytes := b } : Transfer)).toList })
    (useTable s x (fldLE hdr 0 2) = .ok t) ∧ (32 ≤ q.body.length) ∧ (t.d.storage ≠ 2) ∧ (sofar.length ≤ total) ∧
    let go := fun (st : Status) (u : State) => exec (.migrationRowArrival p m) s = .next (settle s (refuse p q st u))
    ∃ st u, (k = 2) ∧ (sofar.length = total) ∧ (r < t.d.phys) ∧ (total = 96 * t.d.elems) ∧ (installAcc t (fldLE hdr 4 4) r sofar s' = some (st, u)) := by
  refine ⟨4, 1, msgK 2 3 1536 accB, msgK 2 3 1536 accB, mgQ wmg (msgK 2 3 1536 accB), tblF, wmg, mgS wmg (msgK 2 3 1536 accB), ?_, ?_, ?_, ?_, ?_, ?_, ?_, ?_, ?_, ?_, ?_, ?_, (inA wmg).1, (inA wmg).2, ?_⟩ <;> decide +kernel

theorem wit_UpdateEventsAct_31 : ∃ (p : Nat) (x : Nat) (m : PktMsg) (o : PktMsg) (q : PktMsg) (t : Table) (s : State) (s' : State), (m.opc = 1) ∧ (m.tag = migTag) ∧ (namesMe s m.dst = true) ∧ ((s.port p).kind ≠ 0) ∧ (msgPasses s p m o q false s') ∧ (q.tenant ≠ 0) ∧ (partOfTag s q.tenant = some x) ∧ (s.isQuiesced x = false) ∧
    let hdr := q.body.take 32

    let d := q.body.drop 32

    let k := fldLE hdr 2 1

    let r := fldLE hdr 8 8

    let sofar := ((t.inbox.find? (·.key == hdr)).map (·.bytes)).getD [] ++ d

    let total := fldLE hdr 28 4

    let keep := fun (b : Option Bytes) => modTable x t.d.id (fun t => { t with
        inbox := t.inbox.filter (·.key != hdr) ++ (b.map fun b => ({ key := hdr, bytes := b } : Transfer)).toList })
    (useTable s x (fldLE hdr 0 2) = .ok t) ∧ (32 ≤ q.body.length) ∧ (t.d.storage ≠ 2) ∧ (sofar.length ≤ total) ∧
    let go := fun (st : Status) (u : State) => exec (.migrationRowArrival p m) s = .next (settle s (refuse p q st u))
    ∃ st u, (k = 3) ∧ (sofar.length = total) ∧ (installBatch t hdr sofar s' = some (st, u)) := by
  refine ⟨4, 1, msgK 3 1 72 batB, msgK 3 1 72 batB, mgQ wmg (msgK 3 1 72 batB), tblF, wmg, mgS wmg (msgK 3 1 72 batB), ?_, ?_, ?_, ?_, ?_, ?_, ?_, ?_, ?_, ?_, ?_, ?_, (inB wmg).1, (inB wmg).2, ?_⟩ <;> decide +kernel

theorem wit_BellowsAndKeysAct_1 : ∃ (m : MbxId) (j : Job) (s : State), (mayRun s m 0x0A01 j) ∧
    let a := fldLE j.payload 0 8

    let p := j.part

    let g := readsDone (jobTok j) p [(a, 64)] (startJob j s)

    let h := leNat (engBytes g.2 (jobTok j) a 64)

    let n := bits h 383 368

    let nep := bits h 367 359

    let s1 := engForget (jobTok j) g.2

    let g1 := readsDone (jobTok j) p [(a, listSize h)] s1

    let rd := engBytes g1.2 (jobTok j)

    let s2 := engForget (jobTok j) g1.2

    let words := (List.range nep).map fun k => fldLE (rd (a + 64 + 64 * n + 4 * k) 4) 0 4

    let raw := fun (k : Nat) => rd (a + 64 + 64 * k) 64
    (listBad s1 j.at_ a h = false) ∧ (readsCome (jobTok j) p s.maps.cur [(a, 64)] (startJob j s)) ∧ (readsCome (jobTok j) p s1.maps.cur [(a, listSize h)] s1) ∧ ((words.all fun w => decide (w < 2 ^ 22)) = true) ∧ (((List.range n).all fun k => !entryBad s2 p nep (raw k)) = true) ∧ (s2.blist? p (bits h 11 8) = none) ∧ (bits h 3 0 = p) ∧ (((List.range n).all fun k => !entryAway s2 p (raw k)) = true) :=
  ⟨.a, jb 0x0A01 (toLE 8 base64), run ({ wtb [] with mem := { w.mem with bytes := blCells } }) (jb 0x0A01 (toLE 8 base64)), by decide +kernel⟩

theorem wit_BellowsAndKeysAct_2 : ∃ (m : MbxId) (j : Job) (x : BList) (s : State), (mayRun s m 0x0A02 j) ∧ (fldLE j.payload 0 1 ≤ 3) ∧
    let l := fldLE j.payload 0 1
    (s.blist? j.part l = some x) :=
  ⟨.a, jb 0x0A02 ([2]), blist (bent 0 none), run (wbl (bent 0 none)) (jb 0x0A02 ([2])), by decide +kernel⟩

theorem wit_BellowsAndKeysAct_3 : ∃ (p : Nat) (l : Nat) (k : Nat) (x : BList) (e : BEntry) (s : State), (s.bentry? p l k = some (x, e)) ∧ (e.state = 0) ∧ (x.dueAt e - e.lead ≤ s.ns) ∧ ((e.ckey ≠ 0 → (s.ckey? p e.ckey).isSome = true)) :=
  ⟨1, 2, 0, blist (bent 0 none), bent 0 none, wbl (bent 0 none), by decide +kernel⟩

theorem wit_BellowsAndKeysAct_4 : ∃ (p : Nat) (l : Nat) (k : Nat) (x : BList) (e : BEntry) (s : State), (s.bentry? p l k = some (x, e)) ∧ (e.state = 1) ∧ (e.status = none) ∧ (s.isQuiesced p = false) ∧ (soonerEntry s p l k (x.dueAt e) = false) ∧ ((e.pieceNext = true → (pieceNook s p).isSome = true)) ∧ (contextTurn s p = true) ∧ ((chunksOpen s p < 64 ∨ e.done < e.asked)) ∧
    let s0 := if e.asked ≤ e.done then askNext p l k (turnTaken p s) else turnTaken p s

    let go := fun (t : State) => exec (.bellowsChunk p l k) s = .next (settle s t)
    ∃ d s1, (e.wantsTrailer = true) ∧ (sourceTrailer p l k e s0 = (.ready d, s1)) := by
  refine ⟨1, 2, 0, blist (be5), be5, wbl be5, ?_, ?_, ?_, ?_, ?_, ?_, ?_, ?_, gotB (trB be5 (wbl be5)).1, (trB be5 (wbl be5)).2, ?_⟩ <;> decide +kernel

theorem wit_BellowsAndKeysAct_5 : ∃ (p : Nat) (l : Nat) (k : Nat) (x : BList) (e : BEntry) (s : State), (s.bentry? p l k = some (x, e)) ∧ (e.state = 1) ∧ (e.status = none) ∧ (s.isQuiesced p = false) ∧ (soonerEntry s p l k (x.dueAt e) = false) ∧ ((e.pieceNext = true → (pieceNook s p).isSome = true)) ∧ (contextTurn s p = true) ∧ ((chunksOpen s p < 64 ∨ e.done < e.asked)) ∧
    let s0 := if e.asked ≤ e.done then askNext p l k (turnTaken p s) else turnTaken p s

    let go := fun (t : State) => exec (.bellowsChunk p l k) s = .next (settle s t)
    ∃ s1, (e.wantsTrailer = true) ∧ (sourceTrailer p l k e s0 = (.waits, s1)) := by
  refine ⟨1, 2, 0, blist (be5), be5, busyB (base64 / 64 + 2 ^ 14 + 1) (wbl be5), ?_, ?_, ?_, ?_, ?_, ?_, ?_, ?_, (trB be5 (busyB (base64 / 64 + 2 ^ 14 + 1) (wbl be5))).2, ?_⟩ <;> decide +kernel

theorem wit_BellowsAndKeysAct_6 : ∃ (p : Nat) (l : Nat) (k : Nat) (x : BList) (e : BEntry) (s : State), (s.bentry? p l k = some (x, e)) ∧ (e.state = 1) ∧ (e.status = none) ∧ (s.isQuiesced p = false) ∧ (soonerEntry s p l k (x.dueAt e) = false) ∧ ((e.pieceNext = true → (pieceNook s p).isSome = true)) ∧ (contextTurn s p = true) ∧ ((chunksOpen s p < 64 ∨ e.done < e.asked)) ∧
    let s0 := if e.asked ≤ e.done then askNext p l k (turnTaken p s) else turnTaken p s

    let go := fun (t : State) => exec (.bellowsChunk p l k) s = .next (settle s t)
    ∃ s1, (e.wantsTrailer = false) ∧ (sourceChunk p l k (e.done / 65536) e s0 = (.waits, s1)) := by
  refine ⟨1, 2, 0, blist (bent 1 none), bent 1 none, busyB (base64 / 64 + 2 ^ 14) (wbl (bent 1 none)), ?_, ?_, ?_, ?_, ?_, ?_, ?_, ?_, (chB (bent 1 none) (busyB (base64 / 64 + 2 ^ 14) (wbl (bent 1 none)))).2, ?_⟩ <;> decide +kernel

theorem wit_BellowsAndKeysAct_7 : ∃ (p : Nat) (l : Nat) (k : Nat) (x : BList) (e : BEntry) (s : State), (s.bentry? p l k = some (x, e)) ∧ (e.state = 1) ∧ (e.status = none) ∧ (s.isQuiesced p = false) ∧ (soonerEntry s p l k (x.dueAt e) = false) ∧ ((e.pieceNext = true → (pieceNook s p).isSome = true)) ∧ (contextTurn s p = true) ∧ ((chunksOpen s p < 64 ∨ e.done < e.asked)) ∧
    let s0 := if e.asked ≤ e.done then askNext p l k (turnTaken p s) else turnTaken p s

    let go := fun (t : State) => exec (.bellowsChunk p l k) s = .next (settle s t)
    ∃ st s1, (e.wantsTrailer = false) ∧ (sourceChunk p l k (e.done / 65536) e s0 = (.bad st, s1)) := by
  refine ⟨1, 2, 0, blist (beF), beF, wbl beF, ?_, ?_, ?_, ?_, ?_, ?_, ?_, ?_, .noAccess, (chB beF (wbl beF)).2, ?_⟩ <;> decide +kernel

theorem wit_BellowsAndKeysAct_8 : ∃ (p : Nat) (l : Nat) (k : Nat) (x : BList) (e : BEntry) (s : State), (s.bentry? p l k = some (x, e)) ∧ (e.state = 1) ∧ (e.status = none) ∧ (s.isQuiesced p = false) ∧ (soonerEntry s p l k (x.dueAt e) = false) ∧ ((e.pieceNext = true → (pieceNook s p).isSome = true)) ∧ (contextTurn s p = true) ∧ ((chunksOpen s p < 64 ∨ e.done < e.asked)) ∧
    let s0 := if e.asked ≤ e.done then askNext p l k (turnTaken p s) else turnTaken p s

    let go := fun (t : State) => exec (.bellowsChunk p l k) s = .next (settle s t)
    ∃ d s1, (e.wantsTrailer = false) ∧ (sourceChunk p l k (e.done / 65536) e s0 = (.ready d, s1)) ∧
    let s2 := waited p l k 1 s1

    let c := d.take (e.total - e.done)

    let b := if e.ckey = 0 then c else
          (Config.gcmPart (e.key.getD {}).key ((e.trailer.getD []).take 12) e.done c ++ List.replicate c.length 0).take c.length

    let nook := if e.pieceNext then pieceNook s2 p else none

    let s3 := nook.elim s2 fun n => setTaken n (taken s2 n + 1) s2

    let s4 := if e.toDst && !b.isEmpty then putBytes p l k e.done e b s3 else s3

    let done := e.done + d.length

    let upd := fun (y : BEntry) => { y with done := done, asked := max y.asked done, hold := if e.push then y.hold ++ b else [], pieces := y.pieces ++ nook.toList, cipher := if e.ckey = 0 then [] else y.cipher ++ c, state := if done = e.length && e.ckey = 0 then 2 else 1 }

    let s5 := modEntry p l k upd s4
    ((done ≠ e.length ∨ e.ckey = 0)) := by
  refine ⟨1, 2, 0, blist (bent 1 none), bent 1 none, wbl (bent 1 none), ?_, ?_, ?_, ?_, ?_, ?_, ?_, ?_, gotB (chB (bent 1 none) (wbl (bent 1 none))).1, (chB (bent 1 none) (wbl (bent 1 none))).2, ?_⟩ <;> decide +kernel

theorem wit_BellowsAndKeysAct_9 : ∃ (p : Nat) (l : Nat) (k : Nat) (x : BList) (e : BEntry) (s : State), (s.bentry? p l k = some (x, e)) ∧ (e.state = 1) ∧ (e.status = none) ∧ (s.isQuiesced p = false) ∧ (soonerEntry s p l k (x.dueAt e) = false) ∧ ((e.pieceNext = true → (pieceNook s p).isSome = true)) ∧ (contextTurn s p = true) ∧ ((chunksOpen s p < 64 ∨ e.done < e.asked)) ∧
    let s0 := if e.asked ≤ e.done then askNext p l k (turnTaken p s) else turnTaken p s

    let go := fun (t : State) => exec (.bellowsChunk p l k) s = .next (settle s t)
    ∃ d s1, (e.wantsTrailer = false) ∧ (sourceChunk p l k (e.done / 65536) e s0 = (.ready d, s1)) ∧
    let s2 := waited p l k 1 s1

    let c := d.take (e.total - e.done)

    let b := if e.ckey = 0 then c else
          (Config.gcmPart (e.key.getD {}).key ((e.trailer.getD []).take 12) e.done c ++ List.replicate c.length 0).take c.length

    let nook := if e.pieceNext then pieceNook s2 p else none

    let s3 := nook.elim s2 fun n => setTaken n (taken s2 n + 1) s2

    let s4 := if e.toDst && !b.isEmpty then putBytes p l k e.done e b s3 else s3

    let done := e.done + d.length

    let upd := fun (y : BEntry) => { y with done := done, asked := max y.asked done, hold := if e.push then y.hold ++ b else [], pieces := y.pieces ++ nook.toList, cipher := if e.ckey = 0 then [] else y.cipher ++ c, state := if done = e.length && e.ckey = 0 then 2 else 1 }

    let s5 := modEntry p l k upd s4
    ∃ y, (done = e.length) ∧ (e.ckey ≠ 0) ∧ (s5.bentry? p l k = some y) := by
  refine ⟨1, 2, 0, blist (be5z), be5z, wbl be5z, ?_, ?_, ?_, ?_, ?_, ?_, ?_, ?_, gotB (chB be5z (wbl be5z)).1, (chB be5z (wbl be5z)).2, ?_, ?_, y5, ?_⟩ <;> decide +kernel

theorem wit_BellowsAndKeysAct_10 : ∃ (p : Nat) (l : Nat) (k : Nat) (x : BList) (e : BEntry) (s : State), (s.bentry? p l k = some (x, e)) ∧ (e.state = 1) ∧ (e.status = none) ∧ (s.isQuiesced p = false) ∧ (soonerEntry s p l k (x.dueAt e) = false) ∧ (contextTurn s p = true) ∧ (e.done < e.asked) ∧ (e.srcTier ≠ 3) ∧ (e.ckey = 0) ∧ (e.toDst = true) ∧
    let i := e.done / 65536

    let n := e.chunkLen i

    let o := e.src + 65536 * i

    let tok := bellowsTok p l k i

    let s1 := engRead tok p o n (turnTaken p s)

    let g := engLines tok o n s1

    let d := engBytes g.2 tok o n

    let b := d.take (e.length - e.done)
    (pourAccess s s.maps.cur p false o n = .ok) ∧ (engBusy s1 tok = false) ∧ (g.1 = true) ∧ (engStatus g.2 tok o n = .ok) ∧ (b.isEmpty = false) :=
  ⟨1, 2, 0, blist ({ bent 1 none with asked := 64 }), { bent 1 none with asked := 64 }, wbl { bent 1 none with asked := 64 }, by decide +kernel⟩

theorem wit_BellowsAndKeysAct_11 : ∃ (p : Nat) (l : Nat) (k : Nat) (x : BList) (e : BEntry) (s : State), (s.bentry? p l k = some (x, e)) ∧ ((e.state = 1 ∨ e.state = 2)) ∧ ∃ st, (e.status = some st) :=
  ⟨1, 2, 0, blist (bent 1 (some .timeout)), bent 1 (some .timeout), wbl (bent 1 (some .timeout)), by decide +kernel, by decide +kernel, .timeout, by decide +kernel⟩

theorem wit_BellowsAndKeysAct_12 : ∃ (p : Nat) (l : Nat) (k : Nat) (x : BList) (e : BEntry) (s : State), (s.bentry? p l k = some (x, e)) ∧ ((e.state = 1 ∨ e.state = 2)) ∧ (e.status = none) ∧ (s.isQuiesced p = true) :=
  ⟨1, 2, 0, blist (bent 2 none), bent 2 none, wbq, by decide +kernel⟩

theorem wit_BellowsAndKeysAct_13 : ∃ (p : Nat) (l : Nat) (k : Nat) (x : BList) (e : BEntry) (s : State), (s.bentry? p l k = some (x, e)) ∧ ((e.state = 1 ∨ e.state = 2)) ∧ (e.status = none) ∧ (s.isQuiesced p = false) ∧ (e.state = 2) ∧ (engBusy s (putTok p l k) = false) ∧ ((e.push = true → e.pushed = true)) ∧
    let failed := s.dir.eng.find? fun r => r.tok == putTok p l k && r.st != .ok
    (failed = none) :=
  ⟨1, 2, 0, blist (bent 2 none), bent 2 none, wbl (bent 2 none), by decide +kernel⟩

theorem wit_BellowsAndKeysAct_14 : ∃ (p : Nat) (l : Nat) (k : Nat) (x : BList) (e : BEntry) (s : State), (s.bentry? p l k = some (x, e)) ∧ ((e.state = 1 ∨ e.state = 2)) ∧ (e.status = none) ∧ (s.isQuiesced p = false) ∧ (e.state = 2) ∧ (engBusy s (putTok p l k) = false) ∧ ((e.push = true → e.pushed = true)) ∧
    let failed := s.dir.eng.find? fun r => r.tok == putTok p l k && r.st != .ok
    ∃ r, (failed = some r) := by
  refine ⟨1, 2, 0, blist (bent 2 none), bent 2 none, wbbad, ?_, ?_, ?_, ?_, ?_, ?_, ?_, { tok := putTok 1 2 0, line := rowL, st := .lineLost }, ?_⟩ <;> decide +kernel

theorem wit_BellowsAndKeysAct_15 : ∃ (p : Nat) (l : Nat) (k : Nat) (x : BList) (e : BEntry) (s : State), (s.bentry? p l k = some (x, e)) ∧ (e.push = true) ∧ ((e.state = 1 ∨ e.state = 2)) ∧ (e.status = none) ∧ (x.begin e + e.pushStart ≤ s.ns) ∧ ((e.ckey ≠ 0 → e.state = 2)) ∧ (contextTurn s p = true) :=
  ⟨1, 2, 0, blist be9, be9, wbl be9, by decide +kernel⟩

theorem wit_BellowsAndKeysAct_16 : ∃ (m : MbxId) (j : Job) (x : Part) (s : State), (mayRun s m 0x0B01 j) ∧
    let n := (j.payload ++ List.replicate 32 0).take 32

    let p := fldLE j.payload 33 1

    let b := hallmarkBody s j n (some p)
    (fldLE j.payload 32 1 = 0) ∧ ((j.manager = true ∨ p = j.part)) ∧ (s.part? p = some x) ∧ (s.power.noIdentity = false) ∧ (x.keyPair.isSome = true) :=
  ⟨.a, jb 0x0B01 (nonce0 ++ [0, 1]), part1, run (w) (jb 0x0B01 (nonce0 ++ [0, 1])), by decide +kernel⟩

theorem wit_BellowsAndKeysAct_17 : ∃ (m : MbxId) (j : Job) (s : State), (mayRun s m 0x0B01 j) ∧
    let b := hallmarkBody s j ((j.payload ++ List.replicate 32 0).take 32) none
    (fldLE j.payload 32 1 = 1) ∧ (j.manager = true) ∧ (s.power.noIdentity = false) :=
  ⟨.a, jb 0x0B01 (nonce0 ++ [1]), run (w) (jb 0x0B01 (nonce0 ++ [1])), by decide +kernel⟩

theorem wit_BellowsAndKeysAct_18 : ∃ (m : MbxId) (j : Job) (x : Part) (k : Nat) (i : Nat) (s : State), (mayRun s m 0x0B02 j) ∧ (s.part? j.part = some x) ∧ (x.keyPair = some k) ∧ ((x.nonces.any fun n => n.1 == j.payload.take 32 && decide (s.ns < n.2 + 600000000000)) = true) ∧ (((List.range 64).filter fun i => !(keysOf s j.part).any fun k => k.handle % 256 == i && keyLive s k).head? = some i) :=
  ⟨.a, jb 0x0B02 (nonce0 ++ [1, 2, 3]), part1n, 7, 0, run (wpt part1n) (jb 0x0B02 (nonce0 ++ [1, 2, 3])), by decide +kernel⟩

theorem wit_BellowsAndKeysAct_19 : ∃ (m : MbxId) (j : Job) (s : State), (mayRun s m 0x0B03 j) ∧ ((s.ckey? j.part (fldLE j.payload 0 2)).isSome = true) ∧ (handleUsed s j.part (fldLE j.payload 0 2) = false) :=
  ⟨.a, jb 0x0B03 ([0, 2]), run ({ w with tiers := { w.tiers with ckeys := [{ handle := 512 }] } }) (jb 0x0B03 ([0, 2])), by decide +kernel⟩

theorem wit_BellowsAndKeysAct_22 : ∃ (s : State), (s.power.trngFail = false) :=
  ⟨w, by decide +kernel⟩

theorem wit_AshCommandsAct_1 : ∃ (m : MbxId) (j : Job) (s : State), (mayRun s m 0x0A03 j) ∧
    let p := fldLE j.payload 0 1

    let n := fldLE j.payload 4 4
    (sysNook s = true) ∧ ((s.part? p).isSome = true) ∧ (s.power.noIdentity = false) ∧ (zeroAt j.payload 1 3 = true) ∧ (8 * (n * 65536) ≤ 7 * ashRaw s p) ∧ (s.ns? p = none) ∧ (s.power.trngFail = false) :=
  ⟨.a, jb 0x0A03 ([1, 0, 0, 0, 3, 0, 0, 0]), run (wash fun x => { x with ns := [] }) (jb 0x0A03 ([1, 0, 0, 0, 3, 0, 0, 0])), by decide +kernel⟩

theorem wit_AshCommandsAct_2 : ∃ (m : MbxId) (j : Job) (s : State), (mayRun s m 0x0A04 j) ∧
    let p := fldLE j.payload 0 1
    (sysNook s = true) ∧ ((s.ns? p).isSome = true) ∧ ((s.tiers.lists.any fun l => l.part == p && l.entries.any (·.srcTier == 3)) = false) :=
  ⟨.a, jb 0x0A04 ([1]), run (wash id) (jb 0x0A04 ([1])), by decide +kernel⟩

theorem wit_AshCommandsAct_3 : ∃ (m : MbxId) (j : Job) (p : Nat) (a : AshTray) (s : State), (mayRun s m 0x0A05 j) ∧
    let t := fldLE j.payload 0 1

    let c := fldLE j.payload 8 8
    (sysNook s = true) ∧ (zeroAt j.payload 1 7 = true) ∧ ((s.tray t).mode = 3) ∧ ((s.tray t).owner = some p) ∧ (s.ashTray? t = some a) ∧ (a.identified = true) ∧ (a.ctrlEn = true) ∧ (c < 2 ^ a.chanCount) :=
  ⟨.a, jb 0x0A05 ([5, 0, 0, 0, 0, 0, 0, 0] ++ toLE 8 3), 1, ashT, run (wash id) (jb 0x0A05 ([5, 0, 0, 0, 0, 0, 0, 0] ++ toLE 8 3)), by decide +kernel⟩

theorem wit_AshCommandsAct_4 : ∃ (m : MbxId) (j : Job) (s : State), (mayRun s m 0x0A06 j) ∧
    let us := ashUnits j

    let a := fldLE j.payload 8 8

    let g := readsDone (jobTok j) j.part [(a, 65536 * us.length)] (startJob j s)

    let n : AshJob := { job := j.id, part := j.part, write := true, first := fldLE j.payload 0 4, count := us.length, addr := a, left := us }
    (sysNook s = true) ∧ (a % 64 = 0) ∧ (ashRange j (startJob j s) = .ok) ∧ (us ≠ []) ∧ (readsCome (jobTok j) j.part s.maps.cur [(a, 65536 * us.length)] (startJob j s)) ∧
    let put := us.zipIdx.foldl (fun (o : Option State) x => o.bind fun s =>
        writeUnit j.part x.1 (some j.id) none none none (engBytes g.2 (jobTok j) (a + 65536 * x.2) 65536) s) (some (engForget (jobTok j) g.2))
    ∃ s1, (put = some s1) := by
  refine ⟨.a, ashJ 0x0A06, run (wash id) (ashJ 0x0A06), ?_, ?_, ?_, ?_, ?_, ash_come, (ashGo id).get ashGo_some, (Option.some_get ashGo_some).symm⟩ <;> decide +kernel

theorem wit_AshCommandsAct_5 : ∃ (m : MbxId) (j : Job) (s : State), (mayRun s m 0x0A06 j) ∧
    let us := ashUnits j

    let a := fldLE j.payload 8 8

    let g := readsDone (jobTok j) j.part [(a, 65536 * us.length)] (startJob j s)

    let n : AshJob := { job := j.id, part := j.part, write := true, first := fldLE j.payload 0 4, count := us.length, addr := a, left := us }
    (sysNook s = true) ∧ (a % 64 = 0) ∧ (ashRange j (startJob j s) = .ok) ∧ (us ≠ []) ∧ (readsCome (jobTok j) j.part s.maps.cur [(a, 65536 * us.length)] (startJob j s)) ∧
    let put := us.zipIdx.foldl (fun (o : Option State) x => o.bind fun s =>
        writeUnit j.part x.1 (some j.id) none none none (engBytes g.2 (jobTok j) (a + 65536 * x.2) 65536) s) (some (engForget (jobTok j) g.2))
    ∃ s1, (put = none) ∧ (freeRoom j.part (engForget (jobTok j) g.2) = (false, s1)) := by
  refine ⟨.a, ashJ 0x0A06, run (wash noBlk) (ashJ 0x0A06), ?_, ?_, ?_, ?_, ?_, ash_come0, engForget (jobTok (ashJ 0x0A06)) (ashG noBlk).2, ashGo_none, ash_full⟩ <;> decide +kernel

theorem wit_AshCommandsAct_6 : ∃ (m : MbxId) (j : Job) (s : State), (mayRun s m 0x0A07 j) ∧
    let us := ashUnits j

    let a := fldLE j.payload 8 8

    let n : AshJob := { job := j.id, part := j.part, first := fldLE j.payload 0 4, count := us.length, addr := a, left := us }
    (sysNook s = true) ∧ (a % 64 = 0) ∧ (ashRange j (startJob j s) = .ok) ∧ (us ≠ []) ∧ (pourAccess s s.maps.cur j.part true a (65536 * us.length) = .ok) ∧ ((s.tiers.jobs.any (·.job == j.id)) = false) := by
  refine ⟨.a, ashJ 0x0A07, run (wash id) (ashJ 0x0A07), ?_, ?_, ?_, ?_, ?_, ash_pour7, ?_⟩ <;> decide +kernel

theorem wit_AshCommandsAct_7 : ∃ (m : MbxId) (j : Job) (s : State), (mayRun s m 0x0A07 j) ∧
    let us := ashUnits j

    let a := fldLE j.payload 8 8

    let n : AshJob := { job := j.id, part := j.part, first := fldLE j.payload 0 4, count := us.length, addr := a, left := us }
    (sysNook s = true) ∧ (a % 64 = 0) ∧ ∃ x, (s.tiers.jobs.find? (·.job == j.id) = some x) ∧ (x.left = []) ∧ (engBusy s (ashTok j.id) = false) := by
  refine ⟨.a, ashJ 0x0A07, run (wash fun x => { x with jobs := [ashR] }) (ashJ 0x0A07), ?_, ?_, ?_, ashR, ?_⟩ <;> decide +kernel

theorem wit_AshCommandsAct_8 : ∃ (m : MbxId) (j : Job) (s : State), (mayRun s m 0x0A08 j) ∧ (ashRange j s = .ok) :=
  ⟨.a, ashJ 0x0A08, run (wash fun x => { x with units := [au] }) (ashJ 0x0A08), by decide +kernel⟩

theorem wit_AshCommandsAct_9 : ∃ (m : MbxId) (j : Job) (s : State), (mayRun s m 0x0A09 j) ∧ (sysNook s = true) :=
  ⟨.a, jb 0x0A09 ([]), run (wash id) (jb 0x0A09 ([])), by decide +kernel⟩

theorem wit_AshCommandsAct_10 : ∃ (t : Nat) (cpl : CinderCpl) (d : Bytes) (a : AshTray) (c : Cinder) (s : State), (s.ashTray? t = some a) ∧ (a.failed = false) ∧ (phaseNow a cpl = true) ∧ (openCmd s t cpl.qid cpl.cid = some c) ∧ (cpl.rsv = false) ∧
    let s1 := takeCpl t cpl c s
    (cpl.status ≤ 1) :=
  ⟨5, cpl 1, [], ashT, cin 3, wcin 3, by decide +kernel⟩

theorem wit_AshCommandsAct_11 : ∃ (t : Nat) (cpl : CinderCpl) (d : Bytes) (a : AshTray) (c : Cinder) (s : State), (s.ashTray? t = some a) ∧ (a.failed = false) ∧ (phaseNow a cpl = true) ∧ (openCmd s t cpl.qid cpl.cid = some c) ∧ (cpl.rsv = false) ∧
    let s1 := takeCpl t cpl c s
    ∃ r, (cpl.status = 2) ∧ (c.opc = 2) ∧ (s1.tiers.reads.find? (fun r => r.id == c.read && r.st.isNone) = some r) := by
  refine ⟨5, cpl 2, [], ashT, cin 2, wash (fun x => { x with cmds := [cin 2], reads := [{}] }), ?_, ?_, ?_, ?_, ?_, {}, ?_⟩ <;> decide +kernel

theorem wit_AshCommandsAct_12 : ∃ (t : Nat) (cpl : CinderCpl) (d : Bytes) (a : AshTray) (c : Cinder) (s : State), (s.ashTray? t = some a) ∧ (a.failed = false) ∧ (phaseNow a cpl = true) ∧ (openCmd s t cpl.qid cpl.cid = some c) ∧ (cpl.rsv = false) ∧
    let s1 := takeCpl t cpl c s
    (cpl.status = 3) ∧ (c.opc = 3) :=
  ⟨5, cpl 3, [], ashT, cin 3, wcin 3, by decide +kernel⟩

theorem wit_AshCommandsAct_13 : ∃ (t : Nat) (cpl : CinderCpl) (d : Bytes) (a : AshTray) (c : Cinder) (s : State), (s.ashTray? t = some a) ∧ (a.failed = false) ∧ (phaseNow a cpl = true) ∧ (openCmd s t cpl.qid cpl.cid = some c) ∧ (cpl.rsv = false) ∧
    let s1 := takeCpl t cpl c s
    (cpl.status = 4) ∧ (c.opc = 4) :=
  ⟨5, cpl 4, [], ashT, cin 4, wcin 4, by decide +kernel⟩

theorem wit_AshCommandsAct_14 : ∃ (t : Nat) (cpl : CinderCpl) (d : Bytes) (a : AshTray) (c : Cinder) (s : State), (s.ashTray? t = some a) ∧ (a.failed = false) ∧ (phaseNow a cpl = true) ∧ (openCmd s t cpl.qid cpl.cid = some c) ∧ (cpl.rsv = false) ∧
    let s1 := takeCpl t cpl c s
    ((cpl.status = 5 ∨ 7 ≤ cpl.status ∨ (2 ≤ cpl.status ∧ cpl.status ≤ 4 ∧ c.opc ≠ cpl.status))) :=
  ⟨5, cpl 7, [], ashT, cin 4, wcin 4, by decide +kernel⟩

theorem wit_AshCommandsAct_15 : ∃ (t : Nat) (cpl : CinderCpl) (d : Bytes) (a : AshTray) (c : Cinder) (s : State), (s.ashTray? t = some a) ∧ (a.failed = false) ∧ (phaseNow a cpl = true) ∧ (openCmd s t cpl.qid cpl.cid = some c) ∧ (cpl.rsv = false) ∧
    let s1 := takeCpl t cpl c s
    (cpl.status = 6) ∧ (c.opc ≠ 6) :=
  ⟨5, cpl 6, [], ashT, cin 4, wcin 4, by decide +kernel⟩

theorem wit_AshCommandsAct_16 : ∃ (t : Nat) (qid : Nat) (cid : Nat) (c : Cinder) (s : State), (openCmd s t qid cid = some c) ∧ (c.opc ≠ 6) ∧ (c.aborting = false) ∧ (c.at_ + 100000000 ≤ s.t) :=
  ⟨5, 1, 9, cin 2, { wcin 2 with t := 100000000 }, by decide +kernel⟩

theorem wit_AshCommandsAct_17 : ∃ (t : Nat) (fatal : Bool) (s : State), ((fatal = true ∨ (s.tiers.cmds.any fun c => c.tray == t && c.opc == 6 && !c.waits && decide (c.at_ + 10000000 ≤ s.t)) = true)) :=
  ⟨5, false, { wcin 6 with t := 10000000 }, by decide +kernel⟩

theorem wit_AshCommandsAct_18 : ∃ (t : Nat) (a : Nat) (n : Nat) (s : State), ((s.tray t).mode = 3) ∧
    let within := s.tiers.cmds.any fun c => c.tray == t && !c.waits && c.len != 0 && decide (c.buf ≤ a) && decide (a + n ≤ c.buf + c.len)
    (within = true) :=
  ⟨5, 65536 + 4095, 1, wcin 2, by decide +kernel⟩

theorem wit_AshCommandsAct_19 : ∃ (t : Nat) (a : Nat) (n : Nat) (s : State), ((s.tray t).mode = 3) ∧
    let within := s.tiers.cmds.any fun c => c.tray == t && !c.waits && c.len != 0 && decide (c.buf ≤ a) && decide (a + n ≤ c.buf + c.len)
    (within = false) :=
  ⟨5, 65536 + 4095, 2, wcin 2, by decide +kernel⟩

theorem wit_AshCommandsAct_20 : ∃ (t : Nat) (c : Nat) (b : Nat) (s : State), ((s.nblock t c b).bad = true) ∧ ((s.nblock t c b).leaving = false) :=
  ⟨5, 0, 4, wash fun x => { x with trays := [{ ashT with blocks := [(0, { id := 4, bad := true })] }] }, by decide +kernel⟩

theorem wit_AshCommandsAct_21 : ∃ (t : Nat) (c : Nat) (b : Nat) (a : AshTray) (s : State), (s.ashTray? t = some a) ∧ (a.failed = false) ∧ ((s.nblock t c b).leaving = false) ∧ ((s.nblock t c b).bad = false) ∧ ((a.readLimit ≤ (s.nblock t c b).reads ∨ (s.nblock t c b).flips = true)) :=
  ⟨5, 0, 4, { ashT with blocks := [(0, { id := 4, flips := true })] }, wash fun x => { x with trays := [{ ashT with blocks := [(0, { id := 4, flips := true })] }] }, by decide +kernel⟩

theorem wit_AshCommandsAct_22 : ∃ (t : Nat) (c : Nat) (b : Nat) (a : AshTray) (s : State), (s.ashTray? t = some a) ∧ (a.failed = false) ∧ (fewFree a c = true) ∧ (disturbed a c = false) ∧ (collectable s a c = some b) :=
  ⟨5, 0, 4, ashC, wash fun x => { x with trays := [ashC] }, by decide +kernel⟩

theorem wit_AshCommandsAct_23 : ∃ (p : Nat) (u : Nat) (x : AUnit) (s : State), (s.tiers.pendU.find? (fun y => y.part == p && y.unit == u) = some x) ∧ (allProgrammed s x = true) :=
  ⟨1, 2, au, wash fun x => { x with pendU := [au] }, by decide +kernel⟩

theorem wit_TenancyCommandsAct_1 : ∃ (m : MbxId) (j : Job) (k : Nat) (ks : List Nat) (s : State), (mayRun s m 0x0301 j) ∧ (createBad j.payload = false) ∧ (s.flash.prof.role ≠ 1) ∧ (createBusy s j.payload = false) ∧ (s.power.trngFail = false) ∧ (s.ten.keyPool = k :: ks) :=
  ⟨.a, jb 0x0301 (mkB), 5, [], run (wpool [5] []) (jb 0x0301 (mkB)), by decide +kernel⟩

theorem wit_TenancyCommandsAct_2 : ∃ (m : MbxId) (j : Job) (k : Nat) (ks : List Nat) (s : State), (mayRun s m 0x0301 j) ∧ (createBad j.payload = false) ∧ (s.flash.prof.role ≠ 1) ∧ (createBusy s j.payload = false) ∧ (s.power.trngFail = false) ∧ (s.ten.keyPool = []) :=
  ⟨.a, jb 0x0301 (mkB), 5, [], run (wpool [] []) (jb 0x0301 (mkB)), by decide +kernel⟩

theorem wit_TenancyCommandsAct_3 : ∃ (m : MbxId) (j : Job) (s : State), (mayRun s m 0x0302 j) ∧
    let p := fldLE j.payload 0 1

    let s1 := startJob j s

    let nooks := s1.nooksOf p

    let s2 := endJobs p j.id (endChains p .quiesced s1)

    let gone := fun (m : NookMove) => nooks.contains m.nook || m.dst == .part p

    let s3 := (s2.ten.moves.filter gone).foldl (fun s m => finish m.job .quiesced 0 [] s) s2

    let s4 : State := { s3 with ten.moves := s3.ten.moves.filter (! gone ·) }

    let s5 := (s1.traysOf p).foldl (fun s t => leaveTray none t s) ((s1.saxOf p).foldl (fun s k => leaveSax none k s) s4)

    let owner := s5.ten.nooks.map fun o => if o == .part p then Owner.free else o

    let s6 := forgetPart p { s5 with ten.nooks := owner }
    (p ≤ 15) ∧ ((s.part? p).isSome = true) ∧ (partHolds s1 p = false) :=
  ⟨.a, jb 0x0302 ([3]), run ({ w with ten := { w.ten with parts := w.ten.parts ++ [{ id := 3 }] } }) (jb 0x0302 ([3])), by decide +kernel⟩

theorem wit_TenancyCommandsAct_4 : ∃ (m : MbxId) (j : Job) (s : State), (mayRun s m 0x0303 j) ∧
    let n := fldLE j.payload 0 1

    let o := fldLE j.payload 1 1
    (n ≤ 95) ∧ (o ≤ 15) ∧ (s.nookOwner n = .free) ∧ ((s.part? o).isSome = true) ∧ (moving s n = false) ∧ (((heldExts s).any fun e => e.nook == n) = false) ∧ (s.power.trngFail = false) :=
  ⟨.a, jb 0x0303 ([4, 1]), run (w) (jb 0x0303 ([4, 1])), by decide +kernel⟩

theorem wit_TenancyCommandsAct_5 : ∃ (m : MbxId) (j : Job) (p : Nat) (k : Nat) (s : State), (mayRun s m 0x0303 j) ∧
    let n := fldLE j.payload 0 1

    let o := fldLE j.payload 1 1

    let dst : Owner := if o = 255 then .free else .part o
    (n ≤ 95) ∧ ((o = 255 ∨ (o ≤ 15 ∧ (s.part? o).isSome = true))) ∧ (s.nookOwner n = .part p) ∧ (dst ≠ .part p) ∧ (moving s n = false) ∧ (((heldExts s).any fun e => e.nook == n) = false) ∧ (s.power.trngFail = false) ∧ ((s.nooksOf p).find? (fun m => m != n && !moving s m) = some k) ∧ (moveBusy s p n k = false) :=
  ⟨.a, jb 0x0303 ([1, 255]), 1, 2, run (w) (jb 0x0303 ([1, 255])), by decide +kernel⟩

theorem wit_TenancyCommandsAct_6 : ∃ (m : MbxId) (j : Job) (s : State), (mayRun s m 0x0304 j) ∧
    let p := fldLE j.payload 0 1
    (p ≤ 15) ∧ ((s.part? p).isSome = true) :=
  ⟨.a, jb 0x0304 ([1]), run (w) (jb 0x0304 ([1])), by decide +kernel⟩

theorem wit_TenancyCommandsAct_7 : ∃ (m : MbxId) (j : Job) (x : Part) (s : State), (mayRun s m 0x0305 j) ∧
    let p := fldLE j.payload 0 1
    (p ≤ 15) ∧ (s.part? p = some x) ∧ ((x.recs.any fun r => !r.ended) = false) :=
  ⟨.a, jb 0x0305 ([1]), part1, run (w) (jb 0x0305 ([1])), by decide +kernel⟩

theorem wit_TenancyCommandsAct_8 : ∃ (m : MbxId) (j : Job) (x : Part) (s : State), (mayRun s m 0x0306 j) ∧ ((j.manager = true ∨ fldLE j.payload 0 1 = j.part)) ∧ (s.part? (fldLE j.payload 0 1) = some x) :=
  ⟨.a, jb 0x0306 ([1]), part1, run (w) (jb 0x0306 ([1])), by decide +kernel⟩

theorem wit_TenancyCommandsAct_9 : ∃ (m : MbxId) (j : Job) (x : Part) (s : State), (mayRun s m 0x0306 j) ∧ ((j.manager = true ∨ fldLE j.payload 0 1 = j.part)) ∧ (s.part? (fldLE j.payload 0 1) = none) :=
  ⟨.a, jb 0x0306 ([9]), part1, run (w) (jb 0x0306 ([9])), by decide +kernel⟩

theorem wit_TenancyCommandsAct_10 : ∃ (m : MbxId) (j : Job) (s : State), (mayRun s m 0x0501 j) ∧
    let p := fldLE j.payload 0 1

    let o := fldLE j.payload 2 1

    let owner : Option Nat := if o = 255 then none else some o
    ((o ≤ 15 ∨ o = 255)) ∧ ((o ≠ 255 → (s.part? o).isSome = true)) ∧ (fldLE j.payload 1 1 = 0) ∧ ((s.port p).kind = 0) :=
  ⟨.a, jb 0x0501 ([0, 0, 255]), run (w) (jb 0x0501 ([0, 0, 255])), by decide +kernel⟩

theorem wit_TenancyCommandsAct_11 : ∃ (m : MbxId) (j : Job) (s : State), (mayRun s m 0x0501 j) ∧
    let p := fldLE j.payload 0 1

    let o := fldLE j.payload 2 1

    let owner : Option Nat := if o = 255 then none else some o
    ((o ≤ 15 ∨ o = 255)) ∧ ((o ≠ 255 → (s.part? o).isSome = true)) ∧ (fldLE j.payload 1 1 = 1) ∧ (p ≤ 31) ∧ ((s.tray p).mode ≠ 0) ∧ (((s.tray p).mode = 2 → (s.tray p).owner ≠ owner → (owner.bind s.part?).elim true (fun x => decide ((s.dir.agents.filter (·.part == x.id)).length < x.agents)) = true)) :=
  ⟨.a, jb 0x0501 ([1, 1, 255]), run (w) (jb 0x0501 ([1, 1, 255])), by decide +kernel⟩

theorem wit_TenancyCommandsAct_12 : ∃ (n : Nat) (x : NookMove) (s : State), (x ∈ s.ten.moves) ∧ (x.nook = n) ∧ (x.at_ + 4000000 ≤ s.t) :=
  ⟨4, { nook := 4, dst := .part 1 }, { wmov 4 with t := 4000000 }, by decide +kernel⟩

theorem wit_TenancyCommandsAct_13 : ∃ (n : Nat) (x : NookMove) (s : State), (s.ten.moves.find? (·.nook == n) = some x) ∧ (s.chains.chains.any (runsOn s n) = false) ∧ (s.power.trngFail = false) :=
  ⟨4, { nook := 4, dst := .part 1 }, wmov 4, by decide +kernel⟩

theorem wit_TenancyCommandsAct_14 : ∃ (n : Nat) (x : NookMove) (s : State), (s.ten.moves.find? (·.nook == n) = some x) ∧ (s.chains.chains.any (runsOn s n) = false) ∧ (s.power.trngFail = true) :=
  ⟨4, { nook := 4, dst := .part 1 }, wnokey, by decide +kernel⟩

theorem wit_TenancyCommandsAct_15 : ∃ (n : Nat) (r : Nat) (s : State), ((nookBare s n = true → ((nookChans n).all fun c => chanGone (s.chan c) || (s.chan c).zeroLine.elim true fun p => decide ((r + 1) * 2 ^ 19 ≤ p)) = true)) :=
  ⟨4, 1, { w with ten.unzeroed := [(4, 1)] }, by decide +kernel⟩

theorem wit_TenancyCommandsAct_16 : ∃ (s : State), (s.ten.keyPool.length < 4) ∧ (s.power.trngFail = false) ∧ (sysShare s = true) ∧ (s.ten.creates = []) :=
  ⟨wpool [] [], by decide +kernel⟩

theorem wit_TenancyCommandsAct_17 : ∃ (w : PartWait) (ws : List PartWait) (s : State), (s.ten.keyPool.length < 4) ∧ (s.power.trngFail = false) ∧ (sysShare s = true) ∧ (s.ten.creates = w :: ws) ∧
    let s1 : State := { s with ten := { s.ten with nextKey := s.ten.nextKey + 1, creates := ws } }
    (createBusy s1 w.payload = false) :=
  ⟨{ job := 1, payload := mkB }, [], wpool [] [{ job := 1, payload := mkB }], by decide +kernel⟩

theorem wit_TenancyCommandsAct_18 : ∃ (w : PartWait) (ws : List PartWait) (s : State), (s.ten.keyPool.length < 4) ∧ (s.power.trngFail = false) ∧ (sysShare s = true) ∧ (s.ten.creates = w :: ws) ∧
    let s1 : State := { s with ten := { s.ten with nextKey := s.ten.nextKey + 1, creates := ws } }
    (createBusy s1 w.payload = true) :=
  ⟨{ job := 1, payload := mkB1 }, [], wpool [] [{ job := 1, payload := mkB1 }], by decide +kernel⟩

theorem wit_TenancyCommandsAct_19 : ∃ (w : PartWait) (s : State), (s.ten.creates = [w]) ∧ (w.at_ + 2000000000 ≤ s.t) :=
  ⟨{ job := 1 }, { wpool [] [{ job := 1 }] with t := 2000000000 }, by decide +kernel⟩

theorem wit_FaultsAndBackgroundAct_1 : ∃ (nook : Nat) (p : Nat) (t : Nat) (r : Nat) (s : State), ((s.table? p t).isSome = true) :=
  ⟨1, 1, 4, 3, wtb [tblC], by decide +kernel⟩

theorem wit_FaultsAndBackgroundAct_2 : ∃ (nook : Nat) (p : Nat) (id : Nat) (t : Template) (s : State), (s.template? nook id = some t) ∧ (t.part = p) :=
  ⟨1, 1, 6, tpl, { wch with chains := { wch.chains with templates := [tpl] } }, by decide +kernel⟩

theorem wit_FaultsAndBackgroundAct_3 : ∃ (p : Nat) (t : Nat) (x : Table) (s : State), (s.table? p t = some x) :=
  ⟨1, 4, tbl, wtb [tbl], by decide +kernel⟩

theorem wit_FaultsAndBackgroundAct_4 : ∃ (p : Nat) (l : Nat) (e : Nat) (s : State), ((s.bentry? p l e).isSome = true) :=
  ⟨1, 2, 0, wbl (bent 1 none), by decide +kernel⟩

theorem wit_FaultsAndBackgroundAct_5 : ∃ (b : Bool) (s : State),
    let s1 := sramFault none [7, b2n b] s
    (s1.cal.running = true) :=
  ⟨true, { w with cal.running := true }, by decide +kernel⟩

theorem wit_FaultsAndBackgroundAct_6 : ∃ (b : Bool) (s : State),
    let s1 := sramFault none [7, b2n b] s
    (s1.cal.running = false) :=
  ⟨false, w, by decide +kernel⟩

theorem wit_FaultsAndBackgroundAct_8 : ∃ (p : Nat) (s : State), ((s.port p).sess.phase = 3) :=
  ⟨4, w, by decide +kernel⟩

theorem wit_FaultsAndBackgroundAct_10 : ∃ (id : Nat) (k : Trk) (s : State), (s.mem.trks.find? (·.id == id) = some k) :=
  ⟨7, { id := 7, vc := .msg, src := accelEp wm 12, txn := 5, svc := 3, opc := 2 }, wtk, by decide +kernel⟩

theorem wit_FaultsAndBackgroundAct_11 : ∃ (nook : Nat) (cid : Nat) (c : Chain) (s : State), (s.chain? cid = some c) ∧ (c.home = nook) ∧ (c.admitted = true) :=
  ⟨1, 50, chr copyB, withCh (chr copyB) wch, by decide +kernel⟩

theorem wit_FaultsAndBackgroundAct_12 : ∃ (nook : Nat) (cid : Nat) (c : Chain) (s : State), (s.chain? cid = some c) ∧ (c.home = nook) ∧ (c.admitted = false) :=
  ⟨1, 50, chq, withCh chq wch, by decide +kernel⟩

theorem wit_FaultsAndBackgroundAct_13 : ∃ (nook : Nat) (set : Nat) (s : State), (setLost s nook set = false) :=
  ⟨1, 4095, wd, by decide +kernel⟩

theorem wit_FaultsAndBackgroundAct_14 : ∃ (s : State), (s.mantel.restarting = false) :=
  ⟨w, by decide +kernel⟩

theorem wit_FaultsAndBackgroundAct_16 : ∃ (c : Nat) (why : RetireWhy) (s : State), (c < 768) ∧ (chanGone (s.chan c) = false) ∧ (retireDue s c why = true) ∧
    let s1 := modChan c (fun k => { k with retiring := some s.t, lead := (sameFault s c).elim c fun d => (s.chan d).lead }) s

    let go := fun (t : State) => exec (.channelRetireTrigger c why) s = .next (settle s
        (recallAll (fun d => onChan t c d.line) (loseReads c (loseStrokes c (dropMapPages c t)))))
    (s.chanOwner c = none) :=
  ⟨767, .noData, w, by decide +kernel⟩

theorem wit_FaultsAndBackgroundAct_17 : ∃ (c : Nat) (why : RetireWhy) (s : State), (c < 768) ∧ (chanGone (s.chan c) = false) ∧ (retireDue s c why = true) ∧
    let s1 := modChan c (fun k => { k with retiring := some s.t, lead := (sameFault s c).elim c fun d => (s.chan d).lead }) s

    let go := fun (t : State) => exec (.channelRetireTrigger c why) s = .next (settle s
        (recallAll (fun d => onChan t c d.line) (loseReads c (loseStrokes c (dropMapPages c t)))))
    ∃ p, (s.chanOwner c = some p) ∧ (sameFault s c = none) := by
  refine ⟨8, .calibration, w, ?_, ?_, ?_, 1, ?_⟩ <;> decide +kernel

theorem wit_FaultsAndBackgroundAct_18 : ∃ (c : Nat) (why : RetireWhy) (s : State), (c < 768) ∧ (chanGone (s.chan c) = false) ∧ (retireDue s c why = true) ∧
    let s1 := modChan c (fun k => { k with retiring := some s.t, lead := (sameFault s c).elim c fun d => (s.chan d).lead }) s

    let go := fun (t : State) => exec (.channelRetireTrigger c why) s = .next (settle s
        (recallAll (fun d => onChan t c d.line) (loseReads c (loseStrokes c (dropMapPages c t)))))
    ∃ p d, (s.chanOwner c = some p) ∧ (sameFault s c = some d) := by
  refine ⟨8, .calibration, wpair9, ?_, ?_, ?_, 1, 9, ?_⟩ <;> decide +kernel

theorem wit_FaultsAndBackgroundAct_19 : ∃ (c : Nat) (k : Chan) (s : State), (s.chans[c]? = some k) ∧ (k.retiring.isSome = true) ∧ ((s.chanOwner c).elim false (fun p => !recoveryRuns s p 0x0030 k.lead) = false) :=
  ⟨8, { retiring := some 0 }, { w with chans := w.chans.set 8 { retiring := some 0 } }, by decide +kernel⟩

theorem wit_FaultsAndBackgroundAct_20 : ∃ (p : Nat) (x : Part) (r : Recovery) (s : State), (s.part? p = some x) ∧ (x.recs.filter (·.ended) = [r]) :=
  ⟨1, part1r, { code := 0x30, ended := true }, wpt part1r, by decide +kernel⟩

theorem wit_FaultsAndBackgroundAct_21 : ∃ (h : Int) (ts : List Int) (s : State), (ts.length = 24) :=
  ⟨0, hotTs, w, by decide +kernel⟩

theorem wit_FaultsAndBackgroundAct_22 : ∃ (t0 : Nat) (s : State), (s.flash.prof.secure = false) ∧ (s.power.emergency = false) ∧ (inReset s = false) ∧ (s.ns % 256 = 0) ∧ (0 < s.power.step) ∧ (s.power.warn = false) ∧ (s.power.powerW ≤ 2650) ∧ (s.power.lowAt = some t0) ∧ (t0 + 10000000 ≤ s.t) ∧ (s.power.stepAt + 10000000 ≤ s.t) :=
  ⟨0, { wpw (fun p => { p with step := 1, lowAt := some 0 }) with t := 10000000 }, by decide +kernel⟩

theorem wit_FaultsAndBackgroundAct_23 : ∃ (s : State), (s.flash.prof.secure = false) ∧ (s.power.emergency = false) ∧ (inReset s = false) ∧ (s.ns % 256 = 0) ∧ ((s.power.warn = true ∨ 2650 < s.power.powerW)) ∧ (s.power.stepAt + 1000000 ≤ s.t) ∧ (s.power.step < 3) :=
  ⟨{ wpw (fun p => { p with warn := true }) with t := 1000000 }, by decide +kernel⟩

theorem wit_FaultsAndBackgroundAct_24 : ∃ (w : Nat) (mv : Nat) (s : State), (s.mantel.teleAt < s.ns / 1000000) :=
  ⟨2700, 44000, wb 1000000 up0, by decide +kernel⟩

theorem wit_StartAndPowerAct_2 : ∃ (m : MbxId) (j : Job) (s : State), (mayRun s m 0x0201 j) ∧ (fldLE j.payload 0 1 ≤ 3) ∧ (zeroAt j.payload 1 3 = true) ∧ (fldLE j.payload 4 4 + fldLE j.payload 8 4 ≤ slotBytes4) ∧ (fldLE j.payload 8 4 ≤ 4096) :=
  ⟨.a, jb 0x0201 ([3, 0, 0, 0] ++ toLE 4 258048 ++ toLE 4 4096), run (w) (jb 0x0201 ([3, 0, 0, 0] ++ toLE 4 258048 ++ toLE 4 4096)), by decide +kernel⟩

theorem wit_StartAndPowerAct_3 : ∃ (m : MbxId) (j : Job) (s : State), (mayRun s m 0x0202 j) ∧
    let n := fldLE j.payload 0 1

    let put := fun (cf : List Host.Cell) => cellsWrite 0xFF cf (n * slotBytes4 + fldLE j.payload 4 4) (j.payload.drop 8)
    (n ≤ 3) ∧ (zeroAt j.payload 1 3 = true) ∧ (fldLE j.payload 4 4 + (j.payload.drop 8).length ≤ slotBytes4) ∧ (slotActive s n = false) :=
  ⟨.a, jb 0x0202 ([1, 0, 0, 0] ++ toLE 4 262142 ++ [7, 8]), run (w) (jb 0x0202 ([1, 0, 0, 0] ++ toLE 4 262142 ++ [7, 8])), by decide +kernel⟩

theorem wit_StartAndPowerAct_10 : ∃ (s : State), (s.power.valid = false) :=
  ⟨wpw fun p => { p with valid := false }, by decide +kernel⟩

theorem wit_StartAndPowerAct_15 : ∃ (fwOk : Bool) (idOk : Bool) (s : State), (s.power.valid = true) ∧ (s.power.startDue = true) ∧ ((s.power.refLost.getD 0 false && s.power.refLost.getD 1 false) = false) :=
  ⟨true, true, State.reset, by decide +kernel⟩

theorem wit_StartAndPowerAct_17 : ∃ (s : State), (s.power.readyBasic = true) ∧ (s.power.readyFull = false) ∧ (inReset s = false) :=
  ⟨wpw fun p => { p with readyFull := false }, by decide +kernel⟩

theorem wit_StartAndPowerAct_18 : ∃ (s : State), (s.power.brakeLow = false) ∧ (s.power.brakeAsserts = []) ∧ (inReset s = false) :=
  ⟨w, by decide +kernel⟩

theorem wit_StartAndPowerAct_19 : ∃ (a : Nat) (s : State), (s.power.brakeLow = false) ∧ (s.power.brakeAsserts = [a]) ∧ (s.t ≤ a + 10000000) ∧ (inReset s = false) :=
  ⟨0, { wpw (fun p => { p with brakeAsserts := [0] }) with t := 10000000 }, by decide +kernel⟩

theorem wit_StartAndPowerAct_20 : ∃ (s : State), (s.power.brakeLow = true) :=
  ⟨wpw fun p => { p with brakeLow := true }, by decide +kernel⟩

theorem wit_StartAndPowerAct_21 : ∃ (s : State), (s.power.brakeLatch = true) ∧ (s.power.brakeLow = false) ∧ (s.power.brakeHighAt + 50000000 ≤ s.t) :=
  ⟨{ wpw (fun p => { p with brakeLatch := true }) with t := 50000000 }, by decide +kernel⟩

theorem wit_StartAndPowerAct_22 : ∃ (k : Nat) (s : State), (s.power.refLost.getD k false = false) ∧
    let s1 : State := { s with power.refLost := s.power.refLost.set k true }
    (k = 2) :=
  ⟨2, w, by decide +kernel⟩

theorem wit_StartAndPowerAct_23 : ∃ (k : Nat) (s : State), (s.power.refLost.getD k false = false) ∧
    let s1 : State := { s with power.refLost := s.power.refLost.set k true }
    (k ≤ 1) ∧ ((s1.power.refLost.getD 0 false && s1.power.refLost.getD 1 false) = true) :=
  ⟨1, wpw fun p => { p with refLost := [true, false, false] }, by decide +kernel⟩

theorem wit_StartAndPowerAct_24 : ∃ (k : Nat) (s : State), (s.power.refLost.getD k false = false) ∧
    let s1 : State := { s with power.refLost := s.power.refLost.set k true }
    (k ≤ 1) ∧ ((s1.power.refLost.getD 0 false && s1.power.refLost.getD 1 false) = false) :=
  ⟨1, w, by decide +kernel⟩

theorem wit_StartAndPowerAct_26 : ∃ (low : Bool) (s : State), (low ≠ s.twin.sense) :=
  ⟨true, w, by decide +kernel⟩

theorem wit_StartAndPowerAct_27 : ∃ (c : Nat) (s : State), (s.power.valid = true) ∧ (c ≤ 4) :=
  ⟨4, w, by decide +kernel⟩

theorem wit_TwinActs_1 : ∃ (m : MbxId) (j : Job) (s : State), (mayRun s m 0x0204 j) ∧
    let a := fldLE j.payload 0 1

    let b := fldLE j.payload 1 1
    (s.flash.prof.sysNooks ≠ 0) ∧ (zeroAt j.payload 2 6 = true) ∧ (a ≠ b) ∧ (a % 4 = 0) ∧ (b % 4 = 0) ∧ ((s.port a).wide = true) ∧ ((s.port b).wide = true) ∧ ((s.port a).kind = 2) ∧ ((s.port b).kind = 2) ∧ (fldLE j.payload 8 8 ≠ 0) ∧ (s.twin.st = .unpaired) ∧ (s.twin.pairJob = none) :=
  ⟨.a, jb 0x0204 ([8, 16, 0, 0, 0, 0, 0, 0] ++ toLE 8 9), run (wtw fun x => { x with st := .unpaired }) (jb 0x0204 ([8, 16, 0, 0, 0, 0, 0, 0] ++ toLE 8 9)), by decide +kernel⟩

theorem wit_TwinActs_2 : ∃ (m : MbxId) (j : Job) (s : State), (mayRun s m 0x0205 j) ∧ (s.flash.prof.sysNooks ≠ 0) ∧ (s.twin.st = .unpaired) :=
  ⟨.a, jb 0x0205 ([]), run (wtw fun x => { x with st := .unpaired }) (jb 0x0205 ([])), by decide +kernel⟩

theorem wit_TwinActs_3 : ∃ (m : MbxId) (j : Job) (s : State), (mayRun s m 0x0205 j) ∧ (s.flash.prof.sysNooks ≠ 0) ∧ (s.twin.st ≠ .unpaired) :=
  ⟨.a, jb 0x0205 ([]), run (wtw id) (jb 0x0205 ([])), by decide +kernel⟩

theorem wit_TwinActs_4 : ∃ (m : MbxId) (j : Job) (s : State), (mayRun s m 0x0206 j) ∧ (s.flash.prof.sysNooks ≠ 0) :=
  ⟨.a, jb 0x0206 ([]), run (wtw id) (jb 0x0206 ([])), by decide +kernel⟩

theorem wit_TwinActs_5 : ∃ (m : MbxId) (j : Job) (s : State), (mayRun s m 0x0207 j) ∧
    let p := fldLE j.payload 0 1
    (s.flash.prof.sysNooks ≠ 0) ∧ (s.twin.st = .paired) ∧ (s.twin.takeJob = none) ∧ (s.twin.giving = none) ∧ (s.twin.twinned.contains p = true) ∧ (s.twin.primary.contains p = true) :=
  ⟨.a, jb 0x0207 ([1]), run (wtw fun x => { x with primary := [1] }) (jb 0x0207 ([1])), by decide +kernel⟩

theorem wit_TwinActs_6 : ∃ (m : MbxId) (j : Job) (s : State), (mayRun s m 0x0207 j) ∧
    let p := fldLE j.payload 0 1
    (s.flash.prof.sysNooks ≠ 0) ∧ (s.twin.st = .paired) ∧ (s.twin.takeJob = none) ∧ (s.twin.giving = none) ∧ (s.twin.twinned.contains p = true) ∧ (s.twin.primary.contains p = false) :=
  ⟨.a, jb 0x0207 ([1]), run (wtw id) (jb 0x0207 ([1])), by decide +kernel⟩

theorem wit_TwinActs_7 : ∃ (s : State), ((s.twin.st = .degraded ∨ s.twin.st = .alone ∨ (s.twin.st = .unpaired ∧ (twinProfile s = true ∨ s.twin.pairJob.isSome = true)))) ∧ (matching s = true) :=
  ⟨wtw fun x => { x with st := .degraded }, by decide +kernel⟩

theorem wit_TwinActs_8 : ∃ (a : Nat) (s : State), (s.twin.sense = true) ∧ (s.twin.senseAt = some a) ∧ (a + 1000000 ≤ s.t) ∧ ((s.twin.st = .paired ∨ s.twin.st = .syncing ∨ s.twin.st = .degraded)) :=
  ⟨0, { wtw (fun x => { x with st := .syncing, sense := true, senseAt := some 0 }) with t := 1000000 }, by decide +kernel⟩

theorem wit_TwinActs_9 : ∃ (a : Nat) (s : State), (s.twin.downAt = some a) ∧ (a + 2000000 ≤ s.t) ∧ (twinDark s = true) ∧ (s.twin.sense = false) ∧ (s.mirrors = true) :=
  ⟨0, { wtw (fun x => { x with downAt := some 0 }) with t := 2000000, sax := w.sax.set 8 {} }, by decide +kernel⟩

theorem wit_TwinActs_10 : ∃ (s : State), (s.twin.st = .syncing) ∧ (s.twin.copying = []) :=
  ⟨wtw fun x => { x with st := .syncing }, by decide +kernel⟩

theorem wit_TwinActs_11 : ∃ (s : State), (s.twin.st = .syncing) ∧ (s.twin.copying ≠ []) :=
  ⟨wtw fun x => { x with st := .syncing, copying := [3] }, by decide +kernel⟩

theorem wit_TwinActs_12 : ∃ (w : Nat × Nat) (s : State), (s.twin.pairJob = some w) ∧ (w.2 + 1000000000 ≤ s.t) :=
  ⟨(3, 0), { wtw (fun x => { x with pairJob := some (3, 0) }) with t := 1000000000 }, by decide +kernel⟩

theorem wit_TwinActs_13 : ∃ (p : Nat) (a : Nat) (s : State),
    let runs := fun (c : Chain) => c.part == p && c.admitted && c.status.isNone && !c.ended
    (s.twin.giving = some (p, a)) ∧ ((a + 4000000 ≤ s.t ∨ s.chains.chains.any runs = false)) ∧
    let s1 := recallAll (cachedThere s p) (abortWhere runs .quiesced s)

    let busy := s1.chains.chains.any (fun c => c.part == p && c.admitted) || s1.dir.ents.any (cachedThere s1 p)
        || !s1.twin.open_.isEmpty || s1.twin.desc.any (·.2.1 == p)
    (busy = true) :=
  ⟨1, 0, withCh (chr copyB) (wtk1 id), by decide +kernel⟩

theorem wit_TwinActs_14 : ∃ (p : Nat) (a : Nat) (s : State),
    let runs := fun (c : Chain) => c.part == p && c.admitted && c.status.isNone && !c.ended
    (s.twin.giving = some (p, a)) ∧ ((a + 4000000 ≤ s.t ∨ s.chains.chains.any runs = false)) ∧
    let s1 := recallAll (cachedThere s p) (abortWhere runs .quiesced s)

    let busy := s1.chains.chains.any (fun c => c.part == p && c.admitted) || s1.dir.ents.any (cachedThere s1 p)
        || !s1.twin.open_.isEmpty || s1.twin.desc.any (·.2.1 == p)
    (busy = false) :=
  ⟨1, 0, wtk1 id, by decide +kernel⟩

theorem wit_TwinActs_15 : ∃ (p : Nat) (a : Nat) (txn : Nat) (h : Nat) (d : Bytes) (e : Extent) (s : State) (s1 : State), ((s.port p).kind = 2) ∧ (linkAlive s p = true) ∧ (police p (peerId s p) (rawFlits ((s.port p).sess.phase == 3) (1 + pktLen (8 + d.length))) true s = (true, h, s1)) ∧ (s1.twin.st = .paired) ∧ (anyExtent s1 a = some e) ∧ (e.mirror = 1) ∧ (s1.twin.twinned.contains e.part = true) ∧ (s1.twin.primary.contains e.part = false) :=
  ⟨8, base64, 5, (twP (wtw id) 72).2.1, List.replicate 64 3, { exp_ with mirror := 1 }, wtw id, (twP (wtw id) 72).2.2, by decide +kernel⟩

theorem wit_TwinActs_16 : ∃ (p : Nat) (q : Nat) (a : Nat) (txn : Nat) (h : Nat) (w : Bool) (d : Bytes) (m : MirrorMsg) (s : State) (s1 : State), ((s.port p).kind = 2) ∧ (linkAlive s p = true) ∧
    let refused := fun (n : Nat) => police p (peerId s p) (rawFlits ((s.port p).sess.phase == 3) (1 + pktLen n)) true s = (false, h, s1)
    (refused (8 + d.length)) :=
  ⟨8, 1, base64, 5, (twP wdebt 72).2.1, true, List.replicate 64 3, mAsh, wdebt, (twP wdebt 72).2.2, by decide +kernel⟩

theorem wit_TwinActs_17 : ∃ (p : Nat) (q : Nat) (a : Nat) (txn : Nat) (h : Nat) (w : Bool) (d : Bytes) (m : MirrorMsg) (s : State) (s1 : State), ((s.port p).kind = 2) ∧ (linkAlive s p = true) ∧
    let refused := fun (n : Nat) => police p (peerId s p) (rawFlits ((s.port p).sess.phase == 3) (1 + pktLen n)) true s = (false, h, s1)
    (refused (mirrorBytes m)) :=
  ⟨8, 1, base64, 5, (twP wdebt 16).2.1, true, List.replicate 64 3, mAsh, wdebt, (twP wdebt 16).2.2, by decide +kernel⟩

theorem wit_TwinActs_18 : ∃ (p : Nat) (q : Nat) (txn : Nat) (h : Nat) (m : MirrorMsg) (s : State) (s1 : State), ((s.port p).kind = 2) ∧ (linkAlive s p = true) ∧ (police p (peerId s p) (rawFlits ((s.port p).sess.phase == 3) (1 + pktLen (mirrorBytes m))) true s = (true, h, s1)) ∧
    let go := fun (st : Status) (t : State) => exec (.mirrorWrite p q txn m) s = .next (settle s (answerTwin p (mirrorSvc m) txn 7 st [] t))
    ∃ op b, (q = 16) ∧ (m = .desc op b) ∧ (s1.twin.st ≠ .unpaired) := by
  refine ⟨8, 16, 5, (twP (wtw id) 0).2.1, .desc 0x0205 [], wtw id, (twP (wtw id) 0).2.2, ?_, ?_, ?_, 0x0205, [], ?_⟩ <;> decide +kernel

theorem wit_TwinActs_19 : ∃ (p : Nat) (q : Nat) (txn : Nat) (h : Nat) (m : MirrorMsg) (s : State) (s1 : State), ((s.port p).kind = 2) ∧ (linkAlive s p = true) ∧ (police p (peerId s p) (rawFlits ((s.port p).sess.phase == 3) (1 + pktLen (mirrorBytes m))) true s = (true, h, s1)) ∧
    let go := fun (st : Status) (t : State) => exec (.mirrorWrite p q txn m) s = .next (settle s (answerTwin p (mirrorSvc m) txn 7 st [] t))
    ∃ b, (q = 16) ∧ (m = .calendar b) ∧ (s1.mirrors = true) := by
  refine ⟨8, 16, 5, (twP (wtw id) 2).2.1, .calendar [1, 2], wtw id, (twP (wtw id) 2).2.2, ?_, ?_, ?_, [1, 2], ?_⟩ <;> decide +kernel

theorem wit_TwinActs_20 : ∃ (p : Nat) (q : Nat) (txn : Nat) (h : Nat) (m : MirrorMsg) (s : State) (s1 : State), ((s.port p).kind = 2) ∧ (linkAlive s p = true) ∧ (police p (peerId s p) (rawFlits ((s.port p).sess.phase == 3) (1 + pktLen (mirrorBytes m))) true s = (true, h, s1)) ∧
    let go := fun (st : Status) (t : State) => exec (.mirrorWrite p q txn m) s = .next (settle s (answerTwin p (mirrorSvc m) txn 7 st [] t))
    (q ≤ 15) ∧ (s1.mirrors = true) ∧ (s1.twin.twinned.contains q = true) ∧ (s1.twin.primary.contains q = false) :=
  ⟨8, 1, 5, (twP (wtw id) 16).2.1, mAsh, wtw id, (twP (wtw id) 16).2.2, by decide +kernel⟩

theorem wit_TwinActs_21 : ∃ (q : Nat) (a : Nat) (d : Bytes) (e : Extent) (s : State), (anyExtent s a = some e) ∧ (e.part = q) ∧ (e.mirror = 1) :=
  ⟨1, base64, List.replicate 64 3, { exp_ with mirror := 1 }, wtw id, by decide +kernel⟩

theorem wit_StartAndPowerAct_1 : ∃ (m : MbxId) (j : Job) (s : State), (mayRun s m 0x0102 j) ∧ (s.mantel.fwStream = none) ∧ ((s.power.emergency = true → s.power.belowAt.elim false (fun t0 => decide (t0 + 10000000 ≤ s.t)) = true)) :=
  ⟨.a, jb 0x0102 ([]), run (w) (jb 0x0102 ([])), by decide +kernel⟩

theorem wit_StartAndPowerAct_4 : ∃ (m : MbxId) (j : Job) (s : State), (mayRun s m 0x0203 j) ∧ (fldLE j.payload 0 1 ≤ 3) ∧
    let s1 := startJob j s
    ((applySlot (fldLE j.payload 0 1) (bare s1)).isSome = true) :=
  ⟨.a, jb 0x0203 ([1, 0, 0, 0]), run (wslot) (jb 0x0203 ([1, 0, 0, 0])), by decide +kernel⟩

theorem wit_StartAndPowerAct_5 : ∃ (m : MbxId) (j : Job) (s : State), (mayRun s m 0x0203 j) ∧ (fldLE j.payload 0 1 ≤ 3) ∧
    let s1 := startJob j s
    ((applySlot (fldLE j.payload 0 1) (bare s1)).isSome = false) :=
  ⟨.a, jb 0x0203 ([2, 0, 0, 0]), run (wslot) (jb 0x0203 ([2, 0, 0, 0])), by decide +kernel⟩

theorem wit_StartAndPowerAct_6 : ∃ (s : State), (s.ember.lastSlot < s.slot) ∧ (s.flash.selectDue = []) ∧ (s.power.tooHot = true) ∧ (inReset s = false) :=
  ⟨{ wslot1 [] with power := { w.power with tooHot := true } }, by decide +kernel⟩

theorem wit_StartAndPowerAct_7 : ∃ (s : State), (s.ember.lastSlot < s.slot) ∧ (s.flash.selectDue = []) ∧ (s.power.tooHot = false) ∧
    let s1 : State := { s with ember.lastSlot := s.slot }
    (brakeWanted s1 = s.power.brake) :=
  ⟨wslot1 [], by decide +kernel⟩

theorem wit_StartAndPowerAct_8 : ∃ (s : State), (s.ember.lastSlot < s.slot) ∧ (s.flash.selectDue = []) ∧ (s.power.tooHot = false) ∧
    let s1 : State := { s with ember.lastSlot := s.slot }
    (brakeWanted s1 ≠ s.power.brake) ∧ (s.power.emergency = false) ∧ (inReset s = false) :=
  ⟨{ wslot1 [] with power := { w.power with brakeLow := true } }, by decide +kernel⟩

theorem wit_StartAndPowerAct_9 : ∃ (n : Nat) (j : Nat) (s : State), (s.ember.lastSlot < s.slot) ∧ (s.flash.selectDue = [(n, j)]) ∧ (s.power.tooHot = false) ∧
    let s1 : State := { s with ember.lastSlot := s.slot, flash.selectDue := [] }
    (brakeWanted s1 = s.power.brake) :=
  ⟨1, 9, wslot1 [(1, 9)], by decide +kernel⟩

theorem wit_StartAndPowerAct_16 : ∃ (s : State), (s.power.started = true) ∧ (s.power.readyBasic = false) ∧ (s.power.bootFail = false) ∧ (s.power.emergency = false) ∧ (inReset s = false) ∧ (s.ember.delays ≠ []) :=
  ⟨{ wpw (fun p => { p with readyBasic := false, readyFull := false }) with ember.delays := [5] }, by decide +kernel⟩

end

end Sys2Proof.Tests
end

section
/-! PROOFS. The nook moves that complete with BUSY (R23, R24). -/

namespace Sys2Proof.Machine

/-- The operands of a NOOK_MOVE that passes the checks before R23: a nook of the module that is not a system nook, and a new owner
that is free or a partition that exists. -/
structure MoveOperands (s : State) (n o : Nat) : Prop where
  nook : n ≤ 95
  owner : o = 255 ∨ (o ≤ 15 ∧ (s.part? o).isSome = true)
  notSystem : s.nookOwner n ≠ .system

/-- R23 keeps nook `n` where it is: its move has not completed, or an extent lies on it. -/
def MoveBlocked (s : State) (n : Nat) : Prop :=
  moving s n = true ∨ (heldExts s).any (·.nook == n) = true

/-- R24 refuses to take nook `n` from partition `p`: the nook that would take over its duties cannot, or (log entry 87) every other
nook of the partition is being moved itself. -/
def TakeRefused (s : State) (p n : Nat) : Prop :=
  ∀ k, (s.nooksOf p).find? (fun k => k != n && !moving s k) = some k → moveBusy s p n k = true

section
variable {m : MbxId} {j : Job} {s : State} {n o p : Nat}

/-! Starting a command changes nothing that NOOK_MOVE checks. -/

theorem MoveOperands.startJob (h : MoveOperands s n o) (j : Job) : MoveOperands (startJob j s) n o :=
  ⟨h.nook, h.owner, h.notSystem⟩

@[simp] theorem moveBlocked_startJob : MoveBlocked (startJob j s) n ↔ MoveBlocked s n := Iff.rfl
@[simp] theorem takeRefused_startJob : TakeRefused (startJob j s) p n ↔ TakeRefused s p n := Iff.rfl

/-! The first two tests of NOOK_MOVE let these operands pass. -/

theorem MoveOperands.not_badDescriptor (h : MoveOperands s n o) : (95 < n || (15 < o && o ≠ 255)) = false := by
  have hn := h.nook
  obtain ho | ⟨ho, -⟩ := h.owner <;> simp <;> omega

theorem MoveOperands.not_noAccess (h : MoveOperands s n o) :
    (s.nookOwner n == .system || (o ≠ 255 && (s.part? o).isNone)) = false := by
  have hs := h.notSystem
  obtain ho | ⟨-, hp⟩ := h.owner
  · simp [hs, ho]
  · simp [hs, hp]

/-! The two ways to BUSY. -/

theorem nookMove_busy_of_moveBlocked (h : MoveOperands s (fldLE j.payload 0 1) (fldLE j.payload 1 1))
    (hb : MoveBlocked s (fldLE j.payload 0 1)) : nookMove j s = (.done .busy, s) := by
  have htest : (moving s (fldLE j.payload 0 1) || (heldExts s).any (·.nook == fldLE j.payload 0 1) || s.power.trngFail) = true := by
    obtain hmov | hext := hb
    · simp only [hmov, Bool.true_or]
    · simp only [hext, Bool.or_true, Bool.true_or]
  simp only [nookMove, h.not_badDescriptor, h.not_noAccess, htest, if_true, Bool.false_eq_true, if_false]

theorem nookMove_busy_of_takeRefused (h : MoveOperands s (fldLE j.payload 0 1) (fldLE j.payload 1 1))
    (hp : s.nookOwner (fldLE j.payload 0 1) = .part p) (ho : fldLE j.payload 1 1 = 255 ∨ fldLE j.payload 1 1 ≠ p)
    (hr : TakeRefused s p (fldLE j.payload 0 1)) : nookMove j s = (.done .busy, s) := by
  have hdst : (Owner.part p == if fldLE j.payload 1 1 = 255 then Owner.free else .part (fldLE j.payload 1 1)) = false := by
    split
    · rfl
    · next h255 => simpa using (ho.resolve_left h255).symm
  have hacc := h.not_noAccess
  rw [hp] at hacc
  simp only [nookMove, h.not_badDescriptor, hacc, hp, hdst, Bool.false_eq_true, if_false]
  split
  · rfl
  · cases hk : (s.nooksOf p).find? (fun k => k != fldLE j.payload 0 1 && !moving s k) with
    | none => rfl
    | some k => simp only [hr k hk, if_true]

theorem exec_nookMove_of_mayRun (h : mayRun s m 0x0303 j) :
    exec (.nookMove m) s = .next (settle s (endJob j (nookMove j (startJob j s)))) := by
  obtain ⟨hj, hop⟩ := h
  have harm : exec (.nookMove m) s = .next (settle s (runCmd 0x0303 m nookMove s)) := rfl
  rw [harm, runCmd_of hj hop]

theorem exec_nookMove_busy (h : mayRun s m 0x0303 j) (hb : nookMove j (startJob j s) = (.done .busy, startJob j s)) :
    exec (.nookMove m) s = .next (settle s (finish j.id .busy 0 [] (startJob j s))) := by
  rw [exec_nookMove_of_mayRun h, hb, endJob_done]

end

/-- Settles O7. The first two clauses are R23's own refusals, the last two are R24's. -/
theorem nookMoveRefused : Obligations.NookMoveRefused := by
  intro m j s hrun n o hn ho hsys r
  have hops : MoveOperands (startJob j s) n o := MoveOperands.startJob ⟨hn, ho, hsys⟩ j
  have blocked (hb : MoveBlocked s n) : exec (.nookMove m) s = r :=
    exec_nookMove_busy hrun (nookMove_busy_of_moveBlocked hops (moveBlocked_startJob.mpr hb))
  have refused (p : Nat) (hp : s.nookOwner n = .part p) (hne : o = 255 ∨ o ≠ p) (hr : TakeRefused s p n) :
      exec (.nookMove m) s = r :=
    exec_nookMove_busy hrun (nookMove_busy_of_takeRefused hops hp hne (takeRefused_startJob.mpr hr))
  refine ⟨fun hext => blocked (.inr hext), fun hmov => blocked (.inl hmov), ?_, ?_⟩
  · intro p hp hne hnone
    exact refused p hp hne fun k hk => absurd (hnone.symm.trans hk) (by simp)
  · intro p k hp hne hk hbusy
    exact refused p hp hne fun k' hk' => Option.some.inj (hk.symm.trans hk') ▸ hbusy

end Sys2Proof.Machine
end

section
/-! PROOFS. The raw flits of a message (R345). -/

namespace Sys2Proof.Machine

/-- R345's ceiling by what characterises it: `k` raw flits suffice for `n` slots exactly when they have room for them. -/
theorem rawFlits_le_iff (enc : Bool) (n k : Nat) : rawFlits enc n ≤ k ↔ n ≤ (if enc then 14 else 15) * k := by
  cases enc with
  | true => simp only [rawFlits, if_true]; omega
  | false => simp only [rawFlits, Bool.false_eq_true, if_false]; omega

/-- The raw flits of a message hold its slots. -/
theorem le_mul_rawFlits (enc : Bool) (n : Nat) : n ≤ (if enc then 14 else 15) * rawFlits enc n :=
  (rawFlits_le_iff enc n _).mp (Nat.le_refl _)

theorem rawSlots_pkt (vc : Vc) (m : PktMsg) : (Out.pkt vc m).rawSlots = 2 + (m.bytes + 15) / 16 := by
  simp only [Out.rawSlots, pktLen]
  omega

/-- R364: the module sends a MSG message as it is, or with its payload coded where that takes fewer slots. -/
theorem fluxOut_msg_cases (m : PktMsg) :
    fluxOut (.pkt .msg m) = .pkt .msg m ∨
    (m.flux = false ∧ 256 ≤ m.bytes ∧ ((fluxCode m.body).length + 15) / 16 < (m.bytes + 15) / 16 ∧
      fluxOut (.pkt .msg m) = .pkt .msg { m with flux := true, body := fluxCode m.body }) := by
  by_cases hplain : (m.flux || m.bytes < 256) = true
  · exact .inl (by simp only [fluxOut, hplain, if_true])
  · by_cases hfewer : ((fluxCode m.body).length + 15) / 16 < (m.bytes + 15) / 16
    · have hout : fluxOut (.pkt .msg m) = .pkt .msg { m with flux := true, body := fluxCode m.body } := by
        simp only [fluxOut, hplain, hfewer, if_true, Bool.false_eq_true, if_false]
      simp only [Bool.or_eq_true, decide_eq_true_eq, not_or, Bool.not_eq_true, Nat.not_lt] at hplain
      exact .inr ⟨hplain.1, hplain.2, hfewer, hout⟩
    · exact .inl (by simp only [fluxOut, hplain, hfewer, Bool.false_eq_true, if_false])

/-- Coding a payload leaves BYTES, and with it the slots that the message counts. -/
theorem rawSlots_fluxOut_msg (m : PktMsg) : (fluxOut (.pkt .msg m)).rawSlots = (Out.pkt .msg m).rawSlots := by
  obtain hsame | ⟨-, -, -, hcoded⟩ := fluxOut_msg_cases m
  · rw [hsame]
  · rw [hcoded, rawSlots_pkt, rawSlots_pkt]

/-- Settles O8. R345's ceilings are the least numbers of flits with room for the slots (`rawFlits_le_iff`). -/
theorem rawFlitsOfMessages : Obligations.RawFlitsOfMessages :=
  ⟨fun n => ⟨le_mul_rawFlits true n, fun k => (rawFlits_le_iff true n k).mpr⟩,
    fun n => ⟨le_mul_rawFlits false n, fun k => (rawFlits_le_iff false n k).mpr⟩,
    rawSlots_pkt, rawSlots_fluxOut_msg, by decide, by decide⟩

end Sys2Proof.Machine
end

section
/-! PROOFS. The sizes of Flux streams (R356, R362, R364, R368). -/

namespace Sys2Proof.Machine

/-! ## Lengths of the parts of a stream -/

@[simp] theorem length_toLE (n x : Nat) : (toLE n x).length = n := by
  induction n generalizing x with
  | zero => rfl
  | succ n ih => simp [toLE, ih]

@[simp] theorem length_slotsOf (n : Nat) (b : Bytes) : (slotsOf n b).length = n := by
  induction n generalizing b with
  | zero => rfl
  | succ n ih => simp [slotsOf, ih]

@[simp] theorem length_fluxElems (w : Nat) (b : Bytes) : (fluxElems w b).length = 256 / w := by
  simp [fluxElems]

@[simp] theorem length_fluxPlane (v : Nat) (l : List Nat) : (fluxPlane v l).length = l.length * v / 8 :=
  length_toLE ..

/-- R356: a 4-byte header, then the body padded to 8 bytes. -/
@[simp] theorem length_fluxBlock (mode etype param : Nat) (body : Bytes) :
    (fluxBlock mode etype param body).length = 4 + 8 * ((body.length + 7) / 8) := by
  simp only [fluxBlock, List.length_append, length_toLE, List.length_replicate]
  omega

theorem fluxWidth_le (etype : Nat) : fluxWidth etype ≤ 8 := by
  unfold fluxWidth
  split <;> decide

/-- The slots of a message as sent: header slot, body slot and those of its payload (R341, R343). -/
theorem length_slots_pkt (vc : Vc) (m : PktMsg) : (Out.pkt vc m).slots.length = 2 + (m.body.length + 15) / 16 := by
  simp only [Out.slots, List.length_cons, length_slotsOf]
  omega

/-! ## Coded blocks -/

/-- R362: the compressor keeps no candidate whose body is longer than 248 bytes. ZERO has no body, the body of CONST is one
element, and the other modes drop a longer one. -/
theorem exists_short_body_of_mem_fluxCandidates {b c : Bytes} (h : c ∈ fluxCandidates b) :
    ∃ mode etype param body, body.length ≤ 248 ∧ c = fluxBlock mode etype param body := by
  simp only [fluxCandidates, List.mem_append, List.mem_filterMap, List.mem_ite_nil_right, List.mem_singleton,
    Option.ite_none_right_eq_some, Option.ite_none_left_eq_some, Option.some.injEq, Bool.or_eq_true, Bool.and_eq_true,
    decide_eq_true_eq, not_or, Nat.not_lt] at h
  obtain (((⟨-, rfl⟩ | ⟨t, -, -, rfl⟩) | ⟨t, -, hbitmap, rfl⟩) | ⟨t, -, ⟨-, hdelta⟩, rfl⟩) | ⟨t, -, ⟨-, hxsplit⟩, rfl⟩ := h
  · exact ⟨1, 0, 0, [], Nat.zero_le _, rfl⟩
  · have hconst : (b.take (fluxWidth t)).length ≤ 248 := by
      have := fluxWidth_le t
      simp only [List.length_take]
      omega
    exact ⟨2, t, 0, _, hconst, rfl⟩
  · exact ⟨3, t, 0, _, hbitmap, rfl⟩
  · refine ⟨5, t, _, _, ?_, rfl⟩
    simpa only [List.length_append, length_toLE, length_fluxPlane, List.length_map, length_fluxElems] using hdelta
  · exact ⟨4, t, _, _, hxsplit, rfl⟩

theorem length_le_of_mem_fluxCandidates {b c : Bytes} (h : c ∈ fluxCandidates b) : c.length ≤ 252 := by
  obtain ⟨mode, etype, param, body, hbody, rfl⟩ := exists_short_body_of_mem_fluxCandidates h
  rw [length_fluxBlock]
  omega

/-- R363's choice of a candidate never takes a longer one than the first. -/
theorem length_foldl_shorter_le (cs : List Bytes) (c : Bytes) :
    (cs.foldl (fun a x => if x.length < a.length then x else a) c).length ≤ c.length := by
  induction cs generalizing c with
  | nil => exact Nat.le_refl _
  | cons x cs ih =>
    rw [List.foldl_cons]
    refine (ih _).trans ?_
    split
    · next hshorter => exact hshorter.le
    · exact Nat.le_refl _

/-- R367: a coded block never exceeds 260 bytes, which is what RAW takes. -/
theorem length_fluxCodeBlock_le {b : Bytes} (h : b.length = 256) : (fluxCodeBlock b).length ≤ 260 := by
  unfold fluxCodeBlock
  split
  · rw [length_fluxBlock, h]
  · next c cs hcands =>
    have hc : c.length ≤ 252 := length_le_of_mem_fluxCandidates (hcands ▸ List.mem_cons_self)
    have := length_foldl_shorter_le cs c
    omega

/-! ## Streams -/

theorem length_fluxCodeBlocks_le (k : Nat) (b : Bytes) : (fluxCodeBlocks k b).length ≤ 260 * k := by
  induction k generalizing b with
  | zero => exact Nat.zero_le _
  | succ k ih =>
    have hpadded : (b.take 256 ++ List.replicate (256 - (b.take 256).length) 0).length = 256 := by
      simp only [List.length_append, List.length_take, List.length_replicate]
      omega
    have hblock := length_fluxCodeBlock_le hpadded
    have hrest := ih (b.drop 256)
    simp only [fluxCodeBlocks, List.length_append]
    omega

theorem length_fluxCode_le_of_whole_blocks {n : Nat} {b : Bytes} (h : b.length = 256 * n) : (fluxCode b).length ≤ 260 * n := by
  have hblocks : (b.length + 255) / 256 = n := by omega
  simpa only [fluxCode, hblocks] using length_fluxCodeBlocks_le n b

/-- R364: a payload is sent coded only where that takes fewer slots than its raw size. -/
theorem length_slots_fluxOut_msg_le {m : PktMsg} (h : m.body.length = m.bytes) :
    (fluxOut (.pkt .msg m)).slots.length ≤ (Out.pkt .msg m).slots.length := by
  obtain hsame | ⟨-, -, hfewer, hcoded⟩ := fluxOut_msg_cases m
  · rw [hsame]
  · rw [hcoded, length_slots_pkt, length_slots_pkt, h]
    exact Nat.add_le_add_left hfewer.le 2

/-- Settles O9. A coded block takes at most the 260 bytes of RAW (`length_fluxCodeBlock_le`), and R364 codes a message only where
that saves slots. -/
theorem fluxStreamBounded : Obligations.FluxStreamBounded := by
  refine ⟨fun n b hb => ?_, fun b hb => ?_, fun m _ hm => length_slots_fluxOut_msg_le hm⟩
  · have hlen := length_fluxCode_le_of_whole_blocks hb
    exact ⟨hlen, by omega⟩
  · exact length_fluxCode_le_of_whole_blocks (n := 256) hb

end Sys2Proof.Machine
end

section
/-! PROOFS. The fault causes shown after every step (R424, R484), and the registers at reset (R8, R409). -/

namespace Sys2Proof.Machine

/-- R424: what every command does last shows the lasting causes. -/
theorem causesShown_settle (o n : State) : causesShown (settle o n) := by
  have hl : lasting (settle o n) = lasting n := by simp only [lasting, settle_power]
  show lasting (settle o n) &&& ~~~(settle o n).mantel.faultCause = 0
  rw [hl, settle_faultCause]
  ext i
  simp only [BitVec.getElem_and, BitVec.getElem_not, BitVec.getElem_or]
  cases (lasting n)[i] <;> simp

/-- Every command ends with `settle`. -/
theorem exists_exec_eq_settle (c : Instr) (s : State) : ∃ n, exec c s = .next (settle s n) := by
  cases c <;> exact ⟨_, rfl⟩

/-- A nanosecond that passes changes neither the lasting conditions nor FAULT_CAUSE. -/
theorem causesShown_tick {s : State} (h : causesShown s) : causesShown (tick s) := h

/-- Settles O2. A command ends with `settle`, which shows the lasting causes again; an empty queue changes none of them. -/
theorem everyStepShowsCauses : Obligations.EveryStepShowsCauses := by
  intro s t hshown hstep
  unfold step at hstep
  split at hstep
  · obtain rfl := Host.Outcome.next.inj hstep
    exact causesShown_tick hshown
  · next c cs _ =>
    obtain ⟨n, hn⟩ := exists_exec_eq_settle c { s with pending := cs }
    obtain rfl := Host.Outcome.next.inj (hn.symm.trans hstep)
    exact causesShown_settle _ n

/-- Settles O3: the registers of a closed state, evaluated. -/
theorem resetRegisters : Obligations.ResetRegisters :=
  ⟨rfl, rfl, by decide +kernel, rfl, rfl, rfl⟩

end Sys2Proof.Machine
end

section
/-! PROOFS. Little-endian numbers (R4). -/

namespace Sys2Proof

theorem leNat_lt (b : Bytes) : leNat b < 256 ^ b.length := by
  induction b with
  | nil => exact Nat.one_pos
  | cons x b ih =>
    have := x.isLt
    simp only [leNat, List.length_cons, pow_succ]
    omega

theorem leNat_append (a b : Bytes) : leNat (a ++ b) = leNat a + 256 ^ a.length * leNat b := by
  induction a with
  | nil => simp [leNat]
  | cons x a ih =>
    simp only [List.cons_append, leNat, ih, List.length_cons, pow_succ]
    ring

theorem leNat_toLE (n x : Nat) : leNat (toLE n x) = x % 256 ^ n := by
  induction n generalizing x with
  | zero => simp [toLE, leNat, Nat.mod_one]
  | succ n ih =>
    simp only [toLE, leNat, ih, BitVec.toNat_ofNat, pow_succ']
    exact Nat.mod_mul.symm

theorem leNat_toLE_of_lt {n x : Nat} (h : x < 256 ^ n) : leNat (toLE n x) = x := by
  rw [leNat_toLE, Nat.mod_eq_of_lt h]

theorem toLE_leNat (b : Bytes) : toLE b.length (leNat b) = b := by
  induction b with
  | nil => rfl
  | cons x b ih =>
    have hx : (x.toNat + 256 * leNat b) / 256 = leNat b := by have := x.isLt; omega
    have hlow : BitVec.ofNat 8 (x.toNat + 256 * leNat b) = x := by
      apply BitVec.eq_of_toNat_eq
      have := x.isLt
      simp only [BitVec.toNat_ofNat]
      omega
    simp only [List.length_cons, leNat, toLE, hx, hlow, ih]

theorem fldLE_lt (b : Bytes) (off n : Nat) : fldLE b off n < 256 ^ n :=
  (leNat_lt _).trans_le (Nat.pow_le_pow_right (by decide) (by simp))

theorem fldLE_add (b : Bytes) (k off n : Nat) : fldLE b (k + off) n = fldLE (b.drop k) off n := by
  simp only [fldLE, List.drop_drop]

end Sys2Proof
end

section
/-! PROOFS. Flux coding loses nothing (R356 to R365). -/

namespace Sys2Proof.Machine

/-! ## Planes and elements (R357, R360) -/

/-- The number that the fields of a plane spell (R360). -/
def planeNat (v : Nat) (l : List Nat) : Nat := l.foldr (fun x acc => x % 2 ^ v + 2 ^ v * acc) 0

theorem planeNat_lt (v : Nat) (l : List Nat) : planeNat v l < 2 ^ (l.length * v) := by
  induction l with
  | nil => simp [planeNat]
  | cons x l ih =>
    have hx : x % 2 ^ v < 2 ^ v := Nat.mod_lt _ (Nat.two_pow_pos v)
    have htop : planeNat v (x :: l) = x % 2 ^ v + 2 ^ v * planeNat v l := rfl
    have hstep := Nat.mul_le_mul_left (2 ^ v) (Nat.succ_le_of_lt ih)
    rw [Nat.mul_succ, ← pow_add] at hstep
    rw [htop, List.length_cons, Nat.succ_mul, Nat.add_comm _ v]
    omega

theorem planeNat_field (v : Nat) {l : List Nat} (h : ∀ x ∈ l, x < 2 ^ v) :
    ((List.range l.length).map fun j => planeNat v l / 2 ^ (j * v) % 2 ^ v) = l := by
  induction l with
  | nil => rfl
  | cons x l ih =>
    obtain ⟨hx, hl⟩ := List.forall_mem_cons.mp h
    have hcons : planeNat v (x :: l) = x + 2 ^ v * planeNat v l := by
      simp only [planeNat, List.foldr_cons, Nat.mod_eq_of_lt hx]
    have hpos := Nat.two_pow_pos v
    rw [List.length_cons, List.range_succ_eq_map, List.map_cons, List.map_map]
    congr 1
    · rw [hcons, Nat.zero_mul, pow_zero, Nat.div_one, Nat.add_mul_mod_self_left, Nat.mod_eq_of_lt hx]
    · refine (List.map_congr_left fun j _ => ?_).trans (ih hl)
      have hdiv : planeNat v (x :: l) / 2 ^ v = planeNat v l := by
        rw [hcons, Nat.add_mul_div_left _ _ hpos, Nat.div_eq_of_lt hx, Nat.zero_add]
      simp only [Function.comp, Nat.succ_eq_add_one, Nat.add_mul, Nat.one_mul, Nat.add_comm _ v, pow_add]
      rw [← Nat.div_div_eq_div_mul, hdiv]

theorem two_pow_eq_of_dvd {k : Nat} (h : 8 ∣ k) : 256 ^ (k / 8) = 2 ^ k := by
  obtain ⟨m, rfl⟩ := h
  rw [Nat.mul_div_cancel_left _ (by decide), pow_mul]
  norm_num

/-- R360: the fields of a plane of whole bytes are read back, whatever follows it. -/
theorem fluxFields_fluxPlane {v n : Nat} {l : List Nat} (hn : l.length = n) (hdvd : 8 ∣ n * v) (hl : ∀ x ∈ l, x < 2 ^ v) (r : Bytes) :
    fluxFields v n (fluxPlane v l ++ r) = l := by
  subst hn
  have htake : (fluxPlane v l ++ r).take (l.length * v / 8) = fluxPlane v l :=
    List.take_left' (length_fluxPlane v l)
  have hnat : leNat (fluxPlane v l) = planeNat v l :=
    leNat_toLE_of_lt ((planeNat_lt v l).trans_eq (two_pow_eq_of_dvd hdvd).symm)
  simp only [fluxFields, htake, hnat]
  exact planeNat_field v hl

theorem length_fluxJoin (w : Nat) (l : List Nat) : (fluxJoin w l).length = l.length * w := by
  simp [fluxJoin, List.length_flatMap]

theorem fluxJoin_cons (w x : Nat) (l : List Nat) : fluxJoin w (x :: l) = toLE w x ++ fluxJoin w l := rfl

theorem flatMap_toLE_fldLE (w n : Nat) {b : Bytes} (h : b.length = w * n) :
    ((List.range n).flatMap fun j => toLE w (fldLE b (w * j) w)) = b := by
  induction n generalizing b with
  | zero => exact (List.eq_nil_of_length_eq_zero (by omega)).symm
  | succ n ih =>
    have hrest : (b.drop w).length = w * n := by rw [List.length_drop, h, Nat.mul_succ]; omega
    have hfirst : toLE w (fldLE b (w * 0) w) = b.take w := by
      have hlen : (b.take w).length = w := by rw [List.length_take, h, Nat.mul_succ]; omega
      simpa only [Nat.mul_zero, fldLE, List.drop_zero, hlen] using toLE_leNat (b.take w)
    have hlater (j : Nat) : fldLE b (w * (j + 1)) w = fldLE (b.drop w) (w * j) w := by
      rw [Nat.mul_succ, Nat.add_comm, fldLE_add]
    rw [List.range_succ_eq_map, List.flatMap_cons, List.flatMap_map, hfirst]
    simp only [Nat.succ_eq_add_one, hlater, ih hrest, List.take_append_drop]

/-- The widths of R357 divide a block into whole bytes of bitmap. -/
theorem fluxWidth_cases (t : Nat) : fluxWidth t = 1 ∨ fluxWidth t = 2 ∨ fluxWidth t = 4 ∨ fluxWidth t = 8 := by
  unfold fluxWidth
  split <;> simp

theorem fluxJoin_fluxElems (t : Nat) {b : Bytes} (h : b.length = 256) : fluxJoin (fluxWidth t) (fluxElems (fluxWidth t) b) = b := by
  have hw : b.length = fluxWidth t * (256 / fluxWidth t) := by
    obtain hw | hw | hw | hw := fluxWidth_cases t <;> rw [h, hw]
  have := flatMap_toLE_fldLE (fluxWidth t) (256 / fluxWidth t) hw
  rwa [fluxJoin, fluxElems, List.flatMap_map]

theorem lt_of_mem_fluxElems {w x : Nat} {b : Bytes} (h : x ∈ fluxElems w b) : x < 2 ^ (8 * w) := by
  obtain ⟨j, -, rfl⟩ := List.mem_map.mp h
  rw [pow_mul]
  exact fldLE_lt ..

/-! ## The pieces of the modes -/

/-- BITMAP: the packed elements go back to their places. -/
theorem fluxUnpack_bitmap {w : Nat} {l : List Nat} (h : ∀ x ∈ l, x < 2 ^ (8 * w)) (r : Bytes) :
    fluxUnpack w (l.map fun x => if x = 0 then 0 else 1) (fluxJoin w (l.filter (· != 0)) ++ r) = l := by
  induction l with
  | nil => rfl
  | cons x l ih =>
    obtain ⟨hx, hl⟩ := List.forall_mem_cons.mp h
    by_cases h0 : x = 0
    · subst h0
      simpa [fluxUnpack] using ih hl
    · have hfilter : (x :: l).filter (· != 0) = x :: l.filter (· != 0) := by simp [h0]
      have hmap : (x :: l).map (fun x => if x = 0 then 0 else 1) = 1 :: l.map (fun x => if x = 0 then 0 else 1) := by simp [h0]
      have hread : leNat (toLE w x) = x := leNat_toLE_of_lt (by rwa [pow_mul] at hx)
      rw [hfilter, hmap, fluxJoin_cons, List.append_assoc, fluxUnpack, List.take_left' (length_toLE w x),
        List.drop_left' (length_toLE w x), hread, ih hl]
      simp

theorem length_filter_bitmap (l : List Nat) :
    ((l.map fun x => if x = 0 then 0 else 1).filter (· == 1)).length = (l.filter (· != 0)).length := by
  induction l with
  | nil => rfl
  | cons x l ih => by_cases h0 : x = 0 <;> simp [h0, ih]

theorem foldl_min_le (l : List Nat) (a : Nat) : l.foldl min a ≤ a ∧ ∀ x ∈ l, l.foldl min a ≤ x := by
  induction l generalizing a with
  | nil => simp
  | cons y l ih =>
    obtain ⟨ha, hl⟩ := ih (min a y)
    refine ⟨ha.trans (min_le_left ..), List.forall_mem_cons.mpr ⟨ha.trans (min_le_right ..), hl⟩⟩

theorem le_foldl_max (l : List Nat) (a : Nat) : a ≤ l.foldl max a ∧ ∀ x ∈ l, x ≤ l.foldl max a := by
  induction l generalizing a with
  | nil => simp
  | cons y l ih =>
    obtain ⟨ha, hl⟩ := ih (max a y)
    refine ⟨(le_max_left ..).trans ha, List.forall_mem_cons.mpr ⟨(le_max_right ..).trans ha, hl⟩⟩

theorem listMin_le {l : List Nat} {x : Nat} (h : x ∈ l) : listMin l ≤ x := (foldl_min_le l _).2 x h
theorem le_listMax {l : List Nat} {x : Nat} (h : x ∈ l) : x ≤ listMax l := (le_foldl_max l _).2 x h

theorem lt_two_pow_fluxBits (n : Nat) : n < 2 ^ fluxBits n := by
  unfold fluxBits
  split
  · next h => simp [h]
  · exact Nat.lt_log2_self

/-- The differences to the least element fit the width that R363 chooses. -/
theorem sub_listMin_lt {l : List Nat} : ∀ d ∈ l.map (· - listMin l), d < 2 ^ fluxBits (listMax l - listMin l) := by
  intro d hd
  obtain ⟨x, hx, rfl⟩ := List.mem_map.mp hd
  exact (Nat.sub_le_sub_right (le_listMax hx) _).trans_lt (lt_two_pow_fluxBits _)

theorem map_add_sub_listMin (l : List Nat) : (l.map (· - listMin l)).map (listMin l + ·) = l := by
  rw [List.map_map]
  refine (List.map_congr_left fun x hx => ?_).trans (List.map_id l)
  exact Nat.add_sub_cancel' (listMin_le hx)

/-! ## Blocks -/

/-- A coded block that the expander opens to the raw block `b`, whatever follows it in the stream. -/
def OpensTo (c b : Bytes) : Prop := ∀ rest, fluxBlockOpen (c ++ rest) = some (b, rest)

/-- R356, R358, R362: a block opens to what its body stands for, where the header's fields have their widths, the body is as long as the
mode needs, padding aside, and no coded body is longer than 248 bytes. -/
theorem opensTo_fluxBlock {mode etype param : Nat} {body b : Bytes} (hm : mode < 16) (ht : etype < 16) (hp : param < 256)
    (hlen : body.length ≤ if mode = 0 then 256 else 248)
    (hneed : ∀ r, fluxNeed mode etype param (body ++ r) = some body.length)
    (hraw : ∀ r, fluxRaw mode etype param (body ++ r) = some b) : OpensTo (fluxBlock mode etype param body) b := by
  intro rest
  obtain ⟨len, hlenEq⟩ : ∃ len, len = (body.length + 7) / 8 := ⟨_, rfl⟩
  obtain ⟨pad, hpad⟩ : ∃ pad : Bytes, pad = List.replicate (8 * len - body.length) 0 := ⟨_, rfl⟩
  obtain ⟨h, hh⟩ : ∃ h, h = mode * 2 ^ 28 + etype * 2 ^ 24 + param * 2 ^ 16 + len := ⟨_, rfl⟩
  have hlen32 : len ≤ if mode = 0 then 32 else 31 := by split at hlen <;> split <;> omega
  have hlen63 : len < 64 := by split at hlen32 <;> omega
  have hblock : fluxBlock mode etype param body = toLE 4 h ++ (body ++ pad) := by
    simp only [fluxBlock, hh, hpad, hlenEq, List.append_assoc]
  have hbody : (body ++ pad).length = 8 * len := by
    rw [hpad, List.length_append, List.length_replicate]; omega
  have hhdr : leNat ((toLE 4 h ++ (body ++ pad) ++ rest).take 4) = h := by
    rw [List.append_assoc, List.take_left' (length_toLE 4 h), leNat_toLE_of_lt]
    norm_num; omega
  have hdrop4 : (toLE 4 h ++ (body ++ pad) ++ rest).drop 4 = body ++ pad ++ rest := by
    rw [List.append_assoc, List.drop_left' (length_toLE 4 h)]
  have hrest : (toLE 4 h ++ (body ++ pad) ++ rest).drop (4 + 8 * len) = rest := by
    rw [← List.drop_drop, hdrop4, List.drop_left' hbody]
  have hlong : ¬ (toLE 4 h ++ (body ++ pad) ++ rest).length < 4 := by
    simp only [List.length_append, length_toLE]; omega
  have hfLen : bits h 5 0 = len := by simp only [bits]; omega
  have hfRsv : bits h 15 6 = 0 := by simp only [bits]; omega
  have hfMode : bits h 31 28 = mode := by simp only [bits]; omega
  have hfType : bits h 27 24 = etype := by simp only [bits]; omega
  have hfParam : bits h 23 16 = param := by simp only [bits]; omega
  have hzero : ((body ++ pad).drop body.length).any (· != 0) = false := by
    rw [List.drop_left' rfl, hpad]; simp
  have hshort : (mode ≠ 0 && 31 < len) = false := by
    split at hlen32
    · simp [*]
    · simp only [Bool.and_eq_false_iff, decide_eq_false_iff_not]; omega
  rw [hblock]
  unfold fluxBlockOpen
  simp only [hhdr, hfLen, hdrop4, List.take_left' hbody, hbody, hfRsv, hfMode, hfType, hfParam, hneed, hraw, hrest, hzero, hshort,
    hlong, hlenEq.symm]
  simp

/-! ### The modes (R359) -/

theorem opensTo_raw {b : Bytes} (h : b.length = 256) : OpensTo (fluxBlock 0 0 0 b) b := by
  refine opensTo_fluxBlock (by decide) (by decide) (by decide) (by simp [h]) (fun r => ?_) (fun r => ?_)
  · simp [fluxNeed, h]
  · simp only [fluxRaw, List.take_left' h]

theorem opensTo_zero {b : Bytes} (h : b.length = 256) (hz : ∀ x ∈ b, x = 0) : OpensTo (fluxBlock 1 0 0 []) b := by
  refine opensTo_fluxBlock (by decide) (by decide) (by decide) (by simp) (fun r => rfl) (fun r => ?_)
  simp only [fluxRaw, ← h, (List.eq_replicate_of_mem hz).symm]

theorem opensTo_const {b : Bytes} (h : b.length = 256) {t : Nat} (ht : t ≤ 6)
    (hc : ∀ x ∈ fluxElems (fluxWidth t) b, x = (fluxElems (fluxWidth t) b).headD 0) :
    OpensTo (fluxBlock 2 t 0 (b.take (fluxWidth t))) b := by
  have hw := fluxWidth_le t
  have hlen : (b.take (fluxWidth t)).length = fluxWidth t := by rw [List.length_take]; omega
  refine opensTo_fluxBlock (by decide) (by omega) (by decide) (by rw [hlen]; simp; omega) (fun r => ?_) (fun r => ?_)
  · simp [fluxNeed, ht, hlen]
  · have hhead : toLE (fluxWidth t) ((fluxElems (fluxWidth t) b).headD 0) = b.take (fluxWidth t) := by
      have hfirst : (fluxElems (fluxWidth t) b).headD 0 = leNat (b.take (fluxWidth t)) := by
        obtain hw | hw | hw | hw := fluxWidth_cases t <;> rw [hw] <;> rfl
      have := toLE_leNat (b.take (fluxWidth t))
      rwa [hlen, ← hfirst] at this
    have hjoin := fluxJoin_fluxElems t h
    rw [List.eq_replicate_of_mem hc, length_fluxElems, fluxJoin, List.flatMap_replicate, hhead] at hjoin
    simp only [fluxRaw, List.take_left' hlen, hjoin]

/-- The number of elements of a block is a multiple of 8 and at most 256 (R357). -/
theorem eight_dvd_elems (t : Nat) : 8 ∣ 256 / fluxWidth t := by
  obtain hw | hw | hw | hw := fluxWidth_cases t <;> rw [hw] <;> decide

theorem elems_div_eight (t v : Nat) : 256 / fluxWidth t * v / 8 = 256 / fluxWidth t / 8 * v := by
  obtain ⟨k, hk⟩ := eight_dvd_elems t
  rw [hk, Nat.mul_assoc, Nat.mul_div_cancel_left _ (by decide), Nat.mul_div_cancel_left _ (by decide)]

theorem opensTo_bitmap {b : Bytes} (h : b.length = 256) {t : Nat} (ht : t ≤ 6) :
    let l := fluxElems (fluxWidth t) b
    let body := fluxPlane 1 (l.map fun x => if x = 0 then 0 else 1) ++ fluxJoin (fluxWidth t) (l.filter (· != 0))
    body.length ≤ 248 → OpensTo (fluxBlock 3 t 0 body) b := by
  intro l body hbody
  have hn : (l.map fun x => if x = 0 then 0 else 1).length = 256 / fluxWidth t := by
    rw [List.length_map, length_fluxElems]
  have hplane : (fluxPlane 1 (l.map fun x => if x = 0 then 0 else 1)).length = 256 / fluxWidth t / 8 := by
    rw [length_fluxPlane, hn, Nat.mul_one]
  have hfields (r : Bytes) : fluxFields 1 (256 / fluxWidth t) (body ++ r) = l.map fun x => if x = 0 then 0 else 1 := by
    rw [List.append_assoc]
    refine fluxFields_fluxPlane hn ((eight_dvd_elems t).mul_right 1) (fun x hx => ?_) _
    obtain ⟨y, -, rfl⟩ := List.mem_map.mp hx
    split <;> decide
  refine opensTo_fluxBlock (by decide) (by omega) (by decide) (by simpa using hbody) (fun r => ?_) (fun r => ?_)
  · simp only [fluxNeed, hfields, length_filter_bitmap, ht, decide_true, Bool.and_self, if_true]
    rw [List.length_append, hplane, length_fluxJoin]
  · simp only [fluxRaw, hfields]
    rw [List.append_assoc, List.drop_left' hplane, fluxUnpack_bitmap fun x hx => lt_of_mem_fluxElems hx]
    exact congrArg some (fluxJoin_fluxElems t h)

theorem opensTo_delta {b : Bytes} (h : b.length = 256) {t : Nat} (ht : t ≤ 3) :
    let l := fluxElems (fluxWidth t) b
    let c := fluxBits (listMax l - listMin l)
    c ≤ 16 → fluxWidth t + 256 / fluxWidth t * c / 8 ≤ 248 →
    OpensTo (fluxBlock 5 t c (toLE (fluxWidth t) (listMin l) ++ fluxPlane c (l.map (· - listMin l)))) b := by
  intro l c hc hlen
  have hn : (l.map (· - listMin l)).length = 256 / fluxWidth t := by rw [List.length_map, length_fluxElems]
  have hbody : (toLE (fluxWidth t) (listMin l) ++ fluxPlane c (l.map (· - listMin l))).length = fluxWidth t + 256 / fluxWidth t * c / 8 := by
    rw [List.length_append, length_toLE, length_fluxPlane, hn]
  refine opensTo_fluxBlock (by decide) (by omega) (by omega) (by rw [hbody]; simpa using hlen) (fun r => ?_) (fun r => ?_)
  · simp only [fluxNeed, hbody, ht, hc, decide_true, Bool.and_self, if_true]
  · have hne : l ≠ [] := by
      intro hnil
      have hlen : l.length = 256 / fluxWidth t := length_fluxElems _ b
      rw [hnil] at hlen
      obtain hw | hw | hw | hw := fluxWidth_cases t <;> simp [hw] at hlen
    obtain ⟨x, hx⟩ := List.exists_mem_of_ne_nil l hne
    have hmin : leNat (toLE (fluxWidth t) (listMin l)) = listMin l := by
      refine leNat_toLE_of_lt ((listMin_le hx).trans_lt ?_)
      have := lt_of_mem_fluxElems hx
      rwa [pow_mul] at this
    have hfields := fluxFields_fluxPlane (v := c) hn ((eight_dvd_elems t).mul_right c) sub_listMin_lt r
    simp only [fluxRaw]
    rw [List.append_assoc, List.take_left' (length_toLE ..), List.drop_left' (length_toLE ..), hmin, hfields]
    have hback : ((l.map (· - listMin l)).map fun q => (listMin l + q) % 2 ^ (8 * fluxWidth t)) = l := by
      conv_rhs => rw [← map_add_sub_listMin l]
      rw [List.map_map, List.map_map]
      refine List.map_congr_left fun y hy => ?_
      have hy' : listMin l + (y - listMin l) = y := Nat.add_sub_cancel' (listMin_le hy)
      simp only [Function.comp, hy', Nat.mod_eq_of_lt (lt_of_mem_fluxElems hy)]
    rw [hback]
    exact congrArg some (fluxJoin_fluxElems t h)

/-- The floating element types (R357): sign, exponent and fraction fill the element. -/
theorem fluxExp_add_fluxFrac {t : Nat} (h : t = 4 ∨ t = 5 ∨ t = 6) :
    8 * fluxWidth t = fluxExp t + fluxFrac t + 1 ∧ fluxExp t ≤ 8 ∧ 8 ∣ 256 / fluxWidth t * (fluxFrac t + 1) := by
  obtain rfl | rfl | rfl := h <;> decide

/-- An element is its sign, its exponent and its fraction put together again. -/
theorem xsplit_eq (e f x : Nat) :
    (x / 2 ^ (e + f) * 2 ^ f + x % 2 ^ f) / 2 ^ f * 2 ^ (e + f) + x / 2 ^ f % 2 ^ e * 2 ^ f +
      (x / 2 ^ (e + f) * 2 ^ f + x % 2 ^ f) % 2 ^ f = x := by
  have hlow : x % 2 ^ f < 2 ^ f := Nat.mod_lt _ (Nat.two_pow_pos f)
  have hsign : (x / 2 ^ (e + f) * 2 ^ f + x % 2 ^ f) / 2 ^ f = x / 2 ^ (e + f) := by
    rw [Nat.mul_comm, Nat.mul_add_div (Nat.two_pow_pos f), Nat.div_eq_of_lt hlow, Nat.add_zero]
  have hfrac : (x / 2 ^ (e + f) * 2 ^ f + x % 2 ^ f) % 2 ^ f = x % 2 ^ f := by
    rw [Nat.mul_comm, Nat.mul_add_mod, Nat.mod_mod]
  have h1 := Nat.div_add_mod x (2 ^ f)
  have h2 := Nat.div_add_mod (x / 2 ^ f) (2 ^ e)
  rw [Nat.div_div_eq_div_mul, ← pow_add, Nat.add_comm f e] at h2
  rw [hsign, hfrac]
  calc
    _ = 2 ^ f * (2 ^ e * (x / 2 ^ (e + f)) + x / 2 ^ f % 2 ^ e) + x % 2 ^ f := by ring
    _ = x := by rw [h2, h1]

theorem opensTo_xsplit {b : Bytes} (h : b.length = 256) {t : Nat} (ht : t = 4 ∨ t = 5 ∨ t = 6) :
    let l := fluxElems (fluxWidth t) b
    let ex := l.map fun x => x / 2 ^ fluxFrac t % 2 ^ fluxExp t
    let d := fluxBits (listMax ex - listMin ex)
    let body := toLE 1 (listMin ex) ++ fluxPlane d (ex.map (· - listMin ex)) ++
      fluxPlane (fluxFrac t + 1) (l.map fun x => x / 2 ^ (8 * fluxWidth t - 1) * 2 ^ fluxFrac t + x % 2 ^ fluxFrac t)
    d ≤ 8 → body.length ≤ 248 → OpensTo (fluxBlock 4 t d body) b := by
  obtain ⟨hbits, hexp, hdvd⟩ := fluxExp_add_fluxFrac ht
  have htop : 8 * fluxWidth t - 1 = fluxExp t + fluxFrac t := by omega
  rw [htop]
  intro l ex d body hd hbody
  obtain ⟨sm, hsm⟩ : ∃ sm, sm = l.map fun x => x / 2 ^ (fluxExp t + fluxFrac t) * 2 ^ fluxFrac t + x % 2 ^ fluxFrac t := ⟨_, rfl⟩
  have hnl : l.length = 256 / fluxWidth t := length_fluxElems _ b
  have hn : (ex.map (· - listMin ex)).length = 256 / fluxWidth t := by rw [List.length_map, List.length_map, hnl]
  have hns : sm.length = 256 / fluxWidth t := by rw [hsm, List.length_map, hnl]
  have hlt (x : Nat) (hx : x ∈ l) : x < 2 ^ (fluxExp t + fluxFrac t + 1) := by
    have := lt_of_mem_fluxElems hx
    rwa [hbits] at this
  have hexlt (y : Nat) (hy : y ∈ ex) : y < 2 ^ fluxExp t := by
    obtain ⟨x, -, rfl⟩ := List.mem_map.mp hy
    exact Nat.mod_lt _ (Nat.two_pow_pos _)
  have hsmlt : ∀ x ∈ sm, x < 2 ^ (fluxFrac t + 1) := by
    rw [hsm]
    intro y hy
    obtain ⟨x, hx, rfl⟩ := List.mem_map.mp hy
    have hsign : x / 2 ^ (fluxExp t + fluxFrac t) < 2 :=
      Nat.div_lt_of_lt_mul (by rw [← pow_succ]; exact hlt x hx)
    have hfrac : x % 2 ^ fluxFrac t < 2 ^ fluxFrac t := Nat.mod_lt _ (Nat.two_pow_pos _)
    obtain hs | hs := Nat.le_one_iff_eq_zero_or_eq_one.mp (Nat.le_of_lt_succ hsign)
    · rw [hs, pow_succ]; omega
    · rw [hs, pow_succ]; omega
  have hparts : body = toLE 1 (listMin ex) ++ (fluxPlane d (ex.map (· - listMin ex)) ++ fluxPlane (fluxFrac t + 1) sm) := by
    rw [hsm, ← List.append_assoc]
  have hlen : body.length = 1 + 256 / fluxWidth t * d / 8 + 256 / fluxWidth t * (fluxFrac t + 1) / 8 := by
    rw [hparts, List.length_append, List.length_append, length_toLE, length_fluxPlane, length_fluxPlane, hn, hns]
    omega
  refine opensTo_fluxBlock (by decide) (by omega) (by omega) (by simpa using hbody) (fun r => ?_) (fun r => ?_)
  · have h46 : (4 ≤ t && t ≤ 6 && d ≤ 8) = true := by simp; omega
    simp only [fluxNeed, hlen, h46, if_true]
  · have hne : ex ≠ [] := by
      intro hnil
      have := hn
      rw [hnil] at this
      obtain hw | hw | hw | hw := fluxWidth_cases t <;> simp [hw] at this
    obtain ⟨y, hy⟩ := List.exists_mem_of_ne_nil ex hne
    have hmin : leNat (toLE 1 (listMin ex)) = listMin ex := by
      refine leNat_toLE_of_lt (((listMin_le hy).trans_lt (hexlt y hy)).trans_le ?_)
      exact (Nat.pow_le_pow_right (by decide) hexp).trans_eq (by decide)
    have hds := fluxFields_fluxPlane (v := d) hn ((eight_dvd_elems t).mul_right d) sub_listMin_lt (fluxPlane (fluxFrac t + 1) sm ++ r)
    have hss := fluxFields_fluxPlane (v := fluxFrac t + 1) hns hdvd hsmlt r
    have hpre : (toLE 1 (listMin ex) ++ fluxPlane d (ex.map (· - listMin ex))).length = 1 + 256 / fluxWidth t * d / 8 := by
      rw [List.length_append, length_toLE, length_fluxPlane, hn]
    have hdrop1 : (body ++ r).drop 1 = fluxPlane d (ex.map (· - listMin ex)) ++ (fluxPlane (fluxFrac t + 1) sm ++ r) := by
      rw [hparts, List.append_assoc, List.drop_left' (length_toLE ..), List.append_assoc]
    have hdrop2 : (body ++ r).drop (1 + 256 / fluxWidth t * d / 8) = fluxPlane (fluxFrac t + 1) sm ++ r := by
      rw [hparts, ← List.append_assoc, List.append_assoc, List.drop_left' hpre]
    have hb : leNat ((body ++ r).take 1) = listMin ex := by
      rw [hparts, List.append_assoc, List.take_left' (length_toLE ..), hmin]
    have hfit : ((ex.map (· - listMin ex)).any fun d => 2 ^ fluxExp t ≤ listMin ex + d) = false := by
      rw [List.any_eq_false]
      intro q hq
      obtain ⟨y, hy, rfl⟩ := List.mem_map.mp hq
      have := hexlt y hy
      have := listMin_le hy
      simp only [decide_eq_true_eq]
      omega
    have hback : (((ex.map (· - listMin ex)).zip sm).map fun x => x.2 / 2 ^ fluxFrac t * 2 ^ (fluxExp t + fluxFrac t) +
        (listMin ex + x.1) * 2 ^ fluxFrac t + x.2 % 2 ^ fluxFrac t) = l := by
      have hmapex : ex.map (· - listMin ex) = l.map fun x => x / 2 ^ fluxFrac t % 2 ^ fluxExp t - listMin ex := List.map_map ..
      rw [hmapex, hsm, List.zip_map', List.map_map]
      refine (List.map_congr_left fun x hx => ?_).trans (List.map_id l)
      have hle : listMin ex ≤ x / 2 ^ fluxFrac t % 2 ^ fluxExp t := listMin_le (List.mem_map_of_mem hx)
      simp only [Function.comp, Nat.add_sub_cancel' hle, id]
      exact xsplit_eq ..
    simp only [fluxRaw, hdrop1, hdrop2, hds, hss, hb, hfit, htop, hback, Bool.false_eq_true, if_false]
    exact congrArg some (fluxJoin_fluxElems t h)

/-! ## The compressor's choice (R363) -/

theorem opensTo_of_mem_fluxCandidates {b c : Bytes} (hb : b.length = 256) (h : c ∈ fluxCandidates b) : OpensTo c b := by
  simp only [fluxCandidates, List.mem_append, List.mem_filterMap, List.mem_ite_nil_right, List.mem_singleton,
    Option.ite_none_right_eq_some, Option.ite_none_left_eq_some, Option.some.injEq, Bool.or_eq_true, Bool.and_eq_true,
    decide_eq_true_eq, not_or, Nat.not_lt, List.all_eq_true, beq_iff_eq, List.mem_range] at h
  obtain (((⟨hz, rfl⟩ | ⟨t, ht, hc, rfl⟩) | ⟨t, ht, hbitmap, rfl⟩) | ⟨t, ht, ⟨hc, hdelta⟩, rfl⟩) | ⟨t, ht, ⟨hd, hxsplit⟩, rfl⟩ := h
  · exact opensTo_zero hb hz
  · exact opensTo_const hb (by omega) hc
  · exact opensTo_bitmap hb (by omega) hbitmap
  · exact opensTo_delta hb (by omega) hc hdelta
  · exact opensTo_xsplit hb (by simpa using ht) hd hxsplit

theorem foldl_shorter_mem (cs : List Bytes) (c : Bytes) :
    cs.foldl (fun a x => if x.length < a.length then x else a) c ∈ c :: cs := by
  induction cs generalizing c with
  | nil => exact List.mem_singleton_self c
  | cons x cs ih =>
    rw [List.foldl_cons]
    obtain h | h := List.mem_cons.mp (ih (if x.length < c.length then x else c))
    · rw [h]
      split <;> simp
    · exact List.mem_cons_of_mem _ (List.mem_cons_of_mem _ h)

theorem opensTo_fluxCodeBlock {b : Bytes} (hb : b.length = 256) : OpensTo (fluxCodeBlock b) b := by
  unfold fluxCodeBlock
  split
  · exact opensTo_raw hb
  · next c cs hcands => exact opensTo_of_mem_fluxCandidates hb (hcands ▸ foldl_shorter_mem cs c)

/-! ## Streams (R358, R364, R365) -/

/-- The stream of `k` blocks opens to the payload and the zeros that fill its last block. -/
theorem fluxBlocks_fluxCodeBlocks (k : Nat) (b rest : Bytes) (h : b.length ≤ 256 * k) :
    fluxBlocks k (fluxCodeBlocks k b ++ rest) = some (b ++ List.replicate (256 * k - b.length) 0, rest) := by
  induction k generalizing b with
  | zero =>
    obtain rfl : b = [] := List.eq_nil_of_length_eq_zero (by omega)
    rfl
  | succ k ih =>
    have hopen : OpensTo _ (b.take 256 ++ List.replicate (256 - (b.take 256).length) 0) :=
      opensTo_fluxCodeBlock (by rw [List.length_append, List.length_replicate, List.length_take]; omega)
    have hrest := ih (b.drop 256) (by rw [List.length_drop]; omega)
    simp only [fluxBlocks, fluxCodeBlocks]
    rw [List.append_assoc, hopen]
    simp only [hrest, Option.map_some]
    congr 2
    by_cases hb : 256 ≤ b.length
    · have htake : (b.take 256).length = 256 := by rw [List.length_take]; omega
      have hzeros : 256 * k - (b.drop 256).length = 256 * (k + 1) - b.length := by rw [List.length_drop]; omega
      rw [htake, hzeros, Nat.sub_self, List.replicate_zero, List.append_nil, ← List.append_assoc, List.take_append_drop]
    · have htake : b.take 256 = b := List.take_of_length_le (by omega)
      have hdrop : b.drop 256 = [] := List.drop_of_length_le (by omega)
      rw [htake, hdrop, List.nil_append, List.append_assoc, List.replicate_append_replicate, List.length_nil]
      congr 2
      omega

/-- Settles O10. Each block of the stream opens to the raw block it was made from (`opensTo_fluxCodeBlock`). -/
theorem fluxLossless : Obligations.FluxLossless := by
  intro b
  obtain ⟨pad, hpad⟩ : ∃ pad : Bytes, pad = List.replicate ((16 - (fluxCode b).length % 16) % 16) 0 := ⟨_, rfl⟩
  have hblocks : fluxBlocks ((b.length + 255) / 256) (fluxCode b ++ pad) = _ := fluxBlocks_fluxCodeBlocks _ b pad (by omega)
  have hzero : (16 ≤ pad.length || pad.any (· != 0)) = false := by
    rw [hpad]
    simp
    omega
  rw [← hpad]
  simp only [fluxExpand, hblocks, hzero, Bool.false_eq_true, if_false]
  rw [List.take_left' rfl]

end Sys2Proof.Machine
end

section
/-! PROOFS. Extent descriptors and hellos are read back from their bytes (R264, R265, R432, R433). -/

namespace Sys2Proof.Machine

theorem b2n_lt_two (b : Bool) : b2n b < 2 := by cases b <;> decide

/-- A flag is read back from the bit that holds it. -/
theorem beq_one_of_eq_b2n {x : Nat} {b : Bool} (h : x = b2n b) : (x == 1) = b := by
  subst h
  cases b <;> rfl

/-- R264: every field stands in bits of its own. -/
theorem decExtent_encExtent {e : Extent} (hbase : e.base < 2 ^ 24) (hgran : e.granules < 2 ^ 24) (htb : e.trayBase < 2 ^ 24)
    (hhost : e.hostmask < 2 ^ 32) (hmp : e.mirrorPort < 32) (htp : e.trayPort < 32) (hld : e.trayLd < 16) (hdc : e.dcRegion < 8)
    (hnook : e.nook < 128) (hch : e.ch0 < 8) (hmir : e.mirror < 4) (hpart : e.part < 16) : decExtent (leNat (encExtent e)) = e := by
  obtain ⟨base, granules, trayBase, hostmask, mirrorPort, trayPort, trayLd, dcRegion, nook, ch0, channelMap, mirror, devown, coh,
    tray, part⟩ := e
  have hmap := b2n_lt_two channelMap
  have hdev := b2n_lt_two devown
  have hcoh := b2n_lt_two coh
  have htray := b2n_lt_two tray
  simp only at hbase hgran htb hhost hmp htp hld hdc hnook hch hmir hpart
  simp only [encExtent, leNat_toLE, decExtent, bit, bits, Extent.mk.injEq]
  refine ⟨?_, ?_, ?_, ?_, ?_, ?_, ?_, ?_, ?_, ?_, beq_one_of_eq_b2n ?_, ?_, beq_one_of_eq_b2n ?_, beq_one_of_eq_b2n ?_,
    beq_one_of_eq_b2n ?_, ?_⟩ <;> omega

/-- R432: every field stands in bits of its own, VERSION is 0x01 and the reserved bits are 0. -/
theorem decHello_encHello {h : Hello} (hser : h.serial < 2 ^ 64) (htwin : h.twinSerial < 2 ^ 64) (hepoch : h.epoch < 2 ^ 32)
    (hcell : h.cell < 1024) (hmod : h.module < 16) (hport : h.port < 256) (hrole : h.role < 4) (hlink : h.linkKind < 4)
    (hready : h.ready < 4) : decHello (encHello h) = some h := by
  obtain ⟨serial, twinSerial, epoch, cell, module, port, role, linkKind, ready, secure⟩ := h
  have hsec := b2n_lt_two secure
  simp only at hser htwin hepoch hcell hmod hport hrole hlink hready
  obtain ⟨x, hx⟩ : ∃ x, x = leNat (encHello ⟨serial, twinSerial, epoch, cell, module, port, role, linkKind, ready, secure⟩) := ⟨_, rfl⟩
  have hlen : (encHello ⟨serial, twinSerial, epoch, cell, module, port, role, linkKind, ready, secure⟩).length = 32 := length_toLE ..
  have hver : bits x 7 0 = 1 := by
    simp only [hx, encHello, leNat_toLE, bits]
    omega
  have hrsv : bits x 66 8 = 0 := by
    simp only [hx, encHello, leNat_toLE, bits]
    omega
  simp only [decHello, ← hx, hlen, hver, hrsv, ne_eq, not_true_eq_false, decide_false, Bool.or_self, Bool.false_eq_true, if_false,
    Option.some.injEq, Hello.mk.injEq]
  simp only [hx, encHello, leNat_toLE, bit, bits]
  refine ⟨?_, ?_, ?_, ?_, ?_, ?_, ?_, ?_, ?_, beq_one_of_eq_b2n ?_⟩ <;> omega

/-- Settles O11. -/
theorem recordsRoundTrip : Obligations.RecordsRoundTrip :=
  ⟨fun _ => decExtent_encExtent, fun _ => decHello_encHello⟩

end Sys2Proof.Machine
end

section
/-! PROOFS. Memory reads back what was written (R277, R298). -/

namespace Sys2Proof.Machine

theorem cellsGet_write {z : Byte} (d : Bytes) (l : List Host.Cell) (x y : Nat) :
    cellsGet z (cellsWrite z l x d) y = if x ≤ y ∧ y < x + d.length then d.getD (y - x) z else cellsGet z l y := by
  induction d generalizing l x with
  | nil =>
    rw [if_neg (by simp only [List.length_nil]; omega)]
    rfl
  | cons v d ih =>
    rw [cellsWrite, ih, cellsGet_set]
    by_cases hy : y = x
    · subst hy
      simp
    · by_cases hin : x + 1 ≤ y ∧ y < x + 1 + d.length
      · have hidx : y - x = y - (x + 1) + 1 := by omega
        rw [if_pos hin, if_pos (by simp only [List.length_cons]; omega), hidx, List.getD_cons_succ]
      · rw [if_neg hin, if_neg hy, if_neg (by simp only [List.length_cons]; omega)]

theorem memRead_one (s : State) (a : Nat) : memRead s a 1 = [cellsGet 0 s.mem.bytes a] := rfl

@[simp] theorem healRun_bytes (o n : Nat) (s : State) : (healRun o n s).mem.bytes = s.mem.bytes := by
  unfold healRun
  cases anyExtent s o with
  | none => rfl
  | some e => exact healOn_bytes ..

@[simp] theorem zeroPieces_bytes (n : Nat) (q : Nat → Bool) (s : State) : (zeroPieces n q s).mem.bytes = s.mem.bytes := by
  unfold zeroPieces
  dsimp only
  split
  · rfl
  · exact foldl_keep (fun s : State => s.mem.bytes) _ (fun s x => by split <;> rfl) _ _

@[simp] theorem zeroFirst_bytes (e : Extent) (o : Nat) (s : State) : (zeroFirst e o s).mem.bytes = s.mem.bytes := by
  unfold zeroFirst
  split
  · exact zeroPieces_bytes ..
  · rfl

/-- The bytes of memory after a write: what else a write does leaves them alone. -/
@[simp] theorem memWrite_bytes (o : Nat) (d : Bytes) (s : State) : (memWrite o d s).mem.bytes = cellsWrite 0 s.mem.bytes o d := by
  unfold memWrite
  extract_lets a m b c
  have hc : c.mem.bytes = cellsWrite 0 s.mem.bytes o d := by
    simp only [c, healRun_bytes, b, m, a, dropCached_mem]
  clear_value c
  split
  · exact hc
  · extract_lets u m v
    have hv : v.mem.bytes = cellsWrite 0 s.mem.bytes o d := by
      simp only [v]
      split <;> simpa only [m, u, zeroFirst_bytes] using hc
    clear_value v
    split <;> simpa only [mirrorOut_mem] using hv

@[simp] theorem memClear_bytes (e : Extent) (s : State) :
    (memClear e s).mem.bytes = cellsClear s.mem.bytes (e.base * 2 ^ 28) (e.granules * 2 ^ 28) := by
  simp only [memClear, healOn_bytes, dropCached_mem]

theorem memRead_memWrite (o a : Nat) (d : Bytes) (s : State) :
    memRead (memWrite o d s) a 1 = if o ≤ a ∧ a < o + d.length then [d.getD (a - o) 0] else memRead s a 1 := by
  simp only [memRead_one, memWrite_bytes, cellsGet_write]
  split <;> rfl

theorem memRead_memClear (e : Extent) (a : Nat) (s : State) :
    memRead (memClear e s) a 1 = if e.base * 2 ^ 28 ≤ a ∧ a < (e.base + e.granules) * 2 ^ 28 then [0] else memRead s a 1 := by
  simp only [memRead_one, memClear_bytes, cellsGet_clear, Nat.add_mul]
  split <;> rfl

/-- A line is stored unless its channel has gone (R173, R455). -/
theorem storeLine_of_extent {l : Nat} {d : Bytes} {e : Extent} {s : State} (he : anyExtent s (64 * l) = some e) :
    storeLine l d s = if writeGone s e (64 * l) then s else memWrite (64 * l) d s := by
  simp only [storeLine, he]

/-- Settles O4. -/
theorem memoryReadsBack : Obligations.MemoryReadsBack := by
  refine ⟨memRead_memWrite, memRead_memClear, fun l a d e s hlen he => ?_⟩
  have hline : 64 * l ≤ a ∧ a < 64 * l + d.length ↔ a / 64 = l := by omega
  rw [storeLine_of_extent he]
  cases writeGone s e (64 * l) with
  | true => simp
  | false =>
    simp only [Bool.false_eq_true, if_false, memRead_memWrite, hline, and_true]
    split
    · next ha => rw [show a - 64 * l = a % 64 by omega]
    · rfl

end Sys2Proof.Machine
end

section
/-! PROOFS. How a mailbox command ends (R403, R407): its own rules, run on the state in which it has started. -/

namespace Sys2Proof.Machine

section
variable {c : Instr} {op : Nat} {m : MbxId} {j : Job} {s t : State} {f : Job → State → End × State} {g : Job → State → Status × State}
  {st : Status} {d : Nat} {p : Bytes}

theorem exec_of_mayRun (harm : exec c s = .next (settle s (runCmd op m f s))) (h : mayRun s m op j) :
    exec c s = .next (settle s (endJob j (f j (startJob j s)))) := by
  obtain ⟨hj, hop⟩ := h
  rw [harm, runCmd_of hj hop]

/-- The command completes with a status, a DETAIL and a payload. -/
theorem exec_done (harm : exec c s = .next (settle s (runCmd op m f s))) (h : mayRun s m op j)
    (hf : f j (startJob j s) = (.done st d p, t)) : exec c s = .next (settle s (finish j.id st d p t)) := by
  rw [exec_of_mayRun harm h, hf, endJob_done]

/-- The command waits for a later event. -/
theorem exec_waits (harm : exec c s = .next (settle s (runCmd op m f s))) (h : mayRun s m op j)
    (hf : f j (startJob j s) = (.waits, t)) : exec c s = .next (settle s t) := by
  rw [exec_of_mayRun harm h, hf, endJob_waits]

/-- A command that answers a status alone. -/
theorem exec_simply (harm : exec c s = .next (settle s (runCmd op m (simply g) s))) (h : mayRun s m op j)
    (hg : g j (startJob j s) = (st, t)) : exec c s = .next (settle s (finish j.id st 0 [] t)) :=
  exec_done harm h (by simp only [simply, hg])

end

end Sys2Proof.Machine
end

section
/-! PROOFS. The Ash tier and twin pairing without a system nook (R20). -/

namespace Sys2Proof.Machine

section
variable {j : Job} {s : State} (h : s.flash.prof.sysNooks = 0)
include h

theorem sysNook_eq_false : sysNook s = false := by simp only [sysNook, h, bne_self_eq_false]

theorem ashNsCreate_noSysNook (hz : zeroAt j.payload 1 3 = true) : ashNsCreate j s = (.noAccess, s) := by
  simp [ashNsCreate, hz, sysNook_eq_false h]

theorem ashNsDestroy_noSysNook : ashNsDestroy j s = (.noAccess, s) := by
  simp [ashNsDestroy, sysNook_eq_false h]

theorem ashAssign_noSysNook (hz : zeroAt j.payload 1 7 = true) : ashAssign j s = (.noAccess, s) := by
  simp [ashAssign, hz, sysNook_eq_false h]

theorem ashWrite_noSysNook : ashWrite j s = (.done .noAccess, s) := by
  simp [ashWrite, sysNook_eq_false h]

theorem ashRead_noSysNook : ashRead j s = (.done .noAccess, s) := by
  simp [ashRead, sysNook_eq_false h]

theorem ashRange_noSysNook : ashRange j s = .noAccess := by
  unfold ashRange
  cases s.ns? j.part with
  | none => rfl
  | some n => simp [sysNook_eq_false h]

theorem ashTrim_noSysNook : ashTrim j s = (.noAccess, s) := by
  simp only [ashTrim, ashRange_noSysNook h]

theorem ashStatus_noSysNook : ashStatus j s = (.done .noAccess, s) := by
  simp [ashStatus, sysNook_eq_false h]

theorem twinPair_noSysNook (hz : zeroAt j.payload 2 6 = true) : twinPair j s = (.done .noAccess, s) := by
  simp [twinPair, hz, h]

theorem twinUnpair_noSysNook : twinUnpair j s = (.noAccess, s) := by
  simp [twinUnpair, h]

theorem twinStatus_noSysNook : twinStatus j s = (.done .noAccess, s) := by
  simp [twinStatus, h]

theorem twinTakeover_noSysNook : twinTakeover j s = (.done .noAccess, s) := by
  simp [twinTakeover, h]

end

/-- Settles O6. -/
theorem noSystemNookNoAccess : Obligations.NoSystemNookNoAccess := by
  intro m j s h r
  refine ⟨fun hj hz => exec_simply rfl hj (ashNsCreate_noSysNook h hz), fun hj => exec_simply rfl hj (ashNsDestroy_noSysNook h),
    fun hj hz => exec_simply rfl hj (ashAssign_noSysNook h hz), fun hj => exec_done rfl hj (ashWrite_noSysNook h),
    fun hj => exec_done rfl hj (ashRead_noSysNook h), fun hj => exec_simply rfl hj (ashTrim_noSysNook h),
    fun hj => exec_done rfl hj (ashStatus_noSysNook h), fun hj hz => exec_done rfl hj (twinPair_noSysNook h hz),
    fun hj => exec_simply rfl hj (twinUnpair_noSysNook h), fun hj => exec_done rfl hj (twinStatus_noSysNook h),
    fun hj => exec_done rfl hj (twinTakeover_noSysNook h)⟩

end Sys2Proof.Machine
end

section
/-! PROOFS. Chimney frames, registers and submissions (R353 to R355, R401 to R410). -/

namespace Sys2Proof.Machine

section
variable {l : Link} {q : Nat} {s : State}

/-! ## Frames (R354) -/

/-- A frame that is performed is answered with what its register write answers. -/
theorem frame_of_fresh (h : freshFrame s l q) (f : State → Status × State) : frame l q f s = answerFrame l q (f s).1 (f s).2 := by
  obtain ⟨hreset, hseq⟩ := h
  have hnew : (l != .jtag && (linkOf s l).lastSeq == some q) = false := by
    obtain rfl | hne := hseq
    · rfl
    · rw [Bool.and_eq_false_iff]
      exact .inr (by simpa using hne)
  simp only [frame, hreset, hnew, Bool.false_eq_true, if_false]

theorem exec_frame {c : Instr} {f : State → Status × State} (harm : exec c s = .next (settle s (frame l q f s))) (h : freshFrame s l q)
    {st : Status} {t : State} (hf : f s = (st, t)) : exec c s = .next (settle s (answerFrame l q st t)) := by
  rw [harm, frame_of_fresh h, hf]

/-! ## Who may write what (R355, R398) -/

theorem ne_jtag_of_holds (h : holds s l = true) : l ≠ .jtag := by
  rintro rfl
  exact absurd h (by simp [holds])

/-- The master link may write every register of R409 outside the mailbox blocks. -/
theorem writeStatus_of_holds {o : Nat} (h : holds s l = true) (hblk : blockAt o = none) (hreg : regOff o = true) :
    writeStatus s l o = .ok := by
  have hj := ne_jtag_of_holds h
  simp [writeStatus, hblk, hreg, h, hj]

/-- A link may write its own mailbox block, and JTAG MBX_DEBUG where it works at all. -/
theorem writeStatus_of_ownMbx {o k : Nat} (hj : l = .jtag → jtagWorks s = true) (hblk : blockAt o = some (ownMbx l, k))
    (hoff : blockOff k = true) : writeStatus s l o = .ok := by
  cases l with
  | a => simp [writeStatus, hblk, hoff, ownMbx]
  | b => simp [writeStatus, hblk, hoff, ownMbx]
  | jtag => simp [writeStatus, hblk, hoff, ownMbx, hj rfl]

theorem writeReg_refused {o : Nat} {v : BitVec 32} {st : Status} (h : writeStatus s l o = st) (hne : st ≠ .ok) :
    writeReg l o v s = (st, s) := by
  subst h
  unfold writeReg
  split
  · next hok => exact absurd hok hne
  · rfl

/-! ## Mastership (R355, R410) -/

theorem sendIrq_masterB (t : Nat) (m : Mantel) : (sendIrq t m).masterB = m.masterB := by
  simp only [sendIrq, apply_ite Mantel.masterB, ite_self]

theorem sendIrq_irqEnable (t : Nat) (m : Mantel) : (sendIrq t m).irqEnable = m.irqEnable := by
  simp only [sendIrq, apply_ite Mantel.irqEnable, ite_self]

theorem sendIrq_jobs (t : Nat) (m : Mantel) : (sendIrq t m).jobs = m.jobs := by
  simp only [sendIrq, apply_ite Mantel.jobs, ite_self]

theorem noteIrq_irqStatus (t : Nat) (x : BitVec 32) (m : Mantel) : (noteIrq t x m).irqStatus = m.irqStatus := by
  simp only [noteIrq, sendIrq, apply_ite Mantel.irqStatus, ite_self]

theorem raiseIrq_irqStatus (x : BitVec 32) (s : State) : (raiseIrq x s).mantel.irqStatus = s.mantel.irqStatus ||| x := by
  simp only [raiseIrq, noteIrq_irqStatus]

/-- What a command does last clears no bit of IRQ_STATUS. -/
theorem settle_irqStatus_of_set {o n : State} {i : Nat} (h : n.mantel.irqStatus.getLsbD i = true) :
    (settle o n).mantel.irqStatus.getLsbD i = true := by
  unfold settle
  extract_lets m shown a b
  split
  · exact h
  · rw [raiseIrq_irqStatus, BitVec.getLsbD_or, h, Bool.true_or]

/-- The interrupt held for the new master is sent. -/
def heldSent (moved : Bool) (s : State) : State :=
  if s.mantel.irqMore || (moved && s.mantel.irqOut.isSome) then { s with mantel := sendIrq s.t s.mantel } else s

theorem takeMaster_false (l : Link) (s : State) : takeMaster l false s =
    let r := heldSent ((l == .b) != s.mantel.masterB) { s with mantel.masterB := l == .b }
    if (l == .b) != s.mantel.masterB then raiseIrq 64 r else r := rfl

/-- What sending a held interrupt keeps. -/
theorem heldSent_keep {β : Type} (F : State → β) (hF : ∀ s : State, F { s with mantel := sendIrq s.t s.mantel } = F s) (b : Bool) (s : State) :
    F (heldSent b s) = F s := by
  simp only [heldSent, apply_ite F, hF, ite_self]

/-- Whatever the interrupts do not touch, a change of mastership keeps but for MASTER itself. -/
theorem takeMaster_keep {β : Type} (F : State → β) (hF : ∀ s : State, F { s with mantel := sendIrq s.t s.mantel } = F s)
    (hR : ∀ s, F (raiseIrq 64 s) = F s) (l : Link) (s : State) : F (takeMaster l false s) = F { s with mantel.masterB := l == .b } := by
  simp only [takeMaster_false, apply_ite F, hR, heldSent_keep F hF, ite_self]

theorem takeMaster_masterB : (takeMaster l false s).mantel.masterB = (l == .b) :=
  takeMaster_keep (fun s => s.mantel.masterB) (fun _ => sendIrq_masterB ..) (fun _ => noteIrq_masterB ..) l s

/-- R355: a change of mastership raises IRQ_STATUS bit 6. -/
theorem takeMaster_raises (h : s.mantel.masterB ≠ (l == .b)) : (takeMaster l false s).mantel.irqStatus.getLsbD 6 = true := by
  have hmoved : ((l == .b) != s.mantel.masterB) = true := by simpa [bne_iff_ne] using h.symm
  rw [takeMaster_false, hmoved, if_pos rfl, raiseIrq_irqStatus, BitVec.getLsbD_or]
  simp

theorem answerFrame_mantel_keep {β : Type} (F : Mantel → β) (hA : ∀ m k, F { m with linkA := k } = F m)
    (hB : ∀ m k, F { m with linkB := k } = F m) (hJ : ∀ m k, F { m with linkJ := k } = F m) (l : Link) (q : Nat) (st : Status) (s : State) :
    F (answerFrame l q st s).mantel = F s.mantel := by
  cases l with
  | a => exact hA ..
  | b => exact hB ..
  | jtag => exact hJ ..

end

theorem exec_faultCauseClear {l : Link} {q : Nat} {s : State} (v : BitVec 32) (h : freshFrame s l q) (hm : holds s l = true) :
    exec (.faultCauseClear l q v) s = .next (settle s (answerFrame l q .ok { s with mantel.faultCause := s.mantel.faultCause &&& ~~~v })) := by
  refine exec_frame rfl h ?_
  simp [writeReg, writeStatus_of_holds hm (o := 0x0108) rfl rfl, show blockAt 0x0108 = none from rfl]

theorem exec_irqStatusClear {l : Link} {q : Nat} {s : State} (v : BitVec 32) (h : freshFrame s l q) (hm : holds s l = true) :
    exec (.irqStatusClear l q v) s = .next (settle s (answerFrame l q .ok { s with mantel.irqStatus := s.mantel.irqStatus &&& ~~~v })) := by
  refine exec_frame rfl h ?_
  simp [writeReg, writeStatus_of_holds hm (o := 0x0200) rfl rfl, show blockAt 0x0200 = none from rfl]

theorem exec_irqEnableWrite {l : Link} {q : Nat} {s : State} (v : BitVec 32) (h : freshFrame s l q) (hm : holds s l = true) :
    exec (.irqEnableWrite l q v) s = .next (settle s (answerFrame l q .ok (let e := v &&& 0x7F
      { s with mantel := noteIrq s.t (e &&& ~~~s.mantel.irqEnable &&& s.mantel.irqStatus) { s.mantel with irqEnable := e } }))) := by
  refine exec_frame rfl h ?_
  simp [writeReg, writeStatus_of_holds hm (o := 0x0204) rfl rfl, show blockAt 0x0204 = none from rfl]

theorem exec_masterWrite {l : Link} {q : Nat} {s : State} (v : BitVec 32) (h : freshFrame s l q) (hl : l ≠ .jtag) :
    exec (.masterWrite l q v false) s = .next (settle s (answerFrame l q .ok (takeMaster l false s))) :=
  exec_frame rfl h (by simp [hl])

/-- Settles O12. -/
theorem masterWritesRegisters : Obligations.MasterWritesRegisters := by
  refine ⟨fun l q v s h hm => ⟨exec_faultCauseClear v h hm, exec_irqStatusClear v h hm, exec_irqEnableWrite v h hm⟩,
    fun l q v s h hl => ⟨_, exec_masterWrite v h hl, ?_, fun hmoved => ?_, ?_, ?_, ?_, ?_, ?_⟩⟩
  · rw [settle_mantel_masterB, answerFrame_mantel_keep (·.masterB) (fun _ _ => rfl) (fun _ _ => rfl) (fun _ _ => rfl), takeMaster_masterB]
  · refine settle_irqStatus_of_set ?_
    rw [answerFrame_mantel_keep (·.irqStatus.getLsbD 6) (fun _ _ => rfl) (fun _ _ => rfl) (fun _ _ => rfl), takeMaster_raises hmoved]
  · rw [settle_mantel_irqEnable, answerFrame_mantel_keep (·.irqEnable) (fun _ _ => rfl) (fun _ _ => rfl) (fun _ _ => rfl)]
    exact takeMaster_keep (·.mantel.irqEnable) (fun _ => sendIrq_irqEnable ..) (fun _ => noteIrq_irqEnable ..) l s
  · rw [settle_mantel_jobs, answerFrame_mantel_keep (·.jobs) (fun _ _ => rfl) (fun _ _ => rfl) (fun _ _ => rfl)]
    exact takeMaster_keep (·.mantel.jobs) (fun _ => sendIrq_jobs ..) (fun _ => noteIrq_jobs ..) l s
  · rw [settle_mem, answerFrame_mem]
    exact takeMaster_keep (·.mem) (fun _ => rfl) (fun _ => rfl) l s
  · rw [settle_ember, answerFrame_ember]
    exact takeMaster_keep (·.ember) (fun _ => rfl) (fun _ => rfl) l s
  · rw [settle_sax, answerFrame_sax]
    exact takeMaster_keep (·.sax) (fun _ => rfl) (fun _ => rfl) l s

end Sys2Proof.Machine
end

section
/-! PROOFS. Register writes (R354, R409, R418). -/

namespace Sys2Proof.Machine

/-- The module after reset in a test profile, where draft registers work (R378). -/
def testProfile : State := { State.reset with flash := { State.reset.flash with prof := { State.reset.flash.prof with test := true } } }

/-- An offset between two draft registers is no register of R409: the write is answered BAD_DESCRIPTOR. -/
theorem writeReg_between_drafts (v : BitVec 32) : writeReg .a 0x3001 v testProfile = (.badDescriptor, testProfile) := rfl

theorem exec_draftRegisterWrite_between_drafts (v : BitVec 32) :
    exec (.draftRegisterWrite .a 0 0x3001 v) testProfile = .next (settle testProfile (answerFrame .a 0 .badDescriptor testProfile)) :=
  exec_frame rfl ⟨rfl, .inr (by decide)⟩ (writeReg_between_drafts v)

/-- Refutes O13: `draftOff` holds of offset 0x3001, which is not a multiple of 4, and the write of 1 there is refused (`regOff`), so
that it still reads 0. -/
theorem not_registerWriteCompletes : ¬ Obligations.RegisterWriteCompletes := by
  rintro ⟨-, hdraft⟩
  obtain ⟨t, ht, hreg, -⟩ := hdraft .a 0 0x3001 1 testProfile ⟨rfl, .inr (by decide)⟩ (by decide) rfl (.inr rfl)
  obtain rfl := Host.Outcome.next.inj ((exec_draftRegisterWrite_between_drafts 1).symm.trans ht)
  have hzero : draftReg (settle testProfile (answerFrame .a 0 .badDescriptor testProfile)) 0x3001 = 0 := by
    simp only [draftReg, settle_mantel_draft]
    rfl
  exact absurd (hzero.symm.trans hreg) (by decide)

end Sys2Proof.Machine
end

section
/-! PROOFS. Writes of the mailbox buffers (R401). -/

namespace Sys2Proof.Machine

/-- A run that does not begin at a word of the block is answered BAD_DESCRIPTOR and changes nothing (R401). -/
theorem exec_mbxBufferWrite_between_words :
    exec (.mbxBufferWrite .a 0 0x1041 [1, 0, 0, 0]) State.reset =
      .next (settle State.reset (answerFrame .a 0 .badDescriptor State.reset)) :=
  exec_frame rfl ⟨rfl, .inr (by decide)⟩ rfl

/-- Refutes O14: the statement lets a run begin at any byte, and 0x1041 is not a multiple of 4 (`blockOff`), so that CMD_HDR still reads 0
where its byte 1 should read 1. -/
theorem not_mailboxBufferTakesBytes : ¬ Obligations.MailboxBufferTakesBytes := by
  rintro ⟨hhdr, -⟩
  obtain ⟨t, ht, -, -, hread, -⟩ := hhdr 0 0x1041 [1, 0, 0, 0] State.reset ⟨rfl, .inr (by decide)⟩ (by decide) rfl (by decide)
    (by decide) (by decide)
  obtain rfl := Host.Outcome.next.inj (exec_mbxBufferWrite_between_words.symm.trans ht)
  rw [settle_mantel_mbxA] at hread
  exact absurd hread (by decide)

end Sys2Proof.Machine
end

section
/-! PROOFS. Submissions and doorbells (R401 to R407), and the events of the Chimney links (R353 to R355, R410). -/

namespace Sys2Proof.Machine

section
variable {l : Link} {q : Nat} {s : State}

/-! ## Submissions (R401) -/

/-- The offset of a link's own MBX_SUBMIT. -/
def submitReg : Link → Nat
  | .a => 0x1000
  | .b => 0x1400
  | .jtag => 0x1800

theorem blockAt_submitReg (l : Link) : blockAt (submitReg l) = some (ownMbx l, 0) := by cases l <;> rfl

theorem writeReg_submitReg (v : BitVec 32) (hj : l = .jtag → jtagWorks s = true) :
    writeReg l (submitReg l) v s = (.ok, if v.getLsbD 0 then submit (ownMbx l) s else s) := by
  simp only [writeReg, writeStatus_of_ownMbx hj (blockAt_submitReg l) rfl, blockAt_submitReg, if_true]

theorem exec_mbxSubmit (v : BitVec 32) (h : freshFrame s l q) (hm : mailboxesServe s = true) (hj : l = .jtag → jtagWorks s = true) :
    exec (.mbxSubmit l q v) s = .next (settle s (answerFrame l q .ok (if v.getLsbD 0 then submit (ownMbx l) s else s))) := by
  have harm : exec (.mbxSubmit l q v) s = .next (settle s (frame l q
      (fun s => if mailboxesServe s then writeReg l (submitReg l) v s else (.busy, s)) s)) := by cases l <;> rfl
  exact exec_frame harm h (by rw [hm, if_pos rfl, writeReg_submitReg v hj])

/-- A block that is not BUSY becomes BUSY, and its command arrives (R401). -/
theorem submit_of_idle {i : MbxId} {b : MbxBlock} (hb : s.mantel.blk i = b) (hst : b.st ≠ 1) :
    submit i s = accept i 0 0 0 b.cmdHdr (cellsRead 0 b.buf 0 (min 4096 (bits b.cmdHdr 76 64))) (modBlk i (fun b => { b with st := 1 }) s) := by
  subst hb
  simp only [submit, hst, if_false]

theorem submit_of_busy {i : MbxId} (hst : (s.mantel.blk i).st = 1) : submit i s = modBlk i (fun b => { b with overrun := true }) s := by
  simp only [submit, hst, if_true]

/-! ## Doorbells (R401) -/

theorem exec_doorbell_own (h : freshFrame s l q) (hm : mailboxesServe s = true) (hl : l ≠ .jtag) :
    exec (.doorbell l q (if l = .b then 1 else 0)) s = .next (settle s (answerFrame l q .ok (submit (ownMbx l) s))) := by
  refine exec_frame rfl h ?_
  cases l with
  | a => simp [hm]
  | b => simp [hm]
  | jtag => exact absurd rfl hl

theorem exec_doorbell_other (h : freshFrame s l q) (hl : l ≠ .jtag) :
    exec (.doorbell l q (if l = .b then 0 else 1)) s = .next (settle s (answerFrame l q .noAccess s)) := by
  refine exec_frame rfl h ?_
  cases l with
  | a => simp
  | b => simp
  | jtag => exact absurd rfl hl

end

/-! ## Commands that arrive (R403 to R405) -/

section
variable {m : MbxId} {port src txn hdr : Nat} {data : Bytes} {h : CmdHdr} {j : Job} {s : State}
  (hh : h = cmdHdr hdr) (hnew : (s.mantel.lasts.find? fun l => l.mbx == m && l.seq == h.seq && l.op == h.op) = none)
include hh hnew

theorem accept_queued (hok : acceptStatus s m h data.length = .ok) (hd : h.defer = false)
    (hj : j = { id := s.mantel.nextJob, mbx := m, port := port, src := src, txn := txn, op := h.op, seq := h.seq, part := h.part,
                quiet := h.quiet, payload := data.take h.len, ready := s.t, at_ := s.ns }) :
    accept m port src txn hdr data s = { s with mantel := { s.mantel with
      jobs := s.mantel.jobs ++ [j], nextJob := s.mantel.nextJob + 1, lasts := noteLast { mbx := m, seq := h.seq, op := h.op } s.mantel.lasts } } := by
  subst hh hj
  simp only [accept, hnew, hok, hd, Bool.false_eq_true, if_false]

theorem accept_deferred {tk : Nat} {c : Cmpl} (hok : acceptStatus s m h data.length = .ok) (hd : h.defer = true)
    (htk : tk = s.mantel.nextTicket)
    (hj : j = { id := s.mantel.nextJob, mbx := m, port := port, src := src, txn := txn, op := h.op, seq := h.seq, part := h.part,
                defer := true, quiet := h.quiet, payload := data.take h.len, ready := s.t, at_ := s.ns, ticket := tk })
    (hc : c = { op := h.op, seq := h.seq, ticket := tk, endTime := s.ns }) :
    accept m port src txn hdr data s = recordLast j c (postCmpl j c { s with mantel := { s.mantel with
      jobs := s.mantel.jobs ++ [j], nextJob := s.mantel.nextJob + 1, nextTicket := if tk = 65535 then 1 else tk + 1,
      lasts := noteLast { mbx := m, seq := h.seq, op := h.op } s.mantel.lasts } }) := by
  subst hh htk hj hc
  simp only [accept, hnew, hok, hd, if_true]
  rfl

theorem accept_refused {st : Status} (hst : acceptStatus s m h data.length = st) (hbad : st ≠ .ok)
    (hj : j = { id := s.mantel.nextJob, mbx := m, port := port, src := src, txn := txn, op := h.op, seq := h.seq, part := h.part,
                defer := h.defer, quiet := h.quiet, payload := data.take h.len, ready := s.t, at_ := s.ns }) :
    accept m port src txn hdr data s = postCmpl j { op := h.op, seq := h.seq, status := st.code, endTime := s.ns } s := by
  subst hh hst hj
  simp only [accept, hnew]

end

/-- Settles O15. -/
theorem submissionQueuesCommand : Obligations.SubmissionQueuesCommand := by
  refine ⟨?_, ?_, ?_, ?_, ?_, ?_, ?_, ?_, ?_⟩
  · intro l q v b s h hm hv hj hb hst
    rw [exec_mbxSubmit v h hm hj, hv, if_pos rfl, submit_of_idle hb hst]
  · intro l q v s h hm hv hj hst
    rw [exec_mbxSubmit v h hm hj, hv, if_pos rfl, submit_of_busy hst]
  · intro l q v s h hm hv hj
    rw [exec_mbxSubmit v h hm hj, hv, if_neg Bool.false_ne_true]
  · intro l q b s h hm hl hb hst
    rw [exec_doorbell_own h hm hl, submit_of_idle hb hst]
  · intro l q s h hm hl hst
    rw [exec_doorbell_own h hm hl, submit_of_busy hst]
  · intro l q s h hl
    exact exec_doorbell_other h hl
  · intro m port src txn hdr data h j s hh hnew hok hd hj
    exact accept_queued hh hnew hok hd hj
  · intro m port src txn hdr tk data h j c s hh hnew hok hd htk hj hc
    exact accept_deferred hh hnew hok hd htk hj hc
  · intro m port src txn hdr data h st j s hh hnew hst hbad hj
    exact accept_refused hh hnew hst hbad hj

/-! ## Reads with a side effect, interrupts and links (R353, R354, R401, R409, R410) -/

section
variable {l : Link} {s : State}

theorem overrunRead_of_may {m : MbxId} (hr : inReset s = false)
    (hmay : (mbxBlocked m && (m != .debug || l == .jtag) && (l != .jtag || jtagWorks s)) = true) :
    overrunRead l m s = modBlk m (fun b => { b with overrun := false }) (modLink l (fun k => { k with lastRead := b2n (s.mantel.blk m).overrun }) s) := by
  simp only [overrunRead, hr, hmay, Bool.not_true, Bool.or_self, Bool.false_eq_true, if_false]

theorem linkOf_modLink (l : Link) (f : ChimLink → ChimLink) (s : State) : linkOf (modLink l f s) l = f (linkOf s l) := by cases l <;> rfl

theorem linkOf_settle (o : State) (l : Link) (s : State) : linkOf (settle o s) l = linkOf s l := by
  cases l <;> simp only [linkOf, settle_mantel_linkA, settle_mantel_linkB, settle_mantel_linkJ]

theorem exec_emberNsLoRead (hr : inReset s = false) : exec (.emberNsLoRead l) s = .next (settle s
    (let u := modLink l (fun k => { k with lastRead := s.ns % 2 ^ 32 }) s
     { u with mantel := { u.mantel with emberHi := BitVec.ofNat 32 (u.ns / 2 ^ 32), emberFrac := BitVec.ofNat 32 u.frac } })) := by
  have harm : exec (.emberNsLoRead l) s = .next (settle s (nsLoRead l s)) := rfl
  rw [harm, nsLoRead, hr, if_neg Bool.false_ne_true]

theorem irqAck_of_held (hout : s.mantel.irqOut.isSome = true) (hh : holds s l = true) :
    irqAck l s = { s with mantel := if s.mantel.irqMore then sendIrq s.t { s.mantel with irqOut := none } else { s.mantel with irqOut := none } } := by
  simp only [irqAck, hout, hh, Bool.and_self, if_true]

end

/-- Settles O16. -/
theorem chimneyEventsComplete : Obligations.ChimneyEventsComplete := by
  refine ⟨?_, ?_, ?_, ?_, ?_, ?_, ?_, fun _ _ => rfl, ?_⟩
  · intro l m s hr hl hm
    refine congrArg (fun t => Host.Outcome.next (settle s t)) (overrunRead_of_may hr ?_)
    obtain rfl | rfl := hm <;> simp [mbxBlocked, hl]
  · intro m s hr hj hm
    refine congrArg (fun t => Host.Outcome.next (settle s t)) (overrunRead_of_may hr ?_)
    obtain rfl | rfl | rfl := hm <;> simp [mbxBlocked, hj]
  · intro l s hr
    refine ⟨_, exec_emberNsLoRead hr, ?_, ?_, ?_, ?_, ?_⟩
    · rw [linkOf_settle]
      cases l <;> rfl
    · rw [settle_mantel_emberHi]
      cases l <;> rfl
    · rw [settle_mantel_emberFrac]
      cases l <;> rfl
    · rw [settle_ember, modLink_ember]
    · rw [settle_mem, modLink_mem]
  · intro l s hout hh hmore
    have harm : exec (.irqAck l) s = .next (settle s (irqAck l s)) := rfl
    rw [harm, irqAck_of_held hout hh, hmore, if_neg Bool.false_ne_true]
  · intro l s hout hh hmore
    have harm : exec (.irqAck l) s = .next (settle s (irqAck l s)) := rfl
    rw [harm, irqAck_of_held hout hh, hmore, if_pos rfl]
  · intro s hout hup hdue
    have harm : exec .irqResend s = .next (settle s (irqResend s)) := rfl
    simp only [harm, irqResend, hout, hup, hdue, decide_true, Bool.and_self, if_true]
  · intro l q s hr hseq
    have harm : exec (.chimneyFrameRetry l q) s = .next (settle s (frameAgain l q s)) := rfl
    simp only [harm, frameAgain, hr, hseq, Bool.not_false, BEq.rfl, Bool.and_self, if_true]
  · intro l s hr href
    have harm : exec (.chimneyLinkUp l) s = .next (settle s (chimneyUp l s)) := rfl
    have hclock : s.power.refLost.getD (b2n (l == .b)) false = false := by
      rw [href]
      cases l <;> rfl
    simp only [harm, chimneyUp, hr, hclock, Bool.and_false, Bool.or_self, Bool.false_eq_true, if_false]

end Sys2Proof.Machine
end

section
/-! PROOFS. The tenant mailboxes (R281, R374, R402, R404, R412, R413). -/

namespace Sys2Proof.Machine

section
variable {p : Nat} {s : State}

/-! ## Commands that arrive (R289, R402) -/

theorem mbxCmd_accepted {q h : Nat} {m : PktMsg} {s2 : State}
    (howner : ((eatPkt p .mgt m s).port p).owner = some q) (hadm : ((eatPkt p .mgt m s).port p).admitted = true)
    (hsrc : m.src = epId (eatPkt p .mgt m s).flash.prof.cell (eatPkt p .mgt m s).modNum p) (hrsv : m.rsv = false) (hflux : m.flux = false)
    (hlen : 64 ≤ m.body.length) (hbytes : m.bytes = m.body.length)
    (hpol : police p m.src (rawFlits (((eatPkt p .mgt m s).port p).sess.phase == 3) (1 + pktLen m.bytes)) true (eatPkt p .mgt m s) = (true, h, s2))
    (htrk : trkFree s2 none = true) :
    mbxCmd p m s = accept (.tenant q) p m.src m.txn (leNat (m.body.take 64)) (m.body.drop 64)
      (takeTrk { port := p, txn := m.txn, src := m.src, vc := .mgt, svc := 7, opc := 1, heat := h } s2).2 := by
  have hfrom : (((eatPkt p .mgt m s).port p).kind = 0 && m.src ≠ epId (eatPkt p .mgt m s).flash.prof.cell (eatPkt p .mgt m s).modNum p) = false := by
    simp [hsrc]
  have hwhole : (m.rsv || m.flux || m.body.length < 64 || m.bytes ≠ m.body.length) = false := by
    simp [hrsv, hflux, hbytes, hlen]
  unfold mbxCmd
  simp only [hfrom, hwhole, hpol, howner, htrk, hadm, Bool.not_true, Bool.false_eq_true, if_false]

/-! ## Completions that leave at their boundary (R374) -/

@[simp] theorem leaveWaiting_bytes (s : State) : (leaveWaiting s).mem.bytes = s.mem.bytes := by
  unfold leaveWaiting
  split
  · rfl
  · dsimp only
    split <;> simp

@[simp] theorem freeTrk_bytes (i : Nat) (s : State) : (freeTrk i s).mem.bytes = s.mem.bytes := by
  unfold freeTrk fencesGo
  exact (foldl_keep (fun s : State => s.mem.bytes) _ (fun s x => by simp) _ _).trans (leaveWaiting_bytes _)

/-- What a frame that leaves and a tracker that becomes free keep, an MBX_CMP keeps. -/
theorem mbxCmp_keep {β : Type} (F : State → β) (hq : ∀ b p v ep o s, F (enqueue b p v ep o s) = F s) (hf : ∀ i s, F (freeTrk i s) = F s)
    (port dst txn : Nat) (c : Cmpl) (s : State) : F (mbxCmp port dst txn c s) = F s := by
  unfold mbxCmp
  extract_lets b k h m u
  have hu : F u = F s := hq ..
  clear_value u k
  cases k with
  | none => exact hu
  | some k => exact (hf k.id u).trans hu

/-- What an MBX_CMP keeps, all that leave at a boundary keep. -/
theorem tenantPost_keep {β : Type} (F : State → β) (hq : ∀ b p v ep o s, F (enqueue b p v ep o s) = F s) (hf : ∀ i s, F (freeTrk i s) = F s)
    (p : Nat) (s : State) :
    F (tenantPost p s) = F { s with mantel.posts := s.mantel.posts.filter fun x => !(x.part == p && decide (x.at_ ≤ s.ns)) } :=
  foldl_keep F _ (fun _ _ => mbxCmp_keep F hq hf ..) _ _

/-! ## EVENT messages and deferred commands (R404, R412, R413) -/

theorem eventSend_due {a : Nat} {q : EventQ} (hq : s.mantel.evP[p]? = some q) (hdue : q.notifyDue = some a) (ha : a ≤ s.ns) (hn : q.notify ≠ 0) :
    eventSend p s = enqueue false (epPort q.notify) 7 q.notify
      (.pkt .mgt { dst := q.notify, src := ownId s, opc := 3, bytes := 8, body := toLE 8 q.recs.length })
      { s with mantel.evP := s.mantel.evP.modify p fun q => { q with notifyDue := none } } := by
  simp only [eventSend, hq, hdue, hn, Nat.not_lt.mpr ha, if_false]
  rfl

theorem deferredEnd_of_job {ticket : Nat} {j : Job} {r : Nat × Nat × Nat}
    (hj : (s.mantel.jobs.find? fun j => j.defer && j.ticket == ticket && j.res.isSome) = some j) (hr : j.res = some r) :
    deferredEnd ticket s = (match mbxTenant j.mbx with
      | some p => event 0x0001 false [p] (some p) (doneItems j r) { s with mantel.jobs := s.mantel.jobs.filter (·.id != j.id) }
      | none => event 0x0001 true [] none (doneItems j r) { s with mantel.jobs := s.mantel.jobs.filter (·.id != j.id) }) := by
  simp only [deferredEnd, hj, hr, Option.getD_some] <;> rfl

end

/-- Settles O17. -/
theorem tenantMailboxCompletes : Obligations.TenantMailboxCompletes := by
  refine ⟨?_, fun _ _ _ => rfl, ?_, ?_, ?_, ?_, ?_⟩
  · rintro p q h m s s1 s2 rfl - howner hadm hsrc hrsv hflux hlen hbytes hpol htrk
    exact congrArg (fun t => Host.Outcome.next (settle s t)) (mbxCmd_accepted howner hadm hsrc hrsv hflux hlen hbytes hpol htrk)
  · intro p s
    refine ⟨_, rfl, ?_, ?_, ?_, ?_⟩
    · rw [settle_mantel_posts]
      exact tenantPost_keep (·.mantel.posts) (fun _ _ _ _ _ _ => by rw [enqueue_mantel]) (fun _ _ => by rw [freeTrk_mantel]) p s
    · rw [settle_mantel_jobs]
      exact tenantPost_keep (·.mantel.jobs) (fun _ _ _ _ _ _ => by rw [enqueue_mantel]) (fun _ _ => by rw [freeTrk_mantel]) p s
    · rw [settle_mem]
      exact tenantPost_keep (·.mem.bytes) (fun _ _ _ _ _ _ => by rw [enqueue_mem]) freeTrk_bytes p s
    · rw [settle_ten]
      exact tenantPost_keep (·.ten) enqueue_ten freeTrk_ten p s
  · intro p a q s hq hdue ha hn
    exact congrArg (fun t => Host.Outcome.next (settle s t)) (eventSend_due hq hdue ha hn)
  · intro ticket st d e p j s hj hr hm
    refine congrArg (fun t => Host.Outcome.next (settle s t)) ((deferredEnd_of_job hj hr).trans ?_)
    rw [hm]
    rfl
  · intro ticket st d e j s hj hr hm
    refine congrArg (fun t => Host.Outcome.next (settle s t)) ((deferredEnd_of_job hj hr).trans ?_)
    rw [Option.isNone_iff_eq_none.mp hm]
  · rintro p s hsec rfl
    have harm : exec (.tenantWindowStart (s.ns % 100000 / 6000)) s = .next (settle s (windowStart (s.ns % 100000 / 6000) s)) := rfl
    simp only [harm, windowStart, hsec, BEq.rfl, Bool.and_self, if_true]

end Sys2Proof.Machine
end

section
/-! PROOFS. Queries, events, telemetry, draft and debug commands (R378, R408, R411, R412, R418). -/

namespace Sys2Proof.Machine

section
variable {j : Job} {s : State}

/-- FW_STATUS gives 32 bytes for each image kind. -/
theorem exists_fwStatus (j : Job) (s : State) : ∃ b, fwStatus j s = (.done .ok 0 b, fwTouch j.mbx s) ∧ b.length = 32 * s.mantel.fw.length := by
  refine ⟨_, rfl, ?_⟩
  induction s.mantel.fw with
  | nil => rfl
  | cons f r ih =>
    rw [List.flatMap_cons, List.length_append, ih]
    simp only [List.length_append, length_toLE, List.length_cons, List.length_nil]
    omega

theorem draftRead_ok (ho : draftOff (fldLE j.payload 0 2) = true) (h4 : fldLE j.payload 0 2 % 4 = 0) :
    draftRead j s = (.done .ok 0 (toLE 4 (draftReg s (fldLE j.payload 0 2)).toNat), s) := by
  simp [draftRead, ho, h4]

theorem measlogRead_manager (hm : (mbxTenant j.mbx).isNone = true) :
    measlogRead j s = (.done .ok 0 (((s.mantel.measLog.drop (fldLE j.payload 0 4)).take 102).flatMap fun x =>
        toLE 1 x.1 ++ [0, 0, 0] ++ toLE 4 x.2.2 ++ (x.2.1 ++ List.replicate 32 0).take 32), s) := by
  simp [measlogRead, Option.isNone_iff_eq_none.mp hm]

theorem telemetryGet_tenant {p : Nat} (hm : j.mbx = .tenant p) :
    telemetryGet j s = (.done .ok 0 (teleBytes false p (s.mantel.teleP.getD p {})), s) := by
  simp only [telemetryGet, hm, mbxTenant]

theorem telemetryGet_manager (hm : (mbxTenant j.mbx).isNone = true) :
    telemetryGet j s = (.done .ok 0 (teleBytes true 0 s.mantel.teleM), s) := by
  simp only [telemetryGet, Option.isNone_iff_eq_none.mp hm]

theorem eventRead_manager (hm : (mbxTenant j.mbx).isNone = true) (h1 : 1 ≤ fldLE j.payload 0 2) (h64 : fldLE j.payload 0 2 ≤ 64) :
    eventRead j s = (.done .ok 0 ((s.mantel.evM.recs.take (fldLE j.payload 0 2)).flatMap eventBytes),
      { s with mantel.evM := { s.mantel.evM with recs := s.mantel.evM.recs.drop (fldLE j.payload 0 2) } }) := by
  have hmax : (fldLE j.payload 0 2 = 0 || fldLE j.payload 0 2 > 64) = false := by simp; omega
  simp only [eventRead, hmax, Option.isNone_iff_eq_none.mp hm, Bool.false_eq_true, if_false]

theorem eventRead_tenant {p : Nat} (hm : j.mbx = .tenant p) (h1 : 1 ≤ fldLE j.payload 0 2) (h31 : fldLE j.payload 0 2 ≤ 31) :
    eventRead j s = (.done .ok 0 (((s.mantel.evP.getD p {}).recs.take (fldLE j.payload 0 2)).flatMap eventBytes),
      { s with mantel.evP := s.mantel.evP.modify p fun q => { q with recs := q.recs.drop (fldLE j.payload 0 2) } }) := by
  have hmax : (fldLE j.payload 0 2 = 0 || fldLE j.payload 0 2 > 64) = false := by simp; omega
  have hfit : ¬ ((s.mantel.evP.getD p {}).recs.take (fldLE j.payload 0 2)).length * 64 > 1984 := by
    rw [List.length_take]
    omega
  simp only [eventRead, hmax, hm, mbxTenant, hfit, Bool.false_eq_true, if_false]

theorem eventNotify_ok (hp : (s.part? j.part).isSome = true) (he : fldLE j.payload 0 4 = 0 ∨ admittedPeer s j.part (fldLE j.payload 0 4) = true) :
    eventNotify j s = (.done .ok, { s with mantel.evP := s.mantel.evP.modify j.part fun q => { q with notify := fldLE j.payload 0 4 } }) := by
  have hpart : (s.part? j.part).isNone = false := by rw [Option.isNone_eq_false_iff, hp]
  have hpeer : (fldLE j.payload 0 4 ≠ 0 && !admittedPeer s j.part (fldLE j.payload 0 4)) = false := by
    obtain he | he := he <;> simp [he]
  simp only [eventNotify, hpart, hpeer, Bool.false_eq_true, if_false]

theorem telemetryStream_ok (he : fldLE j.payload 0 4 < 2 ^ 22) :
    telemetryStream j s = (.done .ok, { s with mantel := { s.mantel with
      stream := if fldLE j.payload 4 2 = 0 then none else some (fldLE j.payload 0 4, fldLE j.payload 4 2), streamAt := 0 } }) := by
  simp only [telemetryStream, Nat.not_le.mpr he, if_false]

end

/-- Settles O18. -/
theorem queriesAndEventsComplete : Obligations.QueriesAndEventsComplete := by
  refine ⟨⟨?_, ?_, ?_, ?_, ?_, ?_, ?_⟩, ?_, ?_, ?_, ?_⟩
  · exact fun m j s h => exec_done rfl h rfl
  · exact fun m j s h => exec_done rfl h rfl
  · exact fun p j s h hm => exec_done rfl h (telemetryGet_tenant hm)
  · exact fun m j s h hm => exec_done rfl h (telemetryGet_manager hm)
  · exact fun m j s h hm => exec_done rfl h (measlogRead_manager hm)
  · exact fun m j s h ho h4 => exec_done rfl h (draftRead_ok ho h4)
  · intro m j s h
    obtain ⟨b, hb, hlen⟩ := exists_fwStatus j (startJob j s)
    exact ⟨b, exec_done rfl h hb, hlen⟩
  · exact fun m j s h hm h1 h64 => ⟨_, exec_done rfl h (eventRead_manager hm h1 h64), rfl, rfl, rfl, rfl, rfl⟩
  · exact fun p j s h hm h1 h31 => ⟨_, exec_done rfl h (eventRead_tenant hm h1 h31), rfl, rfl, rfl⟩
  · exact fun m j s h hp he => ⟨_, exec_done rfl h (eventNotify_ok hp he), rfl, rfl, rfl⟩
  · exact fun m j s h he => ⟨_, exec_done rfl h (telemetryStream_ok he), rfl, rfl, rfl, rfl⟩

/-! ## Draft registers (R378, R418) -/

section
variable {s : State} {o : Nat} {v : BitVec 32}

/-- The list of draft registers with one of them set to `v`. -/
def draftWith (o : Nat) (v : BitVec 32) (d : List (Nat × BitVec 32)) : List (Nat × BitVec 32) :=
  if v = 0 then d.filter (·.1 != o) else (o, v) :: d.filter (·.1 != o)

theorem find_filter_ne {d : List (Nat × BitVec 32)} {x : Nat} (hx : x ≠ o) :
    (d.filter (·.1 != o)).find? (·.1 == x) = d.find? (·.1 == x) := by
  rw [List.find?_filter]
  congr 1
  funext a
  by_cases ha : a.1 = x
  · simp [ha, hx]
  · simp [ha]

theorem draftReg_draftWith_same {t : State} (h : t.mantel.draft = draftWith o v s.mantel.draft) : draftReg t o = v := by
  have hgone : (s.mantel.draft.filter (·.1 != o)).find? (·.1 == o) = none := by
    rw [List.find?_eq_none]
    intro x hx
    simpa using (List.mem_filter.mp hx).2
  simp only [draftReg, h, draftWith]
  split
  · next hv => rw [hgone, hv]; rfl
  · rw [List.find?_cons_of_pos (by simp)]; rfl

theorem draftReg_draftWith_other {t : State} (h : t.mantel.draft = draftWith o v s.mantel.draft) {x : Nat} (hx : x ≠ o) :
    draftReg t x = draftReg s x := by
  simp only [draftReg, h, draftWith]
  split
  · rw [find_filter_ne hx]
  · rw [List.find?_cons_of_neg (by simpa using hx.symm), find_filter_ne hx]

/-- R378, R418: a draft register that works takes the value under its mask; the first write of all is measured. -/
theorem exists_draftSet (ho : draftOff o = true) (hw : draftWorks s = true) (v : BitVec 32) :
    ∃ t, draftSet o v s = (.ok, t) ∧ t.mantel.draft = draftWith o (v &&& draftMask o) s.mantel.draft ∧ t.mantel.everDraft = true ∧
      t.mem = s.mem := by
  simp only [draftSet, ho, hw, Bool.not_true, Bool.false_eq_true, if_false]
  by_cases he : s.mantel.everDraft = true
  · rw [if_pos he]
    exact ⟨_, rfl, rfl, he, rfl⟩
  · rw [if_neg he]
    exact ⟨_, rfl, rfl, rfl, rfl⟩

end

section
variable {j : Job} {s : State}

theorem exists_draftWrite (hz : zeroAt j.payload 2 2 = true) (h4 : fldLE j.payload 0 2 % 4 = 0)
    (ho : draftOff (fldLE j.payload 0 2) = true) (hw : draftWorks s = true) :
    ∃ t, draftWrite j s = (.done .ok, t) ∧ t.mantel.draft = draftWith (fldLE j.payload 0 2)
      (BitVec.ofNat 32 (fldLE j.payload 4 4) &&& draftMask (fldLE j.payload 0 2)) s.mantel.draft ∧ t.mantel.everDraft = true ∧ t.mem = s.mem := by
  obtain ⟨t, ht, hrest⟩ := exists_draftSet ho hw (BitVec.ofNat 32 (fldLE j.payload 4 4))
  refine ⟨t, ?_, hrest⟩
  simp [draftWrite, hz, h4, ht]

theorem debugOpen_nonce (hlen : j.payload.length = 8) (hstep : fldLE j.payload 0 1 = 0) (hz : zeroAt j.payload 1 7 = true)
    (hsec : s.flash.prof.secure = false) : debugOpen j s = (.done .ok 0 (Config.random32 s.power.draws),
      { (drawRandom s).2 with mantel.debugNonce := some (Config.random32 s.power.draws) }) := by
  simp [debugOpen, hlen, hstep, hz, hsec, drawRandom]

/-- The two checks of STEP 1 (R378). -/
def debugProof (b : Bytes) (serial : Nat) (n : Bytes) : Bool :=
  Config.debugChainOk (b.drop 392) serial && Config.debugSigOk (b.drop 392) (n ++ toLE 8 serial) ((b.drop 8).take 384)

theorem exists_debugOpen_signed {n : Bytes} (hlen : 393 ≤ j.payload.length) (hstep : fldLE j.payload 0 1 = 1) (hz : zeroAt j.payload 1 7 = true)
    (hsec : s.flash.prof.secure = false) (hn : s.mantel.debugNonce = some n) :
    ∃ t, debugOpen j s = (.done (if debugProof j.payload s.flash.serial n then .ok else .noAccess), t) ∧
      t.mantel.debugOpen = (debugProof j.payload s.flash.serial n || s.mantel.debugOpen) ∧
      t.mantel.everDebug = (debugProof j.payload s.flash.serial n || s.mantel.everDebug) ∧ t.mantel.debugNonce = none ∧ t.mem = s.mem := by
  have hshort : ¬ j.payload.length < 393 := Nat.not_lt.mpr hlen
  simp only [debugOpen, hz, hstep, hshort, hsec, hn, Bool.not_true, Bool.false_or, gt_iff_lt, Nat.lt_irrefl, decide_false, Bool.false_eq_true,
    if_false, one_ne_zero]
  cases hok : debugProof j.payload s.flash.serial n with
  | true =>
    simp only [debugProof] at hok
    simp only [hok, if_true]
    exact ⟨_, rfl, rfl, rfl, rfl, rfl⟩
  | false =>
    simp only [debugProof] at hok
    simp only [hok, Bool.false_eq_true, if_false]
    exact ⟨_, rfl, rfl, rfl, rfl, rfl⟩

end

/-- Settles O19. -/
theorem draftAndDebugCommandsComplete : Obligations.DraftAndDebugCommandsComplete := by
  refine ⟨?_, ?_, ?_, ?_, ?_⟩
  · intro m j s h hz h4 ho hw
    obtain ⟨t, ht, hd, hever, hmem⟩ := exists_draftWrite (s := startJob j s) hz h4 ho hw
    exact ⟨t, exec_done rfl h ht, draftReg_draftWith_same hd, fun o hne => draftReg_draftWith_other (s := s) hd hne, hever, hmem⟩
  · exact fun m j s h => ⟨_, exec_done rfl h rfl, fun _ => rfl, rfl, rfl⟩
  · exact fun m j s h hlen hstep hz hsec => ⟨_, exec_done rfl h (debugOpen_nonce hlen hstep hz hsec), rfl, rfl, rfl, rfl⟩
  · intro m j n s h hlen hstep hz hsec hn
    obtain ⟨t, ht, hopen, hever, hnone, hmem⟩ := exists_debugOpen_signed (s := startJob j s) hlen hstep hz hsec hn
    exact ⟨t, debugProof j.payload s.flash.serial n, exec_done rfl h ht, rfl, hopen, hever, hnone, hmem⟩
  · exact fun m j s h => ⟨_, exec_done rfl h rfl, rfl, rfl, rfl, rfl⟩

end Sys2Proof.Machine
end

section
/-! PROOFS. The firmware commands (R414 to R417). -/

namespace Sys2Proof.Machine

section
variable {j : Job} {k : Nat} {f : FwKind} {s : State}

/-! ## Firmware kinds and their slots -/

theorem inactive_setInactive (f : FwKind) (x : FwSlot) : (f.setInactive x).inactive = x := by
  unfold FwKind.setInactive
  split <;> simp_all [FwKind.inactive, FwKind.activeB, FwKind.sel]

theorem active_setInactive (f : FwKind) (x : FwSlot) : (f.setInactive x).active = f.active := by
  unfold FwKind.setInactive
  split <;> simp_all [FwKind.active, FwKind.activeB, FwKind.sel]

theorem fwKind_of_getElem? (h : s.mantel.fw[k]? = some f) : s.fwKind k = f := by
  rw [State.fwKind, List.getD_eq_getElem?_getD, h, Option.getD_some]

theorem fwKind_modFw (h : s.mantel.fw[k]? = some f) (g : FwKind → FwKind) : (modFw k g s).fwKind k = g f := by
  refine fwKind_of_getElem? ?_
  show (s.mantel.fw.modify k g)[k]? = some (g f)
  rw [List.getElem?_modify_eq, h]
  rfl

/-! ## FW_WRITE (R416) -/

/-- What FW_WRITE stores: the bytes in both copies of the inactive slot, as it stands (`x`) when the stream goes on, or erased. -/
def fwStored (x : FwSlot) (off : Nat) (d : Bytes) : FwSlot :=
  { x with bytes := cellsWrite 0xFF x.bytes off d, copy := cellsWrite 0xFF x.copy off d, endAt := off + d.length, verified := false }

theorem fwWrite_opens (hk : fldLE j.payload 0 1 = k) (hk4 : k ≤ 4) (hz : zeroAt j.payload 1 3 = true) (hst : s.mantel.fwStream = none)
    (hoff : fldLE j.payload 4 4 = 0) (hfit : (j.payload.drop 8).length ≤ fwSize k) :
    fwWrite j s = (.done .ok, { modFw k (fun f => f.setInactive (fwStored {} 0 (j.payload.drop 8))) s with
      mantel.fwStream := some { mbx := j.mbx, kind := k, endAt := (j.payload.drop 8).length, lastAt := s.t } }) := by
  have hbad : (k > 4 || !zeroAt j.payload 1 3) = false := by simp [hz]; omega
  have hroom : ¬ (j.payload.drop 8).length > fwSize k := by omega
  simp only [fwWrite, fwTouch, hst, Option.map_none, hk, hbad, hoff, Option.elim_none, fwOther, hroom, Option.isNone_none, fwStored,
    Nat.zero_add, bne_self_eq_false, Bool.false_eq_true, if_false, if_true]
  rfl

theorem fwWrite_goes_on {x : FwStream} (hk : fldLE j.payload 0 1 = k) (hk4 : k ≤ 4) (hz : zeroAt j.payload 1 3 = true)
    (hst : s.mantel.fwStream = some x) (hm : x.mbx = j.mbx) (hkind : x.kind = k) (hend : x.endAt = fldLE j.payload 4 4)
    (hfit : fldLE j.payload 4 4 + (j.payload.drop 8).length ≤ fwSize k) :
    fwWrite j s = (.done .ok, { modFw k (fun f => f.setInactive (fwStored f.inactive (fldLE j.payload 4 4) (j.payload.drop 8))) s with
      mantel.fwStream := some { x with endAt := fldLE j.payload 4 4 + (j.payload.drop 8).length, lastAt := s.t } }) := by
  have hbad : (k > 4 || !zeroAt j.payload 1 3) = false := by simp [hz]; omega
  have hroom : ¬ (fldLE j.payload 4 4 + (j.payload.drop 8).length > fwSize k) := by omega
  simp only [fwWrite, fwTouch, hst, Option.map_some, hk, hbad, hm, hkind, hend, BEq.rfl, Option.elim_some, fwOther, hroom,
    Option.isNone_some, fwStored, bne_self_eq_false, Bool.or_self, Bool.false_eq_true, if_false, if_true]
  rfl

/-! ## FW_VERIFY and FW_ACTIVATE (R415, R417) -/

theorem fwKind_fwTouch (m : MbxId) (s : State) (k : Nat) : (fwTouch m s).fwKind k = s.fwKind k := rfl

/-- Both copies of the inactive slot are good (R417). -/
def fwGood (k : Nat) (x : FwSlot) : Bool := Config.imageOk k x.bytes && Config.imageOk k x.copy

theorem exists_fwVerify (hk : fldLE j.payload 0 1 = k) (hk4 : k ≤ 4) (hother : fwOther s j.mbx = false) (hf : s.mantel.fw[k]? = some f) :
    ∃ x t, fwVerify j s = (.done (if fwGood k f.inactive then .ok else .imageBad), t) ∧ t.fwKind k = f.setInactive x ∧
      x.verified = fwGood k f.inactive ∧ x.bytes = f.inactive.bytes ∧ x.copy = f.inactive.copy ∧ t.mem = s.mem := by
  have hkbad : ¬ k > 4 := by omega
  have hf' : (fwTouch j.mbx s).mantel.fw[k]? = some f := hf
  simp only [fwVerify, hk, hkbad, hother, fwKind_fwTouch, fwKind_of_getElem? hf, Bool.false_eq_true, if_false]
  cases hgood : fwGood k f.inactive with
  | true =>
    rw [fwGood] at hgood
    simp only [hgood, if_true]
    exact ⟨_, _, rfl, fwKind_modFw hf' _, rfl, rfl, rfl, rfl⟩
  | false =>
    rw [fwGood] at hgood
    simp only [hgood, Bool.false_eq_true, if_false]
    exact ⟨_, _, rfl, fwKind_modFw hf' _, rfl, rfl, rfl, rfl⟩

theorem exists_fwActivate_verified (hk : fldLE j.payload 0 1 = k) (hk4 : k ≤ 4) (hf : s.mantel.fw[k]? = some f) (hv : f.inactive.verified = true) :
    ∃ t, fwActivate j s = (.done .ok, t) ∧
      t.fwKind k = { f with sel0 := { activeB := !f.activeB, count := (f.sel.count + 1) % 2 ^ 32 },
                            sel1 := { activeB := !f.activeB, count := (f.sel.count + 1) % 2 ^ 32 } } ∧
      t.mantel.fwStream = none ∧ t.mantel.measLog.length = s.mantel.measLog.length + 1 ∧ t.mem = s.mem := by
  have hkbad : ¬ k > 4 := by omega
  have hkind : State.fwKind { s with mantel.fwStream := none } k = f := fwKind_of_getElem? (s := { s with mantel.fwStream := none }) hf
  simp only [fwActivate, hk, hkbad, hkind, hv, Bool.not_true, Bool.false_eq_true, if_false]
  exact ⟨_, rfl, fwKind_modFw (s := { s with mantel.fwStream := none }) hf _, rfl, List.length_append, rfl⟩

theorem fwActivate_unverified (hk : fldLE j.payload 0 1 = k) (hk4 : k ≤ 4) (hf : s.mantel.fw[k]? = some f) (hv : f.inactive.verified = false) :
    fwActivate j s = (.done .imageBad, { s with mantel.fwStream := none }) := by
  have hkbad : ¬ k > 4 := by omega
  have hkind : State.fwKind { s with mantel.fwStream := none } k = f := fwKind_of_getElem? (s := { s with mantel.fwStream := none }) hf
  simp only [fwActivate, hk, hkbad, hkind, hv, Bool.not_false, if_false, if_true]

theorem fwTimeout_due {x : FwStream} (hst : s.mantel.fwStream = some x) (hdue : x.lastAt + 60000000000 ≤ s.t) :
    fwTimeout s = { s with mantel.fwStream := none } := by
  rw [fwTimeout, hst, Option.elim_some, if_pos (decide_eq_true hdue)]

end

/-- Settles O20. -/
theorem firmwareCommandsComplete : Obligations.FirmwareCommandsComplete := by
  refine ⟨?_, ?_, ?_, ?_, ?_, ?_⟩
  · intro m j k f s h hk hk4 hz hst hoff hfit hf
    have hkind := fwKind_modFw (s := startJob j s) hf fun f => f.setInactive (fwStored {} 0 (j.payload.drop 8))
    have hin := (congrArg FwKind.inactive hkind).trans (inactive_setInactive ..)
    have hact := (congrArg FwKind.active hkind).trans (active_setInactive ..)
    exact ⟨_, exec_done rfl h (fwWrite_opens hk hk4 hz hst hoff hfit), congrArg FwSlot.bytes hin, congrArg FwSlot.copy hin,
      congrArg FwSlot.verified hin, hact, rfl, rfl⟩
  · intro m j k f s h hk hk4 hother hf ok
    obtain ⟨x, t, ht, hkind, hv, hb, hc, hmem⟩ := exists_fwVerify (s := startJob j s) hk hk4 hother hf
    refine ⟨t, exec_done rfl h ht, ?_, ?_, ?_, ?_, hmem⟩
    · rw [hkind, inactive_setInactive, hv]; rfl
    · rw [hkind, inactive_setInactive, hb]
    · rw [hkind, inactive_setInactive, hc]
    · rw [hkind, active_setInactive]
  · intro m j k f s h hk hk4 hf hv
    obtain ⟨t, ht, hkind, hst, hlog, hmem⟩ := exists_fwActivate_verified (s := startJob j s) hk hk4 hf hv
    refine ⟨t, exec_done rfl h ht, ?_, ?_, ?_, hst, hlog, hmem⟩
    · rw [hkind]; simp [FwKind.activeB, FwKind.sel]
    · rw [hkind]
    · rw [hkind]
  · intro x s hst hdue
    exact congrArg (fun t => Host.Outcome.next (settle s t)) (fwTimeout_due hst hdue)
  · intro m j k f x s h hk hk4 hz hst hm hkind hend hfit hf
    have hkind' := fwKind_modFw (s := startJob j s) hf fun f => f.setInactive (fwStored f.inactive (fldLE j.payload 4 4) (j.payload.drop 8))
    have hin := (congrArg FwKind.inactive hkind').trans (inactive_setInactive ..)
    have hact := (congrArg FwKind.active hkind').trans (active_setInactive ..)
    exact ⟨_, exec_done rfl h (fwWrite_goes_on hk hk4 hz hst hm hkind hend hfit), congrArg FwSlot.bytes hin, congrArg FwSlot.copy hin,
      congrArg FwSlot.verified hin, hact, rfl, rfl⟩
  · exact fun m j k f s h hk hk4 hf hv => ⟨_, exec_done rfl h (fwActivate_unverified hk hk4 hf hv), rfl, rfl⟩

end Sys2Proof.Machine
end

section
/-! PROOFS. The Damper: parameters (R256 to R258), counters (R260, R491), and the choice of the next frame (R246). -/

namespace Sys2Proof.Machine

section
variable {s : State} {tray : Bool} {p k : Nat} {x : DPort}

/-! ## The ports of the Damper -/

theorem dport_false_of_getElem? (h : s.dsax[p]? = some x) : s.dport false p = x := by
  simp [State.dport, List.getD_eq_getElem?_getD, h]

theorem dport_true_of_getElem? (h : s.dtray[p]? = some x) : s.dport true p = x := by
  simp [State.dport, List.getD_eq_getElem?_getD, h]

theorem dport_false_modD (h : s.dsax[p]? = some x) (f : DPort → DPort) : (modD false p f s).dport false p = f x := by
  simp [State.dport, modD, List.getD_eq_getElem?_getD, h]

theorem dport_true_modD (h : s.dtray[p]? = some x) (f : DPort → DPort) : (modD true p f s).dport true p = f x := by
  simp [State.dport, modD, List.getD_eq_getElem?_getD, h]

theorem dport_modD_ne (h : k ≠ p) (f : DPort → DPort) : (modD tray p f s).dport tray k = s.dport tray k := by
  cases tray <;> simp [State.dport, modD, List.getD_eq_getElem?_getD, h.symm]

theorem modify_congr_getD {α : Type} (l : List α) (p : Nat) (z : α) {f g : α → α} (h : f (l.getD p z) = g (l.getD p z)) :
    l.modify p f = l.modify p g := by
  refine List.ext_getElem? fun k => ?_
  by_cases hk : p = k
  · subst hk
    cases hx : l[p]? with
    | none => simp [hx]
    | some x =>
      rw [List.getD_eq_getElem?_getD, hx, Option.getD_some] at h
      simp [hx, h]
  · simp [hk]

/-- What is done to a port depends on what the port holds alone. -/
theorem modD_congr {f g : DPort → DPort} (h : f (s.dport tray p) = g (s.dport tray p)) : modD tray p f s = modD tray p g s := by
  cases tray
  · simp only [modD, Bool.false_eq_true, if_false, modify_congr_getD s.dsax p {} h]
  · simp only [modD, if_true, modify_congr_getD s.dtray p {} h]

theorem modD_eq_self {f : DPort → DPort} (h : f (s.dport tray p) = s.dport tray p) : modD tray p f s = s := by
  rw [modD_congr (g := id) h]
  cases tray <;> simp [modD, List.modify_id]

/-! ## DAMPER_PORT_SET, DAMPER_SVC_SET and DAMPER_SUB_SET (R256, R257) -/

theorem portRange_of {d : Nat} (h : bit d 15 = true → bits d 7 0 < 32) : portRange d = true := by
  cases hb : bit d 15 <;> simp_all [portRange]

theorem setPort_ok {d : Nat} (h1 : bits d 214 208 = 0) (h2 : bits d 169 16 = 0) (h3 : bits d 14 8 = 0)
    (hr : bit d 15 = true → bits d 7 0 < 32) (hbw : bwBad (bits d 255 224) (bits d 223 215) = false)
    (hm : bits d 191 170 = (accepted (s.dport (bit d 15) (bits d 7 0))).mask ∨
      (accepted (s.dport (bit d 15) (bits d 7 0))).subs.any (·.idx != 0) = false)
    (hw : portWorks s (bit d 15) (bits d 7 0) = true) : setPort d s = (.ok, addParam d (.port d) s) := by
  have hst : portSetStatus d s = .ok := by
    simp only [portSetStatus, h1, h2, h3, portRange_of hr, hbw, hw]
    rcases hm with hm | hm <;> simp [hm]
  simp only [setPort, hst]

theorem setSvc_ok {d : Nat} (h1 : bits d 86 80 = 0) (h2 : bits d 63 16 = 0) (h3 : bits d 14 11 = 0)
    (hr : bit d 15 = true → bits d 7 0 < 32) (hbw : bwBad (bits d 127 96) (bits d 95 87) = false)
    (hq : 1 ≤ bits d 79 64) (hq' : bits d 79 64 ≤ 4096) (hw : portWorks s (bit d 15) (bits d 7 0) = true) :
    setSvc d s = (.ok, addParam d (.svc d) s) := by
  have h0 : ¬ bits d 79 64 = 0 := by omega
  have hst : svcSetStatus d s = .ok := by
    simp [svcSetStatus, h1, h2, h3, portRange_of hr, hbw, hw, h0, hq']
  simp only [setSvc, hst]

theorem setSub_ok {d : Nat} (h1 : bits d 214 208 = 0) (h2 : bits d 126 112 = 0) (h3 : bits d 57 28 = 0) (h4 : bits d 14 8 = 0)
    (hr : bit d 15 = true → bits d 7 0 < 32) (hbw : bwBad (bits d 255 224) (bits d 223 215) = false)
    (hrq : rqBad (bits d 207 184) (bits d 183 168) = false) (hsh : bwBad (bits d 167 136) (bits d 135 127) = false)
    (hq : 1 ≤ bits d 111 96) (hq' : bits d 111 96 ≤ 4096) (hi : bits d 27 16 ≤ 4094) (hk0 : bits d 27 16 = 0 → bits d 79 58 = 0)
    (hkm : bits d 79 58 &&& (accepted (s.dport (bit d 15) (bits d 7 0))).mask = bits d 79 58)
    (hw : portWorks s (bit d 15) (bits d 7 0) = true)
    (hfree : bits d 27 16 = 0 ∨ (accepted (s.dport (bit d 15) (bits d 7 0))).subs.any
      (fun y => y.idx != 0 && y.idx != bits d 27 16 && y.key == bits d 79 58) = false)
    (hroom : (accepted (s.dport (bit d 15) (bits d 7 0))).subs.any (·.idx == bits d 27 16) = true ∨
      ((accepted (s.dport (bit d 15) (bits d 7 0))).subs.length + 1 < 4096 ∧ subEntries s < 65536)) :
    setSub d s = (.ok, addParam d (.sub d) s) := by
  have h0 : ¬ bits d 111 96 = 0 := by omega
  have h4096 : ¬ bits d 111 96 > 4096 := by omega
  have h4094 : ¬ bits d 27 16 > 4094 := by omega
  have hkey : (bits d 27 16 == 0 && bits d 79 58 != 0) = false := by
    simp only [Bool.and_eq_false_iff, bne_eq_false_iff_eq, beq_eq_false_iff_ne]; omega
  have hbusy : (decide (bits d 27 16 ≠ 0) && (accepted (s.dport (bit d 15) (bits d 7 0))).subs.any
      (fun y => y.idx != 0 && y.idx != bits d 27 16 && y.key == bits d 79 58)) = false := by
    rcases hfree with h | h <;> simp only [h, ne_eq, not_true, decide_false, Bool.false_and, Bool.and_false]
  have hfull : (!(accepted (s.dport (bit d 15) (bits d 7 0))).subs.any (·.idx == bits d 27 16) &&
      (decide ((accepted (s.dport (bit d 15) (bits d 7 0))).subs.length + 1 ≥ 4096) || decide (subEntries s ≥ 65536))) = false := by
    rcases hroom with h | ⟨h, h'⟩
    · rw [h]; rfl
    · rw [decide_eq_false (Nat.not_le_of_lt h), decide_eq_false (Nat.not_le_of_lt h'), Bool.or_self, Bool.and_false]
  have hst : subSetStatus d s = .ok := by
    simp only [subSetStatus, h1, h2, h3, h4, portRange_of hr, hbw, hrq, hsh, h0, h4096, h4094, hkey, hkm, hw, hbusy, hfull, ne_eq, not_true,
      decide_false, Bool.not_true, Bool.or_false, Bool.false_eq_true, if_false]
  delta setSub
  rw [hst]

/-! ## DAMPER_SUB_CLEAR (R258) -/

/-- The subscribers that are left when `i` is cleared: its frames go to subscriber 0, whose shaper drains first if it was idle (R251). -/
def subsCleared (t i : Nat) (x : DPort) : List DSub :=
  (if x.q.any (·.sub == i) && !x.q.any (·.sub == 0) && !x.gone.any (·.2 == 0) then
    (x.modSub 0 (fun y => { y with sh := y.sh.drain t })).subs else x.subs).filter (·.idx != i)

def queueCleared (i : Nat) (x : DPort) : List Frame :=
  x.q.filter (·.sub != i) ++ (x.q.filter (·.sub == i)).map (fun f => { f with sub := 0 })

theorem exists_subClear {j : Job} {i tr : Nat} (hp : fldLE j.payload 0 1 = p) (htr : fldLE j.payload 1 1 = tr) (htr1 : tr ≤ 1)
    (hp31 : tr = 1 → p ≤ 31) (hi : fldLE j.payload 2 2 = i) (h1 : 1 ≤ i) (h2 : i < 4095) :
    ∃ f : DPort → DPort, subClear j s = (.ok, modD (tr == 1) p f s) ∧
      (∀ x : DPort, x.subs.any (·.idx == i) = true → (f x).subs = subsCleared s.ns i x ∧ (f x).q = queueCleared i x) ∧
      (∀ x : DPort, x.subs.any (·.idx == i) = false → f x = x) := by
  have hbad : (decide (tr > 1) || (decide (tr = 1) && decide (p > 31)) || decide (i = 0) || decide (i ≥ 4095)) = false := by
    simp; omega
  simp only [subClear, hp, htr, hi, hbad, Bool.false_eq_true, if_false]
  refine ⟨_, rfl, fun x hx => ?_, fun x hx => ?_⟩
  · simp only [hx, if_true, subsCleared, queueCleared]
    by_cases hc : (x.q.any (·.sub == i) && !x.q.any (·.sub == 0) && !x.gone.any (·.2 == 0)) = true
    · simp only [hc, if_true]
      exact ⟨trivial, rfl⟩
    · simp only [hc]
      exact ⟨rfl, rfl⟩
  · simp only [hx, Bool.false_eq_true, if_false]

end

/-- Settles O21. -/
theorem damperParametersTakeEffect : Obligations.DamperParametersTakeEffect := by
  refine ⟨⟨?_, ?_, ?_, fun d p x s htr hx => ?_⟩, fun tray p s => rfl, ?_, ?_, ?_⟩
  · exact fun m j s h h1 h2 h3 hr hbw hm hw => exec_simply rfl h (setPort_ok (s := startJob j s) h1 h2 h3 hr hbw hm hw)
  · exact fun m j s h h1 h2 h3 hr hbw hq hq' hw => exec_simply rfl h (setSvc_ok (s := startJob j s) h1 h2 h3 hr hbw hq hq' hw)
  · exact fun m j s h h1 h2 h3 h4 hr hbw hrq hsh hq hq' hi hk0 hkm hw hfree hroom => exec_simply rfl h
      (setSub_ok (s := startJob j s) h1 h2 h3 h4 hr hbw hrq hsh hq hq' hi hk0 hkm hw hfree hroom)
  · rw [addParam, htr, dport_false_modD hx]
  · intro m j p i x s h hp htr hi h1 h2 hx hany
    obtain ⟨f, hf, hclear, -⟩ := exists_subClear (s := startJob j s) hp htr (by omega) (by omega) hi h1 h2
    have hport : (modD false p f (startJob j s)).dport false p = f x := dport_false_modD (s := startJob j s) hx f
    refine ⟨_, exec_simply rfl h hf, (congrArg DPort.subs hport).trans (hclear x hany).1, (congrArg DPort.q hport).trans (hclear x hany).2,
      fun k hk => dport_modD_ne (tray := false) hk f, rfl, rfl⟩
  · intro m j p i x s h hp htr hp31 hi h1 h2 hx hany
    obtain ⟨f, hf, hclear, -⟩ := exists_subClear (s := startJob j s) hp htr (by omega) (by omega) hi h1 h2
    have hport : (modD true p f (startJob j s)).dport true p = f x := dport_true_modD (s := startJob j s) hx f
    refine ⟨_, exec_simply rfl h hf, (congrArg DPort.subs hport).trans (hclear x hany).1, (congrArg DPort.q hport).trans (hclear x hany).2,
      fun k hk => dport_modD_ne (tray := true) hk f, rfl, rfl⟩
  · intro m j p i s h hp htr hi h1 h2 hany
    obtain ⟨f, hf, -, hkeep⟩ := exists_subClear (s := startJob j s) hp htr (by omega) (by omega) hi h1 h2
    have hself : modD false p f (startJob j s) = startJob j s := modD_eq_self (hkeep _ hany)
    exact ⟨_, (exec_simply rfl h (hf.trans (congrArg (Prod.mk _) hself))), fun k => rfl, rfl, rfl⟩

/-! ## DAMPER_STATS (R260, R491) -/

/-- A subscriber whose largest Heat is cleared. -/
def heatCleared (x : DSub) : DSub := { x with heatMax := 0 }

theorem find?_modWhere_idx (i k : Nat) (l : List DSub) :
    (modWhere (·.idx == i) heatCleared l).find? (·.idx == k) = (l.find? (·.idx == k)).map fun x => if k = i then heatCleared x else x := by
  induction l with
  | nil => rfl
  | cons y l ih =>
    rw [modWhere] at ih ⊢
    rw [List.map_cons, List.find?_cons, List.find?_cons, ih]
    have hidx : (if y.idx == i then heatCleared y else y).idx = y.idx := by split <;> rfl
    rw [hidx]
    by_cases hk : y.idx = k
    · subst hk; simp
    · rw [beq_eq_false_iff_ne.2 hk]

theorem sub_modSub_heatCleared (d : DPort) (i k : Nat) :
    (d.modSub i heatCleared).sub k = if k = i then heatCleared (d.sub k) else d.sub k := by
  by_cases hi : i = 4095 <;> by_cases hk : k = 4095
  · simp [DPort.modSub, DPort.sub, hi, hk]
  · have hne : k ≠ i := by omega
    simp [DPort.modSub, DPort.sub, hi, hk]
  · simp [DPort.modSub, DPort.sub, hi, hk, Ne.symm hi]
  · simp only [DPort.modSub, DPort.sub, hi, hk, if_false, find?_modWhere_idx]
    cases d.subs.find? (·.idx == k) with
    | none => simp only [Option.map_none, Option.getD_none]; split <;> rfl
    | some y => simp only [Option.map_some, Option.getD_some]

theorem sub_foldl_heatCleared (ids : List Nat) (d : DPort) (k : Nat) :
    (ids.foldl (fun d i => d.modSub i heatCleared) d).sub k = if k ∈ ids then heatCleared (d.sub k) else d.sub k := by
  induction ids generalizing d with
  | nil => simp
  | cons i ids ih =>
    rw [List.foldl_cons, ih, sub_modSub_heatCleared]
    by_cases hk : k = i <;> by_cases hm : k ∈ ids <;> simp [hk, hm, heatCleared]

theorem length_statsRec (d : DPort) (i : Nat) : (statsRec d i).length = 64 := by
  unfold statsRec
  split <;> simp only [List.length_append, length_toLE, List.length_replicate, List.length_cons, List.length_nil]

section
variable {s : State} {j : Job} {p tr : Nat} {ids : List Nat}

theorem damperStats_ok (hp : fldLE j.payload 0 1 = p) (htr : fldLE j.payload 1 1 = tr) (h1 : tr ≤ 1) (h31 : tr = 1 → p ≤ 31)
    (hown : (mbxTenant j.mbx).isSome = true → (if tr = 1 then (s.tray p).owner else (s.port p).owner) = mbxTenant j.mbx)
    (hn : 1 ≤ fldLE j.payload 4 2) (hmax : fldLE j.payload 4 2 ≤ if (mbxTenant j.mbx).isSome then 31 else 64)
    (hend : fldLE j.payload 2 2 + fldLE j.payload 4 2 ≤ 4096) (hids : ids = (List.range (fldLE j.payload 4 2)).map (fldLE j.payload 2 2 + ·)) :
    damperStats j s = (.done .ok 0 (ids.flatMap (statsRec (s.dport (tr == 1) p))),
      modD (tr == 1) p (fun d => ids.foldl (fun d i => d.modSub i heatCleared) d) s) := by
  have hbad : (decide (tr > 1) || (decide (tr = 1) && decide (p > 31)) || decide (fldLE j.payload 4 2 = 0)
      || decide (fldLE j.payload 4 2 > if (mbxTenant j.mbx).isSome then 31 else 64)
      || decide (fldLE j.payload 2 2 + fldLE j.payload 4 2 > 4096)) = false := by
    simp only [Bool.or_eq_false_iff, Bool.and_eq_false_iff, decide_eq_false_iff_not]; omega
  have hacc : ((mbxTenant j.mbx).isSome && (if tr = 1 then (s.tray p).owner else (s.port p).owner) != mbxTenant j.mbx) = false := by
    cases ht : (mbxTenant j.mbx).isSome with
    | false => rfl
    | true => rw [hown ht]; simp
  simp only [damperStats, hp, htr, hbad, hacc, Bool.false_eq_true, if_false, hids]
  rfl

end

/-- Settles O22. -/
theorem damperStatsComplete : Obligations.DamperStatsComplete := by
  refine ⟨?_, ?_, length_statsRec, fun d ids i hi => ?_, fun d ids i hi => ?_⟩
  · intro m j p tr ids s h hp htr hm h1 h31 hn h64 hend hids
    have hnone : (mbxTenant j.mbx).isSome = false := by simpa using hm
    exact exec_done rfl h (damperStats_ok (s := startJob j s) hp htr h1 h31 (by simp [hnone]) hn (by simpa [hnone] using h64) hend hids)
  · intro q j p tr ids s h hp htr hm h1 h31 hown hn hmax hend hids
    exact exec_done rfl h (damperStats_ok (s := startJob j s) hp htr h1 h31 (fun _ => by rw [hm]; exact hown) hn
      (by simpa [hm, mbxTenant] using hmax) hend hids)
  · exact (sub_foldl_heatCleared ids d i).trans (if_pos hi)
  · exact (sub_foldl_heatCleared ids d i).trans (if_neg hi)

/-! ## FRAME_SELECT (R246, R301, R340, R364) -/

section
variable {s : State} {p : Nat} {f : Frame} {d : DPort}

/-- A frame has gone whole to the transmit path of a Saxel port, which stands as `d`. -/
def frameSent (p : Nat) (f : Frame) (d : DPort) (s : State) : State :=
  postAnswer p f.out (modPort p (fun x => { x with
      tx := (if s.power.readyFull then fluxOut f.out else f.out).slots,
      going := x.going ++ (if watched s p f.out then [(none, f.out)] else []), sch := f.out.schMsg,
      cred := x.cred.modify (f.out.vc.code - 1) (· - f.out.rawSlots) })
    (modD false p (fun _ => d) s))

theorem frameSelect_sax (hf : nextFrame s false p (readyPort s p (s.dport false p)) = (some f, d)) (htx : (s.port p).tx = []) :
    frameSelect false p s = frameSent p f (keepQ (s.dport false p) (some f) d) s := by
  simp only [frameSelect, htx, List.isEmpty_nil, Bool.not_true, Bool.and_false, Bool.false_eq_true, if_false, hf]
  rfl

theorem nextFrame_sch {tray : Bool} (h : d.q.find? (·.svc == 8) = some f) :
    nextFrame s tray p d = (some f, { d with q := dropPair 8 f.sub d.q }) := by
  simp only [nextFrame, h]

theorem nextFrame_ungated {d' : DPort} {tray : Bool} (hsch : d.q.find? (·.svc == 8) = none) (hg : gatedPick s tray p d = none)
    (hu : sendUngated s tray p 65536 d = (some f, d')) :
    nextFrame s tray p d = (some f, takeFrame s f (chargeShapers s.ns f d')) := by
  simp only [nextFrame, hsch, hg, hu]

/-- A frame that the scheduler sees stands in the queue and has its credits. -/
theorem mem_readyQ {q : List Frame} (h : f ∈ readyQ s p q) : f ∈ q ∧ creditFor s p f.out = true := by
  rw [readyQ] at h
  refine List.foldlRecOn (motive := fun a : List Frame × List (Nat × Nat × Nat) => f ∈ a.1 → f ∈ q ∧ creditFor s p f.out = true) q _
    (fun h => absurd h List.not_mem_nil) ?_ h
  intro a ha g hg
  dsimp only
  split
  · exact ha
  · split
    next hcred =>
      intro hf
      rcases List.mem_append.1 hf with hf | hf
      · exact ha hf
      · rw [List.mem_singleton.1 hf]
        exact ⟨hg, hcred⟩
    next => exact ha

end

/-- Settles O23. -/
theorem framesAreScheduled : Obligations.FramesAreScheduled := by
  refine ⟨⟨?_, ?_, ?_, fun p f q s h => mem_readyQ h, ?_⟩, fun tray p d f s h => nextFrame_sch h⟩
  · exact fun p f d s hf htx => congrArg (fun t => Host.Outcome.next (settle s t)) (frameSelect_sax hf htx)
  · intro p f s hsch htx
    refine congrArg (fun t => Host.Outcome.next (settle s t)) ((frameSelect_sax (nextFrame_sch hsch) htx).trans ?_)
    rw [frameSent, modD_congr]
    rfl
  · intro p f d d0 d1 s hd0 hsch hg hu hd1 htx
    subst hd0 hd1
    exact congrArg (fun t => Host.Outcome.next (settle s t)) (frameSelect_sax (nextFrame_ungated hsch hg hu) htx)
  · intro p f d s hf
    have harm : exec (.frameSelect true p) s = .next (settle s (frameSelect true p s)) := rfl
    simp only [harm, frameSelect, Bool.not_true, Bool.false_and, Bool.false_eq_true, if_false, if_true, hf]
    exact ⟨_, rfl, settle_dtray .., settle_trays .., settle_dsax .., settle_sax .., settle_mem ..⟩

end Sys2Proof.Machine
end

section
/-! PROOFS. The calendar's banks, its arming and its events (R227 to R239). -/

namespace Sys2Proof.Machine

section
variable {j : Job} {s : State}

/-! ## Banks (R227, R238, R408) -/

theorem shadowImg_setShadow (img : List Host.Cell) (s : State) : shadowImg (setShadow img s).cal = img := by
  cases h : s.cal.active1 <;> simp [setShadow, shadowImg, bankImg, h]

theorem activeImg_setShadow (img : List Host.Cell) (s : State) : activeImg (setShadow img s).cal = activeImg s.cal := by
  cases h : s.cal.active1 <;> simp [setShadow, activeImg, bankImg, h]

theorem running_setShadow (img : List Host.Cell) (s : State) : (setShadow img s).cal.running = s.cal.running := by
  cases h : s.cal.active1 <;> simp [setShadow, h]

theorem armed_isSome_of_none (h : s.cal.armed = none) : s.cal.armed.isSome = false := by rw [h]; rfl

theorem calWrite_ok (hz : zeroAt j.payload 4 4 = true) (hlen : fldLE j.payload 0 4 + (j.payload.drop 8).length ≤ 4194304)
    (ha : s.cal.armed = none) :
    calWrite j s = (.ok, setShadow (cellsWrite 0 (shadowImg s.cal) (fldLE j.payload 0 4) (j.payload.drop 8)) s) := by
  have hlong : ¬ calBytes < fldLE j.payload 0 4 + (j.payload.drop 8).length := Nat.not_lt.2 hlen
  simp only [calWrite, hz, hlong, armed_isSome_of_none ha, Bool.not_true, decide_false, Bool.or_self, Bool.false_eq_true, if_false]

theorem calCopy_ok (hlen : fldLE j.payload 0 8 + fldLE j.payload 8 4 ≤ 4194304) (hsys : s.flash.prof.sysNooks ≠ 0) (ha : s.cal.armed = none) :
    calCopy j s = (.ok, setShadow (cellsCopy 0 s.twin.calImage (shadowImg s.cal) (fldLE j.payload 0 8) 0 (fldLE j.payload 8 4)) s) := by
  have hlong : ¬ calBytes < fldLE j.payload 8 4 := Nat.not_lt.2 ((Nat.le_add_left ..).trans hlen)
  have hend : ¬ calBytes < fldLE j.payload 0 8 + fldLE j.payload 8 4 := Nat.not_lt.2 hlen
  simp only [calCopy, hlong, hend, hsys, armed_isSome_of_none ha, decide_false, Bool.or_self, Bool.false_eq_true, if_false]

theorem calRead_ok (hb : fldLE j.payload 0 1 ≤ 1) (hz : zeroAt j.payload 1 3 = true) (hlen : fldLE j.payload 8 4 ≤ 4096)
    (hend : fldLE j.payload 4 4 + fldLE j.payload 8 4 ≤ 4194304) :
    calRead j s = (.done .ok 0 (cellsRead 0 (if fldLE j.payload 0 1 = 0 then activeImg s.cal else shadowImg s.cal)
      (fldLE j.payload 4 4) (fldLE j.payload 8 4)), s) := by
  have hlong : ¬ calBytes < fldLE j.payload 4 4 + fldLE j.payload 8 4 := Nat.not_lt.2 hend
  simp only [calRead, Nat.not_lt.2 hb, Nat.not_lt.2 hlen, hz, hlong, Bool.not_true, decide_false, Bool.or_self, Bool.false_eq_true, if_false]

end

/-- Settles O24. -/
theorem calendarBankCommandsComplete : Obligations.CalendarBankCommandsComplete := by
  refine ⟨?_, ?_, ?_⟩
  · intro m j s h hz hlen ha
    refine ⟨_, exec_simply rfl h (calWrite_ok (s := startJob j s) hz hlen ha), shadowImg_setShadow .., activeImg_setShadow ..,
      running_setShadow .., rfl, rfl⟩
  · intro m j s h hlen hsys ha
    refine ⟨_, exec_simply rfl h (calCopy_ok (s := startJob j s) hlen hsys ha), shadowImg_setShadow .., activeImg_setShadow ..,
      running_setShadow .., rfl, rfl⟩
  · exact fun m j s h hb hz hlen hend => exec_done rfl h (calRead_ok (s := startJob j s) hb hz hlen hend)

section
variable {j : Job} {s : State} {h : CalHdr}

/-! ## Arming (R230, R231, R238) -/

/-- A calendar whose shadow bank is armed keeps all but that bank's header and mark. -/
theorem Calendar.arm_keep (c : Calendar) (h : CalHdr) : (c.arm h).armed = some h ∧ activeImg (c.arm h) = activeImg c ∧
    shadowImg (c.arm h) = shadowImg c ∧ (c.arm h).hdr = c.hdr ∧ (c.arm h).running = c.running ∧ (c.arm h).stopAt = c.stopAt := by
  cases ha : c.active1 <;> simp [Calendar.arm, Calendar.armed, Calendar.hdr, activeImg, shadowImg, bankImg, ha]

theorem mirrorCal_keep {β : Type} (F : State → β) (hF : ∀ p m s, F (mirrorSend p m s) = F s) (h : CalHdr) (img : List Host.Cell) (s : State) :
    F (mirrorCal h img s) = F s := by
  unfold mirrorCal
  split
  · exact hF ..
  · rfl

theorem calHdrRsv_of_calFault_none {x : Nat} (h : calFault s x = none) : calHdrRsv x = false := by
  by_contra hne
  simp [calFault, Bool.not_eq_false _ ▸ hne] at h

theorem calArm_fault {d : Nat} (hst : calState s = true) (ha : s.cal.armed = none) (hf : calFault s (leNat j.payload) = some d) :
    calArm j s = (.done .badDescriptor d, s) := by
  cases hr : calHdrRsv (leNat j.payload) with
  | true =>
    have hd : d = 0xFFFFFFFF := by simpa [calFault, hr, eq_comm] using hf
    simp only [calArm, hr, hd, if_true]
  | false => simp only [calArm, hr, hst, armed_isSome_of_none ha, hf, Bool.not_true, Bool.or_self, Bool.false_eq_true, if_false]

theorem calArm_ok (hst : calState s = true) (ha : s.cal.armed = none) (hf : calFault s (leNat j.payload) = none) :
    calArm j s = (.done .ok, mirrorCal (decCalHdr (leNat j.payload)) (shadowImg s.cal) { s with cal := s.cal.arm (decCalHdr (leNat j.payload)) }) := by
  simp only [calArm, calHdrRsv_of_calFault_none hf, hst, armed_isSome_of_none ha, hf, Bool.not_true, Bool.or_self, Bool.false_eq_true, if_false]

theorem calCancel_ok (ha : s.cal.armed = some h) (ht : s.ns + 512 ≤ 256 * h.swapSlot) :
    calCancel j s = (.ok, { s with cal.isArmed := false }) := by
  simp only [calCancel, ha, ht, if_true]

theorem calStop_ok (ht : s.slot + 4096 ≤ fldLE j.payload 0 8) : calStop j s = (.ok, { s with cal.stopAt := some (fldLE j.payload 0 8) }) := by
  simp only [calStop, Nat.not_lt.2 ht, if_false]

end

/-- Settles O25. -/
theorem calendarArmingCompletes : Obligations.CalendarArmingCompletes := by
  refine ⟨fun m j s h hst ha => ⟨fun d hf => exec_done rfl h (calArm_fault (s := startJob j s) hst ha hf), fun hf => ?_⟩, ?_, ?_⟩
  · obtain ⟨harmed, hact, hsh, hhdr, hrun, hstop⟩ := s.cal.arm_keep (decCalHdr (leNat j.payload))
    have hcal : (mirrorCal (decCalHdr (leNat j.payload)) (shadowImg s.cal)
        { startJob j s with cal := s.cal.arm (decCalHdr (leNat j.payload)) }).cal = s.cal.arm (decCalHdr (leNat j.payload)) :=
      mirrorCal_keep _ mirrorSend_cal ..
    refine ⟨_, exec_done rfl h (calArm_ok (s := startJob j s) hst ha hf), (congrArg Calendar.armed hcal).trans harmed,
      (congrArg activeImg hcal).trans hact, (congrArg shadowImg hcal).trans hsh, (congrArg Calendar.hdr hcal).trans hhdr,
      (congrArg Calendar.running hcal).trans hrun, (congrArg Calendar.stopAt hcal).trans hstop,
      mirrorCal_keep State.mem mirrorSend_mem .., mirrorCal_keep State.ember mirrorSend_ember ..⟩
  · exact fun m j h s hm ha ht => ⟨_, exec_simply rfl hm (calCancel_ok (s := startJob j s) ha ht), rfl, rfl⟩
  · exact fun m j s hm ht => ⟨_, exec_simply rfl hm (calStop_ok (s := startJob j s) ht), rfl, rfl⟩

section
variable {s : State} {h : CalHdr}

/-! ## Swap and stop (R231, R238, R239) -/

theorem unschedule_keep {β : Type} (F : State → β) (hF : ∀ c f s, F (modChan c f s) = F s) (cs : List Nat) (s : State) :
    F (unschedule cs s) = F s := by
  unfold unschedule
  induction cs generalizing s with
  | nil => rfl
  | cons c cs ih => rw [List.foldl_cons, ih, hF]

/-- The bank that an armed calendar will make the active one holds its header. -/
theorem shadow_hdr_of_armed (ha : s.cal.armed = some h) : (if s.cal.active1 then s.cal.hdr0 else s.cal.hdr1) = h := by
  unfold Calendar.armed at ha
  split at ha
  · exact Option.some.inj ha
  · cases ha

/-- The calendar after the swap of `h`, which runs. -/
def swapped (h : CalHdr) (c : Calendar) : Calendar :=
  { c with active1 := !c.active1, isArmed := false, done := [], running := true, gates := gatesAt (shadowImg c) h (posAt h h.swapSlot)
           scheduled := scheduledBy (evsAll (shadowImg c) h)
           xbar := (gateAt ((evsAll (shadowImg c) h).filter (·.kind == 6)) (posAt h h.swapSlot * 256)).elim (List.range 16) xbarOf }

theorem hdr_swapped (ha : s.cal.armed = some h) : (swapped h s.cal).hdr = h := by
  have hh := shadow_hdr_of_armed ha
  cases hc : s.cal.active1 <;> simp_all [swapped, Calendar.hdr]

theorem calSwap_runs (ha : s.cal.armed = some h) (hslot : h.swapSlot ≤ s.slot) (hstop : s.cal.stopAt = none) (hst : calState s = true) :
    calSwap s = event 0x0006 true [] none [h.calId]
      { unschedule (s.cal.scheduled.filter (!(scheduledBy (evsAll (shadowImg s.cal) h)).contains ·)) s with cal := swapped h s.cal } := by
  simp only [calSwap, ha, Nat.not_lt.2 hslot, hstop, hst, swapped, Option.elim_none, Bool.false_eq_true, if_false, if_true]

theorem calStopAct_due {a : Nat} (hstop : s.cal.stopAt = some a) (hslot : a ≤ s.slot) (ha : s.cal.armed = none) :
    calStopAct s = { (if s.cal.running then stopCalendar s else s) with cal.stopAt := none } := by
  simp only [calStopAct, hstop, ha, Nat.not_lt.2 hslot, Option.elim_none, decide_false, Bool.or_self, Bool.false_eq_true, if_false]

/-! ## Calendar events (R231, R235 to R237) -/

/-- Entry `e` of the running calendar is marked as done in slot `k`. -/
def acted (k e : Nat) (s : State) : State := { s with cal.done := (k, e) :: s.cal.done.filter fun x => decide (s.slot ≤ x.1 + 3) }

theorem mem_done_acted (k e : Nat) (s : State) : (k, e) ∈ (acted k e s).cal.done := List.mem_cons_self

theorem calEvent_due {e kind k : Nat} {v : CalEv} (h : dueEvent s e kind = some (k, v)) (f : Nat → CalEv → State → State) :
    calEvent e kind f s = f k v (acted k e s) := by
  simp only [calEvent, h, acted]

theorem calClose_free {k : Nat} {tb : Table} (hfree : tb.closeWait = []) (s : State) :
    (calClose k tb s).tables = (startClose tb.d.part tb.d.id { step := (tb.closed + 1) % 2 ^ 32 } s).tables ∧
      (calClose k tb s).cal = s.cal ∧ (calClose k tb s).mem = s.mem := by
  simp only [calClose, hfree, List.isEmpty_nil, Bool.not_true, Bool.false_eq_true, if_false]
  split
  · exact ⟨mirrorState_tables .., mirrorState_cal .., mirrorState_mem ..⟩
  · exact ⟨rfl, rfl, rfl⟩

theorem chan_of_getElem? {c : Nat} {x : Chan} (h : s.chans[c]? = some x) : s.chan c = x := by
  rw [State.chan, List.getD_eq_getElem?_getD, h, Option.getD_some]

end

theorem gates_due {e kind k : Nat} {v : CalEv} {s : State} (h : dueEvent s e kind = some (k, v)) :
    ∃ t, Host.Outcome.next (settle s (calEvent e kind (fun _ v s => setGates v s) s)) = (Host.Outcome.next t : Host.Outcome State Fault Refusal) ∧
      t.cal.gates = modWhere (fun g => v.gates g.tray g.port g.svc)
        (fun g => if v.kind = 0 then { g with open_ := true, maxFrame := v.arg } else { g with open_ := false }) s.cal.gates ∧
      (k, e) ∈ t.cal.done ∧ t.mem = s.mem ∧ t.dsax = s.dsax ∧ t.chains = s.chains := by
  rw [calEvent_due h]
  refine ⟨_, rfl, ?_, ?_, settle_mem .., settle_dsax .., settle_chains ..⟩
  · rw [settle_cal]; rfl
  · rw [settle_cal]; exact mem_done_acted k e s

/-- Settles O26. -/
theorem calendarEventsAct : Obligations.CalendarEventsAct := by
  refine ⟨⟨?_, ?_⟩, fun e k v s h => gates_due h, fun e k v s h => gates_due h, ?_, ?_, ?_, ?_, ?_, ?_, ?_⟩
  · intro h s ha hslot hstop hst
    have harm : exec .calSwap s = .next (settle s (calSwap s)) := rfl
    rw [harm, calSwap_runs ha hslot hstop hst]
    refine ⟨_, rfl, ?_⟩
    rw [settle_cal, settle_mem, settle_ember, event_cal, event_mem, event_ember]
    refine ⟨rfl, hdr_swapped ha, rfl, rfl, rfl, rfl, ?_, ?_⟩
    · exact unschedule_keep State.mem modChan_mem ..
    · exact unschedule_keep State.ember modChan_ember ..
  · intro a s hstop hslot ha
    have harm : exec .calStopAct s = .next (settle s (calStopAct s)) := rfl
    rw [harm, calStopAct_due hstop hslot ha]
    refine ⟨_, rfl, ?_⟩
    rw [settle_cal, settle_mem, settle_ember]
    cases hrun : s.cal.running with
    | false => exact ⟨hrun, rfl, fun h => absurd h (by decide), rfl, rfl⟩
    | true =>
      have hcal := unschedule_keep State.cal modChan_cal s.cal.scheduled
        { s with cal := { s.cal with running := false, gates := [], scheduled := [], xbar := List.range 16, done := [] } }
      refine ⟨congrArg Calendar.running hcal, rfl, fun _ => congrArg Calendar.gates hcal, ?_, ?_⟩
      · exact unschedule_keep State.mem modChan_mem ..
      · exact unschedule_keep State.ember modChan_ember ..
  · exact fun e k v s h => congrArg (fun t => Host.Outcome.next (settle s t)) (calEvent_due h _)
  · intro e k v tb s h htb hfree
    have harm : exec (.calStepClose e) s = .next (settle s (calStepClose e s)) := rfl
    have htb' : ((acted k e s).tables.filter fun t => t.d.id == v.target && t.u.isSome) = [tb] := htb
    obtain ⟨htab, hcal, hmem⟩ := calClose_free (k := k) hfree (acted k e s)
    rw [harm, calStepClose, calEvent_due h]
    simp only [htb', List.foldl_cons, List.foldl_nil]
    refine ⟨_, rfl, ?_, ?_, ?_⟩
    · rw [settle_tables, htab]; rfl
    · rw [settle_cal, hcal]; exact mem_done_acted k e s
    · rw [settle_mem, hmem]; rfl
  · intro e k c v x s h hc hx hbusy
    have harm : exec (.refresh e) s = .next (settle s (refresh e s)) := rfl
    have hx' : (acted k e s).chan c = x := chan_of_getElem? (s := acted k e s) hx
    rw [harm, refresh, calEvent_due h]
    simp only [hc, List.foldl_cons, List.foldl_nil, hx', hbusy, Bool.true_or, if_true]
    refine ⟨_, rfl, ?_, ?_, settle_mem ..⟩
    · rw [settle_chans]; rfl
    · rw [settle_cal]; exact mem_done_acted k e s
  · intro e k c v x s h hc hx hbusy hpend
    have hx' : (acted k e s).chan c = x := chan_of_getElem? (s := acted k e s) hx
    refine congrArg (fun t => Host.Outcome.next (settle s t)) ((calEvent_due h _).trans ?_)
    simp only [hc, List.foldl_cons, List.foldl_nil, hx', hbusy, hpend, Bool.or_self, Bool.false_eq_true, if_false]
    rfl
  · intro e k c v s h hc
    have harm : exec (.scrub e) s = .next (settle s (scrub e s)) := rfl
    rw [harm, scrub, calEvent_due h]
    simp only [hc, List.foldl_cons, List.foldl_nil]
    refine ⟨_, rfl, ?_, ?_, settle_mem ..⟩
    · rw [settle_chans]; rfl
    · rw [settle_cal]; exact mem_done_acted k e s
  · intro e k v s h
    have harm : exec (.xbarShare e) s = .next (settle s (xbarShare e s)) := rfl
    rw [harm, xbarShare, calEvent_due h]
    refine ⟨_, rfl, ?_, ?_, settle_mem .., settle_chains ..⟩
    · rw [settle_cal]; rfl
    · rw [settle_cal]; exact mem_done_acted k e s
  · exact fun e k v s h => congrArg (fun t => Host.Outcome.next (settle s t)) (calEvent_due h _)

end Sys2Proof.Machine
end

section
/-! PROOFS. Ember time: its commands, the exchange, and the PPS pins (R212 to R226). -/

namespace Sys2Proof.Machine

section
variable {s t : State} {p q : Nat} {x : SaxPort} {f : SaxPort → SaxPort}

/-! ## The ports of a state -/

theorem port_of_getElem? (h : s.sax[p]? = some x) : s.port p = x := by
  rw [State.port, List.getD_eq_getElem?_getD, h, Option.getD_some]

theorem port_congr (h : t.sax = s.sax) (p : Nat) : t.port p = s.port p := by rw [State.port, State.port, h]

theorem port_modPort (h : s.sax[p]? = some x) (f : SaxPort → SaxPort) : (modPort p f s).port p = f x := by
  simp [State.port, modPort, List.getD_eq_getElem?_getD, h]

theorem port_modPort_ne (h : p ≠ q) (f : SaxPort → SaxPort) : (modPort q f s).port p = s.port p := by
  simp [State.port, modPort, List.getD_eq_getElem?_getD, h.symm]

theorem getElem?_modPort (h : s.sax[p]? = some x) (f : SaxPort → SaxPort) : (modPort p f s).sax[p]? = some (f x) := by
  simp [modPort, h]

/-- What a change of a port leaves of it stands, whichever port is asked for. -/
theorem port_modPort_keep {β : Type} (F : SaxPort → β) (hF : ∀ x, F (f x) = F x) (q p : Nat) (s : State) :
    F ((modPort q f s).port p) = F (s.port p) := by
  by_cases h : p = q
  · subst h
    cases hx : s.sax[p]? with
    | none => simp [State.port, modPort, List.getD_eq_getElem?_getD, hx]
    | some x => rw [port_modPort hx, port_of_getElem? hx, hF]
  · rw [port_modPort_ne h]

end

/-! ## Commands (R212, R219, R491) -/

section
variable {j : Job} {s : State}

/-- The module's time after a step to `fx`. -/
theorem stepBy_to (fx : Nat) (h : fx < 2 ^ 80) (s : State) :
    (stepBy ((fx : Int) - s.ember.fx) s).ember.fx = fx ∧ (stepBy ((fx : Int) - s.ember.fx) s).ember.steps = (s.ember.steps + 1) % 2 ^ 16 := by
  refine ⟨?_, rfl⟩
  have hfx : (((s.ember.fx : Int) + ((fx : Int) - s.ember.fx)) % (2 ^ 80 : Nat)).toNat = fx := by
    rw [add_sub_cancel]
    omega
  exact hfx

theorem emberSet_ok (hfm : s.ember.isFm = true) (hrun : s.cal.running = false) (ha : s.cal.armed = none) (hstop : s.cal.stopAt = none) :
    emberSet j s = (.ok, stepBy ((fldLE j.payload 0 10 : Int) - s.ember.fx) s) := by
  simp only [emberSet, hfm, hrun, ha, hstop, Option.isSome_none, Bool.not_true, Bool.or_self, Bool.false_eq_true, if_false]

theorem emberLinkAsym_ok (hz : zeroAt j.payload 1 3 = true) : emberLinkAsym j s =
    (.ok, modPort (fldLE j.payload 0 1) (fun x => { x with asym := signed 32 (fldLE j.payload 4 4) }) s) := by
  simp only [emberLinkAsym, hz, Bool.not_true, Bool.false_eq_true, if_false]

end

/-- Settles O27. -/
theorem emberCommandsComplete : Obligations.EmberCommandsComplete := by
  refine ⟨?_, ?_, ?_⟩
  · intro m j s h hfm hrun ha hstop hfx
    obtain ⟨hto, hsteps⟩ := stepBy_to (fldLE j.payload 0 10) hfx (startJob j s)
    exact ⟨_, exec_simply rfl h (emberSet_ok (s := startJob j s) hfm hrun ha hstop), hto, hsteps, rfl, rfl, rfl⟩
  · exact fun m j s h hz => ⟨_, exec_simply rfl h (emberLinkAsym_ok (s := startJob j s) hz), rfl, rfl, rfl⟩
  · intro m j s h
    refine ⟨_, exec_done rfl h rfl, ?_, rfl⟩
    simp only [List.length_append, length_toLE, List.length_replicate, List.length_cons, List.length_nil]

/-! ## The election (R216 to R218) -/

theorem elect_keep {β : Type} (F : State → β) (hE : ∀ (s : State) (e : Ember), F { s with ember := e } = F s)
    (hP : ∀ p f s, F (modPort p f s) = F s) (hV : ∀ c b ps k d s, F (event c b ps k d s) = F s) (s : State) : F (elect s) = F s := by
  unfold elect
  split
  · rfl
  extract_lets w lost r a e entered alone now s1 s2
  have h1 : F s1 = F s := hE ..
  have h2 : F s2 = F s := by
    rw [← h1]
    simp only [s2]
    split
    · rfl
    · cases w.2.2 with
      | none => rfl
      | some p => exact hP ..
  split
  · rw [hV, h2]
  · exact h2

theorem elect_mem (s : State) : (elect s).mem = s.mem := elect_keep State.mem (fun _ _ => rfl) modPort_mem event_mem s
theorem elect_cal (s : State) : (elect s).cal = s.cal := elect_keep State.cal (fun _ _ => rfl) modPort_cal event_cal s

/-! ## The exchange (R219, R223) -/

theorem sendSch_keep {β : Type} (F : State → β) (hF : ∀ p m s, F (enqueueSch p m s) = F s) (p : Nat) (b : Bytes) (s : State) :
    F (sendSch p b s) = F s := hF ..

section
variable {s : State} {p : Nat} {x : SaxPort}

theorem syncTimer_due (hup : s.ember.up = some p) (ht : s.ember.syncAt + 1000000 ≤ s.t) (hl : linkAlive s p = true) (hx : s.sax[p]? = some x) :
    syncTimer s = sendSch p (encSync 0 s.ember.st.code s.ember.steps ((x.syncSeq + 1) % 2 ^ 16) 0 0)
      (modPort p (fun y => { y with syncSeq := (x.syncSeq + 1) % 2 ^ 16, syncOpen := true }) { s with ember.syncAt := s.t }) := by
  have hdue : ¬ s.t < s.ember.syncAt + (if acquiring s then 125000 else 1000000) := by split <;> omega
  simp only [syncTimer, hup, hdue, hl, port_of_getElem? hx, Bool.not_true, decide_false, Bool.or_self, Bool.false_eq_true, if_false]
  rfl

theorem kind_eatPkt (p q : Nat) (vc : Vc) (m : PktMsg) (s : State) : ((eatPkt p vc m s).port q).kind = (s.port q).kind :=
  port_modPort_keep SaxPort.kind (by intro; rfl) p q s

theorem syncReq_good {t2 seq steps : Nat} {m : PktMsg} (hd : decSync 0 m.body = some (0, 0, seq, steps)) (hr : m.rsv = false)
    (hk : (s.port p).kind < 2) :
    syncReq p m t2 s = sendSch p (encSync 1 s.ember.st.code s.ember.steps seq 0 t2) (eatPkt p .sch m s) := by
  simp only [syncReq, hd, hr, kind_eatPkt, Nat.not_le.2 hk, ne_eq, not_true, decide_false, Bool.or_self, Bool.false_eq_true, if_false]
  rfl

theorem syncReq_malformed {t2 : Nat} {m : PktMsg} (hd : decSync 0 m.body = none) :
    syncReq p m t2 s = answerOn p m .badDescriptor (eatPkt p .sch m s) := by
  simp only [syncReq, hd]

/-- What an exchange has found, and what a step or a turn of the module's time leaves of the state besides. -/
def exchKept (s : State) : Memory × List SaxPort × Int × Nat := (s.mem, s.sax, s.ember.theta, s.ember.upAt)

theorem exchKept_event (c : Nat) (b : Bool) (ps : List Nat) (k : Option Nat) (d : List Nat) (s : State) :
    exchKept (event c b ps k d s) = exchKept s := by
  simp only [exchKept, event_mem, event_sax, event_ember]

theorem exchKept_stopCalendar (s : State) : exchKept (stopCalendar s) = exchKept s :=
  unschedule_keep exchKept (fun c f s => by simp only [exchKept, modChan_mem, modChan_sax, modChan_ember]) s.cal.scheduled
    { s with cal := { s.cal with running := false, gates := [], scheduled := [], xbar := List.range 16, done := [] } }

theorem exchKept_stepBy (d : Int) (s : State) : exchKept (stepBy d s) = exchKept s := rfl

theorem exchKept_steer (theta : Int) (s : State) : exchKept (steer theta s) = exchKept s := rfl

theorem exchKept_resync (theta : Int) (s : State) : exchKept (resync theta s) = exchKept s := by
  have hstop := exchKept_stopCalendar s
  have hma : exchKept (eventMA 0x0008 [unsigned 64 theta] (stepBy theta { stopCalendar s with cal.isArmed := false })) = exchKept s := by
    rw [← hstop]
    simp only [exchKept, eventMA_mem, eventMA_sax, eventMA_ember]
    rfl
  simp only [resync]
  split
  · exact (exchKept_event ..).trans hma
  · exact hma

theorem exchKept_applyTheta (theta : Int) (s : State) : exchKept (applyTheta theta s) = exchKept s := by
  unfold applyTheta
  extract_lets near e s1 good
  have h1 : exchKept s1 = exchKept s := by
    simp only [s1]
    split
    · rfl
    · split <;> rfl
  split
  · exact exchKept_resync ..
  · split
    · split
      · exact exchKept_resync ..
      · rw [exchKept_event]; rfl
    · exact h1

theorem exists_eatPkt (hx : s.sax[p]? = some x) (vc : Vc) (m : PktMsg) : ∃ y, (eatPkt p vc m s).sax[p]? = some y ∧ y.syncOpen = x.syncOpen ∧
    y.syncSeq = x.syncSeq ∧ y.t1 = x.t1 ∧ y.asym = x.asym :=
  ⟨_, getElem?_modPort hx _, rfl, rfl, rfl, rfl⟩

/-- What SYNC_RSP finds: the offset and the link's delay, from the four times and the link's correction (R219). -/
def rspTheta (x : SaxPort) (t2 t3 t4 : Nat) : Int := (((t2 : Int) - x.t1) - ((t4 : Int) - t3) - x.asym) / 2
def rspDelay (x : SaxPort) (t2 t3 t4 : Nat) : Int := (((t4 : Int) - x.t1) - ((t3 : Int) - t2)) / 2

theorem exists_syncRsp {t2 t3 t4 seq steps : Nat} {m : PktMsg} (hd : decSync 1 m.body = some (t2, t3, seq, steps)) (hr : m.rsv = false)
    (hup : s.ember.up = some p) (hx : s.sax[p]? = some x) (hopen : x.syncOpen = true) (hseq : x.syncSeq = seq) :
    ∃ y, y.syncOpen = false ∧ y.upSteps = some steps ∧ y.delay = rspDelay x t2 t3 t4 ∧ (syncRsp p m t4 s).sax[p]? = some y ∧
      (syncRsp p m t4 s).ember.theta = rspTheta x t2 t3 t4 ∧ (syncRsp p m t4 s).ember.upAt = s.t ∧ (syncRsp p m t4 s).mem = s.mem := by
  obtain ⟨z, hz, hzopen, hzseq, hzt1, hzasym⟩ := exists_eatPkt hx .sch m
  have hup' : (eatPkt p .sch m s).ember.up = some p := hup
  have hport : (eatPkt p .sch m s).port p = z := port_of_getElem? hz
  have hgood : (m.rsv || decide ((eatPkt p .sch m s).ember.up ≠ some p) || !z.syncOpen || decide (seq ≠ z.syncSeq)) = false := by
    simp [hr, hup', hzopen, hopen, hzseq, hseq]
  have key : exchKept (syncRsp p m t4 s) = (s.mem, (eatPkt p .sch m s).sax.modify p (fun x => { x with
      syncOpen := false, upSteps := some steps, delay := rspDelay z t2 t3 t4 }), rspTheta z t2 t3 t4, s.t) := by
    simp only [syncRsp, hd, hport, hgood, Bool.false_eq_true, if_false]
    split <;> exact exchKept_applyTheta ..
  obtain ⟨hmem, hsax, htheta, hupAt⟩ : (syncRsp p m t4 s).mem = s.mem ∧ _ = _ ∧ _ = _ ∧ _ = _ := by
    simpa only [exchKept, Prod.mk.injEq] using key
  refine ⟨{ z with syncOpen := false, upSteps := some steps, delay := rspDelay z t2 t3 t4 }, rfl, rfl, ?_, ?_, ?_, hupAt, hmem⟩
  · simp only [rspDelay, hzt1]
  · rw [hsax, List.getElem?_modify_eq, hz]; rfl
  · rw [htheta, rspTheta, rspTheta, hzt1, hzasym]

theorem announceTimer_due (ht : s.ember.annAt + 1000000 ≤ s.t) (hb : s.power.readyBasic = true) : announceTimer s =
    (schPorts (elect { s with ember.annAt := s.t })).foldl (fun s p => sendSch p (encAnn (ownAnn s)) s) (elect { s with ember.annAt := s.t }) := by
  simp only [announceTimer, Nat.not_lt.2 ht, hb, Bool.not_true, decide_false, Bool.or_self, Bool.false_eq_true, if_false]

theorem announce_heard {m : PktMsg} {a : Ann} (hd : decAnn m.body = some a) (hr : m.rsv = false) (hk : (s.port p).kind = 1)
    (hup : s.ember.up ≠ some p) :
    announce p m s = elect (modPort p (fun x => { x with ann := some { a with at_ := s.t } }) (eatPkt p .sch m s)) := by
  have hup' : ¬ (modPort p (fun x => { x with ann := some { a with at_ := s.t } }) (eatPkt p .sch m s)).ember.up = some p := hup
  simp only [announce, hd, kind_eatPkt, hk, hr, ne_eq, not_true, decide_false, Bool.or_self, Bool.false_eq_true, if_false]
  exact congrArg elect (if_neg hup')

theorem upstreamLost_due (hup : s.ember.up = some p) (ht : s.ember.upAt + 3000000 ≤ s.t) :
    upstreamLost s = elect (modPort p (fun x => { x with ann := none, syncOpen := false }) s) := by
  simp only [upstreamLost, hup, Nat.not_lt.2 ht, if_false]

theorem delayCheck_due {ds : List Nat} (ht : s.ember.delayAt + 1000000 ≤ s.t) :
    delayCheck ds s = { s with ember := { s.ember with delays := ds, delayAt := s.t } } := by
  simp only [delayCheck, Nat.not_lt.2 ht, decide_false, Bool.and_false, Bool.false_eq_true, if_false]

/-! ## EMBER_PPS_IN and EMBER_PPS_OUT (R214, R225, R226) -/

theorem ppsEdge_first (he : s.ember.ppsEdges = []) : ppsEdge s = { s with ember.ppsEdges := [s.ns] } := by
  simp [ppsEdge, he]

theorem ppsEdge_late {x : Nat} (he : s.ember.ppsEdges = [x]) (ht : x + 1000010000 < s.ns) :
    ppsEdge s = ppsBadNow { s with ember.ppsEdges := [s.ns, x] } := by
  have hgap : (decide (999990000 ≤ s.ns - x) && decide (s.ns - x ≤ 1000010000)) = false := by
    rw [Bool.and_eq_false_iff, decide_eq_false_iff_not, decide_eq_false_iff_not]; omega
  simp only [ppsEdge, he, List.head?_cons, Option.map_some, Option.elim_some, hgap]
  rfl

theorem ppsEdge_second {x : Nat} (he : s.ember.ppsEdges = [x]) (h1 : x + 999990000 ≤ s.ns) (h2 : s.ns ≤ x + 1000010000)
    (hever : s.ember.ppsEver = false) (hgood : s.ember.ppsGood = 0) (hq : s.ember.ppsQual = false) (hfm : s.ember.isFm = false) :
    ppsEdge s = { s with ember := { s.ember with ppsEdges := [s.ns, x], ppsGood := 1 } } := by
  have hgap : (decide (999990000 ≤ s.ns - x) && decide (s.ns - x ≤ 1000010000)) = true := by
    rw [Bool.and_eq_true, decide_eq_true_eq, decide_eq_true_eq]; omega
  have hburst : (([x] : List Nat)[1]?).elim false (fun y => decide (s.ns < y + 900000000)) = false := rfl
  simp only [ppsEdge, ppsDiscipline, he, hburst, List.head?_cons, Option.map_some, Option.elim_some, hgap, hever, hgood, hq, hfm]
  rfl

theorem ppsTimeout_due {x : Nat} {r : List Nat} (he : s.ember.ppsEdges = x :: r) (ht : x + 1100000000 ≤ s.ns) :
    ppsTimeout s = ppsBadNow { s with ember.ppsEdges := [] } := by
  rw [ppsTimeout, he, List.head?_cons, Option.elim_some, if_pos (decide_eq_true ht)]

theorem ppsRise_due (hst : calState s = true) (hfx : s.ember.fx % (1000000000 * 65536) ≤ 2 * 65536) (ho : s.power.ppsOut = false) :
    ppsRise s = { s with power := { s.power with ppsOut := true, ppsOutAt := s.t } } := by
  rw [ppsRise, hst, ho, decide_eq_true hfx]
  rfl

theorem ppsFall_due (ho : s.power.ppsOut = true) (ht : s.power.ppsOutAt + 100000 ≤ s.t) : ppsFall s = { s with power.ppsOut := false } := by
  rw [ppsFall, ho, decide_eq_true ht]
  rfl

end

/-- Settles O28. -/
theorem emberEventsAct : Obligations.EmberEventsAct := by
  refine ⟨⟨?_, ?_, ?_, ?_, ?_, ?_, ?_, ?_⟩, ?_, ?_, ?_, ?_, ?_, ?_⟩
  · intro p x s hup ht hl hx
    have harm : exec .syncExchangeTimer s = .next (settle s (syncTimer s)) := rfl
    have hport := port_modPort (s := { s with ember.syncAt := s.t }) hx fun y => { y with syncSeq := (x.syncSeq + 1) % 2 ^ 16, syncOpen := true }
    rw [harm, syncTimer_due hup ht hl hx]
    refine ⟨_, rfl, ?_, ?_, ?_, ?_⟩
    · rw [port_congr (settle_sax ..), port_congr (sendSch_keep State.sax enqueueSch_sax ..), hport]
    · rw [port_congr (settle_sax ..), port_congr (sendSch_keep State.sax enqueueSch_sax ..), hport]
    · rw [settle_ember, sendSch_keep State.ember enqueueSch_ember]; rfl
    · rw [settle_mem, sendSch_keep State.mem enqueueSch_mem]; rfl
  · exact fun p t2 seq steps m s hd hr hk => congrArg (fun t => Host.Outcome.next (settle s t)) (syncReq_good hd hr hk)
  · exact fun p t2 m s hd => congrArg (fun t => Host.Outcome.next (settle s t)) (syncReq_malformed hd)
  · intro p t2 t3 t4 seq steps m x s hd hr hup hx hopen hseq
    obtain ⟨y, hyopen, hysteps, hydelay, hy, htheta, hupAt, hmem⟩ := exists_syncRsp (t4 := t4) hd hr hup hx hopen hseq
    have hport : (settle s (syncRsp p m t4 s)).port p = y := (port_congr (settle_sax ..) p).trans (port_of_getElem? hy)
    refine ⟨_, rfl, ?_, ?_, ?_, ?_, ?_, ?_⟩
    · rw [hport, hyopen]
    · rw [hport, hysteps]
    · exact (congrArg Ember.theta (settle_ember ..)).trans htheta
    · rw [hport]; exact hydelay
    · exact (congrArg Ember.upAt (settle_ember ..)).trans hupAt
    · exact (settle_mem ..).trans hmem
  · intro s ht hb
    have harm : exec .announceTimer s = .next (settle s (announceTimer s)) := rfl
    rw [harm, announceTimer_due ht hb]
    refine ⟨_, rfl, ?_, ?_, ?_⟩
    · rw [settle_ember, foldl_keep State.ember _ fun s p => sendSch_keep State.ember enqueueSch_ember ..]
    · rw [settle_mem, foldl_keep State.mem _ fun s p => sendSch_keep State.mem enqueueSch_mem .., elect_mem]
    · rw [settle_cal, foldl_keep State.cal _ fun s p => sendSch_keep State.cal enqueueSch_cal .., elect_cal]
  · exact fun p m a s hd hr hk hup => congrArg (fun t => Host.Outcome.next (settle s t)) (announce_heard hd hr hk hup)
  · exact fun p s hup ht => congrArg (fun t => Host.Outcome.next (settle s t)) (upstreamLost_due hup ht)
  · exact fun ds s ht => congrArg (fun t => Host.Outcome.next (settle s t)) (delayCheck_due ht)
  · exact fun s he => congrArg (fun t => Host.Outcome.next (settle s t)) (ppsEdge_first he)
  · exact fun x s he ht => congrArg (fun t => Host.Outcome.next (settle s t)) (ppsEdge_late he ht)
  · exact fun x s he h1 h2 hever hgood hq hfm => congrArg (fun t => Host.Outcome.next (settle s t)) (ppsEdge_second he h1 h2 hever hgood hq hfm)
  · exact fun x r s he ht => congrArg (fun t => Host.Outcome.next (settle s t)) (ppsTimeout_due he ht)
  · exact fun s hst hfx ho => congrArg (fun t => Host.Outcome.next (settle s t)) (ppsRise_due hst hfx ho)
  · exact fun s ho ht => congrArg (fun t => Host.Outcome.next (settle s t)) (ppsFall_due ho ht)

end Sys2Proof.Machine
end

section
/-! PROOFS. Saxel links: bring-up, steps, and what takes a link down or retrains it (R308, R331 to R339, R347, R446). -/

namespace Sys2Proof.Machine

/-! ## Changes of a port's rate and lanes (R234) -/

theorem rateChange_keep {β : Type} (F : State → β) (hV : ∀ c b ps k d s, F (event c b ps k d s) = F s) (tray : Bool) (p : Nat) (f : State → State)
    (s : State) : F (rateChange tray p f s) = F (f s) :=
  foldl_keep F _ (fun _ _ => hV ..) _ _

section
variable {s : State} {p : Nat} {x : SaxPort}

theorem port_eventMO (c : Nat) (o : Option Nat) (d : List Nat) (s : State) (p : Nat) : (eventMO c o d s).port p = s.port p :=
  port_congr (event_sax ..) p

theorem port_rateChange (hx : s.sax[p]? = some x) (tray : Bool) (f : SaxPort → SaxPort) :
    (rateChange tray p (modPort p f) s).port p = f x :=
  (port_congr (rateChange_keep State.sax event_sax ..) p).trans (port_modPort hx f)

theorem port_settle (o s : State) (p : Nat) : (settle o s).port p = s.port p := port_congr (settle_sax ..) p

/-! ## Bring-up and steps (R331 to R333) -/

theorem detectProbe_due (hw : portWorks s false p = true) (hs : s.power.started = true) (hd : (s.port p).st = .disabled)
    (hr : inReset s = false) (hc : s.power.refLost.getD (p / 128) false = false) :
    detectProbe p s = modPort p (fun x => { x with st := .detect }) s := by
  simp only [detectProbe, hw, hs, hd, hr, hc, BEq.rfl, Bool.not_false, Bool.and_self, if_true]

theorem peerDetected_due (hw : portWorks s false p = true) (hd : (s.port p).st = .detect) (hr : inReset s = false)
    (hc : s.power.refLost.getD (p / 128) false = false) :
    peerDetected p s = modPort p (fun x => { x with st := .equalize, rate := 2, lanes := [p] }) s := by
  simp only [peerDetected, hw, hd, hr, hc, BEq.rfl, Bool.not_false, Bool.and_self, if_true]

theorem equalizeConverged_due (hd : (s.port p).st = .equalize) : equalizeConverged p s = modPort p (fun x => { x with st := .align }) s := by
  simp only [equalizeConverged, hd, BEq.rfl, if_true]

theorem codewordLock_due (hd : (s.port p).st = .align) : codewordLock p s =
    modPort p (fun x => { x with st := .config, cfg := some (configOf s p), cfgAt := s.t, mismatch := false }) s := by
  simp only [codewordLock, hd, BEq.rfl, if_true]

theorem config_agrees {r : ConfigRec} (hd : (s.port p).st = .config) (ha : configAgrees (s.port p).kind r = true) :
    config p r s = modPort p (fun x => { x with peer := some r, mismatch := false, cred := r.credits, cfgAt := s.t }) s := by
  simp only [config, hd, ha, bne_self_eq_false, Bool.false_eq_true, if_false, if_true]

theorem config_disagrees {r : ConfigRec} (hd : (s.port p).st = .config) (ha : configAgrees (s.port p).kind r = false) :
    config p r s = event 0x0013 true [] none [p] (modPort p (fun x => { x with peer := none, mismatch := true, cfgAt := s.t }) s) := by
  simp only [config, hd, ha, bne_self_eq_false, Bool.false_eq_true, if_false]

theorem configRepeat_due (hd : (s.port p).st = .config) (hm : (s.port p).mismatch = true) (ht : (s.port p).cfgAt + 100000000 ≤ s.t) :
    configRepeat p s = event 0x0013 true [] none [p] (modPort p (fun x => { x with cfg := some (configOf s p), cfgAt := s.t }) s) := by
  rw [configRepeat, hd, hm, decide_eq_true ht]
  rfl

theorem sendSpdm_keep {β : Type} (F : State → β) (hF : ∀ b p v ep o s, F (enqueue b p v ep o s) = F s) (p txn : Nat) (b : Bytes) (s : State) :
    F (sendSpdm p txn b s) = F s := hF ..

theorem openHandshake_keep {β : Type} (F : State → β) (hF : ∀ b p v ep o s, F (enqueue b p v ep o s) = F s)
    (hP : ∀ p f s, F (modPort p f s) = F s) (p : Nat) (s : State) : F (openHandshake p s) = F s := by
  unfold openHandshake
  extract_lets t
  split
  · rw [sendSpdm_keep F hF, hP]
  · rfl

/-- The first message of a handshake changes the port's session alone. -/
theorem port_openHandshake {β : Type} (F : SaxPort → β) (hF : ∀ x ss, F { x with sess := ss } = F x) (p q : Nat) (s : State) :
    F ((openHandshake p s).port q) = F (s.port q) := by
  unfold openHandshake
  extract_lets t
  split
  · rw [port_congr (sendSpdm_keep State.sax enqueue_sax ..)]
    exact port_modPort_keep F (by intro; exact hF ..) _ _ _
  · rfl

/-- A port at LINK_UP (R332). -/
def upPort (p t : Nat) (x : SaxPort) : SaxPort :=
  { x with st := .up, upAt := t, lanes := [p], rate := 2, txSeq := 0, txAck := 4095, rxSeq := 4095, nak := false, replay := [],
           replaying := [], going := [], ackAt := t, alive := t, sess := { startAt := t } }

theorem exists_linkUp (hx : s.sax[p]? = some x) (hd : x.st = .config) (hp : x.peer.isSome = true) (hm : x.mismatch = false) :
    ∃ u, linkUp p s = openHandshake p u ∧ u.port p = upPort p s.t x ∧ u.mem = s.mem ∧ u.maps = s.maps := by
  have hport := port_rateChange hx false (upPort p s.t)
  have hmem : (rateChange false p (modPort p (upPort p s.t)) s).mem = s.mem := rateChange_keep State.mem event_mem ..
  have hmaps : (rateChange false p (modPort p (upPort p s.t)) s).maps = s.maps := rateChange_keep State.maps event_maps ..
  simp only [linkUp, port_of_getElem? hx, hd, hp, hm, BEq.rfl, Bool.not_false, Bool.and_self, if_true]
  refine ⟨_, rfl, ?_⟩
  split <;> exact ⟨hport, hmem, hmaps⟩

theorem laneTrained_due {l : Nat} (hup : (s.port p).st = .up) (hl : (portLanes s p).contains l = true)
    (hn : (s.port p).lanes.contains l = false) (ht : (s.port p).trained.contains l = false) :
    laneTrained p l s = modPort p (fun x => { x with trained := x.trained ++ [l] }) s := by
  simp only [laneTrained, hup, hl, hn, ht, BEq.rfl, Bool.not_false, Bool.and_self, if_true]

theorem portStep_due (hup : (s.port p).st = .up) (hs : (s.port p).stepping = false) (ht : (s.port p).trained ≠ []) :
    portStep p s = modPort p (fun x => { x with stepping := true, stepAt := s.t, retrains := x.retrains + 1 }) s := by
  have hne : (s.port p).trained.isEmpty = false := by simpa using ht
  simp only [portStep, hup, hs, hne, BEq.rfl, Bool.not_false, Bool.true_or, Bool.and_self, if_true]

/-- A port at the end of its step (R332). -/
def steppedPort (r : Nat) (lanes : List Nat) (x : SaxPort) : SaxPort :=
  { x with stepping := false, lanes := lanes.filter fun l => x.lanes.contains l || x.trained.contains l, trained := [], rate := r,
           replaying := x.replay }

theorem portStepEnd_due (hx : s.sax[p]? = some x) (hs : x.stepping = true) :
    portStepEnd p s = rateChange false p (modPort p (steppedPort (targetRate s p) (portLanes s p))) s := by
  simp only [portStepEnd, port_of_getElem? hx, hs, if_true]
  rfl

end

/-- Settles O29. -/
theorem linkBringUpAdvances : Obligations.LinkBringUpAdvances := by
  refine ⟨⟨?_, ?_, ?_, ?_, ?_, ?_, ?_, ?_⟩, ?_, ?_, ?_⟩
  · exact fun p s hw hs hd hr hc => congrArg (fun t => Host.Outcome.next (settle s t)) (detectProbe_due hw hs hd hr hc)
  · exact fun p s hw hd hr hc => congrArg (fun t => Host.Outcome.next (settle s t)) (peerDetected_due hw hd hr hc)
  · exact fun p s hd => congrArg (fun t => Host.Outcome.next (settle s t)) (equalizeConverged_due hd)
  · exact fun p s hd => congrArg (fun t => Host.Outcome.next (settle s t)) (codewordLock_due hd)
  · exact fun p r s hd ha => congrArg (fun t => Host.Outcome.next (settle s t)) (config_agrees hd ha)
  · exact fun p r s hd ha => congrArg (fun t => Host.Outcome.next (settle s t)) (config_disagrees hd ha)
  · exact fun p s hd hm ht => congrArg (fun t => Host.Outcome.next (settle s t)) (configRepeat_due hd hm ht)
  · intro p x s hx hd hp hm
    have harm : exec (.linkUp p) s = .next (settle s (linkUp p s)) := rfl
    obtain ⟨u, hu, hport, hmem, hmaps⟩ := exists_linkUp hx hd hp hm
    rw [harm, hu]
    refine ⟨_, rfl, ?_, ?_, ?_, ?_, ?_, ?_, ?_, ?_⟩
    · rw [port_settle, port_openHandshake SaxPort.st (fun _ _ => rfl), hport]; rfl
    · rw [port_settle, port_openHandshake SaxPort.lanes (fun _ _ => rfl), hport]; rfl
    · rw [port_settle, port_openHandshake SaxPort.rate (fun _ _ => rfl), hport]; rfl
    · rw [port_settle, port_openHandshake SaxPort.txSeq (fun _ _ => rfl), hport]; rfl
    · rw [port_settle, port_openHandshake SaxPort.cred (fun _ _ => rfl), hport]; rfl
    · rw [port_settle, port_openHandshake SaxPort.peer (fun _ _ => rfl), hport]; rfl
    · rw [settle_mem, openHandshake_keep State.mem enqueue_mem modPort_mem, hmem]
    · rw [settle_maps, openHandshake_keep State.maps enqueue_maps modPort_maps, hmaps]
  · exact fun p l s hup hl hn ht => congrArg (fun t => Host.Outcome.next (settle s t)) (laneTrained_due hup hl hn ht)
  · exact fun p s hup hs ht => congrArg (fun t => Host.Outcome.next (settle s t)) (portStep_due hup hs ht)
  · intro p x s hx hs
    have harm : exec (.portStepEnd p) s = .next (settle s (portStepEnd p s)) := rfl
    have hport := (port_settle s _ p).trans (port_rateChange hx false (steppedPort (targetRate s p) (portLanes s p)))
    rw [harm, portStepEnd_due hx hs]
    refine ⟨_, rfl, congrArg SaxPort.stepping hport, congrArg SaxPort.rate hport, congrArg SaxPort.lanes hport,
      congrArg SaxPort.trained hport, congrArg SaxPort.replaying hport, ?_, ?_⟩
    · rw [settle_mem, rateChange_keep State.mem event_mem]; rfl
    · rw [settle_dsax, rateChange_keep State.dsax event_dsax]; rfl

/-! ## Crashed agents (R308) -/

/-- A port whose peer must be admitted again. -/
def unadmit (x : SaxPort) : SaxPort := { x with admitted := false, caching := false }

section
variable {s : State} {p : Nat} {x : SaxPort}

theorem port_modPort_unadmit (q p : Nat) (s : State) :
    (modPort q unadmit s).port p = if q == p then unadmit (s.port p) else s.port p := by
  by_cases h : q = p
  · subst h
    cases hx : s.sax[q]? with
    | none => simp [State.port, modPort, List.getD_eq_getElem?_getD, hx, unadmit]
    | some x => rw [port_modPort hx, port_of_getElem? hx]; simp
  · rw [port_modPort_ne (Ne.symm h), beq_eq_false_iff_ne.2 h]; rfl

theorem port_foldl_unadmit (l : List Agent) (p : Nat) (s : State) :
    (l.foldl (fun s g => modPort g.port unadmit s) s).port p = if l.any (·.port == p) then unadmit (s.port p) else s.port p := by
  induction l generalizing s with
  | nil => rfl
  | cons g l ih =>
    rw [List.foldl_cons, ih, port_modPort_unadmit, List.any_cons]
    cases g.port == p <;> cases l.any (·.port == p) <;> rfl

/-- The ports of agents that still stood lose their peers' admission; the others stay. -/
theorem port_crashAgents (q : Agent → Bool) (p : Nat) (s : State) : (crashAgents q s).port p =
    if (s.dir.agents.filter fun g => q g && !g.tray && !g.crashed && !g.leaving).any (·.port == p) then unadmit (s.port p) else s.port p :=
  port_foldl_unadmit _ p { s with dir.agents := modWhere q (fun g => { g with crashed := true }) s.dir.agents }

theorem crashAgents_keep {β : Type} (F : State → β) (hP : ∀ p f s, F (modPort p f s) = F s) (q : Agent → Bool) (s : State) :
    F (crashAgents q s) = F { s with dir.agents := modWhere q (fun g => { g with crashed := true }) s.dir.agents } :=
  foldl_keep F _ (fun _ _ => hP ..) _ _

theorem port_crashPort_keep {β : Type} (F : SaxPort → β) (hF : ∀ x, F (unadmit x) = F x) (tray : Bool) (p q : Nat) (s : State) :
    F ((crashPort tray p s).port q) = F (s.port q) := by
  rw [crashPort, port_crashAgents]
  split
  · exact hF _
  · rfl

/-! ## Links that go down (R334) -/

theorem failQueue_keep {β : Type} (F : State → β) (hM : ∀ v x n s, F (mirrorFrame v x n s) = F s)
    (hT : ∀ (s : State) l, F { s with mem.trks := l } = F s) (hA : ∀ m st s, F (answerMsg m st s) = F s) (p : Nat) (s : State) :
    F (failQueue p s) = F (modPort p (fun x => { x with going := [] }) (modD false p (fun d => { d with
      q := [], visit := none, gone := (d.gone ++ (d.q.filter (·.svc < 8)).map fun f => (f.svc, f.sub)).eraseDups }) s)) := by
  unfold failQueue
  extract_lets sent gone svc all mirrors s1 s2
  have h2 : F s2 = F s1 := foldl_keep F _ (fun _ _ => hM ..) _ _
  refine (foldl_keep F _ (fun s m => ?_) _ _).trans h2
  split
  · split
    · exact hT ..
    · exact hA ..
  · exact hA ..

/-- A port that has gone down: back in DETECT, with its peer, session, flits and credits forgotten. -/
def downPort (x : SaxPort) : SaxPort :=
  { x with st := .detect, peer := none, sess := {}, admitted := false, caching := false, lanes := [], trained := [],
           stepping := false, rate := 2, txSeq := 0, txAck := 4095, replay := [], replaying := [], lastNak := none,
           nakRuns := 0, rxSeq := 4095, nak := false, cred := List.replicate 7 0, owed := List.replicate 7 0, rx := [],
           tx := [], sch := none, hello := none, helloSent := none, ann := none, syncOpen := false, downs := x.downs + 1 }

theorem linkDown_keep {β : Type} (F : State → β) (hV : ∀ c b ps k d s, F (event c b ps k d s) = F s)
    (hTw : ∀ (s : State) a, F { s with twin.downAt := a } = F s) (p : Nat) (s : State) :
    F (linkDown p s) = F (failQueue p (crashPort false p (rateChange false p (modPort p downPort) s))) := by
  unfold linkDown
  extract_lets pt s1 s2 s3
  have h3 : F s3 = F s2 := hV ..
  split
  · exact (hTw ..).trans h3
  · exact h3

theorem failQueue_sax (p : Nat) (s : State) : (failQueue p s).sax = (modPort p (fun x => { x with going := [] }) s).sax :=
  failQueue_keep State.sax mirrorFrame_sax (fun _ _ => rfl) answerMsg_sax p s

theorem port_linkDown (hx : s.sax[p]? = some x) : (linkDown p s).port p = { downPort x with going := [] } := by
  have hrate : (rateChange false p (modPort p downPort) s).port p = downPort x := port_rateChange hx false downPort
  have hcrash : (crashPort false p (rateChange false p (modPort p downPort) s)).port p = downPort x := by
    rw [crashPort, port_crashAgents, hrate]
    split <;> rfl
  have hlen : p < (crashPort false p (rateChange false p (modPort p downPort) s)).sax.length := by
    by_contra hge
    have hnone := List.getElem?_eq_none (Nat.not_lt.1 hge)
    rw [State.port, List.getD_eq_getElem?_getD, hnone] at hcrash
    have : (0 : Nat) = x.downs + 1 := congrArg SaxPort.downs hcrash
    omega
  rw [port_congr ((linkDown_keep State.sax event_sax (fun _ _ => rfl) p s).trans (failQueue_sax ..))]
  rw [port_modPort (List.getElem?_eq_getElem hlen)]
  rw [← hcrash, port_of_getElem? (List.getElem?_eq_getElem hlen)]

/-- What else a link's going down leaves alone. -/
theorem linkDown_keep_all {β : Type} (F : State → β) (hV : ∀ c b ps k d s, F (event c b ps k d s) = F s)
    (hTw : ∀ (s : State) a, F { s with twin.downAt := a } = F s) (hM : ∀ v x n s, F (mirrorFrame v x n s) = F s)
    (hT : ∀ (s : State) l, F { s with mem.trks := l } = F s) (hA : ∀ m st s, F (answerMsg m st s) = F s)
    (hP : ∀ p f s, F (modPort p f s) = F s) (hD : ∀ b p f s, F (modD b p f s) = F s)
    (hG : ∀ (s : State) l, F { s with dir.agents := l } = F s) (p : Nat) (s : State) : F (linkDown p s) = F s := by
  rw [linkDown_keep F hV hTw, failQueue_keep F hM hT hA, hP, hD, crashPort, crashAgents_keep F hP, hG, rateChange_keep F hV, hP]

theorem linkDown_agents (p : Nat) (s : State) : (linkDown p s).dir.agents =
    modWhere (fun g => g.tray == false && g.port == p) (fun g => { g with crashed := true }) s.dir.agents := by
  have hrate : (rateChange false p (modPort p downPort) s).dir = s.dir := rateChange_keep State.dir event_dir ..
  rw [linkDown_keep State.dir event_dir (fun _ _ => rfl), failQueue_keep State.dir mirrorFrame_dir (fun _ _ => rfl) answerMsg_dir, modPort_dir,
    modD_dir, crashPort, crashAgents_keep State.dir modPort_dir]
  simp only [hrate]

/-- What LINK_DOWN comes to, as the links' obligations say it. -/
theorem exists_linkDown (hx : s.sax[p]? = some x) {o : Host.Outcome State Fault Refusal} (ho : o = .next (settle s (linkDown p s))) :
    ∃ t, o = .next t ∧ (t.port p).st = .detect ∧ (t.port p).peer = none ∧ (t.port p).admitted = false ∧
      (t.port p).caching = false ∧ (t.port p).sess = {} ∧ (t.port p).replay = [] ∧ (t.port p).replaying = [] ∧ (t.port p).rx = [] ∧
      (t.port p).tx = [] ∧ (t.port p).going = [] ∧ (t.port p).cred = List.replicate 7 0 ∧ (t.port p).downs = x.downs + 1 ∧
      t.dir.agents = modWhere (fun g => g.tray == false && g.port == p) (fun g => { g with crashed := true }) s.dir.agents ∧
      t.chains = s.chains ∧ t.maps = s.maps ∧ t.ten = s.ten := by
  have hport := (port_settle s _ p).trans (port_linkDown hx)
  refine ⟨_, ho, ?_⟩
  rw [hport, settle_dir, settle_chains, settle_maps, settle_ten]
  refine ⟨rfl, rfl, rfl, rfl, rfl, rfl, rfl, rfl, rfl, rfl, rfl, rfl, linkDown_agents p s, ?_, ?_, ?_⟩
  · exact linkDown_keep_all State.chains event_chains (fun _ _ => rfl) mirrorFrame_chains (fun _ _ => rfl) answerMsg_chains modPort_chains
      modD_chains (fun _ _ => rfl) p s
  · exact linkDown_keep_all State.maps event_maps (fun _ _ => rfl) mirrorFrame_maps (fun _ _ => rfl) answerMsg_maps modPort_maps
      modD_maps (fun _ _ => rfl) p s
  · exact linkDown_keep_all State.ten event_ten (fun _ _ => rfl) mirrorFrame_ten (fun _ _ => rfl) answerMsg_ten modPort_ten
      modD_ten (fun _ _ => rfl) p s

theorem failQueue_message {f : Frame} {m : PktMsg} (hg : (s.port p).going = []) (hq : (s.dport false p).q = [f]) (hf : f.out = .pkt .msg m)
    (hopc : m.opc = 1 ∨ m.opc = 2 ∨ m.opc = 4 ∨ m.opc = 6) (htrk : (msgTrk s m.src m.txn).elim true (·.own.isNone) = true) :
    failQueue p s = answerMsg m .noAccess (modPort p (fun x => { x with going := [] }) (modD false p (fun d => { d with
      q := [], visit := none, gone := (d.gone ++ (d.q.filter (·.svc < 8)).map fun f => (f.svc, f.sub)).eraseDups }) s)) := by
  have hopc' : (decide (m.opc = 1) || decide (m.opc = 2) || decide (m.opc = 4) || decide (m.opc = 6)) = true := by simpa [or_assoc] using hopc
  unfold failQueue
  simp only [hg, hq, List.map_nil, List.map_cons, hf, List.nil_append, List.filterMap_cons, List.filterMap_nil, hopc', if_true, List.foldl_cons,
    List.foldl_nil]
  generalize hu : modPort p (fun x => { x with going := [] }) (modD false p _ s) = u
  have hmsg : msgTrk u m.src m.txn = msgTrk s m.src m.txn := by rw [← hu]; rfl
  rw [hmsg]
  cases hk : msgTrk s m.src m.txn with
  | none => rfl
  | some k =>
    rw [hk, Option.elim_some] at htrk
    have hown : k.own.isSome = false := by simpa using htrk
    simp only [hown, Bool.false_eq_true, if_false]

/-! ## Lanes, retrains and timeouts (R339, R347, R446) -/

/-- A port one of whose lanes has left it (R446): it retrains on the others, and a port of one lane keeps it. -/
def laneLess (l : Nat) (x : SaxPort) : SaxPort :=
  { x with st := .retrain, lanes := if x.lanes.length ≤ 1 then x.lanes else x.lanes.erase l, retrains := x.retrains + 1 }

theorem laneOut_up {l : Nat} (hx : s.sax[p]? = some x) (hup : x.st = .up) (hl : x.lanes.contains l = true) :
    (laneOut p l s).port p = laneLess l x ∧ (laneOut p l s).mem = s.mem ∧ (laneOut p l s).dsax = s.dsax := by
  have hout : laneOut p l s = eventMO 0x0031 x.owner [p, l] (rateChange false p (modPort p (laneLess l)) s) := by
    simp only [laneOut, port_of_getElem? hx, hup, hl, BEq.rfl, Bool.and_self, if_true]
    rfl
  rw [hout]
  refine ⟨(port_eventMO ..).trans (port_rateChange hx ..), ?_, ?_⟩
  · exact (event_mem ..).trans (rateChange_keep State.mem event_mem ..)
  · exact (event_dsax ..).trans (rateChange_keep State.dsax event_dsax ..)

theorem lockLoss_alive (h : linkAlive s p = true) : lockLoss p s = linkDown p s := by simp only [lockLoss, h, if_true]
theorem lccShutdown_alive (h : linkAlive s p = true) : lccShutdown p s = linkDown p s := by simp only [lccShutdown, h, if_true]

theorem adaptationWindow_good {l c r b : Nat} (hc : c * 10000 ≤ r) (hb : b < 4) :
    adaptationWindow p l c r b s = modPort p (fun x => { x with corrected := x.corrected + c }) s := by
  simp only [adaptationWindow, Nat.not_lt.2 hc, Nat.not_le.2 hb, decide_false, Bool.or_self, Bool.false_eq_true, if_false]

theorem adaptationWindow_bad {l c r b : Nat} (hbad : r < c * 10000 ∨ 4 ≤ b) :
    adaptationWindow p l c r b s = laneOut p l (modPort p (fun x => { x with corrected := x.corrected + c }) s) := by
  have h : (decide (c * 10000 > r) || decide (b ≥ 4)) = true := by simpa using hbad
  simp only [adaptationWindow, h, if_true]

theorem retrainDone_good (hr : (s.port p).st = .retrain) : retrainDone p true s =
    openHandshake p (modPort p (fun x => { x with st := .up, replaying := x.replay, nakRuns := 0, ackAt := s.t }) s) := by
  simp only [retrainDone, hr, BEq.rfl, if_true]

theorem retrainDone_failed (hr : (s.port p).st = .retrain) : retrainDone p false s = linkDown p s := by
  simp only [retrainDone, hr, BEq.rfl, if_true, Bool.false_eq_true, if_false]

theorem ackStall_due (hup : (s.port p).st = .up) (hne : (s.port p).replay ≠ []) (h : (s.port p).ackAt + 20000 ≤ s.t ∨ 8 ≤ (s.port p).nakRuns) :
    ackStall p s = modPort p (fun x => { x with st := .retrain, retrains := x.retrains + 1 }) s := by
  have hne' : (s.port p).replay.isEmpty = false := by simpa using hne
  have h' : (decide ((s.port p).ackAt + 20000 ≤ s.t) || decide (8 ≤ (s.port p).nakRuns)) = true := by simpa using h
  simp only [ackStall, hup, hne', h', BEq.rfl, Bool.not_false, Bool.and_self, if_true]

theorem handshakeTimeout_due (hup : (s.port p).st = .up) (hph : (s.port p).sess.phase ≠ 3)
    (ht : (s.port p).sess.startAt + 1000000000 ≤ s.t) : handshakeTimeout p s =
    modPort p (fun x => { x with st := .retrain, retrains := x.retrains + 1, sess := { startAt := s.t } }) s := by
  have hph' : ((s.port p).sess.phase != 3) = true := by simpa using hph
  rw [handshakeTimeout, hup, hph', decide_eq_true ht]
  rfl

theorem heartbeatTimeout_due (ht : (s.port p).alive + 1000000 ≤ s.t) : heartbeatTimeout p s = crashPort false p s := by
  simp only [heartbeatTimeout, ht, if_true]

/-- The peer of a port whose agent still stood is no longer admitted once it has crashed (R308). -/
theorem admitted_crashPort {g : Agent} (hg : g ∈ s.dir.agents) (htray : g.tray = false) (hp : g.port = p) (hc : g.crashed = false)
    (hl : g.leaving = false) : ((crashPort false p s).port p).admitted = false := by
  have hany : (s.dir.agents.filter fun g => (g.tray == false && g.port == p) && !g.tray && !g.crashed && !g.leaving).any (·.port == p) = true :=
    List.any_eq_true.2 ⟨g, List.mem_filter.2 ⟨hg, by simp [htray, hp, hc, hl]⟩, by simp [hp]⟩
  rw [crashPort, port_crashAgents, if_pos hany]
  rfl

end

/-- Settles O30. -/
theorem linksGoDownAndRetrain : Obligations.LinksGoDownAndRetrain := by
  refine ⟨?_, ?_, ?_, ?_, ?_, ?_, ?_, ?_, ?_, ?_, ?_, ?_⟩
  · exact fun p x s hx h => exists_linkDown hx (congrArg (fun t => Host.Outcome.next (settle s t)) (lockLoss_alive h))
  · exact fun p x s hx h => exists_linkDown hx (congrArg (fun t => Host.Outcome.next (settle s t)) (lccShutdown_alive h))
  · intro p l x s hx hup hl
    obtain ⟨hport, hmem, hdsax⟩ := laneOut_up hx hup hl
    have hport' := (port_settle s _ p).trans hport
    refine ⟨_, rfl, ?_⟩
    rw [show (settle s (laneOut p l s)).port p = _ from hport', settle_mem, settle_dsax]
    exact ⟨rfl, rfl, rfl, rfl, rfl, hmem, hdsax⟩
  · exact fun p l c r b s hc hb => congrArg (fun t => Host.Outcome.next (settle s t)) (adaptationWindow_good hc hb)
  · intro p l c r b x s hbad hx hup hl
    have harm : exec (.adaptationWindow p l c r b) s = .next (settle s (adaptationWindow p l c r b s)) := rfl
    obtain ⟨hport, hmem, hdsax⟩ := laneOut_up (l := l) (getElem?_modPort hx fun x => { x with corrected := x.corrected + c }) hup hl
    rw [harm, adaptationWindow_bad hbad]
    refine ⟨_, rfl, ?_⟩
    rw [port_settle, hport, settle_mem, settle_dsax]
    exact ⟨rfl, rfl, rfl, rfl, rfl, hmem, hdsax⟩
  · exact fun p s hr => congrArg (fun t => Host.Outcome.next (settle s t)) (retrainDone_good hr)
  · intro p x s hx hr
    have harm : exec (.retrainDone p true) s = .next (settle s (retrainDone p true s)) := rfl
    have hport := port_modPort hx fun x => { x with st := .up, replaying := x.replay, nakRuns := 0, ackAt := s.t }
    rw [harm, retrainDone_good ((congrArg SaxPort.st (port_of_getElem? hx)).trans hr)]
    refine ⟨_, rfl, ?_, ?_, ?_, ?_, ?_⟩
    · rw [port_settle, port_openHandshake SaxPort.st (fun _ _ => rfl), hport]
    · rw [port_settle, port_openHandshake SaxPort.replaying (fun _ _ => rfl), hport]
    · rw [port_settle, port_openHandshake SaxPort.lanes (fun _ _ => rfl), hport]
    · rw [port_settle, port_openHandshake SaxPort.ackAt (fun _ _ => rfl), hport]
    · rw [settle_mem, openHandshake_keep State.mem enqueue_mem modPort_mem, modPort_mem]
  · exact fun p x s hx hr => exists_linkDown hx (congrArg (fun t => Host.Outcome.next (settle s t))
      (retrainDone_failed ((congrArg SaxPort.st (port_of_getElem? hx)).trans hr)))
  · exact fun p s hup hne h => congrArg (fun t => Host.Outcome.next (settle s t)) (ackStall_due hup hne h)
  · exact fun p s hup hph ht => congrArg (fun t => Host.Outcome.next (settle s t)) (handshakeTimeout_due hup hph ht)
  · intro p s ht
    have harm : exec (.heartbeatTimeout p) s = .next (settle s (heartbeatTimeout p s)) := rfl
    rw [harm, heartbeatTimeout_due ht]
    refine ⟨_, rfl, ?_, ?_, ?_, ?_, ?_, ?_⟩
    · rw [settle_dir, crashPort, crashAgents_keep State.dir modPort_dir]
    · exact fun g hg htray hp hc hl => (congrArg SaxPort.admitted (port_settle ..)).trans (admitted_crashPort hg htray hp hc hl)
    · rw [port_settle, port_crashPort_keep SaxPort.st fun _ => rfl]
    · rw [settle_chains, crashPort, crashAgents_keep State.chains modPort_chains]
    · rw [settle_maps, crashPort, crashAgents_keep State.maps modPort_maps]
    · rw [settle_mem, crashPort, crashAgents_keep State.mem modPort_mem]
  · exact fun p f m s hg hq hf hopc htrk => failQueue_message hg hq hf hopc htrk

end Sys2Proof.Machine
end

section
/-! PROOFS. Saxel links: flits, sessions and the port commands (R252, R335 to R338, R347 to R349, R408). -/

namespace Sys2Proof.Machine

section
variable {s : State} {p : Nat} {x : SaxPort}

/-! ## FLIT_SEND (R335, R338, R348) -/

theorem port_count (o : Option Nat) (f : Tele → Tele) (s : State) (p : Nat) : (count o f s).port p = s.port p := port_congr (count_sax ..) p

/-- The slots of a flit: 14 once the session encrypts what this side sends (R348), 15 before. -/
def flitRoom (x : SaxPort) : Nat := if x.sess.phase = 3 ∧ x.sess.finTx = false then 14 else 15

theorem flitRoom_eq (x : SaxPort) : (if x.sess.phase == 3 && !x.sess.finTx then 14 else 15) = flitRoom x := by
  by_cases h : x.sess.phase = 3 <;> cases hf : x.sess.finTx <;> simp [flitRoom, h, hf]

theorem exists_flitSend_payload (hx : s.sax[p]? = some x) (hup : x.st = .up) (he : s.power.emergency = false) (hr : x.replaying = [])
    (hs : x.stepping = false) (hsch : x.sch = none) (htx : x.tx ≠ []) (hlen : x.replay.length < 512) :
    ∃ (g : SaxPort → SaxPort) (f : Tele → Tele), flitSend p s = count x.owner f (modPort p g s) ∧ (g x).tx = x.tx.drop (flitRoom x) ∧
      (g x).sess.txCount = x.sess.txCount + b2n (x.sess.phase == 3 && !x.sess.finTx) ∧ (g x).txSeq = (x.txSeq + 1) % 4096 ∧
      (g x).replay.length = x.replay.length + 1 ∧ (g x).flits = x.flits + 1 ∧ (g x).rx = x.rx ∧ (g x).cred = x.cred := by
  have hpay : (!x.tx.isEmpty && decide (x.replay.length < 512)) = true := by simpa [hlen] using htx
  have hstamp : stampSch p s = s := by simp only [stampSch, port_of_getElem? hx, hsch]
  simp only [flitSend, port_of_getElem? hx, hup, hs, he, hr, hpay, hstamp, flitRoom_eq, bne_self_eq_false, Bool.or_self, Bool.false_eq_true,
    if_false, if_true]
  exact ⟨_, _, rfl, rfl, rfl, rfl, List.length_append, rfl, rfl, rfl⟩

theorem exists_flitSend_idle (hx : s.sax[p]? = some x) (hup : x.st = .up) (he : s.power.emergency = false) (hr : x.replaying = [])
    (hs : x.stepping = false) (hidle : x.tx = [] ∨ 512 ≤ x.replay.length) :
    ∃ g : SaxPort → SaxPort, flitSend p s = modPort p g s ∧ (g x).tx = x.tx ∧ (g x).txSeq = x.txSeq ∧ (g x).out.isSome = true ∧
      (g x).replay = x.replay ∧ (g x).flits = x.flits ∧ (g x).sess.txCount = x.sess.txCount + b2n (x.sess.phase == 3 && !x.sess.finTx) := by
  have hpay : (!x.tx.isEmpty && decide (x.replay.length < 512)) = false := by
    rcases hidle with h | h
    · rw [h]; rfl
    · rw [decide_eq_false (Nat.not_lt.2 h), Bool.and_false]
  simp only [flitSend, port_of_getElem? hx, hup, hs, he, hr, hpay, bne_self_eq_false, Bool.or_self, Bool.false_eq_true, if_false]
  exact ⟨_, rfl, rfl, rfl, rfl, rfl, rfl, rfl⟩

theorem flitSend_replay {f : TxFlit} {r : List TxFlit} (hx : s.sax[p]? = some x) (hup : x.st = .up) (he : s.power.emergency = false)
    (hr : x.replaying = f :: r) (hs : x.stepping = false) : flitSend p s = count x.owner (fun c => { c with bytesOut := c.bytesOut + 256 })
      (modPort p (fun x => { x with replaying := r, out := some f.flit }) s) := by
  simp only [flitSend, port_of_getElem? hx, hup, hs, he, hr, bne_self_eq_false, Bool.or_self, Bool.false_eq_true, if_false]

end

/-- Settles O31. -/
theorem flitSendActs : Obligations.FlitSendActs := by
  refine ⟨?_, ?_, ?_⟩
  · intro p x s hx hup he hr hs hsch htx hlen
    have harm : exec (.flitSend p) s = .next (settle s (flitSend p s)) := rfl
    obtain ⟨g, f, hsend, hgtx, hcount, hseq, hrep, hflits, hrx, hcred⟩ := exists_flitSend_payload hx hup he hr hs hsch htx hlen
    rw [harm, hsend]
    refine ⟨_, rfl, ?_⟩
    rw [port_settle, port_count, port_modPort hx, settle_mem, settle_dsax]
    exact ⟨hgtx, hcount, hseq, hrep, hflits, hrx, hcred, rfl, rfl⟩
  · intro p x s hx hup he hr hs hidle
    have harm : exec (.flitSend p) s = .next (settle s (flitSend p s)) := rfl
    obtain ⟨g, hsend, hgtx, hseq, hout, hrep, hflits, hcount⟩ := exists_flitSend_idle hx hup he hr hs hidle
    rw [harm, hsend]
    refine ⟨_, rfl, ?_⟩
    rw [port_settle, port_modPort hx, settle_mem, settle_dsax]
    exact ⟨hgtx, hseq, hout, hrep, hflits, hcount, rfl, rfl⟩
  · intro p x f r s hx hup he hr hs
    have harm : exec (.flitSend p) s = .next (settle s (flitSend p s)) := rfl
    rw [harm, flitSend_replay hx hup he hr hs]
    refine ⟨_, rfl, ?_⟩
    rw [port_settle, port_count, port_modPort hx, settle_mem, settle_dsax]
    exact ⟨rfl, rfl, rfl, rfl, rfl, rfl, rfl⟩

section
variable {s : State} {p : Nat} {x : SaxPort} {f : Flit}

/-! ## FLIT_RECEIVE (R336, R338) -/

theorem getElem?_startReplay (hx : s.sax[p]? = some x) (a : Nat) : ∃ y, (startReplay p a s).sax[p]? = some y ∧ y.rx = x.rx ∧
    y.rxSeq = x.rxSeq ∧ y.sess = x.sess ∧ y.tx = x.tx ∧ y.owner = x.owner :=
  ⟨_, getElem?_modPort hx _, rfl, rfl, rfl, rfl, rfl⟩

/-- A header acts on what the port has sent and on its credits, not on what it has received (R336). -/
theorem exists_actHeader (hx : s.sax[p]? = some x) (hdr : Nat) : ∃ y, (actHeader p hdr s).sax[p]? = some y ∧ y.rx = x.rx ∧
    y.rxSeq = x.rxSeq ∧ y.sess = x.sess ∧ y.tx = x.tx ∧ y.owner = x.owner ∧ (actHeader p hdr s).mem = s.mem ∧
    (actHeader p hdr s).dsax = s.dsax := by
  unfold actHeader
  extract_lets t ack s1 pt
  have h1 : s1.sax[p]? = some _ := getElem?_modPort hx _
  split
  · obtain ⟨y, hy, hrx, hseq, hsess, htx, hown⟩ := getElem?_startReplay h1 ack
    exact ⟨y, hy, hrx, hseq, hsess, htx, hown, rfl, rfl⟩
  · exact ⟨_, h1, rfl, rfl, rfl, rfl, rfl, rfl, rfl⟩

theorem flitReceive_spoilt (hup : (s.port p).st = .up) (he : s.power.emergency = false)
    (hbad : f.fecOk = false ∨ crc64 (flitBytes f.hdr f.slots) ≠ f.crc) :
    flitReceive p f s = modPort p (fun x => { x with nak := true }) s := by
  have hbad' : (!f.fecOk || decide (crc64 (flitBytes f.hdr f.slots) ≠ f.crc)) = true := by simpa using hbad
  simp only [flitReceive, hup, he, hbad', bne_self_eq_false, Bool.or_self, Bool.false_eq_true, if_false, if_true]

/-- What a flit whose CRC passes comes to once its header has acted: one out of sequence asks for a NAK. -/
theorem flitReceive_outOfSeq {y : SaxPort} (hup : (s.port p).st = .up) (he : s.power.emergency = false) (hfec : f.fecOk = true)
    (hcrc : crc64 (flitBytes f.hdr f.slots) = f.crc) (hk : bits f.hdr 10 8 = 0) (hy : (actHeader p f.hdr s).sax[p]? = some y)
    (hseq : bits f.hdr 63 52 ≠ (y.rxSeq + 1) % 4096) :
    flitReceive p f s = modPort p (fun x => { x with nak := true }) (actHeader p f.hdr s) := by
  simp only [flitReceive, hup, he, hfec, hcrc, hk, port_of_getElem? hy, hseq, bne_self_eq_false, ne_eq, not_true, not_false_eq_true,
    Bool.not_true, decide_false, decide_true, Bool.and_self, Bool.or_self, Bool.false_eq_true, if_false, if_true, gt_iff_lt, Nat.not_lt_zero]

theorem flitReceive_plain {y : SaxPort} (hup : (s.port p).st = .up) (he : s.power.emergency = false) (hfec : f.fecOk = true)
    (hcrc : crc64 (flitBytes f.hdr f.slots) = f.crc) (hk : bits f.hdr 10 8 = 0) (hy : (actHeader p f.hdr s).sax[p]? = some y)
    (hseq : bits f.hdr 63 52 = (y.rxSeq + 1) % 4096) (hclear : bit f.hdr 7 = false) (henc : y.sess.rxEnc = false) :
    flitReceive p f s = count y.owner (fun c => { c with bytesIn := c.bytesIn + 256 })
      (modPort p (fun x => { x with rxSeq := bits f.hdr 63 52, nak := false, rx := x.rx ++ f.slots }) (actHeader p f.hdr s)) := by
  have hopen : openFlit y.sess f = some f.slots := by
    simp only [openFlit, hclear, henc, Bool.false_eq_true, if_false]
  simp only [flitReceive, hup, he, hfec, hcrc, hk, port_of_getElem? hy, ← hseq, hopen, hclear, bne_self_eq_false, ne_eq, not_true,
    Bool.not_true, decide_false, Bool.and_false, Bool.or_self, Bool.false_eq_true, if_false, gt_iff_lt, Nat.not_lt_zero]
  rfl

end

/-- Settles O32. -/
theorem flitReceiveActs : Obligations.FlitReceiveActs := by
  refine ⟨?_, ?_, ?_⟩
  · exact fun p f s hup he hbad => congrArg (fun t => Host.Outcome.next (settle s t)) (flitReceive_spoilt hup he hbad)
  · intro p f x s hx hup he hfec hcrc hk hseq hclear henc
    have harm : exec (.flitReceive p f) s = .next (settle s (flitReceive p f s)) := rfl
    obtain ⟨y, hy, hrx, hyseq, hsess, htx, -, hmem, hdsax⟩ := exists_actHeader hx f.hdr
    have hup' : (s.port p).st = .up := by rw [port_of_getElem? hx, hup]
    rw [harm, flitReceive_plain hup' he hfec hcrc hk hy (by rw [hyseq, hseq]) hclear (by rw [hsess, henc])]
    refine ⟨_, rfl, ?_⟩
    rw [port_settle, port_count, port_modPort hy, settle_mem, settle_dsax]
    refine ⟨?_, rfl, rfl, htx, hmem, hdsax⟩
    rw [← hrx]
  · intro p f x s hx hup he hfec hcrc hk hseq
    have harm : exec (.flitReceive p f) s = .next (settle s (flitReceive p f s)) := rfl
    obtain ⟨y, hy, hrx, hyseq, -, -, -, hmem, -⟩ := exists_actHeader hx f.hdr
    have hup' : (s.port p).st = .up := by rw [port_of_getElem? hx, hup]
    rw [harm, flitReceive_outOfSeq hup' he hfec hcrc hk hy (by rw [hyseq]; exact hseq)]
    refine ⟨_, rfl, ?_⟩
    rw [port_settle, port_modPort hy, settle_mem]
    exact ⟨hrx, hyseq, rfl, hmem⟩

section
variable {s u : State} {p h ep raw : Nat} {b : Bool} {x : SaxPort} {m : SpdmMsg}

/-! ## Sessions (R338, R347 to R349) -/

theorem replayTimeout_due {a : Nat} (hn : (s.port p).lastNak = some a) (hup : (s.port p).st = .up) (hr : (s.port p).replay ≠ [])
    (ha : (s.port p).txAck = a) (ht : (s.port p).nakAt + 2000 ≤ s.t) : replayTimeout p s = startReplay p a s := by
  have hr' : (s.port p).replay.isEmpty = false := by simpa using hr
  simp only [replayTimeout, hn, hup, hr', ha, ht, BEq.rfl, Bool.not_false, decide_true, Bool.and_self, if_true]

theorem police_passed_keep {β : Type} (F : State → β) (hF : ∀ p ep raw b s, F (police p ep raw b s).2.2 = F s)
    (hp : police p ep raw b s = (true, h, u)) : F u = F s := by
  have := hF p ep raw b s
  rwa [hp] at this

theorem spdm_passed (hup : (s.port p).st = .up) (hp : police p (peerId s p) (rawSpdm s p) true s = (true, h, u)) :
    spdm p m s = spdmTake p m u := by
  simp only [spdm, hup, hp, bne_self_eq_false, Bool.false_eq_true, if_false]

/-- What the policer has let pass meets the port as it was. -/
theorem getElem?_passed (hx : s.sax[p]? = some x) (hp : police p ep raw b s = (true, h, u)) : u.sax[p]? = some x :=
  (congrArg (fun l : List SaxPort => l[p]?) (police_passed_keep State.sax police_sax hp)).trans hx

theorem port_sendSpdm (p txn : Nat) (b : Bytes) (s : State) (q : Nat) : (sendSpdm p txn b s).port q = s.port q :=
  port_congr (enqueue_sax ..) q

theorem endSession_port (hx : s.sax[p]? = some x) : ((endSession p s).port p).sess = { startAt := s.t } ∧
    ((endSession p s).port p).admitted = false ∧ ((endSession p s).port p).st = x.st ∧ (endSession p s).mem = s.mem := by
  have hport := port_modPort hx fun x => { x with sess := { startAt := s.t }, admitted := false, caching := false }
  refine ⟨?_, ?_, ?_, crashAgents_keep State.mem modPort_mem ..⟩
  · rw [endSession, port_crashPort_keep SaxPort.sess fun _ => rfl, hport]
  · rw [endSession, crashPort, port_crashAgents, hport]
    split <;> rfl
  · rw [endSession, port_crashPort_keep SaxPort.st fun _ => rfl, hport]

theorem spdmTake_negotiate (hx : u.sax[p]? = some x) (hph : x.sess.phase ≤ 1) : ∃ a, spdmTake p .negotiate u =
    sendSpdm p 0 [] (modPort p (fun x => { x with sess := { x.sess with phase := 1, reqAt := a } }) u) := by
  have hph' : (decide (x.sess.phase = 0) || decide (x.sess.phase = 1)) = true := by simp; omega
  simp only [spdmTake, port_of_getElem? hx, hph', if_true]
  exact ⟨_, rfl⟩

theorem spdmTake_keyExchange (hx : u.sax[p]? = some x) (hph : x.sess.phase = 1) (ho : x.owner.elim (sysShare u) (inWindow u) = true)
    (htr : u.power.trngFail = false) (hid : u.power.noIdentity = false) : ∃ a, spdmTake p .keyExchange u =
    sendSpdm p 0 [] (modPort p (fun x => { x with sess := { x.sess with phase := 2, reqAt := a } }) u) := by
  simp only [spdmTake, port_of_getElem? hx, hph, ho, htr, hid, decide_true, Bool.and_true, Bool.and_false, Bool.false_eq_true, if_false, if_true]
  exact ⟨_, rfl⟩

/-- The hello touches what the module remembers of it alone. -/
theorem port_sendHello {β : Type} (F : SaxPort → β) (hF : ∀ x a t, F { x with helloSent := a, helloAt := t } = F x) (p q : Nat) (s : State) :
    F ((sendHello p s).port q) = F (s.port q) := by
  unfold sendHello
  split
  · rfl
  · rw [port_congr (enqueue_sax ..)]
    exact port_modPort_keep F (by intro; exact hF ..) _ _ _

theorem sendHello_keep {β : Type} (F : State → β) (hE : ∀ b p v ep o s, F (enqueue b p v ep o s) = F s) (hP : ∀ p f s, F (modPort p f s) = F s)
    (p : Nat) (s : State) : F (sendHello p s) = F s := by
  unfold sendHello
  split
  · rfl
  · exact (hE ..).trans (hP ..)

/-- A session that stands: its keys are drawn, and a peer between modules is admitted (R347, R349). -/
structure Established (x y : SaxPort) (s t : State) : Prop where
  phase : y.sess.phase = 3
  admitted : y.admitted = (x.kind == 1 || x.kind == 2)
  txCount : y.sess.txCount = 0
  rxCount : y.sess.rxCount = 0
  draws : t.power.draws = s.power.draws + 1
  keys : t.ten.nextKey = s.ten.nextKey + 2
  mem : t.mem = s.mem

theorem spdmTake_finish (hx : u.sax[p]? = some x) (hph : x.sess.phase = 2) (ho : x.owner.elim (sysShare u) (inWindow u) = true) :
    Established x ((spdmTake p (.finish true) u).port p) u (spdmTake p (.finish true) u) := by
  have key : ∀ (k1 k2 : Nat) (th : Bytes) (fin : Bool) (v : State), v.sax = u.sax → v.mem = u.mem →
      v.power.draws = u.power.draws + 1 → v.ten.nextKey = u.ten.nextKey + 2 →
      let w := modPort p (fun x => { x with
        admitted := x.kind == 1 || x.kind == 2, alive := u.t,
        sess := { x.sess with phase := 3, reqAt := none, txKey := k1, rxKey := k2, keyAt := u.t, txCount := 0,
                              rxCount := 0, th := th, finTx := fin } }) v
      let t := if carriesHello w p then sendHello p w else w
      Established x (t.port p) u t := by
    intro k1 k2 th fin v hsax hmem hdraws hkeys w t
    have hport : w.port p = _ := port_modPort ((congrArg (fun l : List SaxPort => l[p]?) hsax).trans hx) _
    by_cases hc : carriesHello w p = true
    · rw [show t = sendHello p w from if_pos hc]
      refine ⟨?_, ?_, ?_, ?_, ?_, ?_, ?_⟩
      · rw [port_sendHello (fun x => x.sess.phase) (fun _ _ _ => rfl), hport]
      · rw [port_sendHello SaxPort.admitted (fun _ _ _ => rfl), hport]
      · rw [port_sendHello (fun x => x.sess.txCount) (fun _ _ _ => rfl), hport]
      · rw [port_sendHello (fun x => x.sess.rxCount) (fun _ _ _ => rfl), hport]
      · rw [sendHello_keep State.power enqueue_power modPort_power]; exact hdraws
      · rw [sendHello_keep State.ten enqueue_ten modPort_ten]; exact hkeys
      · rw [sendHello_keep State.mem enqueue_mem modPort_mem]; exact hmem
    · rw [show t = w from if_neg hc]
      refine ⟨?_, ?_, ?_, ?_, hdraws, hkeys, hmem⟩ <;> rw [hport]
  simp only [spdmTake, port_of_getElem? hx, hph, ho, decide_true, Bool.and_self, if_true]
  refine key _ _ _ _ _ ?_ ?_ ?_ ?_
  · split
    · rfl
    · exact sendSpdm_keep State.sax enqueue_sax ..
  · split
    · rfl
    · exact sendSpdm_keep State.mem enqueue_mem ..
  · split
    · rfl
    · exact congrArg Power.draws (sendSpdm_keep State.power enqueue_power ..)
  · split
    · rfl
    · exact congrArg Tenancy.nextKey (sendSpdm_keep State.ten enqueue_ten ..)

theorem spdmTake_endSession : spdmTake p .endSession u = endSession p u := rfl

theorem spdmTake_keyUpdateAck (hx : u.sax[p]? = some x) (hph : x.sess.phase = 3) (hup : x.sess.updating = true) (htr : u.power.trngFail = false) :
    spdmTake p .keyUpdateAck u = modPort p (fun x => { x with sess := { x.sess with
      updating := false, reqAt := none, txPhase := !x.sess.txPhase, txKey := u.ten.nextKey, txCount := 0, keyAt := u.t } }) (drawKey u).2 := by
  simp only [spdmTake, port_of_getElem? hx, hph, hup, htr, decide_true, Bool.not_false, Bool.and_self, if_true]
  rfl

theorem spdmTake_keyUpdate (hx : u.sax[p]? = some x) (hph : x.sess.phase = 3) (htr : u.power.trngFail = false) :
    spdmTake p .keyUpdate u = sendSpdm p 0 [] (modPort p (fun x => { x with sess := { x.sess with rxNext := some u.ten.nextKey } }) (drawKey u).2) := by
  simp only [spdmTake, port_of_getElem? hx, hph, htr, Bool.and_false, Bool.false_eq_true, if_false, if_true]
  rfl

theorem spdmTimeout_due {a : Nat} (ha : (s.port p).sess.reqAt = some a) (ht : a + 100000000 ≤ s.t) : spdmTimeout p s = endSession p s := by
  simp only [spdmTimeout, ha, ht, if_true]

theorem keyUpdateStart_due (hx : s.sax[p]? = some x) (hph : x.sess.phase = 3) (hup : x.sess.updating = false) (htr : s.power.trngFail = false)
    (hage : 2 ^ 31 ≤ x.sess.txCount ∨ x.sess.keyAt + 60000000000 ≤ s.t) : keyUpdateStart p s =
    sendSpdm p 0 [] (modPort p (fun x => { x with sess := { x.sess with updating := true, reqAt := some s.t } }) s) := by
  have hage' : (decide (2 ^ 31 ≤ x.sess.txCount) || decide (x.sess.keyAt + 60000000000 ≤ s.t)) = true := by
    rwa [Bool.or_eq_true, decide_eq_true_eq, decide_eq_true_eq]
  simp only [keyUpdateStart, port_of_getElem? hx, hph, hup, htr, hage', decide_true, Bool.not_false, Bool.and_self, if_true]

theorem helloTimer_due (hc : carriesHello s p = true) (ht : (s.port p).helloAt + 1000000000 ≤ s.t) : helloTimer p s = sendHello p s := by
  rw [helloTimer, hc, decide_eq_true ht, Bool.or_true, Bool.and_self, if_pos rfl]

/-! ## Port commands (R408, R491) -/

variable {j : Job}

theorem exists_portStatus_sax (htr : fldLE j.payload 1 1 = 0)
    (hown : (mbxTenant j.mbx).isNone = true ∨ (s.port (fldLE j.payload 0 1)).owner = mbxTenant j.mbx) :
    ∃ b : Bytes, portStatus j s = (.done .ok 0 b, s) ∧ b.length = 32 := by
  have hacc : ((mbxTenant j.mbx).isSome && (s.port (fldLE j.payload 0 1)).owner != mbxTenant j.mbx) = false := by
    rcases hown with h | h
    · rw [Option.isNone_iff_eq_none.1 h]; rfl
    · rw [h, bne_self_eq_false, Bool.and_false]
  simp only [portStatus, htr, hacc, gt_iff_lt, Nat.not_lt_zero, Nat.zero_ne_one, decide_false, Bool.false_and, Bool.or_self, Bool.false_eq_true,
    if_false, if_true]
  refine ⟨_, rfl, ?_⟩
  simp only [List.length_append, length_toLE, List.length_cons, List.length_nil]

theorem exists_portStatus_tray (htr : fldLE j.payload 1 1 = 1) (hp : fldLE j.payload 0 1 ≤ 31) (hown : (mbxTenant j.mbx).isNone = true) :
    ∃ b : Bytes, portStatus j s = (.done .ok 0 b, s) ∧ b.length = 32 := by
  have hten : (mbxTenant j.mbx).isSome = false := by rw [Option.isNone_iff_eq_none.1 hown]; rfl
  simp only [portStatus, htr, hten, gt_iff_lt, Nat.not_lt.2 hp, Nat.lt_irrefl, Nat.one_ne_zero, decide_false, Bool.and_false, Bool.false_and,
    Bool.or_self, Bool.false_eq_true, if_false]
  refine ⟨_, rfl, ?_⟩
  simp only [List.length_append, length_toLE, List.length_cons, List.length_nil]

theorem portRetrain_sax (htr : fldLE j.payload 1 1 = 0) : portRetrain j s = (.ok, modPort (fldLE j.payload 0 1)
    (fun x => if x.st == .up then { x with st := .retrain, retrains := x.retrains + 1 } else x) s) := by
  simp only [portRetrain, htr, gt_iff_lt, Nat.not_lt_zero, Nat.zero_ne_one, decide_false, Bool.false_and, Bool.or_self, Bool.false_eq_true,
    if_false]

theorem portRetrain_tray (htr : fldLE j.payload 1 1 = 1) (hp : fldLE j.payload 0 1 ≤ 31) : portRetrain j s = (.ok, modTray (fldLE j.payload 0 1)
    (fun x => if x.up then { x with retrains := x.retrains + 1 } else x) s) := by
  simp only [portRetrain, htr, gt_iff_lt, Nat.not_lt.2 hp, Nat.lt_irrefl, decide_false, Bool.and_false, Bool.or_self, Bool.false_eq_true, if_false,
    if_true]

end

/-- Settles O33. -/
theorem sessionsAct : Obligations.SessionsAct := by
  refine ⟨?_, ?_, ?_, ?_, ?_, ?_, ?_, ?_, ?_, ?_, ?_, ?_, ?_, ?_, ?_, ?_⟩
  · exact fun p a s hn hup hr ha ht => congrArg (fun t => Host.Outcome.next (settle s t)) (replayTimeout_due hn hup hr ha ht)
  · intro p h x s u hx hup hp hph
    have harm : exec (.spdm p .negotiate) s = .next (settle s (spdm p .negotiate s)) := rfl
    have hxu := getElem?_passed hx hp
    have hmem := police_passed_keep State.mem police_mem hp
    have hten := police_passed_keep State.ten police_ten hp
    obtain ⟨a, ha⟩ := spdmTake_negotiate hxu hph
    rw [harm, spdm_passed (by rw [port_of_getElem? hx, hup]) hp, ha]
    refine ⟨_, rfl, ?_⟩
    rw [port_settle, port_sendSpdm, port_modPort hxu, settle_mem, settle_ten, sendSpdm_keep State.mem enqueue_mem,
      sendSpdm_keep State.ten enqueue_ten]
    exact ⟨rfl, hup, hmem, hten⟩
  · intro p h x s u hx hup hp hph hid htr ho
    have harm : exec (.spdm p .keyExchange) s = .next (settle s (spdm p .keyExchange s)) := rfl
    have hxu := getElem?_passed hx hp
    have hmem := police_passed_keep State.mem police_mem hp
    have hpow := police_passed_keep State.power police_power hp
    obtain ⟨a, ha⟩ := spdmTake_keyExchange hxu hph ho (by rw [hpow, htr]) (by rw [hpow, hid])
    rw [harm, spdm_passed (by rw [port_of_getElem? hx, hup]) hp, ha]
    refine ⟨_, rfl, ?_⟩
    rw [port_settle, port_sendSpdm, port_modPort hxu, settle_mem, sendSpdm_keep State.mem enqueue_mem]
    exact ⟨rfl, hup, hmem⟩
  · intro p h x s u hx hup hp hph ho
    have harm : exec (.spdm p (.finish true)) s = .next (settle s (spdm p (.finish true) s)) := rfl
    obtain ⟨hphase, hadm, htx, hrx, hdraws, hkeys, hmem⟩ := spdmTake_finish (getElem?_passed hx hp) hph ho
    rw [harm, spdm_passed (by rw [port_of_getElem? hx, hup]) hp]
    refine ⟨_, rfl, ?_⟩
    rw [port_settle, settle_power, settle_ten, settle_mem]
    refine ⟨hphase, hadm, htx, hrx, ?_, ?_, hmem.trans (police_passed_keep State.mem police_mem hp)⟩
    · rw [hdraws, police_passed_keep State.power police_power hp]
    · rw [hkeys, police_passed_keep State.ten police_ten hp]
  · intro p h x s u hx hup hp
    have harm : exec (.spdm p .endSession) s = .next (settle s (spdm p .endSession s)) := rfl
    obtain ⟨hsess, hadm, hst, hmem⟩ := endSession_port (getElem?_passed hx hp)
    rw [harm, spdm_passed (by rw [port_of_getElem? hx, hup]) hp, spdmTake_endSession]
    refine ⟨_, rfl, ?_⟩
    rw [port_settle, settle_mem, hsess, hst]
    exact ⟨rfl, hadm, hup, hmem.trans (police_passed_keep State.mem police_mem hp)⟩
  · intro p h x s u hx hup hp hph hu htr
    have harm : exec (.spdm p .keyUpdateAck) s = .next (settle s (spdm p .keyUpdateAck s)) := rfl
    have hxu := getElem?_passed hx hp
    have hmem := police_passed_keep State.mem police_mem hp
    rw [harm, spdm_passed (by rw [port_of_getElem? hx, hup]) hp,
      spdmTake_keyUpdateAck hxu hph hu (by rw [police_passed_keep State.power police_power hp, htr])]
    refine ⟨_, rfl, ?_⟩
    rw [port_settle, port_modPort (s := (drawKey u).2) hxu, settle_mem]
    exact ⟨rfl, rfl, rfl, hmem⟩
  · intro p a x s hx ha ht
    have harm : exec (.spdmResponseTimeout p) s = .next (settle s (spdmTimeout p s)) := rfl
    obtain ⟨hsess, hadm, hst, hmem⟩ := endSession_port hx
    rw [harm, spdmTimeout_due (by rw [port_of_getElem? hx, ha]) ht]
    refine ⟨_, rfl, ?_⟩
    rw [port_settle, settle_mem, hsess]
    exact ⟨rfl, hadm, hst, hmem⟩
  · intro p x s hx hph hu htr hage
    have harm : exec (.keyUpdateStart p) s = .next (settle s (keyUpdateStart p s)) := rfl
    rw [harm, keyUpdateStart_due hx hph hu htr hage]
    refine ⟨_, rfl, ?_⟩
    rw [port_settle, port_sendSpdm, port_modPort hx, settle_mem, sendSpdm_keep State.mem enqueue_mem]
    exact ⟨rfl, rfl, rfl, rfl⟩
  · exact fun p s hc ht => congrArg (fun t => Host.Outcome.next (settle s t)) (helloTimer_due hc ht)
  · intro m j s h htr hown
    obtain ⟨b, hb, hlen⟩ := exists_portStatus_sax (s := startJob j s) htr (Or.inl hown)
    exact ⟨b, exec_done rfl h hb, hlen⟩
  · exact fun m j s h htr _ => ⟨_, exec_simply rfl h (portRetrain_sax (s := startJob j s) htr), rfl, rfl⟩
  · exact fun m j s h htr hp => ⟨_, exec_simply rfl h (portRetrain_tray (s := startJob j s) htr hp), rfl, rfl, rfl⟩
  · intro m j s h htr hp hown
    obtain ⟨b, hb, hlen⟩ := exists_portStatus_tray (s := startJob j s) htr hp hown
    exact ⟨b, exec_done rfl h hb, hlen⟩
  · intro p j s h hm htr hown
    obtain ⟨b, hb, hlen⟩ := exists_portStatus_sax (s := startJob j s) htr (Or.inr (hown.trans (by rw [hm]; rfl)))
    exact ⟨b, exec_done rfl h hb, hlen⟩
  · intro p h x s u hx hup hp hph htr
    have harm : exec (.spdm p .keyUpdate) s = .next (settle s (spdm p .keyUpdate s)) := rfl
    have hxu := getElem?_passed hx hp
    have hmem := police_passed_keep State.mem police_mem hp
    have hten := police_passed_keep State.ten police_ten hp
    rw [harm, spdm_passed (by rw [port_of_getElem? hx, hup]) hp,
      spdmTake_keyUpdate hxu hph (by rw [police_passed_keep State.power police_power hp, htr])]
    refine ⟨_, rfl, ?_⟩
    rw [port_settle, port_sendSpdm, port_modPort (s := (drawKey u).2) hxu, settle_mem, settle_ten, sendSpdm_keep State.mem enqueue_mem,
      sendSpdm_keep State.ten enqueue_ten]
    refine ⟨?_, rfl, hph, ?_, hmem⟩
    · rw [← hten]
    · rw [← hten]; rfl
  · exact fun p txn h s u hup hp => congrArg (fun t => Host.Outcome.next (settle s t)) (spdm_passed hup hp)

end Sys2Proof.Machine
end

section
/-! PROOFS. Requests of lines: those of accelerators, fences, placed writes, requests that waited, and what memory answers (R171 to R173,
R277 to R304). -/

namespace Sys2Proof.Machine

section
variable {s u : State} {p h : Nat} {m : LineMsg} {map : MapV} {e : Extent} {kind : ReqKind} {opc : Nat}

/-! ## What the maps decide stays while they do -/

theorem anyExtent_congr {s t : State} (h : t.maps = s.maps) (o : Nat) : anyExtent t o = anyExtent s o := by
  simp only [anyExtent, h]

theorem mapFor_congr {s t : State} (h : t.maps = s.maps) (epoch : Nat) : mapFor t epoch = mapFor s epoch := by
  simp only [mapFor, h]

theorem kind_eatLine (p q : Nat) (vc : Vc) (opc : Nat) (s : State) : ((eatLine p vc opc s).port q).kind = (s.port q).kind :=
  port_modPort_keep SaxPort.kind (by intro; rfl) p q s

theorem admitted_eatLine (p q : Nat) (vc : Vc) (opc : Nat) (s : State) : ((eatLine p vc opc s).port q).admitted = (s.port q).admitted :=
  port_modPort_keep SaxPort.admitted (by intro; rfl) p q s

theorem accelEp_eatLine (p q : Nat) (vc : Vc) (opc : Nat) (s : State) : accelEp (eatLine p vc opc s) q = accelEp s q := rfl

/-! ## Requests of accelerators (R281, R289, R291) -/

/-- A request that its sender may make, sound and under a live map, reaches the policer, which lets it pass (R289). -/
theorem admitReq_passes {raw : Nat} {bad : Bool} (hadm : (s.port p).admitted = true) (hsrc : m.src = accelEp s p) (hrsv : m.rsv = false)
    (hbad : bad = false) (hmap : mapFor s m.epoch = .ok map) (hpol : police p m.src raw false (eatLine p .req opc s) = (true, h, u)) :
    admitReq p m raw bad (eatLine p .req opc s) = (none, h, u) := by
  have hmap' : mapFor (eatLine p .req opc s) m.epoch = .ok map := hmap
  simp only [admitReq, admitted_eatLine, accelEp_eatLine, hadm, ← hsrc, hrsv, hbad, hmap', hpol, ne_eq, not_true, decide_false, Bool.not_true,
    Bool.or_self, Bool.false_eq_true, if_false]

/-- A request that passes takes a tracker and reaches its slice, one for a copy outside a coherent extent as RD_NC (R291). -/
theorem lineRequest_passes {k : ReqKind} (hp : linePasses s kind opc p m map h e u)
    (hshape : (if kind == .atomic then atomicBad m else m.addr % 64 != 0) = false)
    (hrole : (kind == .rdShared || kind == .rdOwn || kind == .upgrade) = false ∨ (s.port p).caching = true)
    (hmask : kind ≠ .wrMask ∨ m.mask ≠ 0)
    (hk : (if !e.coh && (kind == .rdShared || kind == .rdOwn || kind == .upgrade) then .rdNc else kind) = k) :
    lineRequest kind opc p m s = arrive (sliceReq s k p h u.mem.nextTrk m e) (takeTrk (lineTracker s p h m) u).2 := by
  subst hk
  obtain ⟨hkind, hadm, hsrc, hrsv, haddr, hmap, htrk, hpol, hacc⟩ := hp
  have hbad : (m.addr / 2 ^ 52 != s.modNum || (if kind == .atomic then atomicBad m else m.addr % 64 != 0)
      || ((kind == .rdShared || kind == .rdOwn || kind == .upgrade) && !(s.port p).caching) || (kind == .wrMask && m.mask == 0)) = false := by
    have hr : ((kind == .rdShared || kind == .rdOwn || kind == .upgrade) && !(s.port p).caching) = false := by
      rcases hrole with h | h
      · rw [h]; rfl
      · rw [h]; exact Bool.and_false _
    have hm : (kind == .wrMask && m.mask == 0) = false := by
      rcases hmask with h | h
      · rw [beq_eq_false_iff_ne.2 h]; rfl
      · rw [beq_eq_false_iff_ne.2 h]; exact Bool.and_false _
    rw [haddr, hshape, hr, hm, bne_self_eq_false]; rfl
  have hmapu : mapFor u m.epoch = .ok map := (mapFor_congr (police_passed_keep State.maps police_maps hpol) _).trans hmap
  simp only [lineRequest, caching, hkind, hadm, ← hsrc, hrsv, hbad, hmap, htrk, Except.toOption, Option.isNone_some, ne_eq, not_true, decide_false,
    Bool.not_true, Bool.not_false, Bool.or_self, Bool.and_false, Bool.false_eq_true, if_false,
    admitReq_passes hadm hsrc hrsv rfl hmap hpol, hmapu, hacc]
  rfl

/-- What is wrong with a load, of itself (R28, R289). -/
def loadBad (s : State) (m : LineMsg) : Bool := m.addr / 2 ^ 52 != s.modNum || m.addr % 64 != 0

/-- RD_NC is no atomic, no masked store and no caching request. -/
theorem rdNc_beq : (ReqKind.rdNc == .atomic) = false ∧ (ReqKind.rdNc == .wrMask) = false ∧ (ReqKind.rdNc == .rdShared) = false ∧
    (ReqKind.rdNc == .rdOwn) = false ∧ (ReqKind.rdNc == .upgrade) = false := by decide

/-- A load that is refused at once takes no tracker and is answered with the status (R281, R289). -/
theorem rdNc_answered {st : Status} (hkind : (s.port p).kind = 0)
    (hno : (decide (m.src ≠ accelEp s p) || !(s.port p).admitted || m.rsv || loadBad s m) = true)
    (hadm : admitReq p m (rawFlits ((s.port p).sess.phase == 3) (1 + lineLen .req 4 false)) (loadBad s m) (eatLine p .req 4 s) =
      (some (st, h), h, u)) :
    lineRequest .rdNc 4 p m s = sendCmp p m st 0 h none 0 u := by
  obtain ⟨hb1, hb2, hb3, hb4, hb5⟩ := rdNc_beq
  have hkind' : ¬ (s.port p).kind ≠ 0 := not_not.2 hkind
  rw [loadBad] at hno hadm
  simp only [lineRequest, caching, if_neg hkind', hb1, hb2, hb3, hb4, hb5, Bool.false_and, Bool.or_false, Bool.or_self, Bool.false_eq_true, if_false,
    hno, Bool.true_or, Bool.not_true, hadm]

/-- A load that its sender may not make, or that is not sound, is answered at once (R289). -/
theorem rdNc_refused {st : Status} (hkind : (s.port p).kind = 0)
    (hr : (st = .noAccess ∧ (m.src ≠ accelEp s p ∨ (s.port p).admitted = false)) ∨ (st = .badDescriptor ∧ m.src = accelEp s p ∧
      (s.port p).admitted = true ∧ (m.rsv = true ∨ m.addr / 2 ^ 52 ≠ s.modNum ∨ m.addr % 64 ≠ 0))) :
    lineRequest .rdNc 4 p m s = sendCmp p m st 0 (heat (eatLine p .req 4 s) false p (subOf (eatLine p .req 4 s) false p m.src)) none 0
      (eatLine p .req 4 s) := by
  rcases hr with ⟨rfl, hwho⟩ | ⟨rfl, hsrc, hadm, hbad⟩
  · have hno : (decide (m.src ≠ accelEp s p) || !(s.port p).admitted) = true := by simpa using hwho
    refine rdNc_answered hkind ?_ ?_
    · rw [hno]; rfl
    · simp only [admitReq]
      rw [if_pos (by rw [admitted_eatLine]; exact hno)]
  · have hshape : (m.rsv || loadBad s m) = true := by
      simp only [loadBad, Bool.or_eq_true, bne_iff_ne]; tauto
    have hno : (decide (m.src ≠ accelEp s p) || !(s.port p).admitted) = false := by simp [hsrc, hadm]
    refine rdNc_answered hkind ?_ ?_
    · rw [hno, Bool.false_or, hshape]
    · simp only [admitReq]
      rw [if_neg (by rw [admitted_eatLine]; exact Bool.eq_false_iff.1 hno), if_pos hshape]

theorem rdNc_other_link (hkind : (s.port p).kind ≠ 0) : lineRequest .rdNc 4 p m s =
    answerOnSvc 0 p { src := m.src, dst := m.dst, txn := m.txn, epoch := m.epoch } .badDescriptor (eatLine p .req 4 s) := by
  simp only [lineRequest, hkind, ne_eq, not_false_eq_true, if_true]

theorem rdNc_no_tracker (hkind : (s.port p).kind = 0) (hsrc : m.src = accelEp s p) (hadm : (s.port p).admitted = true) (hrsv : m.rsv = false)
    (haddr : m.addr / 2 ^ 52 = s.modNum) (hal : m.addr % 64 = 0) (hmap : mapFor s m.epoch = .ok map)
    (htrk : trkFree s (s.port p).owner = false) : lineRequest .rdNc 4 p m s = s := by
  obtain ⟨hb1, hb2, hb3, hb4, hb5⟩ := rdNc_beq
  have hkind' : ¬ (s.port p).kind ≠ 0 := not_not.2 hkind
  have hbad : (m.addr / 2 ^ 52 != s.modNum || m.addr % 64 != 0) = false := by rw [haddr, hal, bne_self_eq_false]; rfl
  have hwho : (decide (m.src ≠ accelEp s p) || !(s.port p).admitted) = false := by simp [hsrc, hadm]
  simp only [lineRequest, caching, if_neg hkind', hb1, hb2, hb3, hb4, hb5, hbad, hwho, hrsv, hmap, htrk, Except.toOption, Option.isNone_some,
    Bool.false_and, Bool.or_self, Bool.not_false, Bool.and_self, Bool.false_eq_true, if_false, if_true]

end

/-- Settles O34. -/
theorem lineRequestsReachTheirSlice : Obligations.LineRequestsReachTheirSlice := by
  refine ⟨fun p h m map e s u => ?_, fun p m s => ?_⟩
  · have hal : m.addr % 64 = 0 → (m.addr % 64 != 0) = false := fun h => by rw [h]; rfl
    have next := fun {x y : State} (h : x = y) => congrArg (fun t => (Host.Outcome.next (settle s t) : Host.Outcome State Fault Refusal)) h
    have hrd : ∀ k : ReqKind, (if !e.coh && true then ReqKind.rdNc else k) = if e.coh then k else .rdNc := by
      intro k; cases e.coh <;> rfl
    have hother : ∀ k : ReqKind, (if !e.coh && false then ReqKind.rdNc else k) = k := by
      intro k; rw [Bool.and_false]; rfl
    refine ⟨fun hp ha hc => ?_, fun hp ha hc => ?_, fun hp ha hc => ?_, fun hp ha => ?_, fun hp ha => ?_, fun hp ha hm => ?_, fun hp hb => ?_⟩
    · exact next (lineRequest_passes hp (hal ha) (.inr hc) (.inl (by decide)) (hrd _))
    · exact next (lineRequest_passes hp (hal ha) (.inr hc) (.inl (by decide)) (hrd _))
    · exact next (lineRequest_passes hp (hal ha) (.inr hc) (.inl (by decide)) (hrd _))
    · exact next (lineRequest_passes hp (hal ha) (.inl (by decide)) (.inl (by decide)) (hother _))
    · exact next (lineRequest_passes hp (hal ha) (.inl (by decide)) (.inl (by decide)) (hother _))
    · exact next (lineRequest_passes hp (hal ha) (.inl (by decide)) (.inr hm) (hother _))
    · exact next (lineRequest_passes hp hb (.inl (by decide)) (.inl (by decide)) (hother _))
  · have next := fun {x y : State} (h : x = y) => congrArg (fun t => (Host.Outcome.next (settle s t) : Host.Outcome State Fault Refusal)) h
    exact ⟨fun hk hw => next (rdNc_refused hk (Or.inl ⟨rfl, hw⟩)), fun hk hs ha hb => next (rdNc_refused hk (Or.inr ⟨rfl, hs, ha, hb⟩)),
      fun hk => next (rdNc_other_link hk), fun map hk hs ha hr hd hal hm ht => next (rdNc_no_tracker hk hs ha hr hd hal hm ht)⟩

end Sys2Proof.Machine
end

section
/-! PROOFS. Fences, placed writes, requests that waited, and what memory answers (R161, R171 to R173, R179, R277, R280, R298, R299, R304). -/

namespace Sys2Proof.Machine

section
variable {s u : State} {p h : Nat} {m : LineMsg} {map : MapV} {e : Extent}

/-! ## Fences and placed writes (R280, R304) -/

/-- The fence that a FENCE from `src` on a port leaves: what it waits for (R280). -/
def fenceOf (s : State) (p h : Nat) (m : LineMsg) : FenceWait :=
  { port := p, src := m.src, txn := m.txn, heat := h, epoch := m.epoch,
    waits := (s.mem.trks.filter fun k => !k.tray && k.port == p && k.src == m.src).map (·.id),
    chains := (s.chains.chains.filter fun c => !c.ended && askedOn c p m.src).map (·.cid) }

theorem fenceReq_passes (hkind : (s.port p).kind = 0) (hadm : (s.port p).admitted = true) (hsrc : m.src = accelEp s p) (hrsv : m.rsv = false)
    (haddr : m.addr = 0) (hmap : mapFor s m.epoch = .ok map) (hq : (s.port p).owner.elim false u.isQuiesced = false)
    (hpol : police p m.src (rawFlits ((s.port p).sess.phase == 3) 2) false (eatLine p .req 8 s) = (true, h, u)) :
    fenceReq p m s = if fenceOpen u (fenceOf u p h m) then { u with mem.fences := u.mem.fences ++ [fenceOf u p h m] }
      else sendCmp p m .ok 0 h none 0 u := by
  have haddr' : (m.addr != 0) = false := by rw [haddr]; rfl
  simp only [fenceReq, hkind, ne_eq, not_true, if_false, admitReq_passes hadm hsrc hrsv haddr' hmap hpol, hq, Bool.false_eq_true]
  rfl

/-- The agent that a placed write's target names (R304). -/
def placeTarget (s : State) (part target : Nat) : Option Agent :=
  s.dir.agents.find? fun g => !g.tray && !g.crashed && !g.leaving && g.part == part && accelEp s g.port == target && (s.port g.port).admitted

/-- A placed write as a request of its slice, but for its kind. -/
def placedReq (part addr : Nat) (d : Bytes) : LineReq := { src := .engine 0, m := { addr := addr, data := d }, line := addr / 64, part := part }

theorem placedWrite_cached {part target addr : Nat} {d : Bytes} {g : Agent} (hal : addr % 64 = 0)
    (hacc : accessStatus s s.maps.cur addr (some part) [(addr, 64)] none = .ok e) (hcoh : e.coh = true) (hg : placeTarget s part target = some g) :
    placedWrite 0 part target addr d s = arrive { placedReq part addr d with kind := .placed, target := g.id } s := by
  rw [placeTarget] at hg
  simp only [placedWrite, hal, hacc, hg, hcoh, ne_eq, not_true, if_false, if_true]
  rfl

theorem placedWrite_stored {part target addr : Nat} {d : Bytes} (hal : addr % 64 = 0)
    (hacc : accessStatus s s.maps.cur addr (some part) [(addr, 64)] none = .ok e)
    (hno : e.coh = false ∨ placeTarget s part target = none) :
    placedWrite 0 part target addr d s = arrive { placedReq part addr d with kind := .wrLine } s := by
  cases hg : placeTarget s part target with
  | none =>
    rw [placeTarget] at hg
    simp only [placedWrite, hal, hacc, hg, ne_eq, not_true, if_false]
    rfl
  | some g =>
    have hcoh : e.coh = false := hno.resolve_right (by rw [hg]; exact Option.some_ne_none g)
    rw [placeTarget] at hg
    simp only [placedWrite, hal, hacc, hg, hcoh, ne_eq, not_true, Bool.false_eq_true, if_false]
    rfl

/-! ## Requests that wait (R299) -/

theorem arrive_waits {q : LineReq} (h : blocked s q = true ∨ s.dir.waitq.any (·.line == q.line) = true) :
    arrive q s = { s with dir.waitq := s.dir.waitq ++ [q] } := by
  have h' : (blocked s q || s.dir.waitq.any (·.line == q.line)) = true := by rwa [Bool.or_eq_true]
  rw [arrive, if_pos h']

/-- The state in which the first waiting request of a line is served. -/
def unqueued (l : Nat) (s : State) : State := { s with dir.waitq := s.dir.waitq.eraseP (·.line == l) }

theorem resumeLine_served {l : Nat} {q : LineReq} (hq : s.dir.waitq.find? (·.line == l) = some q) (hb : blocked s q = false)
    (hs : serve q (unqueued l s) = (true, u)) : resumeLine l s = u := by
  rw [unqueued] at hs
  simp only [resumeLine, hq, hb, hs, Bool.false_eq_true, if_false]

theorem resumeLine_back {l : Nat} {q : LineReq} (hq : s.dir.waitq.find? (·.line == l) = some q) (hb : blocked s q = false)
    (hs : serve q (unqueued l s) = (false, u)) : resumeLine l s = { u with dir.waitq := q :: u.dir.waitq } := by
  rw [unqueued] at hs
  simp only [resumeLine, hq, hb, hs, Bool.false_eq_true, if_false]

/-- The transaction that a request other than a shared read or an atomic opens (R298). -/
def plainTx (l : Nat) (q : LineReq) (d : DirEnt) : Tx :=
  { line := l, req := q, phase := .snoop,
    noData := q.kind == .upgrade && (d.st == .s || d.st == .f) && q.agent.elim false fun a => d.sharers.contains a }

theorem serveEntry_plain {q : LineReq} (hatom : q.kind ≠ .atomic) (hsh : q.kind ≠ .rdShared)
    (hmine : q.agent.elim false (fun a => ((touch q.line s).ent q.line).owner == some a) = false) :
    serveEntry q e false s = (true, startTx (plainTx q.line q ((touch q.line s).ent q.line)) (snoopsFor ((touch q.line s).ent q.line) q)
      (touch q.line s)) := by
  have h1 : (q.kind == .atomic) = false := beq_eq_false_iff_ne.2 hatom
  have h2 : (q.kind == .rdShared) = false := beq_eq_false_iff_ne.2 hsh
  simp only [serveEntry, hmine, h1, h2, Bool.false_eq_true, if_false]
  rfl

theorem serve_plain {q : LineReq} (he : anyExtent s (64 * q.line) = some e) (hst : lineStatus (reclaimLine q.line s) e q = .ok)
    (hent : e.coh = false ∨ ((reclaimLine q.line s).ent? q.line).isSome = true ∨ needsEntry q = false) :
    serve q s = serveEntry q e false (reclaimLine q.line s) := by
  have hent' : (!e.coh || ((reclaimLine q.line s).ent? q.line).isSome || !needsEntry q) = true := by
    rcases hent with h | h | h <;> simp [h]
  simp only [serve, he, hst, hent', if_true]

end

/-- Settles O35. -/
theorem fenceAndPlacedWriteComplete : Obligations.FenceAndPlacedWriteComplete := by
  refine ⟨⟨?_, fun part target addr d e s hal hacc => ⟨?_, ?_⟩⟩, fun q s h => arrive_waits h, ?_, ?_, ?_⟩
  · exact fun p h m map s u hk ha hs hr haddr hmap hq hpol =>
      congrArg (fun t => Host.Outcome.next (settle s t)) (fenceReq_passes hk ha hs hr haddr hmap hq hpol)
  · exact fun g hcoh hg => congrArg (fun t => Host.Outcome.next (settle s t)) (placedWrite_cached hal hacc hcoh hg)
  · exact fun hno => congrArg (fun t => Host.Outcome.next (settle s t)) (placedWrite_stored hal hacc hno)
  · intro l q e s hq hb s1 he hst hent hatom hsh hmine
    have hl : q.line = l := by simpa using List.find?_some hq
    subst hl
    refine congrArg (fun t => Host.Outcome.next (settle s t)) (resumeLine_served hq hb ?_)
    exact (serve_plain (s := unqueued q.line s) he hst hent).trans (serveEntry_plain hatom hsh hmine)
  · exact fun l q s u hq hb hs => congrArg (fun t => Host.Outcome.next (settle s t)) (resumeLine_served hq hb hs)
  · exact fun l q s u hq hb hs => congrArg (fun t => Host.Outcome.next (settle s t)) (resumeLine_back hq hb hs)

/-! ## What memory answers (R161, R171 to R173, R179, R277, R298) -/

section
variable {s : State} {l c : Nat} {x : Tx} {e : Extent}

/-- What a change of a channel leaves of it stands, whichever channel is asked for. -/
theorem chan_modChan_keep {β : Type} (F : Chan → β) {f : Chan → Chan} (hF : ∀ k, F (f k) = F k) (c d : Nat) (s : State) :
    F ((modChan c f s).chan d) = F (s.chan d) := by
  simp only [State.chan, modChan, List.getD_eq_getElem?_getD, List.getElem?_modify]
  by_cases h : c = d
  · subst h
    cases s.chans[c]? with
    | none => simp
    | some k => simpa using hF k
  · cases s.chans[d]? <;> simp [h]

/-- The state in which the access of a line has been served: its channel, if it has one, counts it (R161). -/
def lineServed (e : Extent) (l : Nat) (s : State) : State :=
  match chanOf e (64 * l) with
  | some c => modChan c (fun k => { k with served := k.served + 1 }) s
  | none => s

theorem lineServed_keep {β : Type} (F : State → β) (hF : ∀ c f s, F (modChan c f s) = F s) (e : Extent) (l : Nat) (s : State) :
    F (lineServed e l s) = F s := by
  unfold lineServed
  split
  · exact hF ..
  · rfl

theorem lineServed_of_chan (h : chanOf e (64 * l) = some c) :
    lineServed e l s = modChan c (fun k => { k with served := k.served + 1 }) s := by
  simp only [lineServed, h]

theorem tabled_modChan {f : Chan → Chan} (hf : ∀ k, (f k).damaged = k.damaged) (c d : Nat) (e : Extent) (l : Nat) (s : State) :
    tabled (modChan c f s) d e l = tabled s d e l := by
  have hlp : linePos (modChan c f s) e l = linePos s e l := rfl
  simp only [tabled, chan_modChan_keep Chan.damaged hf, hlp]

theorem unzeroed_modChan (c : Nat) (f : Chan → Chan) (s : State) (e : Extent) (o : Nat) : unzeroed (modChan c f s) e o = unzeroed s e o := rfl

/-- A sound line comes as it is (R171). -/
theorem readLine_sound (he : anyExtent s (64 * l) = some e) (hw : s.mem.weak.any (·.1 == l) = false)
    (ht : ∀ c, chanOf e (64 * l) = some c → tabled s c e l = false) : readLine l s = (true, s) := by
  have hweak : s.mem.weak.find? (·.1 == l) = none := by
    rw [List.find?_eq_none]
    intro a ha hal
    exact (List.any_eq_false.1 hw a ha) hal
  cases hc : chanOf e (64 * l) with
  | none => simp only [readLine, he, hc]
  | some c => simp only [readLine, he, hc, hweak, Option.map_none, ht c hc]; split <;> rfl

/-- What comes of the access of a line: nothing is read for a line that is overwritten whole (R171, R172). -/
def lineCome (x : Tx) (e : Extent) (fixed bad : Bool) (s : State) : Bool × State :=
  if x.req.kind == .wrLine || x.req.kind == .placed then (true, s) else lineRead x.line e fixed bad s

/-- The transaction goes on with the line that has come, or is answered DAMAGED. -/
def lineAnswered (x : Tx) (e : Extent) (r : Bool × State) : State :=
  if r.1 then withLine x e (memRead r.2 (64 * x.line) 64) r.2 else readBad x r.2

theorem memRead_congr {s t : State} (h : t.mem = s.mem) (o n : Nat) : memRead t o n = memRead s o n := by simp only [memRead, h]

theorem line_of_find {ph : TxPhase} (hx : s.dir.txs.find? (fun x => x.line == l && x.phase == ph) = some x) : x.line = l := by
  have := List.find?_some hx
  simp only [Bool.and_eq_true, beq_iff_eq] at this
  exact this.1

/-- The access of a line that its channel serves next, or that a tray answers, is done. -/
theorem memoryDone_served (hx : s.dir.txs.find? (fun x => x.line == l && x.phase == .memory) = some x) (he : anyExtent s (64 * l) = some e)
    (hdata : x.data = none)
    (hc : ∀ c, chanOf e (64 * l) = some c → servesNext s c l = true ∧ queueHead s c = some (l, false) ∧ tabled s c e l = false)
    (hn : chanOf e (64 * l) = none → expanderWaits s e l = false) (fixed bad : Bool) :
    memoryDone l fixed bad s = lineAnswered x e (lineCome x e fixed bad (lineServed e l s)) := by
  have hl := line_of_find hx
  subst hl
  cases hch : chanOf e (64 * x.line) with
  | none =>
    simp only [memoryDone, he, Option.bind_some, hch, Option.filter_none, hx, Option.elim_none, hn hch, hdata, Option.isSome_none, Bool.or_false,
      Option.getD_none, Bool.false_eq_true, if_false, lineServed, lineCome, lineAnswered]
  | some c =>
    obtain ⟨hserve, hhead, -⟩ := hc c hch
    have hno : (queueHead s c == some (x.line, true)) = false := by rw [hhead]; simp
    simp only [memoryDone, he, Option.bind_some, hch, Option.filter_some, hno, hx, Option.elim_some, hserve, hdata, Option.isSome_none, Bool.or_false,
      Option.getD_none, Bool.not_true, Bool.false_eq_true, if_false, lineServed, lineCome, lineAnswered]

/-- A sound line comes, whatever the request does with it. -/
theorem lineCome_sound (he : anyExtent s (64 * x.line) = some e) (hw : s.mem.weak.any (·.1 == x.line) = false)
    (ht : ∀ c, chanOf e (64 * x.line) = some c → tabled s c e x.line = false) :
    lineCome x e false false (lineServed e x.line s) = (true, lineServed e x.line s) := by
  have he' : anyExtent (lineServed e x.line s) (64 * x.line) = some e :=
    (anyExtent_congr (lineServed_keep State.maps modChan_maps ..) _).trans he
  have hw' : (lineServed e x.line s).mem.weak.any (·.1 == x.line) = false := by
    rwa [show (lineServed e x.line s).mem = s.mem from lineServed_keep State.mem modChan_mem ..]
  have ht' : ∀ c, chanOf e (64 * x.line) = some c → tabled (lineServed e x.line s) c e x.line = false := by
    intro c hc
    rw [lineServed_of_chan hc, tabled_modChan (by intro; rfl), ht c hc]
  unfold lineCome
  split
  · rfl
  · simp only [lineRead, readLine_sound he' hw' ht', Bool.false_and, Bool.false_eq_true, if_false]

theorem lineCome_corrected (hk : x.req.kind = .rdNc) (hc : chanOf e (64 * x.line) = some c) (hw : s.mem.weak.any (·.1 == x.line) = false) :
    lineCome x e true false (lineServed e x.line s) = (true, corrected c 1 (lineServed e x.line s)) := by
  have hw' : (lineServed e x.line s).mem.weak.any (·.1 == x.line) = false := by
    rwa [show (lineServed e x.line s).mem = s.mem from lineServed_keep State.mem modChan_mem ..]
  simp only [lineCome, lineRead, hk, hw', hc, Bool.not_false, Bool.and_self, Bool.false_eq_true, if_false, if_true, Option.elim_some]
  rfl

theorem lineCome_damaged (hk : x.req.kind = .rdNc) (he : anyExtent s (64 * x.line) = some e) (hc : chanOf e (64 * x.line) = some c)
    (hm : e.mirror = 0) :
    lineCome x e false true (lineServed e x.line s) = (false, addDamaged c x.line (lineServed e x.line s)) := by
  have he' : anyExtent (lineServed e x.line s) (64 * x.line) = some e :=
    (anyExtent_congr (lineServed_keep State.maps modChan_maps ..) _).trans he
  have hno : mirrored (lineServed e x.line s) e = false := by simp [mirrored, hm]
  simp only [lineCome, lineRead, badRead, hk, he', hno, hc, if_true, Bool.false_eq_true, if_false]
  rfl

theorem corrected_mem (c n : Nat) (s : State) : (corrected c n s).mem = s.mem := by
  simp only [corrected]
  split
  · rfl
  · rw [count_mem]
    split <;> rfl

end

/-- Settles O36. -/
theorem memoryAnswersAct : Obligations.MemoryAnswersAct := by
  intro l x e s hx he hdata hw hc hn line s0 s1 n
  obtain rfl := line_of_find hx
  have hmem : ∀ t : State, t.mem = s.mem → memRead t (64 * x.line) 64 = line := fun t h => memRead_congr h ..
  have hserved : (lineServed e x.line s).mem = s.mem := lineServed_keep State.mem modChan_mem ..
  have htwin : (lineServed e x.line s).twin.nextTxn = n := congrArg Twin.nextTxn (lineServed_keep State.twin modChan_twin ..)
  have hs0 : lineServed e x.line s = s0 := rfl
  have sound : memoryDone x.line false false s = withLine x e line s0 := by
    rw [memoryDone_served hx he hdata hc hn, lineCome_sound he hw fun c h => (hc c h).2.2, lineAnswered, if_pos rfl, hmem _ hserved, hs0]
  have next := fun {t u : State} (h : t = u) => congrArg (fun t => (Host.Outcome.next (settle s t) : Host.Outcome State Fault Refusal)) h
  refine ⟨fun hk => next (sound.trans ?_), fun hk => next (sound.trans ?_), fun hk => next (sound.trans ?_), fun hk => next (sound.trans ?_),
    fun hk => next (sound.trans ?_), fun c hch hk => next ?_, fun c hch hk hm => next ?_⟩
  · simp only [withLine, hk]
    rfl
  · rcases hk with hk | hk | hk <;> simp only [withLine, hk]
  · simp only [withLine, hk, ← hs0, htwin]
    rfl
  · simp only [withLine, hk, ← hs0, htwin]
    rfl
  · simp only [withLine, hk, ← hs0, htwin]
    rfl
  · rw [memoryDone_served hx he hdata hc hn, lineCome_corrected hk hch hw, lineAnswered, if_pos rfl,
      hmem _ ((corrected_mem ..).trans hserved), hs0]
    simp only [withLine, hk]
  · rw [memoryDone_served hx he hdata hc hn, lineCome_damaged hk he hch hm, lineAnswered, if_neg Bool.false_ne_true, hs0]
    rfl

end Sys2Proof.Machine
end

section
/-! PROOFS. What answers to snoops and notices of holders do (R245, R268, R298 to R307, R489, R490). -/

namespace Sys2Proof.Machine

section
variable {s u : State} {p opc : Nat} {m : LineMsg} {vc : Vc} {f : State → State} {x : Snoop}

/-! ## Answers and notices that are taken, and those that are discarded (R245, R301, R489) -/

theorem sink_taken (h : holderSends s p m vc opc u) : sink p m vc opc f s = f u := by
  obtain ⟨rfl, hkind, hsrc, hadm⟩ := h
  have hno : (!((eatLine p vc opc s).port p).admitted && !answersReclaim (eatLine p vc opc s) p m vc opc) = false := by
    rcases hadm with h | h <;> simp [h]
  simp only [sink, hkind, ← hsrc, hno, ne_eq, not_true, Bool.false_eq_true, if_false]

theorem sink_rsp_discarded (hkind : ((eatLine p .rsp opc s).port p).kind = 0) (hadm : ((eatLine p .rsp opc s).port p).admitted = false)
    (hr : answersReclaim (eatLine p .rsp opc s) p m .rsp opc = false) : sink p m .rsp opc f s = eatLine p .rsp opc s := by
  have hdat : ¬ Vc.rsp = Vc.dat := by decide
  simp only [sink, hkind, hadm, hr, hdat, Bool.not_false, Bool.and_self, ne_eq, not_true, if_false, if_true, ite_self]

theorem sink_dat_discarded (hkind : ((eatLine p .dat opc s).port p).kind = 0) (hsrc : m.src = accelEp (eatLine p .dat opc s) p)
    (hadm : ((eatLine p .dat opc s).port p).admitted = false) (hr : answersReclaim (eatLine p .dat opc s) p m .dat opc = false) :
    sink p m .dat opc f s = dataCmp p m .noAccess (eatLine p .dat opc s) := by
  simp only [sink, hkind, ← hsrc, hadm, hr, Bool.not_false, Bool.and_self, ne_eq, not_true, if_false, if_true]

/-! ## Answers to snoops (R298, R300, R304) -/

/-- Copies of a space that is being released are recalled from the holders that are left (R274). -/
def recallLeft (l : Nat) (s : State) : State := (anyExtent s (64 * l)).elim s fun e => recallGone e l s

/-- The agents of a port to whose snoops an answer with this TXN belongs. -/
def answersSnoop (s : State) (p : Nat) (m : LineMsg) (x : Snoop) : Bool := (agentsAt s false p).contains x.agent && x.txn == m.txn

theorem snoopAck_inv (hx : s.dir.snoops.find? (fun x => answersSnoop s p m x && x.kind != 5) = some x) (hk : x.kind = 1) :
    snoopAck p m s = recallLeft x.line (progress x.line (modEnt x.line (dropHolder x.agent) (dropSnoop x s))) := by
  simp only [answersSnoop] at hx
  simp only [snoopAck, hx, snoopData, hk, if_true]
  rfl

theorem snoopAck_shared (hx : s.dir.snoops.find? (fun x => answersSnoop s p m x && x.kind != 5) = some x) (hk : x.kind = 2)
    (ho : (s.ent x.line).owner = some x.agent) :
    snoopAck p m s = recallLeft x.line (progress x.line
      (modEnt x.line (fun d => { d with st := .s, sharers := [x.agent], fwd := 0 }) (dropSnoop x s))) := by
  have h1 : ¬ x.kind = 1 := by omega
  have h2 : (decide (x.kind = 2) && ((s.ent x.line).owner == some x.agent)) = true := by simp [hk, ho]
  simp only [answersSnoop] at hx
  simp only [snoopAck, hx, snoopData, h1, h2, if_true, if_false]
  rfl

theorem notHeld_sharer (hx : s.dir.snoops.find? (answersSnoop s p m) = some x) (hk : x.kind ≠ 5) (ho : (s.ent x.line).owner ≠ some x.agent) :
    notHeld p m s = progress x.line (modEnt x.line (dropHolder x.agent) (dropSnoop x s)) := by
  have ho' : ((s.ent x.line).owner == some x.agent) = false := beq_eq_false_iff_ne.2 ho
  unfold answersSnoop at hx
  simp only [notHeld, hx, hk, notHeldBy, ho', Bool.false_eq_true, if_false]

theorem notHeld_owner (hx : s.dir.snoops.find? (answersSnoop s p m) = some x) (hk : x.kind ≠ 5) (ho : (s.ent x.line).owner = some x.agent) :
    notHeld p m s = { dropSnoop x s with dir.awaits := s.dir.awaits ++ [{ agent := x.agent, line := x.line, at_ := s.t }] } := by
  have ho' : ((s.ent x.line).owner == some x.agent) = true := beq_iff_eq.2 ho
  unfold answersSnoop at hx
  simp only [notHeld, hx, hk, notHeldBy, ho', if_true, if_false]
  rfl

theorem placeAnswer_took (hx : s.dir.snoops.find? (fun x => answersSnoop s p m x && x.kind == 5) = some x) :
    placeAnswer p m true s = progress x.line
      (modEnt x.line (fun d => { d with st := .e, sharers := [x.agent], fwd := x.agent }) (dropSnoop x s)) := by
  simp only [answersSnoop] at hx
  simp only [placeAnswer, hx, placed, if_true]

theorem placeAnswer_declined (hx : s.dir.snoops.find? (fun x => answersSnoop s p m x && x.kind == 5) = some x) :
    placeAnswer p m false s = progress x.line
      (modEnt x.line (fun d => { d with st := .i, sharers := [], fwd := 0 }) (dropSnoop x s)) := by
  simp only [answersSnoop] at hx
  simp only [placeAnswer, hx, placed, Bool.false_eq_true, if_false]

end

/-- Settles O37. -/
theorem snoopAnswersMoveTheEntry : Obligations.SnoopAnswersMoveTheEntry := by
  have next := fun {s t u : State} (h : t = u) => congrArg (fun t => (Host.Outcome.next (settle s t) : Host.Outcome State Fault Refusal)) h
  refine ⟨fun p m x s s1 => ⟨?_, ?_, ?_, ?_, ?_, ?_⟩, fun p m s => ⟨?_, ?_, ?_, ?_, ?_⟩⟩
  · exact fun h hx hk => next ((sink_taken h).trans (snoopAck_inv hx hk))
  · exact fun h hx hk ho => next ((sink_taken h).trans (snoopAck_shared hx hk ho))
  · exact fun h hx hk ho => next ((sink_taken h).trans (notHeld_sharer hx hk ho))
  · intro h hx hk ho
    refine next ((sink_taken h).trans ((notHeld_owner hx hk ho).trans ?_))
    rw [h.1]
    rfl
  · exact fun h hx => next ((sink_taken h).trans (placeAnswer_took hx))
  · exact fun h hx => next ((sink_taken h).trans (placeAnswer_declined hx))
  · exact fun ⟨hk, ha, hr⟩ => next (sink_rsp_discarded hk ha hr)
  · exact fun ⟨hk, ha, hr⟩ => next (sink_rsp_discarded hk ha hr)
  · exact fun ⟨hk, ha, hr⟩ => next (sink_rsp_discarded hk ha hr)
  · exact fun ⟨hk, ha, hr⟩ => next (sink_rsp_discarded hk ha hr)
  · exact fun ⟨hk, ha, hr⟩ => next (sink_rsp_discarded hk ha hr)

/-! ## Data and notices (R268, R298, R300, R490) -/

section
variable {s : State} {p a l : Nat} {m : LineMsg} {e : Extent} {x : Snoop}

/-- The snoop of a port's agent that SNP_DATA answers. -/
def dataSnoop (s : State) (p l : Nat) : Option Snoop :=
  s.dir.snoops.find? fun x => (agentsAt s false p).contains x.agent && x.line == l && x.kind != 5

/-- The holder of a line among the agents of a port. -/
def holderAt (s : State) (tray : Bool) (p l : Nat) : Option Nat := (agentsAt s tray p).find? fun a => (s.ent l).sharers.contains a

theorem snpData_taken (hl : m.addr % 2 ^ 52 / 64 = l) (hx : dataSnoop s p l = some x)
    (hok : m.dirty = false ∨ wouldWrite s l = false ∨ (s.ent l).owner ≠ some x.agent ∨ m.ltag = lineTag (64 * l) m.data) :
    snpData p m s = if m.dirty then dataCmp p m .ok (snoopData x (some m.data) true (some m.ltag) s)
      else snoopData x (some m.data) false (some m.ltag) s := by
  have hno : (m.dirty && wouldWrite s l && (s.ent l).owner == some x.agent && decide (m.ltag ≠ lineTag (64 * l) m.data)) = false := by
    rcases hok with h | h | h | h <;> simp [h]
  unfold dataSnoop at hx
  delta snpData
  rw [hl]
  dsimp only
  rw [hx]
  dsimp only
  rw [if_neg (by rw [hno]; decide)]
  cases m.dirty with
  | false => rw [if_neg Bool.false_ne_true, if_neg Bool.false_ne_true]
  | true => rw [if_pos rfl, if_pos rfl]

theorem snpData_retry (hl : m.addr % 2 ^ 52 / 64 = l) (hx : dataSnoop s p l = some x) (hd : m.dirty = true) (hw : wouldWrite s l = true)
    (ho : (s.ent l).owner = some x.agent) (ht : m.ltag ≠ lineTag (64 * l) m.data) : snpData p m s = dataCmp p m .retry s := by
  have hyes : (m.dirty && wouldWrite s l && (s.ent l).owner == some x.agent && decide (m.ltag ≠ lineTag (64 * l) m.data)) = true := by
    simp [hd, hw, ho, ht]
  unfold dataSnoop at hx
  simp only [snpData, hl, hx, hyes, if_true]

theorem snpData_late (hl : m.addr % 2 ^ 52 / 64 = l) (hx : dataSnoop s p l = none) :
    snpData p m s = if m.dirty then dataCmp p m .ok s else s := by
  unfold dataSnoop at hx
  simp only [snpData, hl, hx]

theorem wbData_nowhere (hl : m.addr % 2 ^ 52 / 64 = l) (he : anyExtent s (64 * l) = none) :
    wbData p m s = protocolEvent p l (dataCmp p m .ok s) := by
  simp only [wbData, hl, he]

theorem wbData_store (hl : m.addr % 2 ^ 52 / 64 = l) (he : anyExtent s (64 * l) = some e) (hcoh : e.coh = false)
    (ho : (s.port p).owner = some e.part) (hq : s.isQuiesced e.part = false) (hg : guarded s (64 * l) 64 = false) (hr : releasing s e = false) :
    wbData p m s = arrive { src := .wb p, kind := .wrLine, m := m, line := l, part := e.part } s := by
  simp only [wbData, hl, he, hcoh, ho, hq, hg, hr, bne_self_eq_false, Bool.or_self, Bool.not_false, Bool.false_eq_true, if_false, if_true]

theorem wbData_dropped (hl : m.addr % 2 ^ 52 / 64 = l) (he : anyExtent s (64 * l) = some e) (hcoh : e.coh = false)
    (hno : (s.port p).owner ≠ some e.part ∨ s.isQuiesced e.part = true ∨ guarded s (64 * l) 64 = true ∨ releasing s e = true) :
    wbData p m s = dataCmp p m .ok s := by
  have hno' : ((s.port p).owner != some e.part || s.isQuiesced e.part || guarded s (64 * l) 64 || releasing s e) = true := by
    simpa [or_assoc] using hno
  simp only [wbData, hl, he, hcoh, hno', Bool.not_false, if_true]

theorem wbData_owner (hl : m.addr % 2 ^ 52 / 64 = l) (he : anyExtent s (64 * l) = some e) (hcoh : e.coh = true)
    (ha : holderAt s false p l = some a) (ho : (s.ent l).owner = some a) :
    wbData p m s = if m.ltag ≠ lineTag (64 * l) m.data ∧ (writeGone s e (64 * l) || guarded s (64 * l) 64) = false then dataCmp p m .retry s
      else dataCmp p m .ok (noticed a l (some m.data) (if writeGone s e (64 * l) || guarded s (64 * l) 64 then s else writeBack l m.data s)) := by
  have ho' : ((s.ent l).owner == some a) = true := beq_iff_eq.2 ho
  unfold holderAt at ha
  simp only [wbData, hl, he, hcoh, ha, ho', Bool.not_true, Bool.false_eq_true, if_false, if_true]
  by_cases ht : m.ltag = lineTag (64 * l) m.data <;> cases hk : (writeGone s e (64 * l) || guarded s (64 * l) 64) <;> simp [ht]

theorem wbData_sharer (hl : m.addr % 2 ^ 52 / 64 = l) (he : anyExtent s (64 * l) = some e) (hcoh : e.coh = true)
    (ha : holderAt s false p l = some a) (ho : (s.ent l).owner ≠ some a) :
    wbData p m s = dataCmp p m .ok (protocolEvent p l (noticed a l none s)) := by
  have ho' : ((s.ent l).owner == some a) = false := beq_eq_false_iff_ne.2 ho
  unfold holderAt at ha
  simp only [wbData, hl, he, hcoh, ha, ho', Bool.not_true, Bool.false_eq_true, if_false]

theorem wbData_unrecorded (hl : m.addr % 2 ^ 52 / 64 = l) (he : anyExtent s (64 * l) = some e) (hcoh : e.coh = true)
    (ha : holderAt s false p l = none) : wbData p m s = protocolEvent p l (dataCmp p m .ok s) := by
  unfold holderAt at ha
  simp only [wbData, hl, he, hcoh, ha, Bool.not_true, Bool.false_eq_true, if_false]

theorem evictFrom_holder {as : List Nat} (he : anyExtent s (64 * l) = some e) (hcoh : e.coh = true)
    (ha : as.find? (fun a => (s.ent l).sharers.contains a) = some a) : evictFrom as p l s = noticed a l none s := by
  simp only [evictFrom, he, hcoh, ha, Bool.not_true, Bool.false_eq_true, if_false]

theorem evictFrom_uncoherent {as : List Nat} (he : anyExtent s (64 * l) = some e) (hcoh : e.coh = false) : evictFrom as p l s = s := by
  simp only [evictFrom, he, hcoh, Bool.not_false, if_true]

theorem evictFrom_unrecorded {as : List Nat} (hcoh : (anyExtent s (64 * l)).elim true (·.coh) = true)
    (ha : as.find? (fun a => (s.ent l).sharers.contains a) = none) : evictFrom as p l s = protocolEvent p l s := by
  cases he : anyExtent s (64 * l) with
  | none => simp only [evictFrom, he]
  | some e =>
    rw [he, Option.elim_some] at hcoh
    simp only [evictFrom, he, hcoh, ha, Bool.not_true, Bool.false_eq_true, if_false]

/-! ## Hosts (R307) -/

variable {t addr tag : Nat}

theorem cxlEvict_works (hw : hostWorks s t = true) : cxlEvict t addr tag s =
    enqueue true t 0 0 (.tray .cmp tag addr 0 []) (evictFrom (agentsAt s true t) t (addr / 64) (chargeHost t 1 s)) := by
  simp only [cxlEvict, hw, Bool.not_true, Bool.false_eq_true, if_false]

/-- The snoop of a host's agents that a response for the line answers. -/
def hostSnoop (s : State) (t l : Nat) : Option Snoop :=
  s.dir.snoops.find? fun x => (agentsAt s true t).contains x.agent && x.line == l

theorem cxlBiRsp_inv {b : Bool} (hx : hostSnoop s t (addr / 64) = some x) (hb : b = false ∨ x.kind = 1) :
    cxlBiRsp t addr b s = progress (addr / 64) (modEnt (addr / 64) (dropHolder x.agent) (dropSnoop x s)) := by
  have hno : (b && decide (x.kind ≠ 1)) = false := by rcases hb with h | h <;> simp [h]
  unfold hostSnoop at hx
  simp only [cxlBiRsp, hx, hno, Bool.false_eq_true, if_false]

/-- The entry of a line that a host keeps a copy of (R307). -/
def keptBy (x : Snoop) (d : DirEnt) : DirEnt :=
  if x.kind == 2 && d.owner == some x.agent then { d with st := .s, sharers := [x.agent], fwd := 0 }
  else if d.sharers.contains x.agent then d
  else { d with st := if d.st == .i then .s else d.st, sharers := sortBy (fun a b => decide (a ≤ b)) (d.sharers ++ [x.agent]) }

theorem cxlBiRsp_shared (hx : hostSnoop s t (addr / 64) = some x) (hk : x.kind ≠ 1) :
    cxlBiRsp t addr true s = progress (addr / 64) (modEnt (addr / 64) (keptBy x) (dropSnoop x s)) := by
  unfold hostSnoop at hx
  simp only [cxlBiRsp, hx, hk, ne_eq, not_false_eq_true, decide_true, Bool.and_self, if_true]
  rfl

theorem biConflict_works (hw : hostWorks s t = true) : biConflict t addr tag s = enqueue true t 1 0 (.tray .biConflictAck tag addr 0 []) s := by
  simp only [biConflict, hw, if_true]

/-! ## Entries and write-backs -/

theorem contains_dropHolder (a : Nat) (d : DirEnt) : (dropHolder a d).sharers.contains a = false := by
  unfold dropHolder
  split
  next h => simpa using h
  next =>
    extract_lets r
    have hr : r.contains a = false := by simp [r]
    split
    · rfl
    · split <;> exact hr

theorem dropHolder_owned {d : DirEnt} (hc : d.sharers.contains a = true) (hst : d.st = .e ∨ d.st = .m) : (dropHolder a d).st = .i := by
  have hst' : ((d.sharers.filter (· != a)).isEmpty || d.st == .e || d.st == .m) = true := by
    rcases hst with h | h <;> simp [h]
  simp only [dropHolder, hc, hst', Bool.not_true, Bool.false_eq_true, if_false, if_true]

theorem trayFrame_keep {β : Type} (F : State → β) (hF : ∀ b p v ep o s, F (enqueue b p v ep o s) = F s) (svc l : Nat) (e : Extent) (w : Bool)
    (d : Bytes) (s : State) : F (trayFrame svc l e w d s) = F s :=
  foldl_keep F _ (fun _ _ => hF ..) _ _

theorem writeBack_mem (l : Nat) (d : Bytes) (s : State) : (writeBack l d s).mem = (storeLine l d s).mem := by
  simp only [writeBack]
  split
  · rfl
  · split
    · exact trayFrame_keep State.mem enqueue_mem ..
    · split <;> rfl

end

/-- Settles O38. -/
theorem holderNoticesAct : Obligations.HolderNoticesAct := by
  have next := fun {s t u : State} (h : t = u) => congrArg (fun t => (Host.Outcome.next (settle s t) : Host.Outcome State Fault Refusal)) h
  refine ⟨?_, ?_, ?_, ?_, ?_, ?_, ?_, ?_, ?_, ?_, ?_, ?_, ?_, ?_, ?_, ?_, ?_, ?_, ?_, ?_, ?_, ?_, ?_, fun l d s => writeBack_mem l d s⟩
  · exact fun p m x s s1 h hx hok => next ((sink_taken h).trans (snpData_taken rfl hx hok))
  · exact fun p m x s s1 h hx hd hw ho ht => next ((sink_taken h).trans (snpData_retry rfl hx hd hw ho ht))
  · exact fun p m s s1 h hx => next ((sink_taken h).trans (snpData_late rfl hx))
  · rintro p m s s1 rfl hk hs ha hr
    exact next (sink_dat_discarded hk hs ha hr)
  · rintro p m s s1 rfl hk hs ha hr
    exact next (sink_dat_discarded hk hs ha hr)
  · exact fun p m s s1 h he => next ((sink_taken h).trans (wbData_nowhere rfl he))
  · exact fun p m e s s1 h he hc ho hq hg hr => next ((sink_taken h).trans (wbData_store rfl he hc ho hq hg hr))
  · exact fun p m e s s1 h he hc hno => next ((sink_taken h).trans (wbData_dropped rfl he hc hno))
  · intro p m a e s s1 h l he hc ha ho hw hg ht
    refine next ((sink_taken h).trans ((wbData_owner rfl he hc ha ho).trans ?_))
    rw [if_neg (fun hn => hn.1 ht), show writeGone s1 e _ = false from hw, show guarded s1 _ 64 = false from hg]
    rfl
  · intro p m a e s s1 h l he hc ha ho hk
    refine next ((sink_taken h).trans ((wbData_owner rfl he hc ha ho).trans ?_))
    have hk' : (writeGone s1 e (64 * l) || guarded s1 (64 * l) 64) = true := by rwa [Bool.or_eq_true]
    rw [if_neg (fun hn => absurd (hk'.symm.trans hn.2) (by decide)), if_pos hk']
  · intro p m a e s s1 h l he hc ha ho hw hg ht
    refine next ((sink_taken h).trans ((wbData_owner rfl he hc ha ho).trans ?_))
    have hk' : (writeGone s1 e (64 * l) || guarded s1 (64 * l) 64) = false := by rw [hw, hg]; rfl
    rw [if_pos ⟨ht, hk'⟩]
  · exact fun p m a e s s1 h he hc ha ho => next ((sink_taken h).trans (wbData_sharer rfl he hc ha ho))
  · exact fun p m e s s1 h he hc ha => next ((sink_taken h).trans (wbData_unrecorded rfl he hc ha))
  · exact fun p a m e s s1 h he hc ha => next ((sink_taken h).trans (evictFrom_holder he hc ha))
  · exact fun p m e s s1 h he hc => next ((sink_taken h).trans (evictFrom_uncoherent he hc))
  · exact fun p m s s1 h hc ha => next ((sink_taken h).trans (evictFrom_unrecorded hc ha))
  · rintro t a addr tag e s s1 hw rfl he hc ha
    refine next ((cxlEvict_works hw).trans ?_)
    rw [evictFrom_holder he hc ha]
  · rintro t addr tag s s1 hw rfl hc ha
    refine next ((cxlEvict_works hw).trans ?_)
    rw [evictFrom_unrecorded hc ha]
  · rintro t addr tag e s s1 hw rfl he hc
    refine next ((cxlEvict_works hw).trans ?_)
    rw [evictFrom_uncoherent he hc]
  · exact fun t addr b x s hx hb => next (cxlBiRsp_inv hx hb)
  · exact fun t addr x s hx hk => next (cxlBiRsp_shared hx hk)
  · exact fun t addr tag s hw => next (biConflict_works hw)
  · exact fun a d => ⟨contains_dropHolder a d, fun hc hst => dropHolder_owned hc hst⟩

end Sys2Proof.Machine
end

section
/-! PROOFS. The requests of hosts. -/

namespace Sys2Proof.Machine

section
variable {s : State} {t : Nat}

theorem tray_modTray_keep {β : Type} (F : TrayPort → β) {f : TrayPort → TrayPort} (hF : ∀ k, F (f k) = F k) (q p : Nat) (s : State) :
    F ((modTray p f s).tray q) = F (s.tray q) := by
  unfold State.tray modTray
  simp only [List.getD_eq_getElem?_getD, List.getElem?_modify]
  cases s.trays[q]? with
  | none => rfl
  | some k => by_cases h : p = q <;> simp [h, hF]

theorem tray_congr {s u : State} (h : u.trays = s.trays) (t : Nat) : u.tray t = s.tray t := by rw [State.tray, State.tray, h]

@[simp] theorem chargeHost_maps (t raw : Nat) (s : State) : (chargeHost t raw s).maps = s.maps := by simp [chargeHost]
@[simp] theorem chargeHost_mem (t raw : Nat) (s : State) : (chargeHost t raw s).mem = s.mem := by simp [chargeHost]
@[simp] theorem chargeHost_dir (t raw : Nat) (s : State) : (chargeHost t raw s).dir = s.dir := by simp [chargeHost]
@[simp] theorem chargeHost_owner (t raw k : Nat) (s : State) : ((chargeHost t raw s).tray k).owner = (s.tray k).owner := by
  unfold chargeHost
  rw [tray_modTray_keep (·.owner) (by intro; rfl), tray_congr (s := s) (by simp)]

theorem storeRuns_congr {m n : LineMsg} (kind : ReqKind) (ha : n.addr = m.addr) (hw : n.aw = m.aw) (hk : n.mask = m.mask) :
    storeRuns kind n = storeRuns kind m := by
  simp only [storeRuns, ha, hw, hk]

theorem hostRequest_passes {tag addr : Nat} {kind : ReqKind} {mv : CxlMeta} {mask : BitVec 64} {d : Bytes} {e : Extent}
    (h : hostPasses s t addr (storeRuns kind { addr := addr, mask := mask }) e) (hmask : (kind == .wrMask && mask == 0) = false) :
    hostRequest t tag addr 1 kind mv mask d s = arrive (hostReq (chargeHost t 1 s) kind t tag addr s.mem.nextTrk mv mask d e)
      (takeTrk (hostTracker s t tag addr) (chargeHost t 1 s)).2 := by
  obtain ⟨hworks, htrk, halign, hrange, haccess⟩ := h
  have hoff : addr % 2 ^ 52 = addr := Nat.mod_eq_of_lt hrange
  have hline : addr / 64 % 2 ^ 46 = addr / 64 := by omega
  have hruns : storeRuns kind { txn := tag, addr := addr, mask := mask, data := d } = storeRuns kind { addr := addr, mask := mask } :=
    storeRuns_congr kind rfl rfl rfl
  delta hostRequest
  rw [hline, hoff]
  dsimp only
  rw [if_neg (by rw [hworks]; decide), if_neg (by rw [htrk]; decide), chargeHost_maps, chargeHost_owner, hruns, haccess,
    if_neg (by rw [hmask]; simp [halign]; omega)]
  simp only [takeTrk, hostReq, hostTracker, chargeHost_mem]

theorem cxlWrite_owned {a addr tag : Nat} {d : Bytes} (hw : hostWorks s t = true)
    (ha : (agentsAt s true t).find? (fun a => (s.ent (addr / 64)).owner == some a) = some a) :
    cxlWrite t addr tag (BitVec.allOnes 64) d s = enqueue true t 1 0 (.tray .cmp tag addr 0 [])
      (noticed a (addr / 64) (some (maskMerge (memRead (chargeHost t 1 s) (64 * (addr / 64)) 64) d (BitVec.allOnes 64)))
        (if guarded (chargeHost t 1 s) (64 * (addr / 64)) 64 then chargeHost t 1 s
          else writeBack (addr / 64) (maskMerge (memRead (chargeHost t 1 s) (64 * (addr / 64)) 64) d (BitVec.allOnes 64)) (chargeHost t 1 s))) := by
  delta cxlWrite
  dsimp only
  rw [if_neg (by rw [hw]; decide), ha]
  rfl

theorem cxlWrite_store {addr tag : Nat} {mask : BitVec 64} {d : Bytes} (hw : hostWorks s t = true)
    (ha : (agentsAt s true t).find? (fun a => (s.ent (addr / 64)).owner == some a) = none) :
    cxlWrite t addr tag mask d s = hostRequest t tag addr 1 (if mask == BitVec.allOnes 64 then .wrLine else .wrMask) .i mask d s := by
  delta cxlWrite
  dsimp only
  rw [if_neg (by rw [hw]; decide), ha]

theorem creditResume_lets (hb : ((s.dport true t).sub (subOf s true t 0)).bw.lets s.ns = true)
    (hr : ((s.dport true t).sub (subOf s true t 0)).rq.lets s.ns = true) :
    creditResume t s = modTray t (fun k => { k with creditHeld := false }) s := by
  simp only [creditResume, hb, hr, Bool.and_self, if_true]

theorem dcAccept_offered {base : Nat} {e : Extent} (he : s.maps.cur.exts.find? (·.base == base) = some e) (hb : bit e.hostmask t = true)
    (hn : (s.ext base).accepted.contains t = false) :
    dcAccept t base s = modExt base (fun x => { x with accepted := x.accepted ++ [t] }) s := by
  simp only [dcAccept, he, hb, hn, Bool.not_false, Bool.and_self, if_true]

end

/-- Settles O39. -/
theorem hostRequestsAct : Obligations.HostRequestsAct := by
  have next := fun {s t u : State} (h : t = u) => congrArg (fun t => (Host.Outcome.next (settle s t) : Host.Outcome State Fault Refusal)) h
  refine ⟨?_, ?_, ?_, fun t addr s => rfl, ?_, ?_, fun t base s => rfl⟩
  · intro t addr tag mv e s h
    constructor
    · cases mv <;> exact next (hostRequest_passes h rfl)
    · exact next (hostRequest_passes h rfl)
  · intro t addr tag mask d e s hm h ha
    exact next ((cxlWrite_store h.1 ha).trans (hostRequest_passes h (by rw [beq_eq_false_iff_ne.mpr hm, Bool.and_false])))
  · rintro t addr tag a d s s1 hw rfl ha
    exact next (cxlWrite_owned hw ha)
  · exact fun t s hb hr => next (creditResume_lets hb hr)
  · exact fun t base e s he hb hn => next (dcAccept_offered he hb hn)

end Sys2Proof.Machine
end

section
/-! PROOFS. Agents that crash and leave. -/

namespace Sys2Proof.Machine

section
variable {s : State} {a l : Nat} {g : Agent}

theorem filter_eq_nil_of_any {α : Type} {p : α → Bool} {l : List α} (h : l.any p = false) : l.filter p = [] :=
  List.filter_eq_nil_iff.mpr fun x hx => List.any_eq_false.mp h x hx

theorem snoopTimeout_due {x : Snoop} (hx : x ∈ s.dir.snoops) (ha : x.agent = a) (hl : x.line = l) (ht : x.at_ + 1000000 ≤ s.t) :
    snoopTimeout a l s = crashAgent a s :=
  if_pos (List.any_eq_true.mpr ⟨x, hx, by simp [ha, hl, ht]⟩)

theorem writebackTimeout_due {x : Snoop} (hx : x ∈ s.dir.awaits) (ha : x.agent = a) (hl : x.line = l) (ht : x.at_ + 1000000 ≤ s.t) :
    writebackTimeout a l s = crashAgent a s :=
  if_pos (List.any_eq_true.mpr ⟨x, hx, by simp [ha, hl, ht]⟩)

theorem strokeReqs_withDir (f : LineReq → Bool) (d : Dir) : strokeReqs f { s with dir := d } = strokeReqs f s := rfl

theorem dropStrokeReqs_none {f : LineReq → Bool} (h : strokeReqs f s = []) (d : Dir) :
    dropStrokeReqs f { s with dir := d } = { s with dir := d } :=
  if_pos (by rw [strokeReqs_withDir, h]; rfl)

/-- The walk of an agent of which nothing is in the directory: no request ends, no line is reclaimed (R309). -/
theorem agentCrash_idle (hg : g ∈ s.dir.agents) (hid : g.id = a) (hc : g.crashed = true) (hw : g.walking = false)
    (hq : (s.dir.waitq.any fun q => q.agent == some a) = false) (htx : (s.dir.txs.any fun x => x.req.agent == some a) = false)
    (hsn : ((s.dir.snoops ++ s.dir.awaits).any fun x => x.agent == a) = false) (hst : strokeReqs (·.agent == some a) s = [])
    (hack : (s.dir.acks.any fun x => x.req.agent == some a) = false) :
    agentCrash a s = { s with dir := { s.dir with
      agents := modWhere (·.id == a) (fun g => { g with walking := true }) s.dir.agents
      waitq := s.dir.waitq.filter (·.agent != some a)
      acks := s.dir.acks.filter (·.req.agent != some a)
      snoops := s.dir.snoops.filter (·.agent != a)
      awaits := s.dir.awaits.filter (·.agent != a) } } := by
  have hany : (s.dir.agents.any fun g => g.id == a && g.crashed && !g.walking) = true :=
    List.any_eq_true.mpr ⟨g, hg, by simp [hid, hc, hw]⟩
  have hacks : (s.dir.acks.map (·.req)).filter (·.agent == some a) = [] :=
    filter_eq_nil_of_any (by rwa [List.any_map])
  delta agentCrash
  rw [if_neg (by rw [hany]; decide)]
  simp only [filter_eq_nil_of_any hq, filter_eq_nil_of_any htx, filter_eq_nil_of_any hsn, hacks, List.foldl_nil, List.map_nil,
    strokeReqs_withDir, hst, dropStrokeReqs_none hst, List.nil_append]

theorem reclaimWalkEnd_clear (hg : s.dir.agents.find? (fun g => g.id == a && g.walking) = some g)
    (he : (s.dir.ents.any fun d => d.sharers.contains a) = false) :
    reclaimWalkEnd a s = eventMO 0x0010 (some g.part) [a, g.lost] { s with dir.agents := s.dir.agents.filter (·.id != a) } := by
  simp only [reclaimWalkEnd, hg, filter_eq_nil_of_any he, List.map_nil, List.foldl_nil]

theorem agentReclaimEnd_clear (hg : g ∈ s.dir.agents) (hid : g.id = a) (hl : g.leaving = true) (hc : g.crashed = false)
    (he : (s.dir.ents.any fun d => d.sharers.contains a) = false) (hsn : (s.dir.snoops.any fun x => x.agent == a) = false)
    (haw : (s.dir.awaits.any fun x => x.agent == a) = false) (htx : (s.dir.txs.any fun x => x.req.agent == some a) = false)
    (hq : (s.dir.waitq.any fun q => q.agent == some a) = false) (hst : strokeReqs (·.agent == some a) s = [])
    (hack : (s.dir.acks.any fun x => x.req.agent == some a) = false) :
    agentReclaimEnd a s = { s with dir.agents := s.dir.agents.filter (·.id != a) } := by
  have hany : (s.dir.agents.any fun g => g.id == a && g.leaving && !g.crashed) = true :=
    List.any_eq_true.mpr ⟨g, hg, by simp [hid, hl, hc]⟩
  unfold agentReclaimEnd
  rw [if_neg (by rw [hany]; decide), if_neg (by rw [he, hsn, haw, htx, hq, hst, hack]; decide)]

end

/-- Settles O40. -/
theorem agentsCrashAndLeave : Obligations.AgentsCrashAndLeave := by
  have next := fun {s t u : State} (h : t = u) => congrArg (fun t => (Host.Outcome.next (settle s t) : Host.Outcome State Fault Refusal)) h
  refine ⟨?_, ?_, ?_, ?_, ?_⟩
  · exact fun a l x s hx ha hl ht => next (snoopTimeout_due hx ha hl ht)
  · exact fun a l x s hx ha hl ht => next (writebackTimeout_due hx ha hl ht)
  · intro a g s hg hid hc hw hq htx hsn hst hack
    refine ⟨_, next (agentCrash_idle hg hid hc hw hq htx hsn hst hack), ?_, ?_, ?_, ?_, ?_⟩
    · rw [settle_dir]
    · rw [settle_dir]
    · rw [settle_mem]
    · rw [settle_maps]
    · rw [settle_sax]
  · exact fun a g s hg he => next (reclaimWalkEnd_clear hg he)
  · exact fun a g s hg hid hl hc he hsn haw htx hq hst hack => next (agentReclaimEnd_clear hg hid hl hc he hsn haw htx hq hst hack)

end Sys2Proof.Machine
end

section
/-! PROOFS. Atomics of a line, DEVICE-OWNED, and segments. -/

namespace Sys2Proof.Machine

section
variable {s : State} {l c base : Nat} {x : Tx} {e : Extent} {g : Segment}

/-! ### Recalls and channels -/

/-- What sending a snoop leaves alone: all but the directory's open snoops and the ports' frames. -/
theorem snoopAgent_keep {β : Type} (F : State → β)
    (hsn : ∀ (s : State) n sn, F { s with dir := { s.dir with nextSnp := n, snoops := sn } } = F s)
    (henq : ∀ b p v ep o s, F (enqueue b p v ep o s) = F s) (hsend : ∀ p d x o l s, F (sendSnp p d x o l s) = F s)
    (a l kind : Nat) (d : Bytes) (s : State) : F (snoopAgent a l kind d s) = F s := by
  unfold snoopAgent
  split
  · rfl
  · dsimp only
    split
    · rfl
    · split
      · rw [henq, hsn]
      · split
        · rw [henq, hsn]
        · rw [hsend, hsn]

theorem recallAll_keep {β : Type} (F : State → β)
    (hsn : ∀ (s : State) n sn, F { s with dir := { s.dir with nextSnp := n, snoops := sn } } = F s)
    (henq : ∀ b p v ep o s, F (enqueue b p v ep o s) = F s) (hsend : ∀ p d x o l s, F (sendSnp p d x o l s) = F s)
    (q : DirEnt → Bool) (s : State) : F (recallAll q s) = F s :=
  foldl_keep F _ (fun _ _ => snoopAgent_keep F hsn henq hsend ..) _ _

@[simp] theorem recallAll_mem (q : DirEnt → Bool) (s : State) : (recallAll q s).mem = s.mem :=
  recallAll_keep State.mem (by intros; rfl) enqueue_mem sendSnp_mem q s
@[simp] theorem recallAll_maps (q : DirEnt → Bool) (s : State) : (recallAll q s).maps = s.maps :=
  recallAll_keep State.maps (by intros; rfl) enqueue_maps sendSnp_maps q s
@[simp] theorem recallAll_ents (q : DirEnt → Bool) (s : State) : (recallAll q s).dir.ents = s.dir.ents :=
  recallAll_keep (fun s => s.dir.ents) (by intros; rfl) (by intros; rw [enqueue_dir]) (by intros; rw [sendSnp_dir]) q s
@[simp] theorem recallAll_segs (q : DirEnt → Bool) (s : State) : (recallAll q s).dir.segs = s.dir.segs :=
  recallAll_keep (fun s => s.dir.segs) (by intros; rfl) (by intros; rw [enqueue_dir]) (by intros; rw [sendSnp_dir]) q s

theorem lineDamaged_modChan {f : Chan → Chan} (hd : ∀ k, (f k).damaged = k.damaged) (hr : ∀ k, (f k).retired = k.retired)
    (hg : ∀ k, (f k).retiring = k.retiring) (c : Nat) (s : State) (e : Extent) (o : Nat) :
    lineDamaged (modChan c f s) e o = lineDamaged s e o := by
  have hext : (modChan c f s).ext = s.ext := rfl
  have hmir : mirrored (modChan c f s) e = mirrored s e := rfl
  have htwin : (modChan c f s).twin = s.twin := rfl
  simp only [lineDamaged, viaTwin, hext, hmir, htwin, unzeroed_modChan, tabled_modChan hd, chan_modChan_keep Chan.retired hr,
    chan_modChan_keep Chan.retiring hg]

/-- The channel of a line whose atomic runs under a hold: a stroke has started on it (R180). -/
def holdServed (e : Extent) (l : Nat) (s : State) : State :=
  match chanOf e (64 * l) with
  | some c => modChan c (fun k => { k with strokeAt := s.t, served := 0 }) s
  | none => s

theorem holdServed_keep {β : Type} (F : State → β) (hF : ∀ c f s, F (modChan c f s) = F s) (e : Extent) (l : Nat) (s : State) :
    F (holdServed e l s) = F s := by
  unfold holdServed
  split
  · exact hF ..
  · rfl

theorem lineDamaged_holdServed (e' : Extent) (o : Nat) : lineDamaged (holdServed e l s) e' o = lineDamaged s e' o := by
  unfold holdServed
  split
  · exact lineDamaged_modChan (by intro; rfl) (by intro; rfl) (by intro; rfl) ..
  · rfl

theorem tabled_holdServed (d : Nat) (e' : Extent) (k : Nat) : tabled (holdServed e l s) d e' k = tabled s d e' k := by
  unfold holdServed
  split
  · exact tabled_modChan (by intro; rfl) ..
  · rfl

/-! ### Atomics -/

theorem holdAtomic_runs (hx : s.dir.txs.find? (fun x => x.line == l && x.phase == .hold) = some x) (he : anyExtent s (64 * l) = some e)
    (hd : lineDamaged s e (64 * l) = false) (hw : s.mem.weak.any (·.1 == l) = false)
    (hc : ∀ c, chanOf e (64 * l) = some c → strokeFree s c = true ∧ tabled s c e l = false) :
    holdAtomic l s = storeDone s.twin.nextTxn x.req (applyAtomic x.req.m (memRead s (64 * l) 64)).2
      (storeLine l (applyAtomic x.req.m (memRead s (64 * l) 64)).1 (dropTx l (holdServed e l s))) := by
  have hfree : ((chanOf e (64 * l)).elim false fun c => !strokeFree s c && !chanGone (s.chan c)) = false := by
    cases h : chanOf e (64 * l) with
    | none => rfl
    | some c => simp [(hc c h).1]
  have hmem : (holdServed e l s).mem = s.mem := holdServed_keep State.mem modChan_mem ..
  have hread : readLine l (holdServed e l s) = (true, holdServed e l s) := by
    refine readLine_sound (e := e) ?_ ?_ ?_
    · rwa [anyExtent_congr (holdServed_keep State.maps modChan_maps ..)]
    · rwa [hmem]
    · exact fun c h => (tabled_holdServed ..).trans (hc c h).2
  have htwin : (holdServed e l s).twin = s.twin := holdServed_keep State.twin modChan_twin ..
  delta holdAtomic
  dsimp only
  rw [hx]
  dsimp only
  rw [he]
  dsimp only
  rw [if_neg (by rw [hfree]; decide)]
  change (if (!(readLine l (holdServed e l s)).1 || lineDamaged (holdServed e l s) e (64 * l)) = true then _ else
    storeDone (holdServed e l s).twin.nextTxn x.req (applyAtomic x.req.m (memRead (readLine l (holdServed e l s)).2 (64 * l) 64)).2
      (storeLine l (applyAtomic x.req.m (memRead (readLine l (holdServed e l s)).2 (64 * l) 64)).1
        (dropTx l (readLine l (holdServed e l s)).2))) = _
  rw [hread, if_neg (by rw [lineDamaged_holdServed, hd]; exact Bool.false_ne_true), htwin, memRead_congr hmem]

theorem homeAtomic_runs (hx : s.dir.txs.find? (fun x => x.line == l && x.phase == .home) = some x) (he : anyExtent s (64 * l) = some e)
    (hd : lineDamaged s e (64 * l) = false) (hrun : atomicRun l s.dir.waitq = []) (hw : s.mem.weak.any (·.1 == l) = false)
    (hc : ∀ c, chanOf e (64 * l) = some c → tabled s c e l = false) (hturn : homeTurn s x e = true) :
    homeAtomic l s = storeDone s.twin.nextTxn x.req (applyAtomic x.req.m (memRead s (64 * l) 64)).2
      (if e.tray then trayFrame 0 l e true (applyAtomic x.req.m (memRead s (64 * l) 64)).1
          (storeLine l (applyAtomic x.req.m (memRead s (64 * l) 64)).1 (dropTx l s))
        else storeLine l (applyAtomic x.req.m (memRead s (64 * l) 64)).1 (dropTx l s)) := by
  have hread : readLine l (dropTx l s) = (true, dropTx l s) := readLine_sound (e := e) he hw hc
  delta homeAtomic
  dsimp only
  rw [hx]
  dsimp only
  rw [he]
  dsimp only
  rw [hturn, hrun]
  simp only [Bool.not_true, Bool.false_eq_true, if_false, List.take_nil, takeAtomics, List.foldl_nil, hread, Bool.false_or]
  rw [if_neg (by rw [hd]; decide)]
  rfl

/-! ### DEVICE-OWNED and segments -/

theorem devownRecallEnd_clear {j : Nat} (hj : (s.ext base).recallJob = some j) (he : s.maps.cur.exts.find? (·.base == base) = some e)
    (hents : (s.dir.ents.any fun d => inExt e d.line && !d.sharers.isEmpty) = false) (hsn : (s.dir.snoops.any fun x => inExt e x.line) = false)
    (haw : (s.dir.awaits.any fun x => inExt e x.line) = false) :
    devownRecallEnd base s = finish j .ok 0 [] (setDevown base true (modExt base (fun x => { x with recallJob := none }) s)) := by
  simp only [devownRecallEnd, hj, he, hents, hsn, haw, Bool.or_self, Bool.false_eq_true, if_false]

/-- The segment that an acquisition opens. -/
def newSegment (c first n : Nat) (s : State) : State :=
  { s with dir.segs := s.dir.segs ++ [{ chan := c, first := first, lines := n, at_ := s.t }] }

theorem exists_segmentAcquire {first n : Nat} (he : anyExtent s (64 * first) = some e) (h1 : 1 ≤ n) (hn : n ≤ 16384) (hcoh : e.coh = true)
    (hdev : e.devown = true) (hend : inExt e (first + n - 1) = true) (hc : chanOf e (64 * first) = some c) (hsegs : s.dir.segs = [])
    (hq : s.dir.waitq = []) (hrel : releasing s e = false) (hclear : (s.ext e.base).clearJob = none) (hown : s.chanOwner c = some e.part) :
    ∃ f, segmentAcquire c first n s = recallAll f (newSegment c first n s) := by
  delta segmentAcquire
  dsimp only
  rw [he]
  dsimp only
  rw [if_neg]
  · exact ⟨_, rfl⟩
  · have hn' : ¬ 16384 < n := by omega
    have h0 : n ≠ 0 := by omega
    simp [h0, hn', hcoh, hdev, hend, hc, hsegs, hq, hrel, hclear, hown]

@[simp] theorem refill_dir (c : Nat) (s : State) : (refill c s).dir = s.dir := by
  simp only [refill]
  split <;> rfl
@[simp] theorem refill_mem (c : Nat) (s : State) : (refill c s).mem = s.mem := by
  simp only [refill]
  split <;> rfl
@[simp] theorem refill_maps (c : Nat) (s : State) : (refill c s).maps = s.maps := by
  simp only [refill]
  split <;> rfl

theorem joinStroke_keep {β : Type} (F : State → β) (hF : ∀ c f s, F (modChan c f s) = F s) (c : Nat) (q : LineReq) (s : State) :
    F (joinStroke c q s).2 = F s := by
  simp only [joinStroke]
  split
  · split
    · exact hF ..
    · split
      · exact hF ..
      · rfl
  · exact hF ..

/-- What the atomics that waited in front of a segment leave alone as they join strokes. -/
theorem frontJoins_keep {β : Type} (F : State → β) (hC : ∀ c f s, F (modChan c f s) = F s)
    (hP : ∀ l (s : State) w, F (predict l { s with dir.waitq := w }) = F s) (qs : List LineReq) (s : State) :
    F (qs.foldl (fun s q =>
      let r := joinStroke c q (predict q.line { s with dir.waitq := s.dir.waitq.erase q })
      if r.1 then r.2 else s) s) = F s := by
  refine foldl_keep F _ (fun s q => ?_) qs s
  dsimp only
  split
  · rw [joinStroke_keep F hC, hP]
  · rfl

theorem segmentAcquired_keep {β : Type} (F : State → β) (hC : ∀ c f s, F (modChan c f s) = F s) (hR : ∀ c s, F (refill c s) = F s)
    (hP : ∀ l (s : State) w, F (predict l { s with dir.waitq := w }) = F s)
    (hg : s.dir.segs.find? (fun g => g.chan == c && !g.held) = some g) (hclear : segClear s g = true) :
    F (segmentAcquired c s) = F { s with dir.segs := modWhere (· == g) (fun g => { g with held := true }) s.dir.segs } := by
  delta segmentAcquired
  dsimp only
  rw [hg]
  dsimp only
  rw [hclear, if_neg (by decide), frontJoins_keep F hC hP, hR]

theorem segmentAbandon_late (hg : s.dir.segs.find? (fun g => g.chan == c && !g.held) = some g) (hclear : segClear s g = false)
    (ht : g.at_ + 16000 ≤ s.t) :
    segmentAbandon c s = clearCheck (event 0x000F true [] (s.chanOwner c) [c, 64 * g.first]
      { s with dir.segs := s.dir.segs.filter (· != g) }) := by
  unfold segmentAbandon
  rw [hg]
  dsimp only
  rw [if_neg (by rw [hclear]; simpa using ht)]

theorem clearCheck_none (h : (s.maps.ext.any fun x => x.clearJob.isSome) = false) : clearCheck s = s := by
  rw [clearCheck, filter_eq_nil_of_any h, List.foldl_nil]

theorem exists_segmentRelease (hg : s.dir.segs.find? (fun g => g.chan == c && g.held) = some g)
    (hext : (s.maps.ext.any fun x => x.clearJob.isSome) = false) (hrun : (s.chan c).running = none) :
    ∃ f, segmentRelease c s = { modChan c f s with dir.segs := s.dir.segs.filter (· != g) } := by
  delta segmentRelease
  dsimp only
  rw [hg]
  dsimp only
  rw [hrun, if_neg (by exact Bool.false_ne_true), clearCheck_none (by exact hext)]
  exact ⟨_, rfl⟩

end

/-- Settles O41. -/
theorem atomicsAndSegmentsAct : Obligations.AtomicsAndSegmentsAct := by
  have next := fun {s t u : State} (h : t = u) => congrArg (fun t => (Host.Outcome.next (settle s t) : Host.Outcome State Fault Refusal)) h
  refine ⟨?_, ?_, ?_, ?_, ?_, ?_, ?_⟩
  · exact fun l x e s hx he hd hw hc => next (holdAtomic_runs hx he hd hw hc)
  · exact fun l x e s hx he hd hrun hw hc hturn => next (homeAtomic_runs hx he hd hrun hw hc hturn)
  · exact fun base j e s hj he hents hsn haw => next (devownRecallEnd_clear hj he hents hsn haw)
  · intro c first n e s he h1 hn hcoh hdev hend hc hsegs hq hrel hclear hown
    obtain ⟨f, hf⟩ := exists_segmentAcquire he h1 hn hcoh hdev hend hc hsegs hq hrel hclear hown
    refine ⟨_, next hf, ?_, ?_, ?_, ?_⟩
    · rw [settle_dir, recallAll_segs, newSegment, hsegs]
      rfl
    · rw [settle_mem, recallAll_mem]
      rfl
    · rw [settle_maps, recallAll_maps]
      rfl
    · rw [settle_dir, recallAll_ents]
      rfl
  · intro c g s hg hclear
    refine ⟨_, rfl, ?_, ?_, ?_⟩
    · rw [settle_dir, segmentAcquired_keep (fun s => s.dir.segs) (by intros; rfl) (by intros; rw [refill_dir]) (by intros; rfl) hg hclear]
    · rw [settle_mem, segmentAcquired_keep State.mem modChan_mem refill_mem (by intros; rfl) hg hclear]
    · rw [settle_maps, segmentAcquired_keep State.maps modChan_maps refill_maps (by intros; rfl) hg hclear]
  · exact fun c g s hg hclear ht => next (segmentAbandon_late hg hclear ht)
  · intro c g s hg hext hrun
    obtain ⟨f, hf⟩ := exists_segmentRelease hg hext hrun
    refine ⟨_, next hf, ?_, ?_, ?_, ?_⟩
    · rw [settle_dir]
    · rw [settle_mem]
      rfl
    · rw [settle_maps]
      rfl
    · rw [settle_dir]
      rfl

end Sys2Proof.Machine
end

section
/-! PROOFS. The directory's commands. -/

namespace Sys2Proof.Machine

section
variable {s : State} {j : Job} {x : Part} {e : Extent}

theorem length_flatMap_of_const {α β : Type} {l : List α} {f : α → List β} {n : Nat} (h : ∀ a ∈ l, (f a).length = n) :
    (l.flatMap f).length = n * l.length := by
  rw [List.length_flatMap, List.map_congr_left h, List.map_const', List.sum_replicate, smul_eq_mul, Nat.mul_comm]

theorem exists_dirRead (hz : zeroAt j.payload 1 1 = true) (hn : fldLE j.payload 0 1 ≤ 95) (hcnt : fldLE j.payload 4 2 ≤ 256)
    (hend : fldLE j.payload 2 2 + fldLE j.payload 4 2 ≤ 65536) :
    ∃ b, dirRead j s = (.done .ok 0 b, s) ∧ b.length = 16 * fldLE j.payload 4 2 := by
  delta dirRead
  dsimp only
  rw [if_neg (by simp only [hz, Bool.not_true, Bool.false_or, Bool.or_eq_true, decide_eq_true_eq]; omega)]
  refine ⟨_, rfl, (length_flatMap_of_const (n := 16) fun i _ => ?_).trans (by rw [List.length_range])⟩
  cases s.dir.ents.find? _ with
  | none => rw [Option.map_none, Option.getD_none, List.length_replicate]
  | some d => rw [Option.map_some, Option.getD_some, dirBytes, length_toLE]

/-- The lost entries that meet a test stand for nothing any more (R310, R459). -/
def clearLost (f : DirEnt → Bool) (s : State) : State :=
  { s with dir.ents := modWhere (fun d => d.lost && f d) (fun d => { d with st := .i, sharers := [], fwd := 0, lost := false }) s.dir.ents }

theorem lineClear_all (hz : zeroAt j.payload 2 6 = true) (hall : fldLE j.payload 1 1 = 1) (hx : s.part? (fldLE j.payload 0 1) = some x) :
    lineClear j s = (.ok, clearLost (fun d => (s.nooksOf (fldLE j.payload 0 1)).contains d.nook)
      { s with dir.setLost := s.dir.setLost.filter fun y => !(s.nooksOf (fldLE j.payload 0 1)).contains y.1 }) := by
  delta lineClear
  dsimp only
  rw [if_neg (by rw [hz, hall]; decide), if_neg (by rw [hx]; exact Bool.false_ne_true), if_pos hall]
  rfl

theorem lineClear_one (hz : zeroAt j.payload 2 6 = true) (hall : fldLE j.payload 1 1 = 0) (hx : s.part? (fldLE j.payload 0 1) = some x)
    (he : anyExtent s (fldLE j.payload 8 8) = some e) (hp : e.part = fldLE j.payload 0 1) :
    lineClear j s = (.ok, clearLost (fun d => d.line == fldLE j.payload 8 8 / 64) s) := by
  delta lineClear
  dsimp only
  rw [if_neg (by rw [hz, hall]; decide), if_neg (by rw [hx]; exact Bool.false_ne_true), if_neg (by rw [hall]; decide), he]
  dsimp only
  rw [if_pos hp]
  rfl

theorem exists_lostlogRead (hz : zeroAt j.payload 1 3 = true) (hx : s.part? (fldLE j.payload 0 1) = some x) :
    ∃ b, lostlogRead j s = (.done .ok 0 b, s) ∧ b.length ≤ 4088 := by
  delta lostlogRead
  dsimp only
  rw [if_neg (by rw [hz]; decide), if_neg (by rw [hx]; exact Bool.false_ne_true)]
  refine ⟨_, rfl, ?_⟩
  rw [length_flatMap_of_const (n := 8) (fun o _ => length_toLE 8 o), List.length_take]
  omega

/-! ### Peers -/

theorem startLeave_keep {β : Type} (F : State → β)
    (hag : ∀ (s : State) g, F { s with dir.agents := g } = F s)
    (hsn : ∀ (s : State) n sn, F { s with dir := { s.dir with nextSnp := n, snoops := sn } } = F s)
    (henq : ∀ b p v ep o s, F (enqueue b p v ep o s) = F s) (hsend : ∀ p d x o l s, F (sendSnp p d x o l s) = F s)
    (p : Nat) (s : State) : F (startLeave p s) = F s := by
  unfold startLeave
  split
  · rfl
  · exact (foldl_keep F _ (fun _ _ => snoopAgent_keep F hsn henq hsend ..) _ _).trans (hag ..)

@[simp] theorem startLeave_mem (p : Nat) (s : State) : (startLeave p s).mem = s.mem :=
  startLeave_keep State.mem (by intros; rfl) (by intros; rfl) enqueue_mem sendSnp_mem p s
@[simp] theorem startLeave_sax (p : Nat) (s : State) : (startLeave p s).sax = s.sax :=
  startLeave_keep State.sax (by intros; rfl) (by intros; rfl) enqueue_sax sendSnp_sax p s
@[simp] theorem startLeave_ents (p : Nat) (s : State) : (startLeave p s).dir.ents = s.dir.ents :=
  startLeave_keep (fun s => s.dir.ents) (by intros; rfl) (by intros; rfl) (by intros; rw [enqueue_dir]) (by intros; rw [sendSnp_dir]) p s

theorem peerAdmit_plain (hc : fldLE j.payload 1 1 = 0) (hk : (s.port (fldLE j.payload 0 1)).kind = 0)
    (ho : (s.port (fldLE j.payload 0 1)).owner = some j.part) (hph : (s.port (fldLE j.payload 0 1)).sess.phase = 3) :
    peerAdmit j s = (.ok, modPort (fldLE j.payload 0 1) (fun x => { x with admitted := true, caching := false })
      (startLeave (fldLE j.payload 0 1) s)) := by
  simp [peerAdmit, hc, hk, ho, hph]

theorem peerAdmit_caching (hc : fldLE j.payload 1 1 = 1) (hk : (s.port (fldLE j.payload 0 1)).kind = 0)
    (ho : (s.port (fldLE j.payload 0 1)).owner = some j.part) (hph : (s.port (fldLE j.payload 0 1)).sess.phase = 3)
    (hp : (s.port (fldLE j.payload 0 1)).peer.elim false (·.caching) = true) (ha : (agentOn s false (fldLE j.payload 0 1)).isSome = true) :
    peerAdmit j s = (.ok, modPort (fldLE j.payload 0 1) (fun x => { x with admitted := true, caching := true }) s) := by
  simp [peerAdmit, hc, hk, ho, hph, hp, ha]

theorem peerEvict_owned (hk : (s.port (fldLE j.payload 0 1)).kind = 0) (ho : (s.port (fldLE j.payload 0 1)).owner = some j.part) :
    peerEvict j s = (.ok, modPort (fldLE j.payload 0 1) (fun x => { x with admitted := false, caching := false })
      (startLeave (fldLE j.payload 0 1) s)) := by
  simp [peerEvict, hk, ho]

end

/-- Settles O42. -/
theorem directoryCommandsComplete : Obligations.DirectoryCommandsComplete := by
  refine ⟨?_, ?_, ?_, ?_, ?_, ?_, ?_⟩
  · intro m j s h hz hn hcnt hend
    obtain ⟨b, hb, hlen⟩ := exists_dirRead (s := startJob j s) hz hn hcnt hend
    exact ⟨b, exec_done rfl h hb, hlen⟩
  · exact fun m j x s h hz hall hx => ⟨_, exec_simply rfl h (lineClear_all (s := startJob j s) hz hall hx), rfl, rfl, rfl, rfl⟩
  · exact fun m j e x s h hz hall hx he hp =>
      ⟨_, exec_simply rfl h (lineClear_one (s := startJob j s) hz hall hx he hp), rfl, rfl, rfl⟩
  · intro m j x s h hz hx
    obtain ⟨b, hb, hlen⟩ := exists_lostlogRead (s := startJob j s) hz hx
    exact ⟨b, exec_done rfl h hb, hlen⟩
  · intro m j s h hc p hk ho hph
    refine ⟨_, exec_simply rfl h (peerAdmit_plain (s := startJob j s) hc hk ho hph), ?_, ?_⟩
    · simp only [modPort, startLeave_sax, startJob_sax, p]
    · rw [modPort_mem, startLeave_mem, startJob_mem]
  · exact fun m j s h hc hk ho hph hp ha =>
      ⟨_, exec_simply rfl h (peerAdmit_caching (s := startJob j s) hc hk ho hph hp ha), rfl, rfl, rfl⟩
  · intro m j s h p hk ho
    refine ⟨_, exec_simply rfl h (peerEvict_owned (s := startJob j s) hk ho), ?_, ?_, ?_⟩
    · simp only [modPort, startLeave_sax, startJob_sax, p]
    · rw [modPort_mem, startLeave_mem, startJob_mem]
    · rw [modPort_dir, startLeave_ents, startJob_dir]

end Sys2Proof.Machine
end

section
/-! PROOFS. EXTENT_SET_ATTR where a tray key may not be issued (R269, R390). -/

namespace Sys2Proof.Machine

/-- A tray extent whose partition has no tray memory key for it. -/
def keylessExtent : Extent := { base := 64, granules := 1, nook := 1, part := 1, tray := true }

/-- EXTENT_SET_ATTR that sets DEVICE-OWNED of extent 64. -/
def setDevownJob : Job := { id := 1, op := 0x0403, part := 1, payload := [64, 0, 0, 0, 1, 0, 0, 0] }

/-- The TRNG has failed, and the manager's mailbox holds the command. -/
def keylessState : State :=
  { State.reset with
    power := { State.reset.power with trngFail := true }
    maps := { State.reset.maps with cur := { epoch := 1, exts := [keylessExtent] } }
    mantel := { State.reset.mantel with jobs := [setDevownJob] } }

theorem keylessState_mayRun : mayRun keylessState .a 0x0403 setDevownJob := by decide +kernel

theorem extentSetAttr_keyMissing : extentSetAttr setDevownJob (startJob setDevownJob keylessState)
    = (.done .busy, startJob setDevownJob keylessState) := by
  rfl

theorem exec_extentSetAttr_keyMissing : exec (.extentSetAttr .a) keylessState =
    .next (settle keylessState (finish setDevownJob.id .busy 0 [] (startJob setDevownJob keylessState))) :=
  exec_done rfl keylessState_mayRun extentSetAttr_keyMissing

/-- Refutes O43: its EXTENT_SET_ATTR clause asks for no tray memory key. With a failed TRNG and no key of the extent's tray port the
command ends BUSY (`keyMissing`), and the extent is not DEVICE-OWNED after it. -/
theorem not_mapCommandsComplete : ¬ Obligations.MapCommandsComplete := by
  rintro ⟨⟨-, -, hset, -⟩, -⟩
  have h := hset .a setDevownJob keylessExtent keylessState keylessState_mayRun rfl rfl rfl rfl rfl rfl rfl rfl rfl rfl rfl
  have ht := Host.Outcome.next.inj (exec_extentSetAttr_keyMissing.symm.trans h)
  have hmaps := congrArg (fun t : State => t.maps.cur.exts.any (·.devown)) ht
  simp only [settle_maps, finish_maps] at hmaps
  exact absurd hmaps (by decide)

end Sys2Proof.Machine
end

section
/-! PROOFS. Commits of the map, releases and mirror copies. -/

namespace Sys2Proof.Machine

section
variable {s : State} {base : Nat} {r : Release} {e : Extent}

/-! ### What an answer leaves alone -/

theorem leaveWaiting_mirror (s : State) : (leaveWaiting s).mem.mirror = s.mem.mirror := by
  unfold leaveWaiting
  split
  · rfl
  · dsimp only
    split
    · rw [enqueue_mem]
    · rfl

theorem fencesGo_mirror (s : State) : (fencesGo s).mem.mirror = s.mem.mirror :=
  foldl_keep (fun s : State => s.mem.mirror) _ (by intros; rw [sendCmp_mem]) _ _

@[simp] theorem freeTrk_mirror (i : Nat) (s : State) : (freeTrk i s).mem.mirror = s.mem.mirror := by
  rw [freeTrk, fencesGo_mirror, leaveWaiting_mirror]

/-- An answer changes trackers, frames of the ports and the results of engines alone. -/
theorem answerReq_keep {β : Type} (F : State → β) (hE : ∀ b p v ep o s, F (enqueue b p v ep o s) = F s)
    (hC : ∀ p q st g h o v s, F (sendCmp p q st g h o v s) = F s) (hT : ∀ i s, F (freeTrk i s) = F s)
    (hR : ∀ (s : State) r, F { s with dir.eng := r } = F s) (q : LineReq) (st : Status) (grant old : Nat) (data : Option Bytes)
    (ltag : Option Nat) (s : State) : F (answerReq q st grant old data ltag s) = F s := by
  unfold answerReq
  split
  · exact hT ..
  · split
    · rw [hT, hC]
      cases data with
      | none => rfl
      | some d => exact hE ..
    · exact hC ..
    · dsimp only
      rw [hT]
      split
      · rw [hE]
        cases data with
        | none => rfl
        | some d =>
          dsimp only
          split
          · exact hE ..
          · rfl
      · split <;> simp only [hE]
    · exact hR ..

/-! ### Commits -/

theorem mapCommitAct_due {c : Commit} (hc : s.maps.commit = some c) (ht : c.atSlot ≤ s.slot) :
    mapCommitAct s = finish c.job .ok 0 [] (commitNow c.newEpoch s) := by
  simp only [mapCommitAct, hc]
  rw [if_neg (Nat.not_lt.mpr ht)]

theorem mapRetire_idle {v : MapV} (hv : s.maps.prev = some v) (h : inFlight s v.epoch = 0) : mapRetire s = { s with maps.prev := none } := by
  simp only [mapRetire, hv, h, if_true]

/-! ### The deadline of a release -/

theorem invalidateHosts_keep {β : Type} (F : State → β) (hE : ∀ b p v ep o s, F (enqueue b p v ep o s) = F s)
    (hN : ∀ (s : State) n, F { s with dir.nextSnp := n } = F s) (r : Release) (s : State) : F (invalidateHosts r s) = F s :=
  foldl_keep F _ (fun _ _ => (hE ..).trans (hN ..)) _ _

theorem dropFrames_keep {β : Type} (F : State → β) (hD : ∀ b p f s, F (modD b p f s) = F s) (e : Extent) (l : Nat) (s : State) :
    F (dropFrames e l s) = F s := by
  unfold dropFrames
  split
  · rfl
  · exact foldl_keep F _ (fun _ _ => hD ..) _ _

theorem dropStrokeReqs_keep {β : Type} (F : State → β) (hC : ∀ (s : State) k, F { s with chans := k } = F s) (q : LineReq → Bool) (s : State) :
    F (dropStrokeReqs q s) = F s := by
  unfold dropStrokeReqs
  split
  · rfl
  · exact hC ..

/-- The state in which the requests to a released extent are answered EXTENT_GONE (R274): none of them is open any more. -/
def releaseClosed (base : Nat) (r : Release) (s : State) : State :=
  let s := (s.dir.txs.filter fun x => inExt r.ext x.req.line).foldl (fun s x => dropFrames r.ext x.line s)
    (invalidateHosts r (dropStrokeReqs (fun q => inExt r.ext q.line) s))
  { s with
    maps.rels := modWhere (·.ext.base == base) (fun r => { r with closed := true }) s.maps.rels
    dir := { s.dir with
      waitq := s.dir.waitq.filter fun q => !inExt r.ext q.line, txs := s.dir.txs.filter fun x => !inExt r.ext x.req.line
      acks := s.dir.acks.filter fun a => !inExt r.ext a.req.line
      snoops := s.dir.snoops.filter fun x => !inExt r.ext x.line, awaits := s.dir.awaits.filter fun x => !inExt r.ext x.line
      wbs := s.dir.wbs.filter fun x => !inExt r.ext x.line, ents := s.dir.ents.filter fun d => !inExt r.ext d.line
      segs := s.dir.segs.filter fun g => !inExt r.ext g.first } }

theorem exists_releaseDeadline (hr : s.maps.rels.find? (·.ext.base == base) = some r) (hc : r.closed = false) (ht : r.at_ + 2000000 ≤ s.t) :
    ∃ out : List LineReq, releaseDeadline base s =
      out.foldl (fun s q => answerReq q .extentGone 0 0 none none s) (releaseClosed base r s) := by
  delta releaseDeadline
  dsimp only
  rw [hr]
  dsimp only
  rw [if_neg (by rw [hc]; simpa using ht)]
  exact ⟨_, rfl⟩

/-- What closing a release leaves of a part of the state that frames, strokes and snoop numbers are not in. -/
theorem releaseClosed_before {β : Type} (F : State → β) (hE : ∀ b p v ep o s, F (enqueue b p v ep o s) = F s)
    (hN : ∀ (s : State) n, F { s with dir.nextSnp := n } = F s) (hD : ∀ b p f s, F (modD b p f s) = F s)
    (hC : ∀ (s : State) k, F { s with chans := k } = F s) (r : Release) (xs : List Tx) (s : State) :
    F (xs.foldl (fun s x => dropFrames r.ext x.line s) (invalidateHosts r (dropStrokeReqs (fun q => inExt r.ext q.line) s))) = F s := by
  rw [foldl_keep F _ (fun _ _ => dropFrames_keep F hD ..), invalidateHosts_keep F hE hN, dropStrokeReqs_keep F hC]

theorem releaseClosed_rels : (releaseClosed base r s).maps.rels = modWhere (·.ext.base == base) (fun r => { r with closed := true }) s.maps.rels :=
  congrArg (modWhere _ _) (releaseClosed_before (fun s => s.maps.rels) (by simp) (by simp) (by simp) (by simp) r _ s)
theorem releaseClosed_cur : (releaseClosed base r s).maps.cur = s.maps.cur :=
  releaseClosed_before (fun s => s.maps.cur) (by simp) (by simp) (by simp) (by simp) r _ s
theorem releaseClosed_bytes : (releaseClosed base r s).mem.bytes = s.mem.bytes :=
  releaseClosed_before (fun s => s.mem.bytes) (by simp) (by simp) (by simp) (by simp) r _ s
theorem releaseClosed_ents : (releaseClosed base r s).dir.ents = s.dir.ents.filter fun d => !inExt r.ext d.line :=
  congrArg (List.filter _) (releaseClosed_before (fun s => s.dir.ents) (by simp) (by simp) (by simp) (by simp) r _ s)
theorem releaseClosed_snoops : (releaseClosed base r s).dir.snoops = s.dir.snoops.filter fun x => !inExt r.ext x.line :=
  congrArg (List.filter _) (releaseClosed_before (fun s => s.dir.snoops) (by simp) (by simp) (by simp) (by simp) r _ s)
theorem releaseClosed_txs : (releaseClosed base r s).dir.txs = s.dir.txs.filter fun x => !inExt r.ext x.req.line :=
  congrArg (List.filter _) (releaseClosed_before (fun s => s.dir.txs) (by simp) (by simp) (by simp) (by simp) r _ s)

theorem answers_keep {β : Type} (F : State → β) (hE : ∀ b p v ep o s, F (enqueue b p v ep o s) = F s)
    (hC : ∀ p q st g h o v s, F (sendCmp p q st g h o v s) = F s) (hT : ∀ i s, F (freeTrk i s) = F s)
    (hR : ∀ (s : State) r, F { s with dir.eng := r } = F s) (st : Status) (out : List LineReq) (s : State) :
    F (out.foldl (fun s q => answerReq q st 0 0 none none s) s) = F s :=
  foldl_keep F _ (fun _ _ => answerReq_keep F hE hC hT hR ..) _ _

/-! ### The end of a release -/

theorem moreZero_keep {β : Type} (F : State → β) (hC : ∀ c f s, F (modChan c f s) = F s) (c : Nat) (s : State) : F (moreZero c s) = F s := by
  simp only [moreZero]
  split
  · rfl
  · exact hC ..

theorem startZero_keep {β : Type} (F : State → β) (hC : ∀ c f s, F (modChan c f s) = F s) (n : Nat) (s : State) : F (startZero n s) = F s := by
  unfold startZero
  split
  · rfl
  · exact foldl_keep F _ (fun _ _ => (moreZero_keep F hC ..).trans (hC ..)) _ _

theorem trayKeys_keep {β : Type} (F : State → β) (hK : ∀ s, F (drawKey s).2 = F s) (hT : ∀ (s : State) k, F { s with ten.trayKey := k } = F s)
    (s : State) : F (trayKeys s) = F s :=
  (foldl_keep F _ (fun _ _ => (hT ..).trans (hK ..)) _ _).trans (hT ..)

/-- The damaged lines of a released extent are known by their places (R276). -/
def placesNamed (e : Extent) (s : State) : State :=
  (nookChans e.nook).foldl (fun u c =>
    if (u.chan c).damaged.any (inExt e) then
      modChan c (fun k => { k with damaged := (k.damaged.map fun l => if inExt e l then bareLine (linePos s e l) else l).eraseDups }) u
    else u) s

theorem placesNamed_keep {β : Type} (F : State → β) (hC : ∀ c f s, F (modChan c f s) = F s) (e : Extent) (s : State) :
    F (placesNamed e s) = F s := by
  refine foldl_keep F _ (fun s c => ?_) _ _
  split
  · exact hC ..
  · rfl

theorem freeSpace_tray (h : e.tray = true) : freeSpace e s = memClear e s := if_pos h

/-- The space of a stacked extent waits to be zeroed (R26, R276). -/
def spaceFreed (e : Extent) (s : State) : State :=
  let o := e.base * 2 ^ 28
  let n := e.granules * 2 ^ 28
  let ps := (extPieces s e).map fun q => (e.nook, q)
  { dropCached o n s with
    mem := { s.mem with bytes := cellsClear s.mem.bytes o n, weak := s.mem.weak.filter (! inExt e ·.1) }
    ten.unzeroed := s.ten.unzeroed ++ ps.filter (! s.ten.unzeroed.contains ·) }

theorem freeSpace_stacked (h : e.tray = false) : freeSpace e s = spaceFreed e (placesNamed e s) := by
  unfold freeSpace
  rw [if_neg (by rw [h]; decide)]
  dsimp only
  rw [← placesNamed, spaceFreed]

theorem spaceFreed_bytes (e : Extent) (s : State) :
    (spaceFreed e s).mem.bytes = cellsClear s.mem.bytes (e.base * 2 ^ 28) (e.granules * 2 ^ 28) := rfl

theorem spaceFreed_keep {β : Type} (F : State → β) (hD : ∀ o n s, F (dropCached o n s) = F s)
    (hU : ∀ (s : State) m u, F { s with mem := m, ten.unzeroed := u } = F s) (e : Extent) (s : State) : F (spaceFreed e s) = F s :=
  (hU (dropCached (e.base * 2 ^ 28) (e.granules * 2 ^ 28) s) _ _).trans (hD ..)

theorem freeSpace_bytes (e : Extent) (s : State) :
    (freeSpace e s).mem.bytes = cellsClear s.mem.bytes (e.base * 2 ^ 28) (e.granules * 2 ^ 28) := by
  cases h : e.tray with
  | true => rw [freeSpace_tray h, memClear, healOn_bytes, dropCached_mem]
  | false =>
    rw [freeSpace_stacked h, spaceFreed_bytes, placesNamed_keep State.mem modChan_mem]

theorem freeSpace_keep {β : Type} (F : State → β) (hM : ∀ e s, F (memClear e s) = F s) (hC : ∀ c f s, F (modChan c f s) = F s)
    (hD : ∀ o n s, F (dropCached o n s) = F s) (hU : ∀ (s : State) m u, F { s with mem := m, ten.unzeroed := u } = F s) (e : Extent) (s : State) :
    F (freeSpace e s) = F s := by
  cases h : e.tray with
  | true => rw [freeSpace_tray h, hM]
  | false => rw [freeSpace_stacked h, spaceFreed_keep F hD hU, placesNamed_keep F hC]

theorem freeSpace_dir (e : Extent) (s : State) : (freeSpace e s).dir = s.dir := freeSpace_keep State.dir memClear_dir modChan_dir dropCached_dir (by simp) e s
theorem freeSpace_maps (e : Extent) (s : State) : (freeSpace e s).maps = s.maps := freeSpace_keep State.maps memClear_maps modChan_maps dropCached_maps (by simp) e s
theorem freeSpace_parts (e : Extent) (s : State) : (freeSpace e s).ten.parts = s.ten.parts :=
  freeSpace_keep (fun s => s.ten.parts) (by simp) (by simp) (by simp) (by simp) e s

/-- The granules of a released extent leave the maps, and hosts that still have them are remembered (R274, R275). -/
def releaseGone (base : Nat) (r : Release) (s : State) : State :=
  { s with maps := { s.maps with
      shed := s.maps.shed ++ ((s.ext base).accepted.filter (! r.back.contains ·)).map fun t => (t, base, r.ext.granules)
      rels := s.maps.rels.filter (·.ext.base != base), ext := s.maps.ext.filter (·.base != base)
      prev := s.maps.prev.map fun m => { m with exts := m.exts.filter (·.base != base) } } }

theorem releaseEnd_closed (hr : s.maps.rels.find? (fun r => r.ext.base == base && r.closed) = some r) :
    releaseEnd base s = startZero r.ext.nook (eventMO 0x0011 (some r.ext.part) [base] (trayKeys (releaseGone base r (freeSpace r.ext s)))) := by
  simp only [releaseEnd, hr]
  rfl

theorem releaseEnd_keep {β : Type} (F : State → β) (hC : ∀ c f s, F (modChan c f s) = F s) (hV : ∀ c p d s, F (eventMO c p d s) = F s)
    (hK : ∀ s, F (drawKey s).2 = F s) (hT : ∀ (s : State) k, F { s with ten.trayKey := k } = F s)
    (hr : s.maps.rels.find? (fun r => r.ext.base == base && r.closed) = some r) :
    F (releaseEnd base s) = F (releaseGone base r (freeSpace r.ext s)) := by
  rw [releaseEnd_closed hr, startZero_keep F hC, hV, trayKeys_keep F hK hT]

/-! ### The end of a mirror copy -/

theorem mirrorCopyEnd_pair (he : s.maps.cur.exts.find? (·.base == base) = some e) (hc : (s.ext base).copying = true) (hm : e.mirror = 2) :
    mirrorCopyEnd base s = { modExt base (fun x => { x with copying := false }) s with
      mem.mirror := cellsCopy 0 s.mem.bytes s.mem.mirror (base * 2 ^ 28) (base * 2 ^ 28) (e.granules * 2 ^ 28) } := by
  delta mirrorCopyEnd
  dsimp only
  rw [he]
  dsimp only
  rw [hc, hm, if_neg (by exact Bool.false_ne_true), if_pos (beq_self_eq_true _)]
  rfl

theorem mirrorCopyEnd_twin (he : s.maps.cur.exts.find? (·.base == base) = some e) (hc : (s.ext base).copying = true) (hm : e.mirror ≠ 2)
    (ht : (e.mirror == 1 && s.mirrors && !s.twin.copying.isEmpty) = false) :
    mirrorCopyEnd base s = modExt base (fun x => { x with copying := false }) s := by
  delta mirrorCopyEnd
  dsimp only
  rw [he]
  dsimp only
  rw [hc, ht, if_neg (by exact Bool.false_ne_true), if_neg (by simpa using hm)]

end

/-- Settles O44. -/
theorem mapEventsAct : Obligations.MapEventsAct := by
  have next := fun {s t u : State} (h : t = u) => congrArg (fun t => (Host.Outcome.next (settle s t) : Host.Outcome State Fault Refusal)) h
  refine ⟨?_, ?_, ?_, ?_, ?_, ?_⟩
  · exact fun c s hc ht => next (mapCommitAct_due hc ht)
  · exact fun v s hv h => next (mapRetire_idle hv h)
  · intro base r s hr hc ht
    obtain ⟨out, hout⟩ := exists_releaseDeadline hr hc ht
    refine ⟨_, next hout, ?_, ?_, ?_, ?_, ?_, ?_⟩
    · rw [settle_maps, answers_keep State.maps enqueue_maps sendCmp_maps freeTrk_maps (by simp), releaseClosed_rels]
    · rw [settle_dir, answers_keep (fun s => s.dir.ents) (by simp) (by simp) (by simp) (by simp), releaseClosed_ents]
    · rw [settle_dir, answers_keep (fun s => s.dir.snoops) (by simp) (by simp) (by simp) (by simp), releaseClosed_snoops]
    · rw [settle_dir, answers_keep (fun s => s.dir.txs) (by simp) (by simp) (by simp) (by simp), releaseClosed_txs]
    · rw [settle_mem, answers_keep (fun s => s.mem.bytes) (by simp) (by simp) (by simp) (by simp), releaseClosed_bytes]
    · rw [settle_maps, answers_keep State.maps enqueue_maps sendCmp_maps freeTrk_maps (by simp), releaseClosed_cur]
  · intro base r s hr
    have hbase : r.ext.base = base := by
      have := List.find?_some hr
      simp only [Bool.and_eq_true, beq_iff_eq] at this
      exact this.1
    refine ⟨_, rfl, ?_, ?_, ?_, ?_, ?_⟩
    · rw [settle_maps, releaseEnd_keep State.maps modChan_maps eventMO_maps drawKey_maps (by simp) hr, releaseGone, freeSpace_maps]
    · rw [settle_maps, releaseEnd_keep State.maps modChan_maps eventMO_maps drawKey_maps (by simp) hr, releaseGone, freeSpace_maps]
    · rw [settle_mem, releaseEnd_keep State.mem modChan_mem eventMO_mem drawKey_mem (by simp) hr, releaseGone, freeSpace_bytes, hbase]
    · rw [settle_dir, releaseEnd_keep State.dir modChan_dir eventMO_dir drawKey_dir (by simp) hr, releaseGone, freeSpace_dir]
    · rw [settle_ten, releaseEnd_keep (fun s => s.ten.parts) (by simp) (by simp) (by intros; rfl) (by simp) hr, releaseGone, freeSpace_parts]
  · exact fun base e s he hc hm => next (mirrorCopyEnd_pair he hc hm)
  · exact fun base e s he hc hm ht => next (mirrorCopyEnd_twin he hc hm ht)

end Sys2Proof.Machine
end

section
/-! PROOFS. Tray pins, links and failures. -/

namespace Sys2Proof.Machine

section
variable {s : State} {t base : Nat} {e : Extent}

theorem ext_base (s : State) (base : Nat) : (s.ext base).base = base := by
  unfold State.ext
  cases h : s.maps.ext.find? (·.base == base) with
  | none => rfl
  | some x => simpa using List.find?_some h

theorem ext_modExt {f : ExtState → ExtState} (hf : ∀ x, (f x).base = x.base) (base : Nat) (s : State) :
    (modExt base f s).ext base = f (s.ext base) := by
  have hb : ((f (s.ext base)).base == base) = true := beq_iff_eq.mpr ((hf _).trans (ext_base s base))
  unfold State.ext modExt
  dsimp only
  rw [List.find?_cons_of_pos (p := fun x : ExtState => x.base == base) hb, Option.getD_some]
  rfl

theorem ext_congr {s u : State} (h : u.maps = s.maps) (base : Nat) : u.ext base = s.ext base := by rw [State.ext, State.ext, h]

/-! ### Pins and links -/

theorem trayPrsnt_single {low : Bool} (hx : (s.tray t).x8 = false) : trayPrsnt t low s = modTray t (fun k => { k with present := low }) s :=
  if_neg (by rw [hx, Bool.and_false]; exact Bool.false_ne_true)

theorem trayPerst_single {low : Bool} (hx : (s.tray t).x8 = false) (hm : (s.tray t).mode = 2) :
    trayPerst t low s = if low then trayDown t (modTray t (fun k => { k with perstLow := low }) s)
      else modTray t (fun k => { k with perstLow := low }) s := by
  delta trayPerst
  dsimp only
  rw [if_neg (by rw [hx, Bool.and_false]; exact Bool.false_ne_true), if_neg (by rw [hm]; decide)]

/-- A tray port whose link has just gone down. -/
def linkLost (t : Nat) (s : State) : State := modTray t (fun k => { k with up := false, downs := k.downs + 1, creditHeld := false }) s

theorem trayDown_up (hup : (s.tray t).up = true) :
    trayDown t s = if (s.tray t).mode = 1 then trayFail t (linkLost t s) else if (s.tray t).mode = 2 then crashPort true t (linkLost t s)
      else if (s.tray t).mode = 3 then ashFail t (linkLost t s) else linkLost t s := by
  unfold trayDown
  dsimp only
  rw [hup, if_neg (by decide)]
  rfl

/-- A tray port whose link has just come up. -/
def linkFound (t : Nat) (s : State) : State := modTray t (fun k => { k with up := true, failed := false, perstLow := false }) s

theorem trayLinkUp_works (hm : (s.tray t).mode ≠ 0) (hup : (s.tray t).up = false) (hpres : (s.tray t).present = true)
    (hperst : (s.tray t).mode = 2 → (s.tray t).perstLow = false) (hreset : inReset s = false) (hstart : s.power.started = true)
    (hclk : s.power.refLost.getD 2 false = false) :
    trayLinkUp t s = if (s.tray t).mode = 2 then hostAgent t (creditCheck t (linkFound t s))
      else if (s.tray t).mode = 1 then
        (liveExts (linkFound t s)).foldl (fun s e =>
          if ((s.ext e.base).mirrorOnly && e.trayPort == t) || ((s.ext e.base).trayOnly && e.mirrorPort == t) then
            modExt e.base (fun x => { x with copyBack := true }) s
          else s) (linkFound t s)
      else if (s.tray t).mode = 3 then identify t (linkFound t s) else linkFound t s := by
  have hno : ¬ ((s.tray t).mode = 2 ∧ (s.tray t).perstLow = true) := fun h => absurd ((hperst h.1).symm.trans h.2) (by decide)
  unfold trayLinkUp
  dsimp only
  rw [if_neg (by simp only [hup, hpres, hreset, hstart, hclk]; simpa [hm] using hno)]
  rfl

theorem copyBacks_keep {β : Type} (F : State → β) (hE : ∀ b f s, F (modExt b f s) = F s) (t : Nat) (es : List Extent) (s : State) :
    F (es.foldl (fun s e =>
      if ((s.ext e.base).mirrorOnly && e.trayPort == t) || ((s.ext e.base).trayOnly && e.mirrorPort == t) then
        modExt e.base (fun x => { x with copyBack := true }) s
      else s) s) = F s := by
  refine foldl_keep F _ (fun s e => ?_) _ _
  split
  · exact hE ..
  · rfl

/-! ### Failures, failover and copy back -/

theorem trayReadFail_open {addr : Nat} {x : Tx} (hm : (s.tray t).mode = 1)
    (hx : s.dir.txs.find? (fun x => x.phase == .memory && x.line == addr / 64) = some x) :
    trayReadFail t addr s = trayFail t (answerReq x.req .damaged 0 0 none none (abandonTx x s)) := by
  unfold trayReadFail
  rw [if_neg (fun h => h hm), hx]

/-- The extent is served from its copy alone, which holds every write (R456). -/
def servedByCopy (base : Nat) (e : Extent) (s : State) : State :=
  let u := modExt base (fun x => { x with waiting := false, mirrorOnly := true, trayOnly := false }) s
  { u with mem.bytes := cellsCopy 0 s.mem.mirror s.mem.bytes (base * 2 ^ 28) (base * 2 ^ 28) (e.granules * 2 ^ 28) }

theorem trayFailover_main (he : (liveExts s).find? (·.base == base) = some e) (hw : (s.ext base).waiting = true)
    (hf : (s.tray e.trayPort).failed = true) (hr : recoveryRuns s e.part 0x0033 e.trayPort = true) :
    ∃ left : Bool, trayFailover base s = if left then eventMO 0x0033 (some e.part) [base, e.trayPort] (servedByCopy base e s)
      else endRecovery e.part 0x0033 e.trayPort (eventMO 0x0033 (some e.part) [base, e.trayPort] (servedByCopy base e s)) := by
  delta trayFailover
  dsimp only
  rw [he]
  dsimp only
  rw [hf, if_pos rfl, hw, hr, if_neg (by decide), if_pos (beq_self_eq_true _), beq_self_eq_true]
  exact ⟨_, rfl⟩

theorem trayFailover_keep {β : Type} (F : State → β) (hV : ∀ c p d s, F (eventMO c p d s) = F s) (hP : ∀ p c u s, F (endRecovery p c u s) = F s)
    (he : (liveExts s).find? (·.base == base) = some e) (hw : (s.ext base).waiting = true)
    (hf : (s.tray e.trayPort).failed = true) (hr : recoveryRuns s e.part 0x0033 e.trayPort = true) :
    F (trayFailover base s) = F (servedByCopy base e s) := by
  obtain ⟨left, h⟩ := trayFailover_main he hw hf hr
  rw [h]
  split
  · rw [hV]
  · rw [hP, hV]

/-- Both copies are current again (R456). -/
def copiedBack (base : Nat) (e : Extent) (s : State) : State :=
  modExt base (fun x => { x with copyBack := false, mirrorOnly := false, trayOnly := false })
    { s with mem.mirror := cellsCopy 0 s.mem.bytes s.mem.mirror (base * 2 ^ 28) (base * 2 ^ 28) (e.granules * 2 ^ 28) }

theorem trayCopyBackEnd_due (he : (liveExts s).find? (·.base == base) = some e) (hc : (s.ext base).copyBack = true) :
    trayCopyBackEnd base s = copiedBack base e s := by
  delta trayCopyBackEnd
  dsimp only
  rw [he]
  dsimp only
  rw [hc, if_neg (by decide)]
  rfl

end

/-- Settles O45. -/
theorem trayEventsAct : Obligations.TrayEventsAct := by
  have next := fun {s t u : State} (h : t = u) => congrArg (fun t => (Host.Outcome.next (settle s t) : Host.Outcome State Fault Refusal)) h
  refine ⟨?_, ?_, ?_, ?_, ?_, ?_, ?_, ?_⟩
  · exact fun t low s hx => next (trayPrsnt_single hx)
  · exact fun t s hx hm => ⟨next (trayPerst_single hx hm), next (trayPerst_single hx hm)⟩
  · intro t s hup s1
    have h := trayDown_up hup
    refine ⟨fun hm => next (h.trans ?_), fun hm => next (h.trans ?_), fun hm => next (h.trans ?_)⟩ <;> rw [hm] <;> rfl
  · intro t s hup hpres hreset hstart hclk s1
    refine ⟨fun hm hperst => ?_, fun hm => ?_⟩
    · refine next ((trayLinkUp_works (by rw [hm]; decide) hup hpres (fun _ => hperst) hreset hstart hclk).trans ?_)
      rw [if_pos hm]
      rfl
    · refine next ((trayLinkUp_works (by rw [hm]; decide) hup hpres (fun h => absurd (hm.symm.trans h) (by decide)) hreset hstart hclk).trans ?_)
      rw [hm]
      rfl
  · intro t k s hk hm hup hpres hreset hstart hclk
    obtain rfl : s.tray t = k := by rw [State.tray, List.getD_eq_getElem?_getD, hk, Option.getD_some]
    have h := trayLinkUp_works (by rw [hm]; decide) hup hpres (fun h => absurd (hm.symm.trans h) (by decide)) hreset hstart hclk
    rw [if_neg (by rw [hm]; decide), if_pos hm] at h
    have htray : (linkFound t s).tray t = { s.tray t with up := true, failed := false, perstLow := false } := by
      rw [linkFound, State.tray, modTray, List.getD_eq_getElem?_getD, List.getElem?_modify, hk]
      simp
    refine ⟨_, next h, ?_, ?_, ?_, ?_⟩
    · rw [tray_congr (settle_trays ..), tray_congr (copyBacks_keep State.trays (by intros; rfl) ..), htray]
    · rw [tray_congr (settle_trays ..), tray_congr (copyBacks_keep State.trays (by intros; rfl) ..), htray]
    · rw [settle_mem, copyBacks_keep State.mem (by intros; rfl)]
      rfl
    · rw [settle_dir, copyBacks_keep State.dir (by intros; rfl)]
      rfl
  · exact fun t addr x s hm hx => next (trayReadFail_open hm hx)
  · intro base e s he hw hf hr
    have hext : (settle s (trayFailover base s)).ext base = { s.ext base with waiting := false, mirrorOnly := true, trayOnly := false } := by
      rw [ext_congr (settle_maps ..), trayFailover_keep (fun s => s.ext base) (fun c p d s => ext_congr (eventMO_maps ..) base) (by intros; rfl) he hw hf hr]
      exact ext_modExt (f := fun x => { x with waiting := false, mirrorOnly := true, trayOnly := false }) (by intro; rfl) base s
    refine ⟨_, rfl, ?_, ?_, ?_, ?_, ?_⟩
    · rw [hext]
    · rw [hext]
    · rw [hext]
    · rw [settle_mem, trayFailover_keep State.mem eventMO_mem (by intros; rfl) he hw hf hr]
      rfl
    · rw [settle_dir, trayFailover_keep State.dir eventMO_dir (by intros; rfl) he hw hf hr]
      rfl
  · intro base e s he hc
    have hext : (settle s (copiedBack base e s)).ext base = { s.ext base with copyBack := false, mirrorOnly := false, trayOnly := false } := by
      rw [ext_congr (settle_maps ..)]
      exact ext_modExt (f := fun x => { x with copyBack := false, mirrorOnly := false, trayOnly := false }) (by intro; rfl) base _
    refine ⟨_, next (trayCopyBackEnd_due he hc), ?_, ?_, ?_, ?_, ?_, ?_⟩
    · rw [hext]
    · rw [hext]
    · rw [hext]
    · rw [settle_mem]
      rfl
    · rw [settle_dir]
      rfl
    · rw [settle_mem]
      rfl

end Sys2Proof.Machine
end

section
/-! PROOFS. The way of messages to another endpoint. -/

namespace Sys2Proof.Machine

section
variable {s t : State} {p r hops : Nat} {m o q : PktMsg} {st : Status}

/-- A message that passes the steps 0 to 3 of R289 comes out of them as `q` (R285, R346). -/
theorem admitMsg_passes {bad anyEpoch : Bool} (h : msgPasses s p m o q anyEpoch t) (hbad : bad = false) :
    admitMsg p m bad anyEpoch s = (.ok q, t) := by
  obtain ⟨hkind, hsender, hopen, hrsv, hlow, hhigh, hepoch, hpol, rfl, rfl⟩ := h
  have hsend : ((s.port p).kind = 0 && (m.src ≠ accelEp (eatPkt p .msg m s) p || !(s.port p).admitted)) = false := by
    by_cases hk : (s.port p).kind = 0
    · simp [hk, hsender hk]
    · simp [hk]
  have hshape : (o.rsv || bad || decide (o.bytes = 0) || decide (2048 < o.bytes) || decide ((s.port p).kind = 3)) = false := by
    simp only [hrsv, hbad, Bool.or_self, Bool.false_or, Bool.or_eq_false_iff, decide_eq_false_iff_not]
    omega
  have hmap : ∃ map, (if anyEpoch then .ok (eatPkt p .msg m s).maps.cur else mapFor (eatPkt p .msg m s) o.epoch : Except Status MapV) = .ok map := by
    rcases hepoch with h | h
    · exact ⟨_, if_pos h⟩
    · cases anyEpoch with
      | true => exact ⟨_, rfl⟩
      | false =>
        cases hm : mapFor (eatPkt p .msg m s) o.epoch with
        | error e => simp [hm, Except.toOption] at h
        | ok map => exact ⟨map, rfl⟩
  obtain ⟨map, hmap⟩ := hmap
  delta admitMsg
  dsimp only
  rw [if_neg (by simpa using hsend), hopen]
  dsimp only
  rw [if_neg (by rw [hshape]; exact Bool.false_ne_true), hmap]
  generalize police p o.src (rawPkt (eatPkt p .msg m s) p o) true (eatPkt p .msg m s) = x at hpol ⊢
  obtain ⟨pass, heat, u⟩ := x
  obtain rfl := hpol
  rfl

/-- The state in which a message of port `p` of `s` holds its tracker: its partition's, or in transit the system's (R281). -/
def msgHeld (s : State) (p : Nat) (q : PktMsg) (t : State) : State := if (s.port p).kind == 0 then trackMsg p q t else noteTransit p q t

theorem forward_waits (h : msgPasses s p m o q false t) (hw : waitsTrk s p = true) : forward p m false s = s := by
  simp only [forward, admitMsg_passes h rfl, hw, if_true]

theorem forward_quiet (h : msgPasses s p m o q false t) (hw : waitsTrk s p = false) (hout : wayOut (msgHeld s p q t) q = .ok (r, hops))
    (hq : quietMsg p q (msgHeld s p q t) = some st) : forward p m false s = answerMsg q st (msgHeld s p q t) := by
  unfold msgHeld at *
  simp only [forward, admitMsg_passes h rfl, hw, hout, hq, Bool.false_eq_true, if_false]

theorem forward_passes (h : msgPasses s p m o q false t) (hw : waitsTrk s p = false) (hq : quietMsg p q (msgHeld s p q t) = none) :
    forward p m false s = passOn (msgSvc q.opc q.tag) q (msgHeld s p q t) := by
  unfold msgHeld at *
  simp only [forward, admitMsg_passes h rfl, hw, hq, Bool.false_eq_true, if_false]
  split
  · contradiction
  · rfl

theorem passOn_out {svc : Nat} (hout : wayOut s m = .ok (r, hops)) :
    passOn svc m s = enqueue false r svc m.dst (.pkt .msg { m with hops := hops, heat := 0 }) s := by
  simp only [passOn, hout]

/-! ### Which messages are forwarded -/

/-- A POST that is neither link-local nor a migration transfer for this module, nor of a tag reserved on an accelerator's port. -/
def plainPost (s : State) (p : Nat) (m : PktMsg) : Prop :=
  linkLocal m = false ∧ ((s.port p).kind = 0 → m.tag < 0xFF00) ∧ (m.tag = migTag → namesMe s m.dst = false)

theorem bad_of_linkLess (hk : (s.port p).kind ≠ 2) (htag : (s.port p).kind = 0 → m.tag < 0xFF00) :
    ((s.port p).kind == 2 || ((s.port p).kind == 0 && 0xFF00 ≤ m.tag)) = false := by
  by_cases h0 : (s.port p).kind = 0
  · simp [h0, htag h0]
  · simp [hk, h0]

theorem post_plain (hk : (s.port p).kind ≠ 2) (hopc : m.opc = 1) (hp : plainPost s p m) : post p m s = forward p m false s := by
  obtain ⟨hlocal, htag, hmig⟩ := hp
  have hhello : m.tag ≠ helloTag := by
    rintro h
    simp [linkLocal, h, helloTag] at hlocal
  have hmig' : (m.tag = migTag && namesMe s m.dst) = false := by
    by_cases h : m.tag = migTag
    · simp [hmig h]
    · simp [h]
  unfold post
  dsimp only
  rw [if_neg (fun h => h hopc), if_neg (by simp [hhello]), bad_of_linkLess hk htag, hlocal, hmig']
  rfl

theorem post_linkLocal (h : msgPasses s p m o q false t) (hk : (s.port p).kind ≠ 2) (hk0 : (s.port p).kind ≠ 0) (hopc : m.opc = 1)
    (hlocal : linkLocal m = true) (hhello : m.tag ≠ helloTag) : post p m s = refuse p q .noAccess t := by
  unfold post
  dsimp only
  rw [if_neg (fun h => h hopc), if_neg (by simp [hhello]), bad_of_linkLess hk (fun h => absurd h hk0), hlocal, Bool.true_or,
    if_neg (by decide), if_pos rfl, admitMsg_passes h rfl]

theorem collect_forward (hk : (s.port p).kind ≠ 2) (hopc : m.opc = 2) : collect p m s = forward p m false s := by
  unfold collect
  rw [if_neg (fun h => h hopc), beq_eq_false_iff_ne.mpr hk]

theorem messageForward_forward (hk : (s.port p).kind ≠ 2) (hopc : m.opc = 2 ∨ m.opc = 4 ∨ m.opc = 6) (hme : namesMe s m.dst = false) :
    messageForward p m s = forward p m false s := by
  unfold messageForward
  rw [hme, beq_eq_false_iff_ne.mpr hk]
  rcases hopc with h | h | h <;> rw [h] <;> rfl

/-! ### What keeps a message, and where it leaves (R284 to R287) -/

theorem wayOut_accel (hl : leave s (routeMap s m.epoch) m = .accel p) (htag : tagFits s m.tenant p = true) (hatt : attested s p = true) :
    wayOut s m = .ok (p, m.hops) := by
  simp only [wayOut, hl, htag, hatt, Bool.and_self, if_true]

theorem wayOut_stage (hl : leave s (routeMap s m.epoch) m = .out p) (hal : linkAlive s p = true) (hph : (s.port p).sess.phase = 3) :
    wayOut s m = .ok (p, m.hops + 1) := by
  simp only [wayOut, hl, hal, hph, beq_self_eq_true, Bool.and_self, if_true]

theorem passOn_loop {svc : Nat} (hl : leave s (routeMap s m.epoch) m = .loop) :
    passOn svc m s = answerMsg m .timeout (event 0x0012 true [] none [m.src, m.dst] s) := by
  simp only [passOn, wayOut, hl, loopEvent, if_true]
  rfl

theorem passOn_nowhere {svc : Nat} (hl : leave s (routeMap s m.epoch) m = .nowhere) : passOn svc m s = answerMsg m .noAccess s := by
  simp only [passOn, wayOut, hl, loopEvent]
  rfl

end

/-- Settles O46. -/
theorem messagesGoTheirWay : Obligations.MessagesGoTheirWay := by
  have next := fun {s t u : State} (h : t = u) => congrArg (fun t => (Host.Outcome.next (settle s t) : Host.Outcome State Fault Refusal)) h
  refine ⟨?_, ?_⟩
  · intro p m o q s t h hk t1 plain
    refine ⟨?_, ?_, ?_, ?_, ?_, ?_, ?_⟩
    · intro r hops hout hq hw go
      have hgo := (forward_passes h hw hq).trans (passOn_out hout)
      exact ⟨fun hopc hp => next ((post_plain hk hopc hp).trans hgo), fun hopc => next ((collect_forward hk hopc).trans hgo),
        fun hopc hme => next ((messageForward_forward hk hopc hme).trans hgo)⟩
    · intro r hops st hout hq hw
      have hst := forward_quiet h hw hout hq
      exact ⟨fun hopc hp => next ((post_plain hk hopc hp).trans hst), fun hopc => next ((collect_forward hk hopc).trans hst)⟩
    · exact fun hopc hp hq hw => next ((post_plain hk hopc hp).trans (forward_passes h hw hq))
    · exact fun hopc hlocal hhello hk0 => next (post_linkLocal h hk hk0 hopc hlocal hhello)
    · exact fun hopc hq hw => next ((collect_forward hk hopc).trans (forward_passes h hw hq))
    · exact fun hopc hme hq hw => next ((messageForward_forward hk hopc hme).trans (forward_passes h hw hq))
    · intro hw
      have hs := forward_waits h hw
      exact ⟨fun hopc hp => next ((post_plain hk hopc hp).trans hs), fun hopc => next ((collect_forward hk hopc).trans hs),
        fun hopc hme => next ((messageForward_forward hk hopc hme).trans hs)⟩
  · exact fun svc p m s => ⟨fun hl htag hatt => passOn_out (wayOut_accel hl htag hatt), fun hl hal hph => passOn_out (wayOut_stage hl hal hph),
      passOn_loop, passOn_nowhere⟩

end Sys2Proof.Machine
end

section
/-! PROOFS. Answers, hellos and the 100 ms limit. -/

namespace Sys2Proof.Machine

section
variable {s t : State} {p q : Nat} {m a o : PktMsg} {k : Trk}

theorem accelEp_eatPkt (p q : Nat) (vc : Vc) (m : PktMsg) (s : State) : accelEp (eatPkt p vc m s) q = accelEp s q := rfl

/-! ### Answers that pass through -/

theorem collectAnswer_in (hopc : m.opc = 3) : collectAnswer p m s = answerIn p m s := if_pos hopc

theorem msgCmp_in (hopc : m.opc = 7) : msgCmp p m s = answerIn p m s := if_pos (by rw [hopc]; rfl)

theorem answerIn_stage (hopen : openPkt m = some a) (hrsv : a.rsv = false) (hk : (s.port p).kind = 1) :
    answerIn p m s = answerOnward a (eatPkt p .msg m s) := by
  simp [answerIn, hopen, hrsv, hk]

theorem answerIn_accel (hk : (s.port p).kind = 0) (hadm : (s.port p).admitted = true) (hopen : openPkt m = some a) (hrsv : a.rsv = false)
    (hsrc : a.src = accelEp s p) :
    answerIn p m s = answerOnward { a with tenant := tagOf s (s.port p).owner, hops := 0 } (eatPkt p .msg m s) := by
  simp only [answerIn, hopen, hrsv, hk, hadm, hsrc, accelEp_eatPkt, ne_eq, not_true, decide_false, Bool.not_true, Bool.or_self, Bool.and_false,
    Bool.false_eq_true, if_false]
  rfl

theorem answerIn_unadmitted (hk : (s.port p).kind = 0) (hadm : (s.port p).admitted = false) (hopen : openPkt m = some a) :
    answerIn p m s = eatPkt p .msg m s := by
  simp [answerIn, hopen, hk, hadm]

theorem answerIn_twin_retry (hk : (s.port p).kind = 2) (hopen : openPkt m = some a) (hrsv : a.rsv = false) (hst : a.status = Status.retry.code) :
    answerIn p m s = mirrorAgain a.txn (eatPkt p .msg m s) := by
  simp [answerIn, hopen, hrsv, hk, hst]

theorem answerIn_twin_done (hk : (s.port p).kind = 2) (hopen : openPkt m = some a) (hrsv : a.rsv = false) (hst : a.status ≠ Status.retry.code)
    (hacc : ((eatPkt p .msg m s).twin.accs.any (·.1 == a.txn)) = false) : answerIn p m s = mirrorDone a.txn (eatPkt p .msg m s) := by
  simp [answerIn, hopen, hrsv, hk, hst, hacc]

theorem answerOnward_accel (hl : leave s (routeMap s a.epoch) a = .accel q) (htag : tagFits s a.tenant q = true)
    (hk : msgTrk s a.dst a.txn = some k) :
    answerOnward a s = enqueue false q k.svc a.dst (.pkt .msg { a with heat := pinHeat s q k.heat }) (freeTrk k.id s) := by
  simp only [answerOnward, hl, htag, hk, Bool.not_true, Bool.false_eq_true, if_false]

theorem answerOnward_here (hl : leave s (routeMap s a.epoch) a = .here)
    (hk : s.mem.trks.find? (fun k => k.vc == .msg && k.own.isSome && k.txn == a.txn) = some k) :
    answerOnward a s = ownAnswer k (statusOf a.status) s := by
  simp only [answerOnward, hl, hk]

theorem statusOf_ne_retry {n : Nat} (h : n ≠ 1) : statusOf n ≠ .retry := by
  rcases Nat.lt_or_ge n 14 with hn | hn
  · have hnamed : ∀ n < 14, n ≠ 1 → statusOf n ≠ .retry := by decide
    exact hnamed n hn h
  · rw [statusOf, List.getD_eq_default _ _ hn]
    decide

theorem ownAnswer_final {st : Status} (h : st ≠ .retry) : ownAnswer k st s = ownAnswered k.id st (freeTrk k.id s) := by
  unfold ownAnswer
  split
  · contradiction
  · rfl

/-! ### Hellos -/

theorem neighbourHello_fits {h : Hello} {r : ConfigRec} (hopc : m.opc = 1) (htag : m.tag = helloTag) (hk : (s.port p).kind ≠ 0)
    {u : PktMsg} (hp : msgPasses s p m o u true t) (hd : decHello u.body = some h) (hr : (t.port p).peer = some r)
    (hser : h.serial = r.serial) (hcell : h.cell = r.cell) (hmod : h.module = r.module) (hport : h.port = r.port) :
    neighbourHello p m s = answerOn p u .ok (elect (modPort p (fun x => { x with hello := some h }) t)) := by
  have hbody : (openPkt m).elim [] (·.body) = u.body := by
    obtain ⟨-, -, hopen, -, -, -, -, -, -, rfl⟩ := hp
    rw [hopen]
    split <;> rfl
  have hadm : admitMsg p m (decHello u.body).isNone true s = (.ok u, t) := admitMsg_passes hp (by rw [hd]; rfl)
  unfold neighbourHello
  dsimp only
  rw [hbody, if_neg (by simp [hopc, htag, hk]), hadm]
  simp only [hd, hr, hser, hcell, hmod, hport, ne_eq, not_true, decide_false, Bool.or_self, Bool.false_eq_true, if_false]

/-! ### The 100 ms limit -/

theorem requestTimeout_failed {id : Nat} (hk : s.mem.trks.find? (·.id == id) = some k) (hf : k.failed = true) :
    requestTimeout id s = endTracker id .noAccess s := by
  simp only [requestTimeout, hk, hf, if_true]

theorem requestTimeout_limit {id : Nat} (hk : s.mem.trks.find? (·.id == id) = some k) (hf : k.failed = false) (ht : k.at_ + 100000000 ≤ s.t)
    (hv : k.vc ≠ .mgt) (htr : s.mem.transit.contains id = false) (hp : ¬(k.vc = .msg ∧ k.opc = 4)) :
    requestTimeout id s = endTracker id .timeout s := by
  have hp' : (k.vc == .msg && k.opc == 4) = false := by simpa using hp
  simp only [requestTimeout, hk, hf, htr, hp', beq_eq_false_iff_ne.mpr hv, Nat.not_lt.mpr ht, decide_false, Bool.or_self, Bool.false_and,
    Bool.false_eq_true, if_false]

theorem requestTimeout_transit {id : Nat} (hk : s.mem.trks.find? (·.id == id) = some k) (hf : k.failed = false)
    (ht : k.at_ + 100000000 ≤ s.t) (hv : k.vc ≠ .mgt) (htr : s.mem.transit.contains id = true) : requestTimeout id s = freeTrk id s := by
  simp only [requestTimeout, hk, hf, htr, beq_eq_false_iff_ne.mpr hv, Nat.not_lt.mpr ht, decide_false, Bool.or_self, Bool.not_true, Bool.and_false,
    Bool.false_eq_true, if_false, if_true]

theorem requestTimeout_pour {id : Nat} (hk : s.mem.trks.find? (·.id == id) = some k) (hf : k.failed = false) (hv : k.vc = .msg) (ho : k.opc = 4)
    (htr : s.mem.transit.contains id = false) : requestTimeout id s = s := by
  simp only [requestTimeout, hk, hf, htr, hv, ho, beq_self_eq_true, Bool.not_false, Bool.and_self, Bool.or_true, Bool.false_eq_true, if_false,
    if_true]

theorem requestTimeout_command {id : Nat} (hk : s.mem.trks.find? (·.id == id) = some k) (hf : k.failed = false) (hv : k.vc = .mgt) :
    requestTimeout id s = s := by
  simp only [requestTimeout, hk, hf, hv, beq_self_eq_true, Bool.or_true, Bool.true_or, Bool.false_eq_true, if_false, if_true]

end

/-- Settles O47. -/
theorem answersAndHellosAct : Obligations.AnswersAndHellosAct := by
  have next := fun {s t u : State} (h : t = u) => congrArg (fun t => (Host.Outcome.next (settle s t) : Host.Outcome State Fault Refusal)) h
  refine ⟨?_, ?_, ?_, ?_, ?_, ?_, ?_, ?_⟩
  · intro p q m a k s s1 hopc hopen hrsv hk1 hk hl htag htrk r
    have h := (answerIn_stage hopen hrsv hk).trans (answerOnward_accel hl htag htrk)
    exact ⟨fun h3 => next ((collectAnswer_in h3).trans h), fun h7 => next ((msgCmp_in h7).trans h)⟩
  · intro p m a k s s1 hopc hopen hrsv hk hk1 hl htrk hst
    exact next ((msgCmp_in hopc).trans ((answerIn_stage hopen hrsv hk).trans ((answerOnward_here hl htrk).trans
      (ownAnswer_final (statusOf_ne_retry hst)))))
  · exact fun p m o q h r s t hopc htag hk hp hd hr hser hcell hmod hport =>
      next (neighbourHello_fits hopc htag hk hp hd hr hser hcell hmod hport)
  · exact fun id k s hk => ⟨fun hf => next (requestTimeout_failed hk hf), fun hf ht hv htr hp => next (requestTimeout_limit hk hf ht hv htr hp),
      fun hf ht hv htr => next (requestTimeout_transit hk hf ht hv htr), fun hf hv ho htr => next (requestTimeout_pour hk hf hv ho htr),
      fun hf hv => next (requestTimeout_command hk hf hv)⟩
  · intro p m a s hk hadm hopen hrsv hsrc r
    have h := answerIn_accel hk hadm hopen hrsv hsrc
    exact ⟨fun h3 => next ((collectAnswer_in h3).trans h), fun h7 => next ((msgCmp_in h7).trans h)⟩
  · intro p m a s hk hadm hopen
    have h := answerIn_unadmitted hk hadm hopen
    exact ⟨fun h3 => next ((collectAnswer_in h3).trans h), fun h7 => next ((msgCmp_in h7).trans h)⟩
  · exact fun p m a s hopc hk hopen hrsv hst => next ((msgCmp_in hopc).trans (answerIn_twin_retry hk hopen hrsv hst))
  · exact fun p m a s hopc hk hopen hrsv hst hacc => next ((msgCmp_in hopc).trans (answerIn_twin_done hk hopen hrsv hst hacc))

end Sys2Proof.Machine
end

section
/-! PROOFS. Groups, their deadlines and the messages of collectives. -/

namespace Sys2Proof.Machine

section
variable {s t : State} {j : Job}

/-! ### Groups and deadlines -/

theorem groupCreate_new (hbad : groupBad j.payload = false) (hpart : (s.part? (decGroup j.payload).part).isSome = true)
    (hown : j.manager = true ∨ (decGroup j.payload).part = j.part) (hnew : s.group? (decGroup j.payload).part (decGroup j.payload).id = none)
    (hroom : (s.groups.groups.filter (·.part == (decGroup j.payload).part)).length < 256) :
    groupCreate j s = (.ok, mirrorDesc j (decGroup j.payload).part { s with groups.groups := s.groups.groups ++ [decGroup j.payload] }) := by
  have hno : ((s.part? (decGroup j.payload).part).isNone || (!j.manager && (decGroup j.payload).part != j.part)) = false := by
    rw [Option.isNone_eq_false_iff.mpr hpart, Bool.false_or]
    rcases hown with h | h
    · rw [h]; rfl
    · rw [h, bne_self_eq_false, Bool.and_false]
  unfold groupCreate
  dsimp only
  rw [if_neg (by rw [hbad]; decide), if_neg (by rw [hno]; decide), hnew, if_neg (by simpa using hroom)]

theorem groupDestroy_idle (hg : (s.group? j.part (fldLE j.payload 0 2)).isSome = true)
    (hidle : (s.groups.insts.any fun i => i.of j.part (fldLE j.payload 0 2) && liveInst s i) = false) :
    groupDestroy j s = (.ok, mirrorDesc j j.part { s with groups := {
      groups := s.groups.groups.filter fun g => !(g.part == j.part && g.id == fldLE j.payload 0 2)
      insts := s.groups.insts.filter fun i => !i.of j.part (fldLE j.payload 0 2) } }) := by
  unfold groupDestroy
  dsimp only
  rw [if_neg (by rw [Option.isNone_eq_false_iff.mpr hg]; decide), hidle, if_neg (by decide)]

theorem localDeadline_due {p gid n : Nat} {g : Group} {i : Inst} (hg : s.group? p gid = some g)
    (hi : s.groups.insts.find? (fun i => i.of p gid && i.inst == n && liveInst s i) = some i) (ht : i.start + g.localDl ≤ s.ns)
    (hpast : i.dlPast = false) :
    let own := (g.own.filter fun r => (List.range g.range).any fun k => g.gives r.1 k && !i.has (false, r.1) k).map (·.1)
    let kids := (List.range g.children.length).filter fun c => !i.endKids.contains c
    let ranks := kids.flatMap fun c => (List.range (g.children.getD c (0, 0, 0)).2.1).map ((g.children.getD c (0, 0, 0)).1 + ·)
    localDeadline p gid n s = advanceInst g i.cid (modInst i.cid (fun i => { i with
      dlPast := true, lostRanks := (i.lostRanks ++ own ++ ranks).eraseDups, lostKids := (i.lostKids ++ kids).eraseDups }) s) := by
  intro own kids ranks
  unfold localDeadline
  rw [hg, hi]
  dsimp only
  rw [if_neg (by rw [hpast, Bool.or_false, decide_eq_true_eq]; exact Nat.not_lt.mpr ht)]

theorem resultDeadline_due {p gid n : Nat} {g : Group} {i : Inst} (hg : s.group? p gid = some g)
    (hi : s.groups.insts.find? (fun i => i.of p gid && i.inst == n && liveInst s i) = some i) (hroot : g.root = false)
    (ht : i.start + g.resultDl ≤ s.ns) :
    resultDeadline p gid n s = instTimeout g i i.lostRanks 0 (endBody g i.inst 0 8 [] 0) s := by
  unfold resultDeadline
  rw [hg, hi]
  dsimp only
  rw [if_neg (by rw [hroot, Bool.false_or, decide_eq_true_eq]; exact Nat.not_lt.mpr ht)]

end

/-- Settles O48. -/
theorem groupsAndDeadlines : Obligations.GroupsAndDeadlines := by
  have next := fun {s t u : State} (h : t = u) => congrArg (fun t => (Host.Outcome.next (settle s t) : Host.Outcome State Fault Refusal)) h
  refine ⟨⟨?_, ?_⟩, fun p gid n g i s hg hi => ⟨?_, ?_⟩⟩
  · intro m j s h hbad g hpart hown hnew hroom
    refine ⟨_, exec_simply rfl h (groupCreate_new (s := startJob j s) hbad hpart hown hnew hroom), ?_, ?_, ?_, ?_⟩
    · rw [mirrorDesc, mirrorState_groups]; rfl
    · rw [mirrorDesc, mirrorState_groups]; rfl
    · rw [mirrorDesc, mirrorState_mem]; rfl
    · rw [mirrorDesc, mirrorState_chains]; rfl
  · intro m j s h id hg hidle
    refine ⟨_, exec_simply rfl h (groupDestroy_idle (s := startJob j s) hg hidle), ?_, ?_, ?_, ?_⟩
    · rw [mirrorDesc, mirrorState_groups]; rfl
    · rw [mirrorDesc, mirrorState_groups]; rfl
    · rw [mirrorDesc, mirrorState_mem]; rfl
    · rw [mirrorDesc, mirrorState_chains]; rfl
  · exact fun ht hpast => next (localDeadline_due hg hi ht hpast)
  · exact fun hroot ht => next (resultDeadline_due hg hi hroot ht)

section
variable {s t u : State} {p x : Nat} {m o q : PktMsg} {g : Group} {i : Inst} {src : Bool × Nat} {st : Status} {row : Nat → Bool}

/-! ### Messages of collectives -/

/-- A collective's message for this module has come in as `q`, from state `s` to state `t`, for the live instance `i` of group `g` of
partition `x`. -/
structure CollMsg (p x : Nat) (m o q : PktMsg) (g : Group) (i : Inst) (s t : State) : Prop where
  opc : m.opc = 6
  kind : (s.port p).kind ≠ 2
  dst : namesMe s m.dst = true
  passes : msgPasses s p m o q false t
  ready : t.power.readyFull = true
  part : collPart t p q = some x
  quiet : t.isQuiesced x = false
  group : t.group? x (decColl q.body).group = some g
  inst : t.groups.insts.find? (fun i => i.of x g.id && i.inst == (decColl q.body).inst && liveInst t i) = some i

theorem CollMsg.body (h : CollMsg p x m o q g i s t) : o.body = q.body := by
  obtain ⟨-, -, -, -, -, -, -, -, -, rfl⟩ := h.passes
  split <;> rfl

theorem CollMsg.opened (h : CollMsg p x m o q g i s t) : openPkt m = some o := h.passes.2.2.1

theorem CollMsg.kindOf (h : CollMsg p x m o q g i s t) : ((openPkt m).elim 0 fun q => (decColl q.body).kind) = (decColl q.body).kind := by
  rw [h.opened, ← h.body]
  rfl

theorem CollMsg.groupOf (h : CollMsg p x m o q g i s t) :
    ((collPart t p q).bind fun y => (t.group? y (decColl q.body).group).map fun g => (y, g)) = some (x, g) := by
  rw [h.part, Option.bind_some, h.group, Option.map_some]

theorem collective_result (h : CollMsg p x m o q g i s t) (hrow : row (decColl q.body).kind = true) (hk : (decColl q.body).kind = 2) :
    collective row p m s = resultIn p q t := by
  simp only [collective, h.kindOf, hrow, h.opc, h.dst, h.ready, h.part, h.quiet, admitMsg_passes h.passes (beq_eq_false_iff_ne.mpr h.kind)]
  simp [hk]

theorem collective_end (h : CollMsg p x m o q g i s t) (hrow : row (decColl q.body).kind = true) (hk : (decColl q.body).kind = 3)
    (hpar : fromParent s p o = true) : collective row p m s = endIn p q t := by
  simp only [collective, h.kindOf, hrow, h.opc, h.dst, h.ready, h.part, h.quiet, admitMsg_passes h.passes (beq_eq_false_iff_ne.mpr h.kind)]
  simp [hk, h.opened, hpar]

theorem collective_in (h : CollMsg p x m o q g i s t) (hrow : row (decColl q.body).kind = true) (hk : (decColl q.body).kind ≠ 2)
    (hpar : (decColl q.body).kind = 3 → fromParent s p o = false) (hin : collIn p q t = (st, u)) : collective row p m s = refuse p q st u := by
  have hq : (decide ((decColl q.body).kind = 2) || (decide ((decColl q.body).kind = 3) && (openPkt m).elim false fun q => fromParent s p q)) = false := by
    by_cases h3 : (decColl q.body).kind = 3
    · simp [h3, h.opened, hpar h3]
    · simp [hk, h3]
  simp only [collective, h.kindOf, hrow, h.opc, h.dst, h.ready, h.part, h.quiet, admitMsg_passes h.passes (beq_eq_false_iff_ne.mpr h.kind), hq, hin]
  simp [hk]

theorem collIn_elements (h : CollMsg p x m o q g i s t) (hsrc : collSrc t g q (decColl q.body).rank = some src)
    (hbad : collBad g src (decColl q.body) q.body = false) (ht : t.ns < i.start + g.localDl) (hk : (decColl q.body).kind ≠ 3)
    (hw : ((List.range (decColl q.body).count).all fun n => (windowOf g i).contains (((decColl q.body).first + n) / 256)
      || i.tiles.contains (((decColl q.body).first + n) / 256)) = true) :
    collIn p q t = (.ok, advanceInst g i.cid (takeElems i.cid src (collElems (decColl q.body) q.body)
      (if src.1 && g.exact && (collElems (decColl q.body) q.body).any (fun x => badWord (leNat x.2)) then
        event 0x000A true [] (some x) [(decColl q.body).group, (decColl q.body).inst] t else t))) := by
  have hwin : ((List.range (decColl q.body).count).any fun k => !(windowOf g i).contains (((decColl q.body).first + k) / 256)
      && !i.tiles.contains (((decColl q.body).first + k) / 256)) = false := by
    rw [List.any_eq_false]
    intro k hk
    have := List.all_eq_true.mp hw k hk
    simpa [Bool.or_eq_true, or_iff_not_imp_left] using this
  unfold collIn
  dsimp only
  rw [h.groupOf]
  dsimp only
  rw [hsrc]
  dsimp only
  rw [if_neg (by rw [hbad]; decide), h.inst]
  dsimp only
  rw [if_neg (Nat.not_le.mpr ht), if_neg hk, if_neg (by rw [hwin]; decide)]

theorem collIn_end (h : CollMsg p x m o q g i s t) (hsrc : collSrc t g q (decColl q.body).rank = some src)
    (hbad : collBad g src (decColl q.body) q.body = false) (ht : t.ns < i.start + g.localDl) (hk : (decColl q.body).kind = 3) :
    collIn p q t = (.ok, advanceInst g i.cid (modInst i.cid (fun i => { i with
      endKids := (i.endKids ++ [src.2]).eraseDups
      lostRanks := (i.lostRanks ++ endRanks q.body).eraseDups
      unnamed := i.unnamed + (if i.endKids.contains src.2 then 0 else fldLE q.body 18 3 - (endRanks q.body).eraseDups.length)
      lostKids := if fldLE q.body 18 3 = 0 then i.lostKids else (i.lostKids ++ [src.2]).eraseDups }) t)) := by
  unfold collIn
  dsimp only
  rw [h.groupOf]
  dsimp only
  rw [hsrc]
  dsimp only
  rw [if_neg (by rw [hbad]; decide), h.inst]
  dsimp only
  rw [if_neg (Nat.not_le.mpr ht), if_pos hk]

theorem resultIn_parent (h : CollMsg p x m o q g i s t) (hroot : g.root = false) (hpar : sameEp t g.parent q.src = true)
    (ht : t.ns < i.start + g.resultDl) (hrsv : (decColl q.body).rsv = false) (hfmt : (decColl q.body).fmt = g.outFmt)
    (hlen : q.body.length = 16 + (decColl q.body).count * collBytes (decColl q.body).fmt)
    (hrange : (decColl q.body).first + (decColl q.body).count ≤ g.range) :
    resultIn p q t = deliverDown g i.cid (collElems (decColl q.body) q.body) t := by
  unfold resultIn
  dsimp only
  rw [h.groupOf]
  dsimp only
  rw [h.inst]
  dsimp only
  rw [if_neg]
  simp [hroot, hpar, ht, hrsv, ← hfmt, hlen, hrange]

theorem endIn_parent (h : CollMsg p x m o q g i s t) (hroot : g.root = false) (ht : t.ns < i.start + g.resultDl) (hlen : 24 ≤ q.body.length) :
    endIn p q t = if fldLE q.body 16 2 = 8 then
        instTimeout g i (i.lostRanks ++ endRanks q.body).eraseDups (fldLE q.body 18 3) q.body t
      else instEnd g i.cid (i.lostRanks ++ endRanks q.body).eraseDups (fldLE q.body 18 3) (endDown g i.cid q.body t) := by
  unfold endIn
  dsimp only
  rw [h.groupOf]
  dsimp only
  rw [h.inst]
  dsimp only
  rw [if_neg]
  simp [hroot, ht, hlen]

end

/-- Settles O49. -/
theorem collectiveMessagesAct : Obligations.CollectiveMessagesAct := by
  have next := fun {s t u : State} (h : t = u) => congrArg (fun t => (Host.Outcome.next (settle s t) : Host.Outcome State Fault Refusal)) h
  intro p x m o q g i s t hopc hkind hdst hpass hready hpart hquiet h hgroup hinst
  have hc : CollMsg p x m o q g i s t := ⟨hopc, hkind, hdst, hpass, hready, hpart, hquiet, hgroup, hinst⟩
  refine ⟨?_, ?_, ?_, ?_⟩
  · intro src hsrc hbad ht hw l t1 r
    refine ⟨fun hk => ?_, fun hk => ?_⟩
    all_goals
      have h2 : (decColl q.body).kind ≠ 2 := by rw [show (decColl q.body).kind = _ from hk]; decide
      have h3 : (decColl q.body).kind ≠ 3 := by rw [show (decColl q.body).kind = _ from hk]; decide
      exact next (collective_in hc (by rw [show (decColl q.body).kind = _ from hk]; rfl) h2 (fun h => absurd h h3)
        (collIn_elements hc hsrc hbad ht h3 hw))
  · intro src hsrc hbad ht hk hpar lost
    have hk' : (decColl q.body).kind = 3 := hk
    exact next (collective_in hc (by rw [hk']; rfl) (by rw [hk']; decide) (fun _ => hpar) (collIn_end hc hsrc hbad ht hk'))
  · intro hk hroot hpar ht hrsv hfmt hlen hrange
    have hk' : (decColl q.body).kind = 2 := hk
    exact next ((collective_result hc (by rw [hk']; rfl) hk').trans (resultIn_parent hc hroot hpar ht hrsv hfmt hlen hrange))
  · intro hk hpar hroot ht hlen lost
    have hk' : (decColl q.body).kind = 3 := hk
    have hend := (collective_end hc (row := (· == 3)) (by rw [hk']; rfl) hk' hpar).trans (endIn_parent hc hroot ht hlen)
    exact ⟨fun h8 => next (hend.trans (if_pos h8)), fun h8 => next (hend.trans (if_neg h8))⟩

end Sys2Proof.Machine
end

section
/-! PROOFS. The admission of a chain whose engine's requests are open (R73, R75). -/

namespace Sys2Proof.Machine

section
variable {s u : State} {nook : Nat} {c : Chain}

/-- The chain that a nook admits next (R73). -/
def nextChain (s : State) (nook : Nat) : Option Chain :=
  let q := s.chains.chains.filter fun c => c.waits && c.home == nook && !(s.twin.giving.elim false fun g => g.1 == c.part)
  (q.find? (·.act.isSome)).or q.head?

/-- Admission waits for what it reads. -/
theorem chainAdmit_reading (hc : nextChain s nook = some c) (hroom : hasRoom s nook c = true) (hread : admitRead c s = (false, u)) :
    chainAdmit nook s = u := by
  unfold nextChain at hc
  dsimp only at hc
  unfold chainAdmit
  dsimp only
  rw [hc]
  dsimp only
  rw [hroom, if_neg (by decide), hread]
  rfl

/-- With no list to read, admission still waits until the chain's engine is quiet. -/
theorem admitRead_busy (hruns : admitRuns s c = []) (hbusy : ((List.range c.descs.length).any fun i => engBusy s (stageTok c.cid i)) = true) :
    admitRead c s = (false, s) := by
  simp only [admitRead, hruns, List.foldl_nil, hbusy, if_true]

end

/-- A chain of one stage that admission reads no list for, in the queue of nook 1. -/
def plainChain : Chain := { cid := 1, home := 1, descs := [4 :: List.replicate 63 0] }

/-- The chain waits while a request of its stage's engine waits in the directory. -/
def busyEngineState : State :=
  { State.reset with
    chains := { State.reset.chains with chains := [plainChain] }
    dir := { State.reset.dir with waitq := [{ src := .engine (stageTok 1 0) }] } }

theorem busyEngineState_next : nextChain busyEngineState 1 = some plainChain := by decide +kernel

theorem busyEngineState_room : hasRoom busyEngineState 1 plainChain = true := by decide +kernel

theorem chainAdmit_busyEngine : chainAdmit 1 busyEngineState = busyEngineState :=
  chainAdmit_reading busyEngineState_next busyEngineState_room (admitRead_busy (by decide +kernel) (by decide +kernel))

/-- Refutes O50: its clause for a chain that reads no list leaves out that the chain's engine is quiet. `admitRead` waits for a request
that is open under the stage's token, and the chain is not admitted. -/
theorem not_chainsStart : ¬ Obligations.ChainsStart := by
  rintro ⟨-, -, -, -, -, -, -, hplain, -⟩
  have h := hplain 1 plainChain busyEngineState busyEngineState_next busyEngineState_room (by decide +kernel) (by decide +kernel) rfl
  have hs : exec (.chainAdmit 1) busyEngineState = .next (settle busyEngineState busyEngineState) :=
    congrArg (fun t => Host.Outcome.next (settle busyEngineState t)) chainAdmit_busyEngine
  have ht := Host.Outcome.next.inj (hs.symm.trans h)
  have hchains := congrArg (fun t : State => t.chains.chains.any (·.admitted)) ht
  simp only [settle_chains] at hchains
  exact absurd hchains (by decide +kernel)

end Sys2Proof.Machine
end

section
/-! PROOFS. Stages of a chain, its look-ups, and its end. -/

namespace Sys2Proof.Machine

section
variable {s s0 s1 : State} {cid i r : Nat} {c c1 : Chain} {st : Status} {stage : Nat}

/-! ### A stage goes on -/

theorem chain?_modChain {f : Chain → Chain} (hf : ∀ c, (f c).cid = c.cid) (cid : Nat) (s : State) :
    (modChain cid f s).chain? cid = (s.chain? cid).map f := by
  unfold State.chain? modChain modWhere
  dsimp only
  induction s.chains.chains with
  | nil => rfl
  | cons c cs ih =>
    rw [List.map_cons]
    by_cases h : (c.cid == cid) = true
    · rw [if_pos h, List.find?_cons_of_pos (p := fun x : Chain => x.cid == cid) (by rw [hf]; exact h),
        List.find?_cons_of_pos (p := fun x : Chain => x.cid == cid) h, Option.map_some]
    · rw [if_neg h, List.find?_cons_of_neg (p := fun x : Chain => x.cid == cid) h,
        List.find?_cons_of_neg (p := fun x : Chain => x.cid == cid) h, ih]

/-- The chain's stage runs when its operands are there. -/
theorem memoryResponse_goes (hw : writeMarks cid i s = s0) (hc : s0.chain? cid = some c) (hh : c.holds = true) (hi : i < c.descs.length)
    (hph : (c.st i).phase ≠ 5) (hf : engFail s0 c = none) (hl : ticketLost s0 c = false) :
    memoryResponse cid i s = syncThreads cid (if fed c i then runStage c i (modChain cid (Chain.take i) s0) else modChain cid (Chain.take i) s0) := by
  have hok : (!c.holds || decide (c.descs.length ≤ i)) = false := by simp [hh, hi]
  simp only [memoryResponse, hw, hc, hok, hf, hl, hph, Bool.false_eq_true, if_false]

theorem memoryResponse_failed {x : Status × Nat} (hw : writeMarks cid i s = s0) (hc : s0.chain? cid = some c) (hh : c.holds = true)
    (hi : i < c.descs.length) (hf : engFail s0 c = some x) : memoryResponse cid i s = abort cid x.1 x.2 s0 := by
  have hok : (!c.holds || decide (c.descs.length ≤ i)) = false := by simp [hh, hi]
  simp only [memoryResponse, hw, hc, hok, hf, Bool.false_eq_true, if_false]

theorem writeMarks_none (hc : s.chain? cid = some c) (hu : c.unmarked = []) : writeMarks cid i s = s := by
  simp only [writeMarks, hc, hu, List.isEmpty_nil, Bool.true_or, if_true]

theorem runStage_gatherEnd (hn : (c.d i).op = 1) (hph : (c.st i).phase ≠ 0) (s : State) : runStage c i s = gatherEnd c.cid i s := by
  simp only [runStage, hn, hph, if_false]

/-! ### COPY from memory (R87) -/

/-- One run that comes whole: its reads are done and every status is OK. -/
theorem fetch_one {run : Nat × Nat} {tok part : Nat} (htok : stageTok c.cid i = tok) (hpart : c.part = part)
    (h : readsCome tok part (c.map s) [run] s) : fetch c i [run] s = (.ok, true, (readsDone tok part [run] s).2) := by
  subst htok hpart
  obtain ⟨hacc, hbusy, hgot, hst⟩ := h
  simp only [List.all_cons, List.all_nil, Bool.and_true, beq_iff_eq] at hacc hst
  simp only [readsDone, List.foldl_cons, List.foldl_nil, Bool.true_and] at hbusy hgot hst ⊢
  simp only [fetch, List.foldl_cons, List.foldl_nil, if_true, hacc, hbusy, hgot, hst, Bool.true_and, ne_eq, not_true, if_false, Bool.false_eq_true]

theorem copyRun_memory (hc : s.chain? cid = some c) (hcid : c.cid = cid) (hsrc : (c.d i).srcA = none)
    (hreads : readsCome (stageTok cid i) c.part (c.map s) [((c.d i).src, (c.d i).count)] s) :
    copyRun cid i s = stageDone cid i 0 [] ((List.range ((c.d i).count / 64)).foldl (fun u k =>
      counted cid 1 (stageWrite cid i ((c.d i).f 16 8 + 64 * k) (((engBytes (readsDone (stageTok cid i) c.part
        [((c.d i).src, (c.d i).count)] s).2 (stageTok cid i) (c.d i).src (c.d i).count).drop (64 * k)).take 64)) u)
        (engForget (stageTok cid i) (readsDone (stageTok cid i) c.part [((c.d i).src, (c.d i).count)] s).2)) := by
  have hfetch := fetch_one (by rw [hcid]) rfl hreads
  simp only [copyRun, hc, hsrc, Option.isSome_none, Bool.false_eq_true, if_false, withRuns, hfetch, Option.isNone_none, if_true]

/-! ### Look-ups -/

theorem rowReadDone_due {x : RowRef} (hc : s.chain? cid = some c) (hx : (c.st i).rows[r]? = some x) (hst : x.state = 1) (hwait : x.wait = 0)
    (hnone : c.status = none) (hbusy : engBusy s (rowTok cid i r) = false)
    (hext : ((anyExtent s x.addr).elim false fun e => (s.ext e.base).waiting) = false) : rowReadDone cid i r s = deliverMem cid i r s := by
  simp [rowReadDone, hc, hx, hst, hwait, hnone, hbusy, hext]

/-- The rows that a look-up's index asks for, at the engine's nook (R116). -/
def entriesAsked (cid i nook : Nat) (c : Chain) (grp : List Nat) (s : State) : State :=
  grp.foldl (fun s k => (entryRun s c i nook ((c.st i).rows.getD k {})).foldl (fun s e => engRead (rowTok cid i k) c.part e.1 e.2 s) s) s

/-- What `ladleIndex` asks of the chain, its row and the engine before the row's entry is read. -/
structure IndexReady (cid i r : Nat) (c : Chain) (x : RowRef) (t tx : Table) (s s0 : State) : Prop where
  chain : s.chain? cid = some c
  row : (c.st i).rows[r]? = some x
  table : s.table? c.part ((c.d i).f 16 2) = some t
  rowTable : s.table? c.part x.table = some tx
  holds : c.holds = true
  phase : (c.st i).phase = 1
  state : x.state = 0 ∨ x.state = 3
  access : pourAccess s (c.map s) c.part false (tx.d.smap + x.shard) 1 = .ok
  read : (readLines (linesOf (tx.d.smap + x.shard) 1) s).1 = true
  room : ladleUsed s (shardNook s tx.d x.shard)
    + ((indexGroup s c i r t x).filter fun k => ((c.st i).rows.getD k {}).state == 0).length ≤ 2048
  still : moving s (shardNook s tx.d x.shard) = true → startedOn (c.st i) (shardNook s tx.d x.shard) = true
  spread : takeSpread c i (shardNook s tx.d x.shard) (readLines (linesOf (tx.d.smap + x.shard) 1) s).2 = some s0

variable {x : RowRef} {t tx : Table}

theorem IndexReady.cont (h : IndexReady cid i r c x t tx s s0) :
    (!c.holds || decide ((c.st i).phase ≠ 1) || !(x.state == 0 || x.state == 3)) = false ∧
    (decide (2048 < ladleUsed s (shardNook s tx.d x.shard)
        + ((indexGroup s c i r t x).filter fun k => ((c.st i).rows.getD k {}).state == 0).length)
      || (moving s (shardNook s tx.d x.shard) && !startedOn (c.st i) (shardNook s tx.d x.shard))) = false := by
  refine ⟨?_, ?_⟩
  · rcases h.state with hs | hs <;> simp [h.holds, h.phase, hs]
  · rw [decide_eq_false (Nat.not_lt.mpr h.room), Bool.false_or]
    cases hm : moving s (shardNook s tx.d x.shard) with
    | false => rfl
    | true => rw [h.still hm]; rfl

/-- What the index comes to once its engine may go on (R116, R118). -/
def indexGoes (cid i r : Nat) (c : Chain) (x : RowRef) (t tx : Table) (s s0 : State) : State :=
  let nook := shardNook s tx.d x.shard
  let st := c.st i
  let grp := indexGroup s c i r t x
  let asked := entriesAsked cid i nook c grp s0
  if grp.any fun k => engBusy asked (rowTok cid i k) then
    syncThreads cid ((grp.filter fun k => (st.rows.getD k {}).state == 0).foldl
      (fun s k => modRow cid i k (fun x => { x with state := 3, nook := nook }) s) asked)
  else
    let n := (st.idxs.filter fun p => !p.lost && (rowsOf s t (leNat p.data)).any fun w =>
      grp.any fun k => ((st.rows.getD k {}).table, (st.rows.getD k {}).row) == w).length
    let s1 := grp.foldl (fun s k => sampleRow cid i k nook s) asked
    match s1.chain? cid with
    | none => s1
    | some c1 =>
      let rows := grp.map fun k => (k, (c1.st i).rows.getD k {})
      if c1.status.isSome then s1
      else if 682 * (s.nooksOf c.part).length < trayUsed s1 c.part && rows.any (·.2.tray) then s
      else
        let s2 := syncThreads cid (handOver c1 i (rowLines tx.d) t x.shard rows (if leafMode (c.d i) t then bagsOfRow s t st x else []) s1)
        if tx.d.storage = 2 then s2 else addLoad c.part x.table x.shard n s2

theorem ladleIndex_ready (h : IndexReady cid i r c x t tx s s0) : ladleIndex cid i r s = indexGoes cid i r c x t tx s s0 := by
  obtain ⟨hopen, hroom⟩ := h.cont
  delta ladleIndex
  dsimp only
  rw [h.chain]
  dsimp only
  rw [h.row, h.table]
  dsimp only
  rw [h.rowTable]
  dsimp only
  rw [if_neg (by rw [hopen]; exact Bool.false_ne_true), h.access]
  dsimp only
  rw [if_neg (by rw [h.read]; exact Bool.false_ne_true), if_neg (by rw [hroom]; exact Bool.false_ne_true), h.spread]
  rfl

/-! ### The end of a chain (R92) -/

/-- The chain leaves the module with its answer, and is counted. -/
def chainLeft (cid : Nat) (c : Chain) (st : Status) (stage : Nat) (s : State) : State :=
  let t := count (some c.part) (fun t => { t with chainsDone := t.chainsDone + 1, chainsNotOk := t.chainsNotOk + b2n (st != .ok) })
    (answerChain c st stage (max (c.lostCount.getD 0) c.lost.length) (instStop cid (leaveChans cid (leaveWaves cid s))))
  fencesGo (quiesceCheck c.part (destroyCheck (dropChain cid (if c.mirrored then mirrorState c.part (.chainEnd cid) t else t))))

/-- Every stage has ended, its stores are done and its messages answered. -/
def chainDone (s : State) (c : Chain) : Bool := c.admitted && c.stages.all (·.phase == 5) && engQuiet s c && c.pushes.isEmpty

/-- The status a chain ends with, and the stage that gave it. -/
def chainEnds (s : State) (c : Chain) : Status × Nat :=
  (c.status.or (engFail s c)).getD (if max (c.lostCount.getD 0) c.lost.length = 0 then .ok else .partialLost, 0)

/-- The stage that lost a position. -/
def lostStage (c : Chain) : Nat :=
  (((List.range c.descs.length).find? fun i => (c.st i).out.any (·.lost)).or
    ((List.range c.descs.length).find? fun i => (c.d i).op ∈ [2, 3, 5])).getD 0

theorem chainComplete_due (hc : s.chain? cid = some c) (hu : c.unmarked = []) (h : c.status.isSome = true ∨ chainDone s c = true) :
    chainComplete cid s = chainLeft cid c (chainEnds s c).1
      (if (chainEnds s c).1 = .partialLost && c.status.isNone then lostStage c else (chainEnds s c).2) s := by
  have hgo : ((c.status.isNone && !chainDone s c) || !c.unmarked.isEmpty) = false := by
    rw [hu]
    rcases h with h | h
    · rw [Option.isNone_eq_false_iff.mpr h]; rfl
    · rw [h, Bool.not_true, Bool.and_false]; rfl
  unfold chainDone at hgo
  delta chainComplete
  dsimp only
  rw [hc]
  dsimp only
  rw [if_neg (by rw [hgo]; exact Bool.false_ne_true)]
  rfl

theorem chainTimeout_due (hc : s.chain? cid = some c) (hlim : c.h 319 288 ≠ 0) (ht : c.acceptedAt + 1000 * c.h 319 288 ≤ s.t) :
    chainTimeout cid s = abort cid .timeout (((List.range c.stages.length).find? fun i => (c.st i).phase != 5).getD 0) s := by
  simp only [chainTimeout, hc]
  rw [if_neg (by simp [hlim, ht])]

/-! What the end of a chain leaves alone -/

theorem answerChain_keep {β : Type} (F : State → β) (hQ : ∀ vc svc m s, F (sendQuiet vc svc m s) = F s)
    (hFin : ∀ i st d p s, F (finish i st d p s) = F s) (hV : ∀ c b ps k d s, F (event c b ps k d s) = F s) (c : Chain) (st : Status)
    (stage lost : Nat) (s : State) : F (answerChain c st stage lost s) = F s := by
  unfold answerChain
  dsimp only
  split
  · exact hQ ..
  · exact hFin ..
  · exact hV ..

theorem finish?_keep {β : Type} (F : State → β) (hFin : ∀ i st d p s, F (finish i st d p s) = F s) (o : Option Nat) (st : Status) (s : State) :
    F (finish? o st s) = F s := by
  cases o with
  | none => rfl
  | some j => exact hFin ..

theorem destroyCheck_keep {β : Type} (F : State → β) (hFin : ∀ i st d p s, F (finish i st d p s) = F s)
    (hT : ∀ (s : State) t, F { s with tables := t } = F s) (s : State) : F (destroyCheck s) = F s :=
  foldl_keep F _ (fun _ _ => (finish?_keep F hFin ..).trans (hT ..)) _ _

theorem quiesceCheck_keep {β : Type} (F : State → β) (hFin : ∀ i st d p s, F (finish i st d p s) = F s)
    (hP : ∀ p f s, F (modPart p f s) = F s) (p : Nat) (s : State) : F (quiesceCheck p s) = F s := by
  unfold quiesceCheck
  split
  · rfl
  · split
    · rfl
    · exact (foldl_keep F _ (fun _ _ => hFin ..) _ _).trans (hP ..)

theorem leaveChans_keep {β : Type} (F : State → β) (hC : ∀ (s : State) k, F { s with chans := k } = F s) (cid : Nat) (s : State) :
    F (leaveChans cid s) = F s := by
  simp only [leaveChans]
  split
  · exact hC ..
  · rfl

theorem leaveWaves_keep {β : Type} (F : State → β) (hT : ∀ (s : State) t, F { s with tables := t } = F s) (cid : Nat) (s : State) :
    F (leaveWaves cid s) = F s := by
  unfold leaveWaves
  split
  · rfl
  · exact hT ..

/-- A part of the state without tables, channels, instances, jobs, frames and chains is as before the chain's end. -/
theorem chainLeft_keep {β : Type} (F : State → β) (hQ : ∀ vc svc m s, F (sendQuiet vc svc m s) = F s)
    (hFin : ∀ i st d p s, F (finish i st d p s) = F s) (hV : ∀ c b ps k d s, F (event c b ps k d s) = F s)
    (hT : ∀ (s : State) t, F { s with tables := t } = F s) (hC : ∀ (s : State) k, F { s with chans := k } = F s)
    (hP : ∀ p f s, F (modPart p f s) = F s) (hG : ∀ f s, F (fencesGo s) = F s ∧ F (instStop f s) = F s ∧ F (dropChain f s) = F s)
    (hN : ∀ p f s, F (count p f s) = F s) (hM : ∀ p m s, F (mirrorState p m s) = F s) (cid : Nat) (c : Chain) (st : Status) (stage : Nat)
    (s : State) : F (chainLeft cid c st stage s) = F s := by
  unfold chainLeft
  dsimp only
  rw [(hG 0 _).1, quiesceCheck_keep F hFin hP, destroyCheck_keep F hFin hT, (hG cid _).2.2]
  split
  · rw [hM, hN, answerChain_keep F hQ hFin hV, (hG cid _).2.1, leaveChans_keep F hC, leaveWaves_keep F hT]
  · rw [hN, answerChain_keep F hQ hFin hV, (hG cid _).2.1, leaveChans_keep F hC, leaveWaves_keep F hT]

theorem chain?_dropChain (cid : Nat) (s : State) : (dropChain cid s).chain? cid = none := by
  unfold State.chain? dropChain
  dsimp only
  rw [List.find?_eq_none]
  intro c hc
  simpa using (List.mem_filter.mp hc).2

theorem fencesGo_chains (s : State) : (fencesGo s).chains = s.chains :=
  foldl_keep State.chains _ (fun _ _ => sendCmp_chains ..) _ _

theorem chain?_congr {s u : State} (h : u.chains = s.chains) (cid : Nat) : u.chain? cid = s.chain? cid := by rw [State.chain?, State.chain?, h]

theorem chain?_chainLeft (cid : Nat) (c : Chain) (st : Status) (stage : Nat) (s : State) : (chainLeft cid c st stage s).chain? cid = none := by
  unfold chainLeft
  dsimp only
  rw [chain?_congr (fencesGo_chains _), chain?_congr (quiesceCheck_keep State.chains finish_chains (by intros; rfl) ..),
    chain?_congr (destroyCheck_keep State.chains finish_chains (by intros; rfl) _), chain?_dropChain]

theorem fencesGo_bytes (s : State) : (fencesGo s).mem.bytes = s.mem.bytes :=
  foldl_keep (fun s : State => s.mem.bytes) _ (by simp) _ _

theorem fencesGo_maps (s : State) : (fencesGo s).maps = s.maps := foldl_keep State.maps _ (fun _ _ => sendCmp_maps ..) _ _

theorem chainLeft_maps (cid : Nat) (c : Chain) (st : Status) (stage : Nat) (s : State) : (chainLeft cid c st stage s).maps = s.maps :=
  chainLeft_keep State.maps sendQuiet_maps finish_maps event_maps (by intros; rfl) (by intros; rfl) (by intros; rfl)
    (fun _ _ => ⟨fencesGo_maps _, rfl, rfl⟩) count_maps mirrorState_maps cid c st stage s

theorem chainLeft_bytes (cid : Nat) (c : Chain) (st : Status) (stage : Nat) (s : State) : (chainLeft cid c st stage s).mem.bytes = s.mem.bytes :=
  chainLeft_keep (fun s => s.mem.bytes) (by simp) (by simp) (by simp) (by intros; rfl) (by intros; rfl) (by intros; rfl)
    (fun _ _ => ⟨fencesGo_bytes _, rfl, rfl⟩) (by simp) (by simp) cid c st stage s

end

/-- Settles O51. -/
theorem chainsRunAndEnd : Obligations.ChainsRunAndEnd := by
  have next := fun {s t u : State} (h : t = u) => congrArg (fun t => (Host.Outcome.next (settle s t) : Host.Outcome State Fault Refusal)) h
  refine ⟨?_, ?_, ?_, ?_, ?_, ?_, ?_, ?_⟩
  · intro cid i c s s0 hc hh hi hph hf hl s1 go at0
    have hrun := memoryResponse_goes rfl hc hh hi hph hf hl
    have hgo : ∀ {t}, fed c i = true → runStage c i s1 = t → go t := fun hfed ht =>
      next (hrun.trans (by rw [if_pos hfed, ← ht]))
    refine ⟨?_, ?_, ?_, ?_, ?_, ?_, ?_, ?_, ?_, ?_, ?_, ?_, ?_, ?_⟩
    · exact fun ⟨hfed, hop, h0, hcid⟩ => hgo hfed (by simp only [runStage, hop, h0, hcid, if_true])
    · exact fun ⟨hfed, hop, h0, hcid⟩ => hgo hfed (by simp only [runStage, hop, h0, hcid, if_true])
    · exact fun ⟨hfed, hop, h0, hcid⟩ hplain => hgo hfed (by simp only [runStage, hop, hcid, hplain, if_true])
    · exact fun ⟨hfed, hop, h0, hcid⟩ hgroup => hgo hfed (by simp only [runStage, hop, h0, hcid, hgroup, if_true, if_false])
    · exact fun ⟨hfed, hop, h0, hcid⟩ => hgo hfed (by simp only [runStage, hop, hcid])
    · exact fun ⟨hfed, hop, h0, hcid⟩ => hgo hfed (by simp only [runStage, hop, hcid])
    · exact fun ⟨hfed, hop, h0, hcid⟩ => hgo hfed (by simp only [runStage, hop, hcid])
    · exact fun ⟨hfed, hop, h0, hcid⟩ => hgo hfed (by simp only [runStage, hop, hcid])
    · exact fun ⟨hfed, hop, h0, hcid⟩ => hgo hfed (by simp only [runStage, hop, hcid])
    · exact fun ⟨hfed, hop, h0, hcid⟩ => hgo hfed (by simp only [runStage, hop, hcid])
    · exact fun ⟨hfed, hop, h0, hcid⟩ => hgo hfed (by simp only [runStage, hop, hcid])
    · exact fun ⟨hfed, hop, h0, hcid⟩ => hgo hfed (by simp only [runStage, hop, hcid])
    · exact fun hfed hop h0 hcid => hgo hfed ((runStage_gatherEnd hop h0 _).trans (by rw [hcid]))
    · exact fun hfed => next (hrun.trans (by rw [if_neg (by rw [hfed]; decide)]))
  · exact fun cid i c x s hc hh hi hf => next (memoryResponse_failed rfl hc hh hi hf)
  · intro cid i c c1 s hc hcid hh hi h0 hfed hu hf hl s1 d s2 hop hsrc hc1 hcid1 hreads
    have h1 : c1 = Chain.take i c := by
      rw [chain?_modChain (by intro; rfl), hc, Option.map_some, Option.some.injEq] at hc1
      exact hc1.symm
    subst h1
    have hrun := memoryResponse_goes (writeMarks_none (i := i) hc hu) hc hh hi (by rw [h0]; decide) hf hl
    refine next (hrun.trans ?_)
    rw [if_pos hfed]
    refine congrArg (syncThreads cid) ?_
    have hstage : runStage c i (modChain cid (Chain.take i) s) = copyRun cid i s1 := by simp only [runStage, show (c.d i).op = 10 from hop, hcid]; rfl
    exact hstage.trans (copyRun_memory (c := Chain.take i c) hc1 hcid1 hsrc hreads)
  · intro cid i r c x t tx s s0 hc hx ht htx hh hph hst hacc nook st grp fresh m hread hroom hstill hspread asked
    have h := ladleIndex_ready (⟨hc, hx, ht, htx, hh, hph, hst, hacc, hread, hroom, hstill, hspread⟩ : IndexReady cid i r c x t tx s s0)
    refine ⟨fun hbusy => next (h.trans (if_pos hbusy)), ?_⟩
    intro c1 hquiet s1 rows hc1 hok htray n s2
    refine next (h.trans ((if_neg (Bool.eq_false_iff.mp hquiet)).trans ?_))
    dsimp only
    split
    · next heq => exact absurd (heq.symm.trans hc1) (by simp)
    · next c2 heq =>
      obtain rfl := Option.some.inj (heq.symm.trans hc1)
      rw [if_neg (by rw [hok]; exact Bool.false_ne_true), if_neg]
      · rfl
      · rw [Bool.and_eq_true, decide_eq_true_eq]
        exact fun hno => absurd (htray hno.2) (Nat.not_le.mpr hno.1)
  · exact fun cid i r c x s hc hx hst hwait hnone hbusy hext => next (rowReadDone_due hc hx hst hwait hnone hbusy hext)
  · intro cid c s hc hu lost go
    refine ⟨fun st stage hst => ?_, fun hnone hadm hall hquiet hpush => ?_⟩
    · have h := chainComplete_due hc hu (.inl (by rw [hst]; rfl))
      have hend : chainEnds s c = (st, stage) := by rw [chainEnds, hst]; rfl
      rw [hend, hst, Option.isNone_some, Bool.and_false, if_neg Bool.false_ne_true] at h
      exact next h
    · have hdone : chainDone s c = true := by rw [chainDone, hadm, hall, hquiet, hpush]; rfl
      have h := chainComplete_due hc hu (.inr hdone)
      refine ⟨fun st stage hst hno => ?_, fun hst h0 => ?_, fun hst h0 => ?_⟩
      · have hend : chainEnds s c = (st, stage) := by rw [chainEnds, hnone, hst]; rfl
        rw [hend, if_neg (by simp [hno])] at h
        exact next h
      · have hend : chainEnds s c = (.ok, 0) := by rw [chainEnds, hnone, hst, if_pos h0]; rfl
        rw [hend, if_neg (by simp)] at h
        exact next h
      · have hend : chainEnds s c = (.partialLost, 0) := by rw [chainEnds, hnone, hst, if_neg h0]; rfl
        rw [hend, if_pos (by rw [hnone]; rfl)] at h
        exact next h
  · intro cid c s hc hu hor
    have hdue : c.status.isSome = true ∨ chainDone s c = true := hor.imp_right fun ⟨hadm, hall, hquiet, hpush⟩ => by
      rw [chainDone, hadm, hall, hquiet, hpush]; rfl
    refine ⟨_, next (chainComplete_due hc hu hdue), ?_, ?_, ?_⟩
    · rw [chain?_congr (settle_chains ..), chain?_chainLeft]
    · rw [settle_mem, chainLeft_bytes]
    · rw [settle_maps, chainLeft_maps]
  · exact fun cid c s hc hlim ht => next (chainTimeout_due hc hlim ht)

end Sys2Proof.Machine
end

section
/-! PROOFS. Strokes, refresh, patrol scrub and the bench chain of a channel. -/

namespace Sys2Proof.Machine

section
variable {s : State} {c n : Nat} {x : Stroke} {rest : List Stroke} {l : Leaf}

/-! ### A stroke starts (R159 to R164) -/

/-- The channel's next stroke may start, and it is this one. -/
def StrokeDue (c : Nat) (x : Stroke) (rest : List Stroke) (s : State) : Prop :=
  (s.chan c).strokes = x :: rest ∧ strokeFree s c = true ∧ chanHolds s c = [] ∧ (queueHead s c = none ∨ 32 ≤ (s.chan c).served)

theorem StrokeDue.notHeld (h : StrokeDue c x rest s) :
    (!strokeFree s c || !(chanHolds s c).isEmpty || ((queueHead s c).isSome && decide ((s.chan c).served < 32))) = false := by
  obtain ⟨-, hfree, hholds, hq⟩ := h
  rcases hq with hq | hq
  · simp [hfree, hholds, hq]
  · simp [hfree, hholds, Nat.not_lt.mpr hq]

theorem strokeStart_forward (h : StrokeDue c x rest s) (hk : x.kind = .forward) : strokeStart c s = startRows c s := by
  simp only [strokeStart, h.notHeld, h.1, hk, Bool.false_eq_true, if_false]

theorem strokeStart_leaf (h : StrokeDue c x rest s) (hk : x.kind = .leaf) : strokeStart c s = startRows c (takeLeaf c x s) := by
  simp only [strokeStart, h.notHeld, h.1, hk, Bool.false_eq_true, if_false]

theorem strokeStart_zero (h : StrokeDue c x rest s) (hk : x.kind = .zero) : strokeStart c s =
    if !nookBare s (chanNook c) then feedChan c (modChan c (fun k => { k with strokes := rest, zeroLine := none }) s)
    else modChan c (fun k => { k with strokes := rest, running := some { x with cols := strokeCols s }, strokeAt := s.t }) s := by
  simp only [strokeStart, h.notHeld, h.1, hk, Bool.false_eq_true, if_false]

theorem startRows_forward {y : Stroke} {ys : List Stroke} (hx : (s.chan c).strokes = x :: rest) (hk : x.kind = .forward)
    (hshed : shedRows x s = (x, s)) (hcols : x.cols ≠ 0) (hcut : recutRows s x = y :: ys) :
    startRows c s = feedChan c (modChan c (fun k => { k with
      strokes := (ys ++ rest).take 32, held := (ys ++ rest).drop 32 ++ k.held, running := some y, strokeAt := s.t }) s) := by
  simp only [startRows, hx, hshed, hcols, hcut, hk, if_false]
  rfl

theorem takeLeaf_taken (hl : (s.chan c).leaves.find? x.isLeaf = some l) (ht : l.taken = true) : takeLeaf c x s = s := by
  simp only [takeLeaf, hl, ht, if_true]

theorem takeLeaf_room (hl : (s.chan c).leaves.find? x.isLeaf = some l) (ht : l.taken = false) (hroom : (s.chan c).leafUsed + l.accs ≤ 16384) :
    takeLeaf c x s = modChan c (fun k => { k with
      leafUsed := k.leafUsed + l.accs, leaves := modWhere x.isLeaf (fun l => { l with taken := true }) k.leaves }) s := by
  simp only [takeLeaf, hl, ht, hroom, Bool.false_eq_true, if_false, if_true]

theorem takeLeaf_full (hl : (s.chan c).leaves.find? x.isLeaf = some l) (ht : l.taken = false) (hfull : 16384 < (s.chan c).leafUsed + l.accs) :
    let own := fun (y : Stroke) => y.kind == .leaf && y.isLeaf l
    let plain := fun (y : Stroke) => { y with kind := .forward }
    takeLeaf c x s = modChan c (fun k => { k with
      leaves := k.leaves.filter (! x.isLeaf ·), strokes := modWhere own plain k.strokes, held := modWhere own plain k.held }) s := by
  simp only [takeLeaf, hl, ht, Nat.not_le.mpr hfull, Bool.false_eq_true, if_false]

/-- Every atomic of the stroke may run where it stands, and none waits for a segment. -/
theorem strokeStart_atomic (h : StrokeDue c x rest s) (hk : x.kind = .atomic) (hne : x.reqs ≠ [])
    (hall : x.reqs.all (fun q => atomicStays s q && !atomicWaits (feedChan c (modChan c (fun k => { k with strokes := rest }) s)) q) = true) :
    let s1 := feedChan c (modChan c (fun k => { k with strokes := rest }) s)
    let cut := recutAtomics s1 x.reqs
    let q := if cut.2.isEmpty then (s1.chan c).strokes else { x with reqs := cut.2 } :: (s1.chan c).strokes
    strokeStart c s = modChan c (fun k => { k with
      strokes := q.take 32, held := q.drop 32 ++ k.held, running := some { x with reqs := cut.1 }, strokeAt := s.t }) s1 := by
  intro s1 cut q
  have hstay : ∀ q ∈ x.reqs, atomicStays s q = true := fun q hq => (Bool.and_eq_true_iff.mp (List.all_eq_true.mp hall q hq)).1
  have hmine : x.reqs.filter (atomicStays s ·) = x.reqs := List.filter_eq_self.mpr hstay
  have hback : x.reqs.filter (! atomicStays s ·) = [] := List.filter_eq_nil_iff.mpr fun q hq => by simp [hstay q hq]
  have hwait : x.reqs.any (atomicWaits s1 ·) = false := List.any_eq_false.mpr fun q hq => by
    have hw := (Bool.and_eq_true_iff.mp (List.all_eq_true.mp hall q hq)).2
    rw [Bool.not_eq_true'] at hw
    rw [hw]
    exact Bool.false_ne_true
  have ht : s1.t = s.t := by
    simp only [s1, feedChan]
    split <;> rfl
  have hs1 : feedChan c { modChan c (fun k => { k with strokes := rest }) s with
      dir.waitq := ([] : List LineReq).map (fun q => { q with held := true }) ++ s.dir.waitq } = s1 := rfl
  delta strokeStart
  dsimp only
  rw [if_neg (by rw [h.notHeld]; exact Bool.false_ne_true), h.1]
  dsimp only
  rw [hk]
  dsimp only
  rw [hmine, hback, hs1, if_neg (by rw [List.isEmpty_iff]; exact hne), if_neg (by rw [hwait]; exact Bool.false_ne_true), ht, ← hk]

/-- No atomic of the stroke may run where it stands: the directory dispatches each under a line hold (R175). -/
theorem strokeStart_atomicBack (h : StrokeDue c x rest s) (hk : x.kind = .atomic) (hno : x.reqs.any (atomicStays s ·) = false) :
    strokeStart c s = feedChan c
      { modChan c (fun k => { k with strokes := rest }) s with dir.waitq := (x.reqs.map fun q => { q with held := true }) ++ s.dir.waitq } := by
  have hmine : x.reqs.filter (atomicStays s ·) = [] := filter_eq_nil_of_any hno
  have hback : x.reqs.filter (! atomicStays s ·) = x.reqs :=
    List.filter_eq_self.mpr fun q hq => by simpa using List.any_eq_false.mp hno q hq
  simp only [strokeStart, h.notHeld, h.1, hk, hmine, hback, Bool.false_eq_true, if_false, List.isEmpty_nil, if_true]

/-! ### A stroke ends (R161) -/

/-- The channel's request queue has its turn after a stroke. -/
def afterStroke (c : Nat) (s : State) : State := moreZero c (refill c (feedChan c (clearCheck s)))

/-- What a stroke brings when it ends, by its kind. -/
def strokeBrings (c : Nat) (x : Stroke) (s : State) : State :=
  match x.kind with
  | .atomic => x.reqs.foldl (fun s q => strokeAtomic q s) s
  | .forward => x.rows.foldl (fun s r => deliverMem x.cid x.stage r s) s
  | .leaf => leafLess c x (x.rows.foldl (fun s r => deliverMem x.cid x.stage r s) s)
  | .zero => zeroEnd c x.cols s

theorem strokeEnd_running (h : (s.chan c).running = some x) {t : State}
    (ht : strokeBrings c x (modChan c (fun k => { k with running := none, strokeAt := s.t, served := 0 }) s) = t) :
    strokeEnd c s = if ((afterStroke c t).chan c).refPend then startRefresh c (afterStroke c t) else afterStroke c t := by
  subst ht
  simp only [strokeEnd, h]
  rfl

theorem feedChan_keep {β : Type} (F : State → β) (hC : ∀ c f s, F (modChan c f s) = F s) (c : Nat) (s : State) : F (feedChan c s) = F s := by
  unfold feedChan
  dsimp only
  split
  · rfl
  · exact hC ..

theorem refill_keep {β : Type} (F : State → β) (hC : ∀ c f s, F (modChan c f s) = F s) (c : Nat) (s : State) : F (refill c s) = F s := by
  unfold refill
  dsimp only
  split
  · rfl
  · exact hC ..

/-- With no extent changing to DEVICE-OWNED, only channels change. -/
theorem afterStroke_keep {β : Type} (F : State → β) (hC : ∀ c f s, F (modChan c f s) = F s)
    (h : (s.maps.ext.any fun x => x.clearJob.isSome) = false) (c : Nat) : F (afterStroke c s) = F s := by
  rw [afterStroke, moreZero_keep F hC, refill_keep F hC, feedChan_keep F hC, clearCheck_none h]

theorem storeLine_maps (l : Nat) (d : Bytes) (s : State) : (storeLine l d s).maps = s.maps := by
  unfold storeLine
  split
  · rfl
  · split
    · rfl
    · exact memWrite_maps ..

theorem heal_maps (l : Nat) (s : State) : (heal l s).maps = s.maps := by
  unfold heal healRun
  cases anyExtent s (64 * l) with
  | none => rfl
  | some e => exact healOn_maps ..

theorem corrected_keep {β : Type} (F : State → β) (hC : ∀ c f s, F (modChan c f s) = F s) (hP : ∀ p f s, F (modPart p f s) = F s)
    (hN : ∀ o f s, F (count o f s) = F s) (c n : Nat) (s : State) : F (corrected c n s) = F s := by
  simp only [corrected]
  split
  · rfl
  · rw [hN]
    split
    · rw [hP, hC]
    · exact hC ..

theorem addDamaged_keep {β : Type} (F : State → β) (hC : ∀ c f s, F (modChan c f s) = F s)
    (hN : ∀ o f s, F (count o f s) = F s) (c l : Nat) (s : State) : F (addDamaged c l s) = F s := by
  unfold addDamaged
  split
  · rfl
  · rw [hN, hC]

theorem badRead_maps (l : Nat) (s : State) : (badRead l s).2.maps = s.maps := by
  unfold badRead
  split
  · rfl
  · split
    · exact heal_maps ..
    · dsimp only
      split
      · exact addDamaged_keep State.maps modChan_maps count_maps ..
      · rfl

theorem readLine_maps (l : Nat) (s : State) : (readLine l s).2.maps = s.maps := by
  unfold readLine
  split
  · rfl
  · split
    · rfl
    · split
      · rfl
      · split
        · rfl
        · exact corrected_keep State.maps modChan_maps modPart_maps count_maps ..
        · exact badRead_maps ..

theorem storeDone_keep {β : Type} (F : State → β) (hE : ∀ b p v ep o s, F (enqueue b p v ep o s) = F s)
    (hC : ∀ p q st g h o v s, F (sendCmp p q st g h o v s) = F s) (hT : ∀ i s, F (freeTrk i s) = F s)
    (hR : ∀ (s : State) r, F { s with dir.eng := r } = F s) (hA : ∀ (s : State) r, F { s with dir.acks := r } = F s)
    (n : Nat) (q : LineReq) (old : Nat) (s : State) : F (storeDone n q old s) = F s := by
  unfold storeDone
  split
  · exact answerReq_keep F hE hC hT hR ..
  · exact hA ..

/-- An atomic of a sound line of an extent that stays. -/
theorem strokeAtomic_sound {q : LineReq} {e : Extent} (he : anyExtent s (64 * q.line) = some e) (hr : releasing s e = false)
    (hg : (readLine q.line s).1 = true) (hd : lineDamaged (readLine q.line s).2 e (64 * q.line) = false) :
    strokeAtomic q s =
      let s2 := (readLine q.line s).2
      let r := applyAtomic q.m (memRead s2 (64 * q.line) 64)
      storeDone s2.twin.nextTxn q r.2 (storeLine q.line r.1 s2) := by
  simp only [strokeAtomic, he, hr, hg, hd, Bool.not_true, Bool.or_false, Bool.false_eq_true, if_false]

theorem strokeEnd_keep {β : Type} (F : State → β) (hC : ∀ c f s, F (modChan c f s) = F s) (h : (s.chan c).running = some x) {t : State}
    (ht : strokeBrings c x (modChan c (fun k => { k with running := none, strokeAt := s.t, served := 0 }) s) = t)
    (hclear : (t.maps.ext.any fun x => x.clearJob.isSome) = false) : F (strokeEnd c s) = F t := by
  rw [strokeEnd_running h ht]
  split
  · rw [startRefresh, hC, afterStroke_keep F hC hclear]
  · exact afterStroke_keep F hC hclear c

/-! ### Refresh and patrol scrub -/

theorem refreshDue_due (hc : c < 768) (hr : (s.chan c).retired = false) (hs : scheduled s c = false) (ht : (s.chan c).refDue ≤ s.t)
    (hp : (s.chan c).refPend = false) (hb : (s.chan c).refBusy = false) :
    refreshDue c s = dueRefresh c (modChan c (fun k => { k with refDue := k.refDue + tRefi k }) s) := by
  simp only [refreshDue]
  rw [if_neg (by simp [hr, hs, hp, hb, Nat.not_le.mpr hc, Nat.not_lt.mpr ht])]

theorem refreshFallback_late (hc : c < 768) (hr : (s.chan c).retired = false) (hs : scheduled s c = true)
    (hp : (s.chan c).refPend = false) (hb : (s.chan c).refBusy = false) (ht : (s.chan c).refLast + tRefi (s.chan c) + 600 ≤ s.t) :
    refreshFallback c s = dueRefresh c (lateAction (s.chanOwner c) 4 (c / 32)
      (s.t - ((s.chan c).refLast + tRefi (s.chan c) + 600) + 600) (actAt s s.slot) s) := by
  simp only [refreshFallback]
  rw [if_neg (by simp [hr, hs, hp, hb, Nat.not_le.mpr hc, Nat.not_lt.mpr ht])]

theorem scrubDue_due (hc : c < 768) (hr : (s.chan c).retired = false) (hs : scheduled s c = false) (ht : (s.chan c).scrubDue ≤ s.t)
    (hp : (s.chan c).scrubPend = false) :
    scrubDue c s = modChan c (fun k => { k with scrubPend := true, scrubDue := k.scrubDue + 64000000 }) s := by
  simp only [scrubDue]
  rw [if_neg (by simp [hr, hs, hp, Nat.not_le.mpr hc, Nat.not_lt.mpr ht])]

theorem scrubFallback_late (hc : c < 768) (hr : (s.chan c).retired = false) (hs : scheduled s c = true)
    (hp : (s.chan c).scrubPend = false) (ht : (s.chan c).scrubLast + 64000600 ≤ s.t) :
    scrubFallback c s = modChan c (fun k => { k with scrubPend := true }) (lateAction (s.chanOwner c) 5 (c / 32)
      (s.t - ((s.chan c).scrubLast + 64000600) + 600) (actAt s s.slot) s) := by
  simp only [scrubFallback]
  rw [if_neg (by simp [hr, hs, hp, Nat.not_le.mpr hc, Nat.not_lt.mpr ht])]

/-! ### A scrub burst (R182, R183) -/

/-- The lines at one of the 32 places of a burst. -/
def scrubPlace (c p : Nat) (fixed bad : List Nat) (s : State) (j : Nat) : State :=
  (if (linesAt s c (p + j)).isEmpty then [bareLine (p + j)] else linesAt s c (p + j)).foldl
    (fun s l => scrubLine c l (fixed.contains j) (bad.contains j) s) s

/-- The channel takes up its burst. -/
def scrubBegun (c : Nat) (s : State) : State :=
  modChan c (fun k => { k with scrubPend := false, scrubLast := s.t, scrubNext := ((s.chan c).scrubNext + 32) % 2 ^ 25 }) s

theorem scrubBurst_runs (hp : (s.chan c).scrubPend = true) (hrun : (s.chan c).running = none) (href : (s.chan c).refPend = false)
    (hbusy : (s.chan c).refBusy = false) (hw : windowOpen s c = false) (fixed bad : List Nat) :
    scrubBurst c fixed bad s = (List.range 32).foldl (scrubPlace c (s.chan c).scrubNext fixed bad) (scrubBegun c s) := by
  delta scrubBurst
  dsimp only
  rw [if_neg (by simp [hp, hrun, href, hbusy, hw])]
  rfl

theorem scrubLine_good (hw : s.mem.weak = []) (l : Nat) : scrubLine c l false false s = s := by
  simp only [scrubLine, hw, List.find?_nil, Option.map_none]
  split <;> rfl

/-- A place where the ECC sees nothing, of memory without weak lines, is left as it is. -/
theorem scrubPlace_good {fixed bad : List Nat} {j : Nat} (hf : fixed.contains j = false) (hb : bad.contains j = false) (hw : s.mem.weak = [])
    (p : Nat) : scrubPlace c p fixed bad s j = s := by
  rw [scrubPlace, hf, hb]
  generalize (if (linesAt s c (p + j)).isEmpty then [bareLine (p + j)] else linesAt s c (p + j)) = ls
  induction ls with
  | nil => rfl
  | cons l ls ih => rw [List.foldl_cons, scrubLine_good hw, ih]

theorem scrubPlaces_good {fixed bad : List Nat} (hw : s.mem.weak = []) (p : Nat) (js : List Nat)
    (h : ∀ j ∈ js, fixed.contains j = false ∧ bad.contains j = false) : js.foldl (scrubPlace c p fixed bad) s = s := by
  induction js with
  | nil => rfl
  | cons j js ih =>
    obtain ⟨hf, hb⟩ := h j List.mem_cons_self
    rw [List.foldl_cons, scrubPlace_good hf hb hw, ih fun k hk => h k (List.mem_cons_of_mem _ hk)]

/-- At one place alone the ECC sees something. -/
theorem scrubPlaces_one {fixed bad : List Nat} {j : Nat} {t : State} (hw : s.mem.weak = []) (p : Nat) (hj : j < 32)
    (h : ∀ k, k ≠ j → fixed.contains k = false ∧ bad.contains k = false) (ht : scrubPlace c p fixed bad s j = t) (htw : t.mem.weak = []) :
    (List.range 32).foldl (scrubPlace c p fixed bad) s = t := by
  obtain ⟨as, bs, hsplit⟩ := List.append_of_mem (List.mem_range.mpr hj)
  have hnd : (as ++ j :: bs).Nodup := hsplit ▸ List.nodup_range
  obtain ⟨-, hnd2, hdis⟩ := List.nodup_append.mp hnd
  rw [hsplit, List.foldl_append, List.foldl_cons,
    scrubPlaces_good hw p as fun k hk => h k (hdis k hk j List.mem_cons_self), ht,
    scrubPlaces_good htw p bs fun k hk => h k fun he => (List.nodup_cons.mp hnd2).1 (he ▸ hk)]

theorem scrubPlace_one {l p j : Nat} {fixed bad : List Nat} (h : linesAt s c (p + j) = [l]) :
    scrubPlace c p fixed bad s j = scrubLine c l (fixed.contains j) (bad.contains j) s := by
  rw [scrubPlace, h]
  rfl

/-- A place that no extent holds is scrubbed under its own name. -/
theorem scrubPlace_bare {p j : Nat} {fixed bad : List Nat} (h : linesAt s c (p + j) = []) :
    scrubPlace c p fixed bad s j = scrubLine c (bareLine (p + j)) (fixed.contains j) (bad.contains j) s := by
  rw [scrubPlace, h]
  rfl

theorem scrubLine_bad {l : Nat} {f : Bool} (hin : inTable s c l = false) :
    scrubLine c l f true s = if 2 ^ 46 ≤ l then addDamaged c l s else (badRead l s).2 := by
  simp only [scrubLine, hin, Bool.true_or, Bool.false_eq_true, if_false, if_true]

theorem scrubLine_fixed {l : Nat} (hin : inTable s c l = false) (hw : s.mem.weak = []) : scrubLine c l true false s = corrected c 1 s := by
  have hsame : s.mem.weak.filter (·.1 != l) = s.mem.weak := by rw [hw]; rfl
  simp only [scrubLine, hin, Bool.false_eq_true, if_false, hsame, Bool.true_or, if_true]
  rw [if_neg]
  rw [hw]
  exact Bool.false_ne_true

theorem bareLine_high (p : Nat) : 2 ^ 46 ≤ bareLine p := Nat.le_add_right ..

theorem inTable_bare (c p : Nat) (s : State) : inTable s c (bareLine p) = (s.chan c).damaged.contains (bareLine p) :=
  if_pos (bareLine_high p)

theorem damaged_scrubBegun (c : Nat) (s : State) : ((scrubBegun c s).chan c).damaged = (s.chan c).damaged :=
  chan_modChan_keep Chan.damaged (by intro; rfl) ..

theorem healOn_weak (hw : s.mem.weak = []) (e : Extent) (o n : Nat) : (healOn e o n s).mem.weak = [] := by
  have hany : s.mem.weak.any (covers o n ·.1) = false := by rw [hw]; rfl
  simp only [healOn, hany, Bool.false_eq_true, if_false]
  split
  · exact hw
  · refine (foldl_keep (fun s : State => s.mem.weak) _ (fun c s => ?_) _ _).trans hw
    split <;> rfl

theorem badRead_weak (hw : s.mem.weak = []) (l : Nat) : (badRead l s).2.mem.weak = [] := by
  unfold badRead
  split
  · exact hw
  · split
    · unfold heal healRun
      cases anyExtent s (64 * l) with
      | none => exact hw
      | some e => exact healOn_weak hw ..
    · dsimp only
      split
      · exact (addDamaged_keep (fun s => s.mem.weak) (by intros; rfl) (by simp) ..).trans hw
      · exact hw

/-! ### The bench chain (R166 to R169) -/

theorem benchTransfer_sends {l : Leaf} (hs : benchSlot s c = some n) (hn : benchNext s c = some l) (ok : Bool) :
    let s1 := modChan c (fun k => { k with slotUsed := some n }) s
    let upd := fun (f : Leaf → Leaf) (s : State) => modChan c (fun k => { k with leaves := modWhere (· == l) f k.leaves }) s
    benchTransfer c ok s =
      if ok then
        if (l.accs + 127) / 128 ≤ l.hops + 1 then benchLast c l s1
        else upd (fun l => { l with hops := l.hops + 1, resent := false }) s1
      else if !l.resent then upd (fun l => { l with resent := true }) s1
      else event 0x000E true [] ((s1.chain? l.cid).map (·.part)) [c, l.cid, l.stage]
        ((behind s1 c l).foldl (fun s x => loseLeaf x.1 x.2 s) s1) := by
  simp only [benchTransfer, hs, hn]

end

/-- Settles O52. -/
theorem channelEventsAct : Obligations.ChannelEventsAct := by
  have next := fun {s t u : State} (h : t = u) => congrArg (fun t => (Host.Outcome.next (settle s t) : Host.Outcome State Fault Refusal)) h
  refine ⟨?_, ?_, ?_, ?_, ?_, ?_, ?_, ?_, ?_, ?_⟩
  · intro c x rest s hstrokes hfree hholds hq
    have hdue : StrokeDue c x rest s := ⟨hstrokes, hfree, hholds, hq⟩
    refine ⟨?_, ?_, ?_, ?_, ?_, ?_, ?_, ?_, ?_⟩
    · exact fun y ys hk hshed hcols hcut => next ((strokeStart_forward hdue hk).trans (startRows_forward hstrokes hk hshed hcols hcut))
    · exact fun hk => next (strokeStart_forward hdue hk)
    · exact fun l hk hl ht => next ((strokeStart_leaf hdue hk).trans (congrArg (startRows c) (takeLeaf_taken hl ht)))
    · exact fun l hk hl ht hroom => next ((strokeStart_leaf hdue hk).trans (congrArg (startRows c) (takeLeaf_room hl ht hroom)))
    · exact fun l hk hl ht hfull => next ((strokeStart_leaf hdue hk).trans (congrArg (startRows c) (takeLeaf_full hl ht hfull)))
    · exact fun hk hbare => next ((strokeStart_zero hdue hk).trans (if_neg (by rw [hbare]; decide)))
    · exact fun hk hbare => next ((strokeStart_zero hdue hk).trans (if_pos (by rw [hbare]; decide)))
    · exact fun hk hne hall => next (strokeStart_atomic hdue hk hne hall)
    · exact fun hk hno => next (strokeStart_atomicBack hdue hk hno)
  · intro c x s hrun s1 go
    have hgo : ∀ {t}, strokeBrings c x s1 = t → go t := fun ht => next (strokeEnd_running hrun ht)
    refine ⟨fun hk => hgo ?_, fun hk => hgo ?_, fun hk => hgo ?_, fun hk => hgo ?_⟩
    · simp only [strokeBrings, hk]
    · simp only [strokeBrings, hk]
    · simp only [strokeBrings, leafLess, hk, beq_self_eq_true, if_true]
    · simp only [strokeBrings, hk]
  · intro c x q e s hrun hk _ hclear _ hreqs he hrel g hg hd r
    have hend := strokeAtomic_sound (s := modChan c (fun k => { k with running := none, strokeAt := s.t, served := 0 }) s)
      ((anyExtent_congr (by rfl) _).trans he) hrel hg hd
    have ht : strokeBrings c x (modChan c (fun k => { k with running := none, strokeAt := s.t, served := 0 }) s) =
        storeDone g.2.twin.nextTxn q r.2 (storeLine q.line r.1 g.2) := by
      simp only [strokeBrings, hk, hreqs, List.foldl_cons, List.foldl_nil]
      exact hend
    have hmaps : (storeDone g.2.twin.nextTxn q r.2 (storeLine q.line r.1 g.2)).maps = s.maps := by
      rw [storeDone_keep State.maps (by simp) (by simp) (by simp) (by intros; rfl) (by intros; rfl), storeLine_maps, readLine_maps]
      rfl
    have hkeep := fun {β : Type} (F : State → β) (hC : ∀ c f s, F (modChan c f s) = F s) =>
      strokeEnd_keep F hC hrun ht (by rw [hmaps]; exact hclear)
    refine ⟨_, rfl, ?_, ?_, ?_⟩
    · rw [settle_maps, hkeep State.maps (by simp), hmaps]
    · rw [settle_mem, hkeep (fun s => s.mem.bytes) (by simp),
        storeDone_keep (fun s => s.mem.bytes) (by simp) (by simp) (by simp) (by intros; rfl) (by intros; rfl)]
    · rw [settle_mem, hkeep (fun s => s.mem.mirror) (by simp),
        storeDone_keep (fun s => s.mem.mirror) (by simp) (by simp) (by simp) (by intros; rfl) (by intros; rfl)]
  · intro c s hc hret hsch ht hp hb s1
    have h := refreshDue_due hc hret hsch ht hp hb
    exact ⟨fun hrun => next (h.trans (if_neg (by rw [hrun]; exact Bool.false_ne_true))), fun hrun => next (h.trans (if_pos hrun))⟩
  · exact fun c s hc hret hsch hp hb ht => next (refreshFallback_late hc hret hsch hp hb ht)
  · exact fun c s => rfl
  · exact fun c s hc hret hsch ht hp => next (scrubDue_due hc hret hsch ht hp)
  · exact fun c s hc hret hsch hp ht => next (scrubFallback_late hc hret hsch hp ht)
  · intro c s hp hrun href hbusy hw hweak p s1
    have hruns := scrubBurst_runs hp hrun href hbusy hw
    have hw1 : s1.mem.weak = [] := hweak
    have hother : ∀ j k : Nat, k ≠ j → [j].contains k = false := fun j k h => by simpa using h
    have hbad : ∀ {j : Nat} {t : State}, j < 32 → scrubPlace c p [] [j] s1 j = t → t.mem.weak = [] → exec (.scrubBurst c [] [j]) s = .next (settle s t) :=
      fun hj ht htw => next ((hruns ..).trans (scrubPlaces_one hw1 p hj (fun k hk => ⟨rfl, hother _ k hk⟩) ht htw))
    have hfix : ∀ {j : Nat}, j < 32 → scrubPlace c p [j] [] s1 j = corrected c 1 s1 → exec (.scrubBurst c [j] []) s = .next (settle s (corrected c 1 s1)) :=
      fun hj ht => next ((hruns ..).trans (scrubPlaces_one hw1 p hj (fun k hk => ⟨hother _ k hk, rfl⟩) ht (by rw [corrected_mem]; exact hw1)))
    have hself : ∀ j : Nat, [j].contains j = true := fun j => by simp
    refine ⟨next ((hruns ..).trans (scrubPlaces_good hw1 p _ fun _ _ => ⟨rfl, rfl⟩)), ?_, ?_⟩
    · intro l j hj hl hin hlow
      refine ⟨hbad hj ?_ (badRead_weak hw1 l), hfix hj ?_⟩
      · rw [scrubPlace_one hl, hself, scrubLine_bad hin, if_neg (Nat.not_le.mpr hlow)]
      · rw [scrubPlace_one hl, hself]
        exact scrubLine_fixed hin hw1
    · intro j hj hl hno
      have hin : inTable s1 c (bareLine (p + j)) = false := by
        rw [inTable_bare, ← hno]
        exact congrArg (List.contains · _) (damaged_scrubBegun c s)
      refine ⟨hbad hj ?_ ?_, hfix hj ?_⟩
      · rw [scrubPlace_bare hl, hself, scrubLine_bad hin, if_pos (bareLine_high _)]
      · exact (addDamaged_keep (fun s => s.mem.weak) (by intros; rfl) (by simp) ..).trans hw1
      · rw [scrubPlace_bare hl, hself]
        exact scrubLine_fixed hin hw1
  · intro c n l s hs hn s1 upd
    have h := benchTransfer_sends hs hn
    refine ⟨fun hmore => ?_, fun hlast hlow => ?_, fun hlast hlow => ?_, fun hre => ?_, fun hre => ?_⟩
    · exact next ((h true).trans ((if_pos rfl).trans (if_neg (Nat.not_le.mpr hmore))))
    · exact next ((h true).trans ((if_pos rfl).trans ((if_pos hlast).trans (if_pos hlow))))
    · exact next ((h true).trans ((if_pos rfl).trans ((if_pos hlast).trans (if_neg (by rw [hlow]; exact Bool.false_ne_true)))))
    · exact next ((h false).trans ((if_neg Bool.false_ne_true).trans (if_pos (by rw [hre]; rfl))))
    · exact next ((h false).trans ((if_neg Bool.false_ne_true).trans (if_neg (by rw [hre]; exact Bool.false_ne_true))))

end Sys2Proof.Machine
end

section
/-! PROOFS. The balancer while a generation is copied (R145, R150). -/

namespace Sys2Proof.Machine

section
variable {s : State} {p : Part}

/-- A partition one of whose tables is being copied moves no shard. -/
theorem balancerTick_copying (ht : s.balTick < s.ns / 1000000) (hp : s.ten.parts = [p])
    (hc : copying { s with balTick := s.ns / 1000000 } p.id = true) : balancerTick s = { s with balTick := s.ns / 1000000 } := by
  simp only [balancerTick]
  rw [if_neg (Nat.not_le.mpr ht), hp]
  simp only [List.map_cons, List.map_nil, List.foldl_cons, List.foldl_nil, hc, Bool.or_true, if_true]

end

/-- A table of two shards, both on nook 1 and loaded, whose rows the balancer may move to nook 2. TABLE_GEN_BEGIN copies its plane. -/
def copiedTable : Table :=
  { d := { rit := 4096, smap := 0, rows := 2, nspan := 1, elems := 16, part := 1, id := 4 }
    u := some { slots := 1, move := true, uareas := [0, 64, 64] }
    loads := [(0, [0, 100000]), (1, [0, 100000])]
    free := [(2, 64)]
    genState := 1 }

/-- Partition 1 holds nooks 1 and 2, and 1 ms has passed. -/
def copyingState : State :=
  { State.reset with
    ember := { State.reset.ember with fx := 65536 * 1000000 }
    ten := { State.reset.ten with parts := [{ id := 1 }], nooks := [.free, .part 1, .part 1] }
    mem := { State.reset.mem with bytes := (List.range 256).map fun k => (k, 1) }
    tables := [copiedTable] }

/-- The move that R150 would choose. -/
def copyingMove : ShardMove := (chooseMove { copyingState with balTick := copyingState.ns / 1000000 } 1).getD {}

theorem copyingState_chooses : chooseMove { copyingState with balTick := copyingState.ns / 1000000 } 1 = some copyingMove := by decide +kernel

/-- Refutes O54: its BALANCER_TICK clause leaves out that no table of the partition is being copied. While TABLE_GEN_BEGIN copies a plane
no shard move starts, whatever the loads. -/
theorem not_updateEventsAct : ¬ Obligations.UpdateEventsAct := by
  rintro ⟨-, -, -, -, -, -, -, -, -, -, hmove, -⟩
  have h := hmove { id := 1 } copyingMove copyingState (by decide +kernel) rfl rfl copyingState_chooses
  have hs : exec .balancerTick copyingState = .next (settle copyingState { copyingState with balTick := copyingState.ns / 1000000 }) :=
    congrArg (fun t => Host.Outcome.next (settle copyingState t)) (balancerTick_copying (p := { id := 1 }) (by decide +kernel) rfl (by decide +kernel))
  have ht := Host.Outcome.next.inj (hs.symm.trans h)
  have hmoves := congrArg (fun t : State => t.moves.length) ht
  simp only [settle_moves] at hmoves
  exact absurd hmoves (by decide)

end Sys2Proof.Machine
end

section
/-! PROOFS. What an engine's reads leave alone, and how a command that reads memory goes on (R292). -/

namespace Sys2Proof.Machine

/-- A part of the state that the directory leaves alone while it serves reads: it keeps its own records, sends frames, frees trackers,
counts losses and asks the twin. -/
structure ReadFrame {β : Type} (F : State → β) : Prop where
  dir : ∀ (s : State) d, F { s with dir := d } = F s
  enqueue : ∀ b p v ep o s, F (enqueue b p v ep o s) = F s
  sendSnp : ∀ p d x o l s, F (sendSnp p d x o l s) = F s
  sendCmp : ∀ p q st g h o v s, F (sendCmp p q st g h o v s) = F s
  freeTrk : ∀ i s, F (freeTrk i s) = F s
  mirrorFrame : ∀ v x n s, F (mirrorFrame v x n s) = F s
  twin : ∀ (s : State) w, F { s with twin := w } = F s
  modChan : ∀ c f s, F (modChan c f s) = F s
  modPart : ∀ p f s, F (modPart p f s) = F s
  count : ∀ o f s, F (count o f s) = F s
  weak : ∀ (s : State) w, F { s with mem.weak := w } = F s

section
variable {β : Type} {F : State → β} (hF : ReadFrame F) {q : LineReq} {s : State}
include hF

theorem ReadFrame.answerReq_keep (st : Status) (grant old : Nat) (data : Option Bytes) (ltag : Option Nat) (q : LineReq) (s : State) :
    F (answerReq q st grant old data ltag s) = F s :=
  Machine.answerReq_keep F hF.enqueue hF.sendCmp hF.freeTrk (fun s _ => hF.dir s _) q st grant old data ltag s

theorem ReadFrame.modEnt_keep (l : Nat) (f : DirEnt → DirEnt) (s : State) : F (modEnt l f s) = F s := hF.dir ..

theorem ReadFrame.touch_keep (l : Nat) (s : State) : F (touch l s) = F s := (hF.modEnt_keep ..).trans (hF.dir s _)

theorem ReadFrame.snoopAgent_keep (a l kind : Nat) (d : Bytes) (s : State) : F (snoopAgent a l kind d s) = F s :=
  Machine.snoopAgent_keep F (fun s _ _ => hF.dir s _) hF.enqueue hF.sendSnp a l kind d s

theorem ReadFrame.reclaimLine_keep (l : Nat) (s : State) : F (reclaimLine l s) = F s := by
  refine foldl_keep F _ (fun s a => ?_) _ _
  dsimp only
  split
  · rw [countLost, hF.count, hF.dir, hF.modEnt_keep]
  · exact hF.modEnt_keep ..

theorem ReadFrame.expanderFrame_keep (x : Tx) (e : Extent) (s : State) : F (expanderFrame x e s) = F s := by
  unfold expanderFrame
  split
  · rfl
  · exact foldl_keep F _ (fun _ _ => hF.enqueue ..) _ _

/-- A read that memory gives is answered, and changes nothing else. -/
theorem ReadFrame.withLine_keep {x : Tx} (hx : x.req.kind = .rdNc) (e : Extent) (d : Bytes) (s : State) : F (withLine x e d s) = F s := by
  simp only [withLine, hx]
  rw [hF.answerReq_keep]
  exact hF.dir s _

theorem ReadFrame.goMemory_keep {x : Tx} (hx : x.req.kind = .rdNc) (e : Extent) (s : State) : F (goMemory x e s) = F s := by
  unfold goMemory
  split
  · dsimp only
    rw [modTx, hF.dir, hF.mirrorFrame, hF.twin]
  · split
    · exact hF.withLine_keep hx ..
    · dsimp only
      rw [hF.expanderFrame_keep, hF.dir]

theorem ReadFrame.placeDone_keep (x : Tx) (s : State) : F (placeDone x s) = F s := by
  unfold placeDone
  split
  · exact hF.dir s _
  · exact hF.answerReq_keep ..

/-- The open transactions of a line all read without caching. -/
def readsOnly (l : Nat) (s : State) : Prop := ∀ x ∈ s.dir.txs, x.line = l → x.req.kind = .rdNc

theorem ReadFrame.progress_keep {l : Nat} (h : readsOnly l s) : F (progress l s) = F s := by
  unfold progress
  split
  · rfl
  · split
    · exact hF.modEnt_keep ..
    · next x hx =>
      have hk : x.req.kind = .rdNc := h x (List.mem_of_find?_eq_some hx) (by simpa using List.find?_some hx)
      split
      · rw [hF.answerReq_keep]
        exact hF.dir s _
      · split
        · exact hF.dir s _
        · split
          · rw [hF.answerReq_keep]
            exact hF.dir s _
          · split
            · rw [hF.placeDone_keep]
              exact hF.dir s _
            · split
              · rfl
              · rw [hk]
                dsimp only
                split
                · rw [hF.answerReq_keep]
                  exact hF.dir s _
                · exact hF.goMemory_keep hk ..

omit hF in
theorem snoopAgent_txs (a l kind : Nat) (d : Bytes) (s : State) : (snoopAgent a l kind d s).dir.txs = s.dir.txs :=
  snoopAgent_keep (fun s => s.dir.txs) (by intros; rfl) (by simp) (by simp) ..

omit hF in
theorem reclaimLine_txs (l : Nat) (s : State) : (reclaimLine l s).dir.txs = s.dir.txs := by
  refine foldl_keep (fun s : State => s.dir.txs) _ (fun s a => ?_) _ _
  dsimp only
  split <;> rfl

/-- A read without caching opens a transaction on a line that has none, and goes on. -/
theorem ReadFrame.startTx_keep {x : Tx} (hx : x.req.kind = .rdNc) (h : readsOnly x.line s) (sn : List (Nat × Nat)) : F (startTx x sn s) = F s := by
  have htxs := foldl_keep (fun s : State => s.dir.txs) _ (fun s (a : Nat × Nat) => snoopAgent_txs a.1 x.line a.2 [] s) sn
    { s with dir.txs := s.dir.txs ++ [x] }
  unfold startTx
  dsimp only
  rw [hF.progress_keep, foldl_keep F _ (fun _ _ => hF.snoopAgent_keep ..), hF.dir]
  intro y hy hl
  rcases List.mem_append.mp (htxs ▸ hy) with hy | hy
  · exact h y hy hl
  · rw [List.mem_singleton.mp hy]
    exact hx

theorem ReadFrame.serveEntry_keep (hk : q.kind = .rdNc) (hag : q.agent = none) (h : readsOnly q.line s) (e : Extent) (u : Bool) :
    F (serveEntry q e u s).2 = F s := by
  have hno : ∀ k, k ≠ .rdNc → (q.kind == k) = false := fun k h => by rw [hk]; exact beq_false_of_ne h.symm
  simp only [serveEntry, hag, Option.elim_none, Bool.false_eq_true, if_false, hno .rdShared (by decide), hno .atomic (by decide)]
  exact (hF.startTx_keep (s := touch q.line s) (x := { line := q.line, req := q, phase := .snoop, noData := q.kind == .upgrade && _ && _, uncached := u })
    hk h _).trans (hF.touch_keep ..)

omit hF in
theorem readsOnly_reclaimLine {l : Nat} (h : readsOnly l s) (k : Nat) : readsOnly l (reclaimLine k s) := fun x hx =>
  h x (by rw [← reclaimLine_txs k s]; exact hx)

omit hF in
/-- A line that is free for the request has no open transaction. -/
theorem readsOnly_of_free {e : Extent} (he : anyExtent s (64 * q.line) = some e) (hb : blocked s q = false) : readsOnly q.line s := by
  intro x hx hl
  simp only [blocked, he, Bool.or_eq_false_iff] at hb
  have hno := List.any_eq_false.mp hb.1.1.1.1.1 x hx
  exact absurd (beq_iff_eq.mpr hl) hno

theorem ReadFrame.serve_keep (hk : q.kind = .rdNc) (hag : q.agent = none) (hb : blocked s q = false) : F (serve q s).2 = F s := by
  unfold serve
  cases he : anyExtent s (64 * q.line) with
  | none =>
    dsimp only
    exact hF.answerReq_keep ..
  | some e =>
    have hr := readsOnly_reclaimLine (readsOnly_of_free he hb) q.line
    have hne : needsEntry q = false := by rw [needsEntry, hk]
    dsimp only
    rw [hne, Bool.not_false, Bool.or_true, if_pos rfl]
    split
    · exact (hF.serveEntry_keep hk hag hr ..).trans (hF.reclaimLine_keep ..)
    · dsimp only
      exact (hF.answerReq_keep ..).trans (hF.reclaimLine_keep ..)

theorem ReadFrame.arrive_keep (hk : q.kind = .rdNc) (hag : q.agent = none) : F (arrive q s) = F s := by
  unfold arrive
  split
  · exact hF.dir s _
  · next hb =>
    have h := hF.serve_keep hk hag (Bool.or_eq_false_iff.mp (Bool.not_eq_true _ ▸ hb)).1
    split
    · next heq => rw [← h, heq]
    · next heq => rw [hF.dir, ← h, heq]

theorem ReadFrame.engRead_keep (tok part o n : Nat) (s : State) : F (engRead tok part o n s) = F s := by
  refine foldl_keep F _ (fun s l => ?_) _ _
  split
  · rfl
  · exact hF.arrive_keep rfl rfl

theorem ReadFrame.healOn_keep (e : Extent) (o n : Nat) (s : State) : F (healOn e o n s) = F s := by
  have hw : F (if s.mem.weak.any (covers o n ·.1) then { s with mem.weak := s.mem.weak.filter (! covers o n ·.1) } else s) = F s := by
    split
    · exact hF.weak s _
    · rfl
  unfold healOn
  dsimp only
  split
  · exact hw
  · refine (foldl_keep F _ (fun s c => ?_) _ _).trans hw
    split
    · exact hF.modChan ..
    · rfl

theorem ReadFrame.badRead_keep (l : Nat) (s : State) : F (badRead l s).2 = F s := by
  unfold badRead
  split
  · rfl
  · split
    · unfold heal healRun
      cases anyExtent s (64 * l) with
      | none => rfl
      | some e => exact hF.healOn_keep ..
    · dsimp only
      split
      · exact addDamaged_keep F hF.modChan hF.count ..
      · rfl

theorem ReadFrame.readLine_keep (l : Nat) (s : State) : F (readLine l s).2 = F s := by
  unfold readLine
  split
  · rfl
  · split
    · rfl
    · split
      · rfl
      · split
        · rfl
        · dsimp only
          exact corrected_keep F hF.modChan hF.modPart hF.count ..
        · exact hF.badRead_keep ..

theorem ReadFrame.readLines_keep (ls : List Nat) (s : State) : F (readLines ls s).2 = F s := by
  refine foldl_keep (fun x : Bool × State => F x.2) _ (fun x l => ?_) ls (true, s)
  exact hF.readLine_keep ..

theorem ReadFrame.readsDone_keep (tok part : Nat) (runs : List (Nat × Nat)) (s : State) : F (readsDone tok part runs s).2 = F s := by
  refine (foldl_keep (fun x : Bool × State => F x.2) _ (fun x r => ?_) runs _).trans ?_
  · exact hF.readLines_keep ..
  · exact foldl_keep F _ (fun s x => hF.engRead_keep tok part x.1 x.2 s) runs s

theorem ReadFrame.engForget_keep (tok : Nat) (s : State) : F (engForget tok s) = F s := hF.dir s _

/-- What a command's reads leave alone. -/
theorem ReadFrame.afterReads_keep (tok part : Nat) (runs : List (Nat × Nat)) (s : State) :
    F (engForget tok (readsDone tok part runs s).2) = F s :=
  (hF.engForget_keep ..).trans (hF.readsDone_keep ..)

end

theorem readFrame_tables : ReadFrame State.tables :=
  ⟨fun _ _ => rfl, enqueue_tables, sendSnp_tables, sendCmp_tables, freeTrk_tables, mirrorFrame_tables, fun _ _ => rfl, modChan_tables,
    modPart_tables, count_tables, fun _ _ => rfl⟩

theorem readFrame_nooks : ReadFrame (fun s => s.ten.nooks) :=
  ⟨fun _ _ => rfl, by simp, by simp, by simp, by simp, by simp, fun _ _ => rfl, by simp, fun _ _ _ => rfl, by simp, fun _ _ => rfl⟩

/-! ### A command whose reads have come -/

theorem foldl_allOk {α : Type} (f : α → Status) (l : List α) (h : (l.all fun x => f x == .ok) = true) :
    l.foldl (fun st x => if st = .ok then f x else st) .ok = .ok := by
  induction l with
  | nil => rfl
  | cons x l ih =>
    rw [List.all_cons, Bool.and_eq_true, beq_iff_eq] at h
    rw [List.foldl_cons, if_pos rfl, h.1, ih h.2]

/-- Its runs are open to the partition and have been read, sound: it goes on with their bytes. -/
theorem jobRead_come {j : Job} {part : Nat} {runs : List (Nat × Nat)} {s : State} (k : (Nat → Nat → Bytes) → State → End × State)
    (h : readsCome (jobTok j) part s.maps.cur runs s) :
    jobRead j part runs k s = k (fun o n => engBytes (readsDone (jobTok j) part runs s).2 (jobTok j) o n)
      (engForget (jobTok j) (readsDone (jobTok j) part runs s).2) := by
  obtain ⟨hopen, hbusy, hgot, hst⟩ := h
  have hopen' := foldl_allOk _ _ hopen
  have hst' := foldl_allOk _ _ hst
  delta jobRead
  dsimp only
  rw [hopen', if_neg (by simp), hbusy, if_neg Bool.false_ne_true]
  have hgot' : (runs.foldl (fun (a : Bool × State) r => ((a.1 && (engLines (jobTok j) r.1 r.2 a.2).1), (engLines (jobTok j) r.1 r.2 a.2).2))
    (true, runs.foldl (fun s r => engRead (jobTok j) part r.1 r.2 s) s)).1 = true := hgot
  rw [hgot', if_pos rfl, hst', if_neg (by simp)]
  rfl

end Sys2Proof.Machine
end

section
/-! PROOFS. Table commands: tables and the row cache (R97 to R128). -/

namespace Sys2Proof.Machine

section
variable {j : Job} {s : State} {t : Table} {d : TDesc} {id : Nat}

/-! ### Creation and destruction -/

/-- TABLE_CREATE passes the checks of R99 that read no memory. -/
def Creatable (j : Job) (s : State) (d : TDesc) : Prop :=
  (s.part? d.part).isSome = true ∧ (j.manager = true ∨ d.part = j.part) ∧ s.nookOwner d.coord = .part d.part ∧
    movingFor s d.part d.coord = false ∧ s.table? d.part d.id = none ∧ (s.tables.filter (·.d.part == d.part)).length < 4096

theorem Creatable.own (h : Creatable j s d) : ((s.part? d.part).isNone || (!j.manager && d.part != j.part)) = false := by
  obtain ⟨hp, hm, -⟩ := h
  rw [Option.isSome_iff_ne_none, ne_eq, ← Option.isNone_iff_eq_none, Bool.not_eq_true] at hp
  rw [hp, Bool.false_or]
  rcases hm with hm | hm
  · rw [hm]; rfl
  · rw [hm, bne_self_eq_false, Bool.and_false]

theorem tableCreate_composed (hbad : tableBad (leNat j.payload) = false) (hd : decTable (leNat j.payload) = d) (h : Creatable j s d)
    (h2 : d.storage = 2) (hb : composedBad s d = false) (hg : composedGone s d = false) :
    tableCreate j s = (.done .ok, mirrorTable j d.part d.id { s with tables := s.tables ++ [{ d := d }] }) := by
  have hown := h.own
  obtain ⟨-, -, hcoord, hmove, hnone, hlen⟩ := h
  simp [tableCreate, hbad, hd, hown, h2, hb, hg, hmove, hcoord, hnone, Nat.not_le.mpr hlen]

theorem tableCreate_stored (hbad : tableBad (leNat j.payload) = false) (hd : decTable (leNat j.payload) = d) (h : Creatable j s d)
    (h2 : d.storage ≠ 2) (hrit : inExtents s d.part d.rit (16 * d.phys) = true) (hmap : inExtents s d.part d.smap d.shards = true)
    (hread : readsCome (jobTok j) d.part s.maps.cur [(d.smap, d.shards)] s)
    (hnamed : (engBytes (readsDone (jobTok j) d.part [(d.smap, d.shards)] s).2 (jobTok j) d.smap d.shards).any
      (fun b => s.nookOwner b.toNat != .part d.part) = false) :
    tableCreate j s = (.done .ok, mirrorTable j d.part d.id
      { engForget (jobTok j) (readsDone (jobTok j) d.part [(d.smap, d.shards)] s).2 with tables := s.tables ++ [{ d := d }] }) := by
  have hown := h.own
  obtain ⟨-, -, hcoord, hmove, hnone, hlen⟩ := h
  have htab := readFrame_tables.afterReads_keep (jobTok j) d.part [(d.smap, d.shards)] s
  have hnook := readFrame_nooks.afterReads_keep (jobTok j) d.part [(d.smap, d.shards)] s
  have hnamed' : (engBytes (readsDone (jobTok j) d.part [(d.smap, d.shards)] s).2 (jobTok j) d.smap d.shards).any
      (fun b => (engForget (jobTok j) (readsDone (jobTok j) d.part [(d.smap, d.shards)] s).2).nookOwner b.toNat != .part d.part) = false := by
    simp only [State.nookOwner] at hnamed ⊢
    rw [hnook]
    exact hnamed
  delta tableCreate
  dsimp only
  rw [hbad, if_neg Bool.false_ne_true, hd, hown, if_neg Bool.false_ne_true, if_neg (by simp [h2]), hmove, if_neg Bool.false_ne_true,
    if_neg (by simp [hcoord, h2]), if_neg (by simp [hrit, hmap]), if_neg h2, jobRead_come _ hread, hnamed', if_neg Bool.false_ne_true, if_neg]
  · rw [htab]
  · rw [State.table?, htab, show s.tables.find? _ = none from hnone]
    simpa using hlen

theorem tableDestroy_named (hid : fldLE j.payload 0 2 = id) (ht : s.table? j.part id = some t) (hd : t.destroyJob = none)
    (hsub : (s.tables.any fun x => x.d.part == j.part && x.d.storage = 2 && (x.d.subQ == id || x.d.subR == id)) = false) :
    tableDestroy j s = (.waits, destroyCheck (modTable j.part id (fun t => { t with destroyJob := some j.id }) (mirrorTable j j.part id s))) := by
  simp only [tableDestroy, hid, ht, hd, hsub, Option.isSome_none, Bool.or_false, Bool.false_eq_true, if_false]

/-! ### The row cache -/

/-- A command that pins or unpins names rows of a table whose cache takes PINNED rows (R126). -/
def Pinnable (j : Job) (s : State) (t : Table) (id n : Nat) (is : List Nat) : Prop :=
  fldLE j.payload 0 2 = id ∧ fldLE j.payload 2 2 = n ∧ ((List.range n).map fun k => fldLE j.payload (8 + 8 * k) 8) = is ∧
    zeroAt j.payload 4 4 = true ∧ j.payload.length = 8 + 8 * n ∧ n ≤ 511 ∧ useTable s j.part id = .ok t ∧ t.d.cache = 2 ∧
    t.d.storage ≠ 2 ∧ is.all (idxValid t.d ·) = true

/-- The rows that a pin adds. -/
def freshRows (t : Table) (is : List Nat) : List Nat := ((is.map (physRow t.d)).eraseDups).filter (! t.pinned.contains ·)

/-- The nooks that they lie on, and the lines that they take on each. -/
def freshNooks (s : State) (t : Table) (is : List Nat) : List Nat := ((freshRows t is).map fun r => shardNook s t.d (t.d.shardOf r)).eraseDups

def freshLines (s : State) (t : Table) (is : List Nat) (k : Nat) : Nat :=
  rowLines t.d * ((freshRows t is).filter fun r => shardNook s t.d (t.d.shardOf r) == k).length

variable {n : Nat} {is : List Nat}


theorem cachePin_unpin (h : Pinnable j s t id n is) :
    let gone := fun (r : Nat) => ((is.map (physRow t.d)).eraseDups).contains r
    cachePin false j s = (.ok, modTable j.part id (fun t => { t with pinned := t.pinned.filter (! gone ·), cold := t.cold.filter (! gone ·) }) s) := by
  obtain ⟨hid, hn, his, hz, hlen, hmax, ht, hcache, hst, hval⟩ := h
  have hval' : (is.any fun i => !idxValid t.d i) = false := by rw [← List.not_all_eq_any_not, hval]; rfl
  simp [cachePin, hid, hn, his, hz, hlen, Nat.not_lt.mpr hmax, ht, hcache, hst, hval']

theorem cachePin_room (h : Pinnable j s t id n is)
    (hroom : ∀ k ∈ freshNooks s t is, cacheLines s j.part k false + freshLines s t is k ≤ cacheCap s j.part) :
    cachePin true j s = (.ok, modTable j.part id (fun x => { x with pinned := x.pinned ++ freshRows t is, cold := x.cold ++ freshRows t is })
      ((freshNooks s t is).foldl (fun u k => makeRoom j.part k (freshLines s t is k) (cacheLines u j.part k true) u) s)) := by
  obtain ⟨hid, hn, his, hz, hlen, hmax, ht, hcache, hst, hval⟩ := h
  have hval' : (is.any fun i => !idxValid t.d i) = false := by rw [← List.not_all_eq_any_not, hval]; rfl
  have hfit : ((freshNooks s t is).any fun k => decide (cacheCap s j.part < cacheLines s j.part k false + freshLines s t is k)) = false :=
    List.any_eq_false.mpr fun k hk => by simpa using hroom k hk
  delta cachePin
  dsimp only
  rw [hid, hn, his, hz, hlen, if_neg (by simp [hmax]), ht]
  dsimp only
  rw [if_neg (by simp [hcache, hst, hval'])]
  exact (if_neg (by decide)).trans (if_neg (Bool.eq_false_iff.mp hfit))

theorem cachePin_full (h : Pinnable j s t id n is)
    (hfull : ∃ k ∈ freshNooks s t is, cacheCap s j.part < cacheLines s j.part k false + freshLines s t is k) : cachePin true j s = (.busy, s) := by
  obtain ⟨hid, hn, his, hz, hlen, hmax, ht, hcache, hst, hval⟩ := h
  have hval' : (is.any fun i => !idxValid t.d i) = false := by rw [← List.not_all_eq_any_not, hval]; rfl
  have hfit : ((freshNooks s t is).any fun k => decide (cacheCap s j.part < cacheLines s j.part k false + freshLines s t is k)) = true :=
    List.any_eq_true.mpr (by simpa using hfull)
  delta cachePin
  dsimp only
  rw [hid, hn, his, hz, hlen, if_neg (by simp [hmax]), ht]
  dsimp only
  rw [if_neg (by simp [hcache, hst, hval'])]
  exact (if_neg (by decide)).trans (if_pos hfit)

/-! ### Slots, steps and rows -/

theorem tableSlotsAdd_ok {a : Nat} (hid : fldLE j.payload 0 2 = id) (hn : fldLE j.payload 4 4 = n) (ha : fldLE j.payload 8 8 = a)
    (ht : useTable s j.part id = .ok t) (hz : zeroAt j.payload 2 2 = true) (h0 : n ≠ 0) (hal : a % 64 = 0) (hbad : addrBad a = false)
    (hst : t.d.storage ≠ 2) (hext : inOneExtent s j.part a (n * (64 * rowLines t.d)) (fun e => !e.coh && e.devown) = true) :
    tableSlotsAdd j s = (.ok, mirrorTable j j.part id (modTable j.part id
      (fun x => (List.range n).foldl (fun x k => freeSlot s x (a + k * (64 * rowLines t.d))) x) s)) := by
  delta tableSlotsAdd
  dsimp only
  rw [hid, hn, ha, hz, if_neg (by decide), ht]
  dsimp only
  rw [if_neg (by simp [h0, hal, hbad, hst]), hext, if_neg (by decide)]

theorem stepClose_closed {step : Nat} (hid : fldLE j.payload 0 2 = id) (hs : fldLE j.payload 4 4 = step) (hz : zeroAt j.payload 2 2 = true)
    (ht : useTable s j.part id = .ok t) (hu : t.u.isSome = true) (hc : stepClosed t.closed step = true)
    (h : (t.due step).isEmpty = true ∨ t.close.isSome = true) : stepClose j s = (.done .ok, s) := by
  have hu' : t.u.isNone = false := by rw [← Option.not_isSome, hu]; rfl
  simp only [stepClose, hid, hs, hz, ht, hu', hc, Bool.not_true, Bool.false_eq_true, if_false, Bool.true_and]
  cases hcl : t.close with
  | none =>
    rw [hcl] at h
    have hd := h.resolve_right (by decide)
    rw [hd]
    rfl
  | some c => simp

theorem stepClose_open {step : Nat} (hid : fldLE j.payload 0 2 = id) (hs : fldLE j.payload 4 4 = step) (hz : zeroAt j.payload 2 2 = true)
    (ht : useTable s j.part id = .ok t) (hu : t.u.isSome = true) (hc : stepClosed t.closed step = false) :
    stepClose j s = (.waits, mirrorTable j j.part id (startClose j.part id { step := step, job := some j.id } s)) := by
  have hu' : t.u.isNone = false := by rw [← Option.not_isSome, hu]; rfl
  simp only [stepClose, hid, hs, hz, ht, hu', hc, Bool.not_true, Bool.false_eq_true, if_false, Bool.false_and]

/-- TABLE_ROW_WRITE names a row of its table that may change, and its new content has come. -/
def RowWritable (j : Job) (s : State) (t : Table) (id r src : Nat) : Prop :=
  fldLE j.payload 0 2 = id ∧ fldLE j.payload 8 8 = r ∧ fldLE j.payload 16 8 = src ∧ useTable s j.part id = .ok t ∧
    zeroAt j.payload 3 5 = true ∧ t.d.storage ≠ 2 ∧ r < t.d.phys ∧ migrated t r = false ∧
    readsCome (jobTok j) j.part s.maps.cur [(src, rowBytes t.d.fmt t.d.elems)] s

variable {r src a : Nat} {t' : Table}

/-- The state after the new row has been read, and the row. -/
def rowRead (j : Job) (t : Table) (src : Nat) (s : State) : State :=
  engForget (jobTok j) (readsDone (jobTok j) j.part [(src, rowBytes t.d.fmt t.d.elems)] s).2

def rowNew (j : Job) (t : Table) (src : Nat) (s : State) : Bytes :=
  engBytes (readsDone (jobTok j) j.part [(src, rowBytes t.d.fmt t.d.elems)] s).2 (jobTok j) src (rowBytes t.d.fmt t.d.elems)

/-- The slot that a written row of a plane takes. -/
def rowSlot (t : Table) (plane r : Nat) (s : State) : Option (Nat × Table) :=
  takeSlot t (entValid (entryOf s t plane r) && (slotNook s (entAddr (entryOf s t plane r))).isNone) (shardNook s t.d (t.d.shardOf r))

theorem tableRowWrite_live (h : RowWritable j s t id r src) (hlive : fldLE j.payload 2 1 = 0)
    (hslot : rowSlot t t.d.gen r (rowRead j t src s) = some (a, t')) :
    let s2 := rowRead j t src s
    let e := entryOf s2 t t.d.gen r
    let s3 := swapEntry t r a t.d.gen (memWrite a (rowNew j t src s) (modTable j.part id (fun _ => t') s2))
    tableRowWrite j s = (.done .ok, resendRow j.part id r (batchEnd j.part id (if entValid e then retire j.part id (entAddr e) s3 else s3))) := by
  obtain ⟨hid, hr, hsrc, ht, hz, hst, hphys, hmig, hread⟩ := h
  intro s2 e s3
  delta tableRowWrite
  dsimp only
  rw [hid, hr, hsrc, hlive, hz, if_neg (by decide), ht]
  dsimp only
  rw [if_neg (by simp [hst, hphys]), hmig, if_neg (by simp), jobRead_come _ hread]
  dsimp only
  split
  · next heq => exact absurd (heq.symm.trans hslot) (by simp)
  · next heq =>
    obtain ⟨rfl, rfl⟩ := Prod.mk.inj (Option.some.inj (heq.symm.trans hslot))
    rfl

theorem tableRowWrite_staged (h : RowWritable j s t id r src) (hstg : fldLE j.payload 2 1 = 1) (hgen : t.genState = 2)
    (hslot : rowSlot t (t.d.gen + 1) r (rowRead j t src s) = some (a, t')) :
    let s2 := rowRead j t src s
    let e := entryOf s2 t (t.d.gen + 1) r
    let s3 := setEntry t (t.d.gen + 1) r (ritEntry (t.d.gen + 1) true false (a / 64)) (memWrite a (rowNew j t src s) (modTable j.part id (fun _ => t') s2))
    tableRowWrite j s = (.done .ok, resendRow j.part id r (batchEnd j.part id
      (if entValid e && entGen e == (t.d.gen + 1) % 65536 then retire j.part id (entAddr e) s3 else s3))) := by
  obtain ⟨hid, hr, hsrc, ht, hz, hst, hphys, hmig, hread⟩ := h
  intro s2 e s3
  delta tableRowWrite
  dsimp only
  rw [hid, hr, hsrc, hstg, hz, if_neg (by decide), ht]
  dsimp only
  rw [if_neg (by simp [hst, hphys]), hmig, if_neg (by simp [hgen]), jobRead_come _ hread]
  dsimp only
  split
  · next heq => exact absurd (heq.symm.trans hslot) (by simp)
  · next heq =>
    obtain ⟨rfl, rfl⟩ := Prod.mk.inj (Option.some.inj (heq.symm.trans hslot))
    rfl

end

end Sys2Proof.Machine
end

section
/-! PROOFS. Table commands: generations, migration, loads and updating (R135, R136, R145 to R153). -/

namespace Sys2Proof.Machine

section
variable {j : Job} {s : State} {t : Table} {id p n : Nat}

/-! ### Generations (R145) -/

theorem genCmd_ok {ok : Table → Bool} (f : Nat → Table → State → End × State) (hid : fldLE j.payload 0 2 = id) (ht : useTable s j.part id = .ok t)
    (hst : t.d.storage ≠ 2) (hok : ok t = true) : genCmd j ok f s = f id t (mirrorTable j j.part id s) := by
  simp only [genCmd, hid, ht, hst, hok, if_false, Bool.not_true, Bool.false_eq_true]

/-! ### Migration to another module (R153) -/

/-- TABLE_MIGRATE_OUT names shards of a table that no migration has taken. -/
def Migratable (j : Job) (s : State) (t : Table) (p id : Nat) : Prop :=
  zeroAt j.payload 1 1 = true ∧ zeroAt j.payload 10 2 = true ∧ fldLE j.payload 0 1 = p ∧ fldLE j.payload 2 2 = id ∧ p ≤ 15 ∧
    fldLE j.payload 12 4 < 2 ^ 22 ∧ useTable s p id = .ok t ∧ t.d.storage ≠ 2 ∧ fldLE j.payload 8 2 ≠ 0 ∧
    fldLE j.payload 6 2 + fldLE j.payload 8 2 ≤ t.d.shards ∧ t.migr = []

/-- The migration that TABLE_MIGRATE_OUT starts, whose opening message holds a tracker. -/
def startedMigr (j : Job) (trk : Option Nat) : Migr :=
  { first := fldLE j.payload 6 2, count := fldLE j.payload 8 2, dest := fldLE j.payload 12 4, dtable := fldLE j.payload 4 2, job := some j.id, trk := trk }

/-- Its opening message: what the destination's table must share. -/
def openHdr (j : Job) (s : State) (t : Table) : Bytes :=
  migHdr (fldLE j.payload 4 2) 0 t.d.fmt 0 (fldLE j.payload 6 2) 0 (ownId s) (migShape t.d).length

theorem tableMigrateOut_sent {l : List Nat} {s2 : State} (h : Migratable j s t p id)
    (hsend : migSend p (fldLE j.payload 12 4) (openHdr j s t) (migShape t.d) s = (.ok l, s2)) :
    tableMigrateOut j s = (.waits, modTable p id (fun t => { t with migr := t.migr ++ [startedMigr j l.head?] }) s2) := by
  obtain ⟨hz, hz', hp, hid, hpart, hdest, ht, hst, hn, hsh, hmig⟩ := h
  rw [openHdr] at hsend
  delta tableMigrateOut
  dsimp only
  rw [hz, hz', hp, hid, if_neg (by simp [hpart]; omega), ht]
  dsimp only
  rw [if_neg (by simp [hst, hn, hsh]), hmig, if_neg (by simp), hsend]
  rfl

/-- Data that fits one message is sent as one. -/
theorem migSend_one {part dest : Nat} {hdr d : Bytes} (hd : d.length ≤ migData) (hid : Nat) {u : State}
    (h : ownPost (some part) 5 dest migTag s.maps.cur.epoch (hdr ++ d) s = (.ok (some hid), u)) : migSend part dest hdr d s = (.ok [hid], u) := by
  have hparts : migParts hdr (d.length / migData + 1) d = [hdr ++ d] := by
    rw [migParts, if_pos hd, List.take_of_length_le hd]
  simp only [migSend, hparts, List.foldl_cons, List.foldl_nil, h, List.nil_append]

/-- The tracker of a message of the module's own. -/
def ownTrk (opc : Nat) (part : Option Nat) (r svc tag epoch : Nat) (s : State) : Trk :=
  { part := part, port := r, src := ownId s, epoch := epoch, vc := .msg, svc := svc, opc := opc, tag := tag }

/-- A message of the module's own leaves on a link to another module under a tracker. -/
theorem ownMsg_leaves {opc svc dst tag epoch r hops : Nat} {part : Option Nat} {body : Bytes} {m : PktMsg}
    (hm : m = { dst := dst, src := ownId s, opc := opc, epoch := epoch, tenant := tagOf s part, tag := tag, bytes := body.length, body := body })
    (hway : wayOut s m = .ok (r, hops)) (hacc : isAccel s r = false) (htrk : trkFree s part = true) :
    ownMsg opc part svc dst tag epoch body s = (.ok (some s.mem.nextTrk),
      enqueue false r svc dst (.pkt .msg { m with txn := s.mem.nextTrk % 2 ^ 20, hops := hops })
        { (takeTrk (ownTrk opc part r svc tag epoch s) s).2 with
          mem.trks := modWhere (·.id == s.mem.nextTrk) (fun k => { k with txn := s.mem.nextTrk % 2 ^ 20, own := some { m with txn := s.mem.nextTrk % 2 ^ 20 }, waits := false, hops := hops })
            (takeTrk (ownTrk opc part r svc tag epoch s) s).2.mem.trks }) := by
  subst hm
  delta ownMsg
  dsimp only
  rw [hway]
  dsimp only
  rw [hacc, if_neg Bool.false_ne_true, htrk]
  rfl

/-- The message that opens a migration. -/
def openMsg (j : Job) (s : State) (t : Table) (p : Nat) : PktMsg :=
  { dst := fldLE j.payload 12 4, src := ownId s, opc := 1, epoch := s.maps.cur.epoch, tenant := tagOf s (some p), tag := migTag,
    bytes := (openHdr j s t ++ migShape t.d).length, body := openHdr j s t ++ migShape t.d }

/-- The state in which the opening message has left under its tracker. -/
def openLeft (j : Job) (s : State) (t : Table) (p r hops : Nat) : State :=
  enqueue false r 5 (fldLE j.payload 12 4) (.pkt .msg { openMsg j s t p with txn := s.mem.nextTrk % 2 ^ 20, hops := hops })
    { (takeTrk (ownTrk 1 (some p) r 5 migTag s.maps.cur.epoch s) s).2 with
      mem.trks := modWhere (·.id == s.mem.nextTrk)
        (fun k => { k with txn := s.mem.nextTrk % 2 ^ 20, own := some { openMsg j s t p with txn := s.mem.nextTrk % 2 ^ 20 }, waits := false, hops := hops })
        (takeTrk (ownTrk 1 (some p) r 5 migTag s.maps.cur.epoch s) s).2.mem.trks }

variable {r hops : Nat}

theorem tableMigrateOut_leaves (h : Migratable j s t p id) (hlen : (migShape t.d).length ≤ migData)
    (hway : wayOut s (openMsg j s t p) = .ok (r, hops)) (hacc : isAccel s r = false) (htrk : trkFree s (some p) = true) :
    tableMigrateOut j s = (.waits, modTable p id (fun t => { t with migr := t.migr ++ [startedMigr j (some s.mem.nextTrk)] })
      (openLeft j s t p r hops)) :=
  tableMigrateOut_sent h (migSend_one hlen s.mem.nextTrk (ownMsg_leaves rfl hway hacc htrk))

theorem openLeft_trk : ((openLeft j s t p r hops).mem.trks.any fun k =>
    k.id == s.mem.nextTrk && k.own == some { openMsg j s t p with txn := s.mem.nextTrk % 2 ^ 20 }) = true := by
  rw [openLeft, enqueue_mem, List.any_eq_true]
  refine ⟨_, List.mem_map.mpr ⟨_, List.mem_append_right _ List.mem_cons_self, rfl⟩, ?_⟩
  rw [if_pos (beq_self_eq_true _)]
  simp

/-- A frame that is queued is one more on its port. -/
theorem length_queue_enqueue (hr : (s.dsax[r]?).isSome = true) (svc ep : Nat) (out : Out) :
    ((enqueue false r svc ep out s).dport false r).q.length = (s.dport false r).q.length + 1 := by
  obtain ⟨d, hd⟩ := Option.isSome_iff_exists.mp hr
  rw [enqueue, dport_false_modD hd, dport_false_of_getElem? hd]
  exact List.length_append

theorem openLeft_queue (hr : (s.dsax[r]?).isSome = true) :
    ((openLeft j s t p r hops).dport false r).q.length = (s.dport false r).q.length + 1 :=
  length_queue_enqueue hr ..

theorem openLeft_tables : (openLeft j s t p r hops).tables = s.tables := by
  rw [openLeft, enqueue_tables]
  rfl

/-- A migration of the table that OUT has started, and that no command is open for. -/
def Migrating (j : Job) (s : State) (t : Table) (g : Migr) : Prop :=
  zeroAt j.payload 1 1 = true ∧ fldLE j.payload 0 1 ≤ 15 ∧ useTable s (fldLE j.payload 0 1) (fldLE j.payload 2 2) = .ok t ∧
    t.migr.find? (fun m => m.first == fldLE j.payload 4 2 && m.count == fldLE j.payload 6 2 && !m.released) = some g ∧ g.job = none

variable {g : Migr}

theorem migCmd_ok {ok : Migr → Bool} (f : Table → Migr → State → End × State) (h : Migrating j s t g) (hok : ok g = true) :
    migCmd j ok f s = f t g s := by
  obtain ⟨hz, hp, ht, hg, hjob⟩ := h
  simp only [migCmd, hz, Nat.not_lt.mpr hp, ht, hg, hjob, hok, Bool.not_true, decide_false, Bool.or_false, Bool.false_eq_true, if_false,
    Option.isNone_none, Bool.and_true, if_true]

/-- What TABLE_MIGRATE_COMMIT sends: the rows to send again, and the open accumulators of the shards. -/
def commitSends (t : Table) (g : Migr) (s : State) : Status × State :=
  (t.accs.filter fun a => g.has (t.d.shardOf a.row)).foldl (fun (x : Status × State) a => if x.1 ≠ .ok then x else migAcc t g a x.2)
    (migRows t g g.again s)

theorem tableMigrateCommit_sent (h : Migrating j s t g) (hc : g.committed = false) (hok : (commitSends t g s).1 = .ok) :
    tableMigrateCommit j s = (.waits, migDone t.d.part t.d.id g.first
      (modMigr t g (fun m => { m with committed := true, again := [], job := some j.id }) (commitSends t g s).2)) := by
  rw [tableMigrateCommit, migCmd_ok _ h (by rw [hc]; rfl)]
  dsimp only
  split
  · next heq => rw [show commitSends t g s = _ from heq]
  · next hne heq => exact absurd ((congrArg Prod.fst heq).symm.trans hok) hne

theorem tableMigrateCommit_stopped (h : Migrating j s t g) (hc : g.committed = false) (hno : (commitSends t g s).1 ≠ .ok) :
    tableMigrateCommit j s = (.done (commitSends t g s).1, (commitSends t g s).2) := by
  rw [tableMigrateCommit, migCmd_ok _ h (by rw [hc]; rfl)]
  dsimp only
  split
  · next heq => exact absurd (congrArg Prod.fst heq) hno
  · next heq => rw [show commitSends t g s = _ from heq]

theorem tableMigrateRelease_ok (h : Migrating j s t g) (hc : g.committed = true) :
    let slots := ((rowsIn t.d g.first g.count).filter (! t.gone ·)).filterMap fun r =>
      let e := entryOf s t t.d.gen r
      if entValid e then some (entAddr e) else none
    let s1 := slots.foldl (fun s a => retire t.d.part t.d.id a s) s
    let now := (s1.chains.chains.filter fun c => c.admitted && !c.ended).map (·.cid)
    tableMigrateRelease j s = (.done .ok, batchEnd t.d.part t.d.id
      (modMigr t g (fun m => { m with released := true, relStep := t.closed, before := now }) s1)) :=
  migCmd_ok _ h hc

/-! ### Loads (R148) and updating (R135, R136) -/

theorem tableShardLoad_ok {first : Nat} (hf : fldLE j.payload 2 2 = first) (hn : fldLE j.payload 4 2 = n)
    (ht : useTable s j.part (fldLE j.payload 0 2) = .ok t) (hmax : n ≤ 1023) (hsh : first + n ≤ t.d.shards) :
    tableShardLoad j s = (.done .ok 0 ((List.range n).flatMap fun k => toLE 4 (sat32 (shardLoad t (first + k)))), s) := by
  simp only [tableShardLoad, hf, hn, ht, Nat.not_lt.mpr hmax, Nat.not_lt.mpr hsh, decide_false, Bool.or_self, Bool.false_eq_true, if_false]

/-- The update descriptor of a command, with the list of update areas that it names. -/
def setDesc (x : Nat) (raw : Bytes) : UDesc := { decUpdate x with uareas := (List.range 96).map fun n => fldLE raw (8 * n) 8 }

/-- The descriptor's own bits are good (R135, R136). -/
def UpdateBits (x : Nat) : Prop :=
  bits x 199 48 = 0 ∧ bits x 43 42 = 0 ∧ bits x 39 16 = 0 ∧ (decUpdate x).rule ≠ 3 ∧ addrBad (decUpdate x).stateAddr = false ∧
    ((decUpdate x).rule = 2 ↔ (decUpdate x).stateAddr ≠ 0) ∧ addrBad (bits x 447 384) = false ∧
    (fp32.dec (decUpdate x).lo).isNan = false ∧ (fp32.dec (decUpdate x).hi).isNan = false ∧
    Num.lt (fp32.dec (decUpdate x).hi) (fp32.dec (decUpdate x).lo) = false

theorem UpdateBits.good {x : Nat} (h : UpdateBits x) :
    (bits x 199 48 != 0 || bits x 43 42 != 0 || bits x 39 16 != 0 || decide ((decUpdate x).rule = 3) || addrBad (decUpdate x).stateAddr ||
      addrBad (bits x 447 384) || (if (decUpdate x).rule = 2 then decide ((decUpdate x).stateAddr = 0) else (decUpdate x).stateAddr != 0) ||
      (fp32.dec (decUpdate x).lo).isNan || (fp32.dec (decUpdate x).hi).isNan ||
      Num.lt (fp32.dec (decUpdate x).hi) (fp32.dec (decUpdate x).lo)) = false := by
  obtain ⟨h1, h2, h3, hrule, hsa, hiff, hlist, hlo, hhi, hlt⟩ := h
  have hstate : (if (decUpdate x).rule = 2 then decide ((decUpdate x).stateAddr = 0) else (decUpdate x).stateAddr != 0) = false := by
    split
    · next h2 => exact decide_eq_false (hiff.mp h2)
    · next h2 => exact bne_eq_false_iff_eq.mpr (Decidable.not_not.mp (mt hiff.mpr h2))
  simp only [h1, h2, h3, hrule, hsa, hlist, hstate, hlo, hhi, hlt, bne_self_eq_false, decide_false, Bool.or_self]

theorem tableUpdateSet_ok {x list : Nat} {s2 : State} {raw : Bytes} (hx : leNat j.payload = x) (hid : bits x 15 0 = id)
    (hl : bits x 447 384 = list) (hbits : UpdateBits x) (ht : useTable s j.part id = .ok t) (hst : t.d.storage ≠ 2)
    (hin : inExtents s j.part list 768 = true)
    (hstate : (decUpdate x).rule = 2 → inExtents s j.part (decUpdate x).stateAddr (4 * t.d.phys) = true)
    (hread : readsCome (jobTok j) j.part s.maps.cur [(list, 768), (t.d.smap, t.d.shards)] s)
    (hs2 : engForget (jobTok j) (readsDone (jobTok j) j.part [(list, 768), (t.d.smap, t.d.shards)] s).2 = s2)
    (hraw : engBytes (readsDone (jobTok j) j.part [(list, 768), (t.d.smap, t.d.shards)] s).2 (jobTok j) list 768 = raw)
    (hareas : ((setDesc x raw).uareas.zipIdx.any fun a => a.1 != 0 && (addrBad a.1 || !inOneExtent s2 j.part a.1 (areaBytes t.d (setDesc x raw))
      fun e => !e.tray && !e.coh && e.devown && e.nook == a.2)) = false)
    (hnamed : ((engBytes (readsDone (jobTok j) j.part [(list, 768), (t.d.smap, t.d.shards)] s).2 (jobTok j) t.d.smap t.d.shards).any
      fun b => (setDesc x raw).uareas.getD b.toNat 0 == 0) = false)
    (hopen : stepOpen t = false) :
    tableUpdateSet j s = (.done .ok, mirrorTable { j with payload := j.payload ++ raw } j.part id
      (modTable j.part id (fun t => { t with u := some (setDesc x raw), closed := bits x 231 200 }) s2)) := by
  subst hs2 hraw hl
  delta tableUpdateSet
  dsimp only
  rw [hx, hid, hbits.good, if_neg Bool.false_ne_true, ht]
  dsimp only
  rw [if_neg hst, if_neg, jobRead_come _ hread]
  · dsimp only
    exact (if_neg (Bool.eq_false_iff.mp (Bool.or_eq_false_iff.mpr ⟨hareas, hnamed⟩))).trans (if_neg (by rw [hopen]; exact Bool.false_ne_true))
  · rw [hin]
    by_cases h2 : (decUpdate x).rule = 2
    · simp [hstate h2]
    · simp [h2]

end

/-- Settles O53. -/
theorem tableCommandsComplete : Obligations.TableCommandsComplete := by
  refine ⟨?_, ?_, ?_, ?_, ?_, ?_, ?_, ?_, ?_, ?_, ?_, ?_, ?_⟩
  · intro m j s hrun d hbad hp hm hcoord hmove hnone hlen s1 g s2
    have hcan : Creatable j (startJob j s) d := ⟨hp, hm, hcoord, hmove, hnone, hlen⟩
    exact ⟨fun h2 hb hg => exec_done rfl hrun (tableCreate_composed hbad rfl hcan h2 hb hg),
      fun h2 hrit hmap hread hnamed => exec_done rfl hrun (tableCreate_stored hbad rfl hcan h2 hrit hmap hread hnamed)⟩
  · exact fun m j t s hrun ht hd hsub => exec_waits rfl hrun (tableDestroy_named (s := startJob j s) rfl ht hd hsub)
  · exact fun m j t s hrun hz hlen hmax ht hcache hst hval =>
      exec_simply rfl hrun (cachePin_unpin (s := startJob j s) ⟨rfl, rfl, rfl, hz, hlen, hmax, ht, hcache, hst, hval⟩)
  · intro m j t s hrun id n is fresh nookOf need ns hz hlen hmax ht hcache hst hval
    have hpin : Pinnable j (startJob j s) t id n is := ⟨rfl, rfl, rfl, hz, hlen, hmax, ht, hcache, hst, hval⟩
    exact ⟨fun hroom => exec_simply rfl hrun (cachePin_room hpin hroom), fun hfull => exec_simply rfl hrun (cachePin_full hpin hfull)⟩
  · exact fun m j t s hrun ht hz h0 hal hbad hst hext =>
      exec_simply rfl hrun (tableSlotsAdd_ok (s := startJob j s) rfl rfl rfl ht hz h0 hal hbad hst hext)
  · exact fun m j t s hrun hz ht hu => ⟨fun hc h => exec_done rfl hrun (stepClose_closed (s := startJob j s) rfl rfl hz ht hu hc h),
      fun hc => exec_waits rfl hrun (stepClose_open (s := startJob j s) rfl rfl hz ht hu hc)⟩
  · intro m j t t' a s hrun id r src size s1 g s2 new ht hz hst hr hmig hread
    have hw : RowWritable j (startJob j s) t id r src := ⟨rfl, rfl, rfl, ht, hz, hst, hr, hmig, hread⟩
    exact ⟨fun hlive hslot => exec_done rfl hrun (tableRowWrite_live hw hlive hslot),
      fun hstg hgen hslot => exec_done rfl hrun (tableRowWrite_staged hw hstg hgen hslot)⟩
  · intro m j t s id ht hst s1
    refine ⟨fun hrun h => ?_, fun hrun h => ?_, fun hrun h => ?_, fun hrun h => ?_⟩
    · exact exec_waits rfl hrun (genCmd_ok (s := startJob j s) _ rfl ht hst (by rw [h]; rfl))
    · exact exec_done rfl hrun (genCmd_ok (s := startJob j s) _ rfl ht hst (by rw [h]; rfl))
    · exact exec_waits rfl hrun (genCmd_ok (s := startJob j s) _ rfl ht hst (by rw [h]; rfl))
    · exact exec_waits rfl hrun (genCmd_ok (s := startJob j s) _ rfl ht hst (by rcases h with h | h <;> rw [h] <;> rfl))
  · exact fun m j t l s s2 hrun hz hz' hp hdest ht hst hn hsh hmig hsend =>
      exec_waits rfl hrun (tableMigrateOut_sent (s := startJob j s) ⟨hz, hz', rfl, rfl, hp, hdest, ht, hst, hn, hsh, hmig⟩ hsend)
  · intro m j t r hops s hrun b p id hz hz' hp hdest ht hst hn hsh hmig hlen s1 body msg hway hacc hr htrk n
    have hm : Migratable j s1 t p id := ⟨hz, hz', rfl, rfl, hp, hdest, ht, hst, hn, hsh, hmig⟩
    refine ⟨_, exec_waits rfl hrun (tableMigrateOut_leaves hm hlen hway hacc htrk), ?_, ?_, ?_⟩
    · rw [settle_mem]
      exact openLeft_trk
    · simp only [State.dport, settle_dsax, Bool.false_eq_true, if_false]
      exact openLeft_queue (s := s1) hr
    · rw [settle_tables]
      exact congrArg _ openLeft_tables
  · intro m j t g s b hz hp ht hg
    refine ⟨?_, ?_⟩
    · intro hrun hc hjob sent
      have hmig : Migrating j (startJob j s) t g := ⟨hz, hp, ht, hg, hjob⟩
      exact ⟨fun hok => exec_waits rfl hrun (tableMigrateCommit_sent hmig hc hok),
        fun hno => exec_done rfl hrun (tableMigrateCommit_stopped hmig hc hno)⟩
    · exact fun hrun hc hjob => exec_done rfl hrun (tableMigrateRelease_ok (s := startJob j s) ⟨hz, hp, ht, hg, hjob⟩ hc)
  · exact fun m j t s hrun ht hmax hsh => exec_done rfl hrun (tableShardLoad_ok (s := startJob j s) rfl rfl ht hmax hsh)
  · intro m j t s hrun x id list runs g s2 raw u h1 h2 h3 hrule hsa hiff hlist hlo hhi hlt ht hst hin hstate hread hareas hnamed hopen
    exact exec_done rfl hrun (tableUpdateSet_ok (s := startJob j s) rfl rfl rfl ⟨h1, h2, h3, hrule, hsa, hiff, hlist, hlo, hhi, hlt⟩
      ht hst hin hstate hread rfl rfl hareas hnamed hopen)

end Sys2Proof.Machine
end

section
/-! PROOFS. Prefetch lists of Bellows (R312 to R318). -/

namespace Sys2Proof.Machine

section
variable {s : State} {p l k : Nat} {x : BList} {e : BEntry} {j : Job}

/-! ### Lists are loaded and stopped (R312, R313) -/

/-- The words and the entries of a list that has been read. -/
def listWords (a h : Nat) (rd : Nat → Nat → Bytes) : List Nat :=
  (List.range (bits h 367 359)).map fun k => fldLE (rd (a + 64 + 64 * bits h 383 368 + 4 * k) 4) 0 4

def readList (p a h : Nat) (rd : Nat → Nat → Bytes) : BList :=
  { part := p, id := bits h 11 8, addr := a, bytes := listSize h, start := bits h 511 448, period := bits h 447 400, iters := bits h 399 384
    entries := (List.range (bits h 383 368)).map fun k => decEntry (rd (a + 64 + 64 * k) 64) (listWords a h rd) }

theorem loadList_ok {a h : Nat} {rd : Nat → Nat → Bytes} (hw : ((listWords a h rd).all fun w => decide (w < 2 ^ 22)) = true)
    (hgood : ((List.range (bits h 383 368)).all fun k => !entryBad s p (bits h 367 359) (rd (a + 64 + 64 * k) 64)) = true)
    (hfree : s.blist? p (bits h 11 8) = none) (hp : bits h 3 0 = p)
    (hhere : ((List.range (bits h 383 368)).all fun k => !entryAway s p (rd (a + 64 + 64 * k) 64)) = true) :
    loadList p a h rd s = (.done .ok, { s with tiers.lists := s.tiers.lists ++ [readList p a h rd] }) := by
  have hw' : ((listWords a h rd).any fun w => decide (2 ^ 22 ≤ w)) = false := List.any_eq_false.mpr fun w hm => by
    simpa using List.all_eq_true.mp hw w hm
  have hgood' : (List.range (bits h 383 368)).find? (fun k => entryBad s p (bits h 367 359) (rd (a + 64 + 64 * k) 64)) = none :=
    List.find?_eq_none.mpr fun k hm => by simpa using List.all_eq_true.mp hgood k hm
  have hhere' : ((List.range (bits h 383 368)).any fun k => entryAway s p (rd (a + 64 + 64 * k) 64)) = false :=
    List.any_eq_false.mpr fun k hm => by simpa using List.all_eq_true.mp hhere k hm
  delta loadList
  dsimp only
  rw [show ((List.range (bits h 367 359)).map _).any _ = false from hw', if_neg Bool.false_ne_true, hgood']
  dsimp only
  rw [hfree, if_neg (by simp), hhere', if_neg (by simp [hp])]
  rfl

theorem bellowsLoad_reads {a h : Nat} {s1 : State} {r : End × State} (ha : fldLE j.payload 0 8 = a)
    (hread : readsCome (jobTok j) j.part s.maps.cur [(a, 64)] s)
    (hs1 : engForget (jobTok j) (readsDone (jobTok j) j.part [(a, 64)] s).2 = s1)
    (hh : leNat (engBytes (readsDone (jobTok j) j.part [(a, 64)] s).2 (jobTok j) a 64) = h) (hbad : listBad s1 j.at_ a h = false)
    (hread1 : readsCome (jobTok j) j.part s1.maps.cur [(a, listSize h)] s1)
    (hload : loadList j.part a h (engBytes (readsDone (jobTok j) j.part [(a, listSize h)] s1).2 (jobTok j))
      (engForget (jobTok j) (readsDone (jobTok j) j.part [(a, listSize h)] s1).2) = r) : bellowsLoad j s = r := by
  subst hs1 hh
  delta bellowsLoad
  dsimp only
  rw [ha, jobRead_come _ hread]
  dsimp only
  rw [hbad, if_neg Bool.false_ne_true, jobRead_come _ hread1]
  exact hload

theorem bellowsStop_ok (hl : fldLE j.payload 0 1 = l) (hmax : l ≤ 3) (hx : s.blist? j.part l = some x) :
    let t := ((List.range x.entries.length).filter fun k => (x.entries[k]?).elim false fun e => e.state == 1 || e.state == 2).foldl
      (fun s k => endEntry j.part l k .quiesced s) s
    bellowsStop j s = (.ok, { t with tiers.lists := t.tiers.lists.filter fun x => !(x.part == j.part && x.id == l) }) := by
  simp only [bellowsStop, hl, Nat.not_lt.mpr hmax, hx, if_false]

/-! ### Entries (R314 to R317) -/

theorem entryStart_due (hx : s.bentry? p l k = some (x, e)) (h0 : e.state = 0) (hdue : x.dueAt e - e.lead ≤ s.ns)
    (hkey : e.ckey ≠ 0 → (s.ckey? p e.ckey).isSome = true) :
    entryStart p l k s = modEntry p l k (fun _ => { e with
      state := 1, done := 0, asked := 0, hold := [], trailer := none, cipher := [], key := if e.ckey = 0 then none else s.ckey? p e.ckey,
      waits := [if e.iter = 0 then 0 else e.endAt - (x.dueAt e - e.lead), 0, 0, 0], mark := s.ns }) s := by
  delta entryStart
  dsimp only
  rw [hx]
  dsimp only
  rw [if_neg (by simp [h0, hdue]), if_neg]
  simp only [Bool.and_eq_true, decide_eq_true_eq, not_and, Bool.not_eq_true]
  intro hc
  rw [if_neg hc, ← Option.not_isSome, hkey hc]
  rfl

/-- An entry whose turn it is to read or move a chunk: nothing of its partition goes first, a piece is there where it takes one, and
a tracker is free or a read has been issued. -/
def ChunkTurn (s : State) (p l k : Nat) (x : BList) (e : BEntry) : Prop :=
  s.bentry? p l k = some (x, e) ∧ e.state = 1 ∧ e.status = none ∧ s.isQuiesced p = false ∧ soonerEntry s p l k (x.dueAt e) = false ∧
    (e.pieceNext = true → (pieceNook s p).isSome = true) ∧ contextTurn s p = true ∧ (chunksOpen s p < 64 ∨ e.done < e.asked)

/-- The entry's turn, with its next read issued. -/
def chunkAsked (p l k : Nat) (e : BEntry) (s : State) : State := if e.asked ≤ e.done then askNext p l k (turnTaken p s) else turnTaken p s

/-- The read that the entry waits for. -/
def chunkSource (p l k : Nat) (e : BEntry) (s : State) : Chunk × State :=
  if e.wantsTrailer then sourceTrailer p l k e s else sourceChunk p l k (e.done / 65536) e s

/-- What becomes of a chunk's read. -/
def chunkStep (p l k : Nat) (e : BEntry) (r : Chunk × State) : State :=
  match r with
  | (.bad st, s) => failEntry p l k st s
  | (.waits, s) => waited p l k 1 (if chunksOpen s p < 64 && !e.wantsTrailer then askNext p l k s else s)
  | (.ready d, s) =>
    let s := waited p l k 1 s
    if e.wantsTrailer then modEntry p l k (fun e => { e with trailer := some d, asked := 0 }) s
    else moveChunk p l k e d s

theorem bellowsChunk_turn (h : ChunkTurn s p l k x e) : bellowsChunk p l k s = chunkStep p l k e (chunkSource p l k e (chunkAsked p l k e s)) := by
  obtain ⟨hx, hst, hno, hq, hsoon, hpiece, hturn, htrk⟩ := h
  have hp : (e.pieceNext && (pieceNook s p).isNone) = false := by
    cases hn : e.pieceNext with
    | false => rfl
    | true => rw [← Option.not_isSome, hpiece hn]; rfl
  have ht : (!contextTurn s p || (decide (64 ≤ chunksOpen s p) && decide (e.asked ≤ e.done))) = false := by
    rw [hturn]
    rcases htrk with h | h
    · simp [Nat.not_le.mpr h]
    · simp [Nat.not_le.mpr h]
  delta bellowsChunk
  dsimp only
  rw [hx]
  dsimp only
  rw [if_neg (by simp [hst, hno]), hq, if_neg Bool.false_ne_true, hsoon, if_neg Bool.false_ne_true, hp, if_neg Bool.false_ne_true, ht,
    if_neg Bool.false_ne_true]
  rfl

/-- The bytes of a chunk as they move on: under a content key decrypted (R394). -/
def chunkBytes (e : BEntry) (d : Bytes) : Bytes :=
  let c := d.take (e.total - e.done)
  if e.ckey = 0 then c else (Config.gcmPart (e.key.getD {}).key ((e.trailer.getD []).take 12) e.done c ++ List.replicate c.length 0).take c.length

/-- A chunk has moved to its piece or to DST. -/
def chunkMoved (p l k : Nat) (e : BEntry) (d : Bytes) (s : State) : State :=
  let b := chunkBytes e d
  let nook := if e.pieceNext then pieceNook s p else none
  let s3 := nook.elim s fun n => setTaken n (taken s n + 1) s
  let s4 := if e.toDst && !b.isEmpty then putBytes p l k e.done e b s3 else s3
  let done := e.done + d.length
  modEntry p l k (fun y => { y with
    done := done, asked := max y.asked done, hold := if e.push then y.hold ++ b else [], pieces := y.pieces ++ nook.toList,
    cipher := if e.ckey = 0 then [] else y.cipher ++ d.take (e.total - e.done), state := if done = e.length && e.ckey = 0 then 2 else 1 }) s4

theorem moveChunk_eq (p l k : Nat) (e : BEntry) (d : Bytes) (s : State) : moveChunk p l k e d s = pushEntry p l k
    (if e.done + d.length = e.length && e.ckey ≠ 0 then
      ((chunkMoved p l k e d s).bentry? p l k).elim (chunkMoved p l k e d s) fun y => openContent p l k y.2 (chunkMoved p l k e d s)
    else chunkMoved p l k e d s) := rfl

theorem moveChunk_more {d : Bytes} (h : e.done + d.length ≠ e.length ∨ e.ckey = 0) :
    moveChunk p l k e d s = pushEntry p l k (chunkMoved p l k e d s) := by
  rw [moveChunk_eq, if_neg]
  simpa [Classical.or_iff_not_imp_left] using h

theorem moveChunk_whole {d : Bytes} {y : BList × BEntry} (hd : e.done + d.length = e.length) (hc : e.ckey ≠ 0)
    (hy : (chunkMoved p l k e d s).bentry? p l k = some y) :
    moveChunk p l k e d s = pushEntry p l k (openContent p l k y.2 (chunkMoved p l k e d s)) := by
  rw [moveChunk_eq, if_pos (by simp [hd, hc]), hy]
  rfl

/-- A plain chunk on its way to memory takes no piece. -/
theorem pieceNext_plain (hc : e.ckey = 0) (hdst : e.toDst = true) : e.pieceNext = false := by
  rw [BEntry.toDst, Bool.and_eq_true, bne_iff_ne, bne_iff_ne] at hdst
  simp [BEntry.pieceNext, BEntry.wantsPiece, hdst, hc]

theorem chunkMoved_plain {d : Bytes} (hc : e.ckey = 0) (hdst : e.toDst = true) (hb : (d.take (e.length - e.done)).isEmpty = false) :
    chunkMoved p l k e d s = modEntry p l k (fun y => { y with
      done := e.done + d.length, asked := max y.asked (e.done + d.length), hold := if e.push then y.hold ++ d.take (e.length - e.done) else [],
      cipher := [], state := if e.done + d.length = e.length then 2 else 1 }) (putBytes p l k e.done e (d.take (e.length - e.done)) s) := by
  have htotal : e.total = e.length := if_pos hc
  have hbytes : chunkBytes e d = d.take (e.length - e.done) := by rw [chunkBytes, htotal]; exact if_pos hc
  have hpiece := pieceNext_plain hc hdst
  simp only [chunkMoved, hbytes, hpiece, hdst, hb, hc, Bool.false_eq_true, if_false, Option.elim_none, Bool.not_false, Bool.and_self, if_true,
    Option.toList_none, List.append_nil, decide_true, Bool.and_true, decide_eq_true_eq]

/-- A run of memory that comes whole. -/
theorem sourceRun_memory {tok o n : Nat} (hsrc : e.srcTier ≠ 3) (hopen : pourAccess s s.maps.cur p false o n = .ok)
    (hbusy : engBusy (engRead tok p o n s) tok = false) (hgot : (engLines tok o n (engRead tok p o n s)).1 = true)
    (hst : engStatus (engLines tok o n (engRead tok p o n s)).2 tok o n = .ok) :
    sourceRun p l k e tok o n s =
      (.ready (engBytes (engLines tok o n (engRead tok p o n s)).2 tok o n), engForget tok (engLines tok o n (engRead tok p o n s)).2) := by
  simp only [sourceRun, hsrc, hopen, hbusy, hgot, hst, if_false, if_true, Bool.false_eq_true]

theorem entryComplete_status {st : Status} (hx : s.bentry? p l k = some (x, e)) (h : e.state = 1 ∨ e.state = 2) (hs : e.status = some st) :
    entryComplete p l k s = endEntry p l k st s := by
  delta entryComplete
  dsimp only
  rw [hx]
  dsimp only
  rw [if_neg (by rcases h with h | h <;> simp [h]), hs]

theorem entryComplete_quiesced (hx : s.bentry? p l k = some (x, e)) (h : e.state = 1 ∨ e.state = 2) (hs : e.status = none)
    (hq : s.isQuiesced p = true) : entryComplete p l k s = endEntry p l k .quiesced s := by
  delta entryComplete
  dsimp only
  rw [hx]
  dsimp only
  rw [if_neg (by rcases h with h | h <;> simp [h]), hs, hq]
  rfl

/-- Every byte has moved and every message has completed: the entry ends with OK, or with what one of its writes came to. -/
theorem entryComplete_moved (hx : s.bentry? p l k = some (x, e)) (hs : e.status = none) (hq : s.isQuiesced p = false) (h2 : e.state = 2)
    (hbusy : engBusy s (putTok p l k) = false) (hpush : e.push = true → e.pushed = true) :
    entryComplete p l k s = endEntry p l k (((s.dir.eng.find? fun r => r.tok == putTok p l k && r.st != .ok).map (·.st)).getD .ok) s := by
  have hp : (e.push && !e.pushed) = false := by
    cases he : e.push with
    | false => rfl
    | true => rw [hpush he]; rfl
  delta entryComplete
  dsimp only
  rw [hx]
  dsimp only
  rw [if_neg (by simp [h2]), hs, hq]
  dsimp only
  rw [if_neg Bool.false_ne_true, hbusy, hp, if_neg (by simp [h2])]
  cases s.dir.eng.find? fun r => r.tok == putTok p l k && r.st != .ok with
  | none => rfl
  | some r => rfl

/-- The push of an entry, whose state at its start is `e`. -/
theorem pushEntry_due (hx : s.bentry? p l k = some (x, e)) (hpush : e.push = true) (h : e.state = 1 ∨ e.state = 2) (hs : e.status = none)
    (ht : x.begin e + e.pushStart ≤ s.ns) (hc : e.ckey ≠ 0 → e.state = 2) :
    let s2 := if e.open_.isEmpty && e.sent.all (·.2 < min e.hold.length e.total) then modEntry p l k (fun x => { x with mark := s.ns }) s else s
    let one := fun (s : State) (ep : Nat) =>
      let off := (e.sent.find? (·.1 == ep)).elim 0 (·.2)
      let cuts := pushCuts off e.hold.length e.total
      let s := cuts.foldl (fun s c => pushOne p l k ep c.1 c.2 ((e.hold.drop c.1).take c.2) s) s
      let upto := (cuts.getLast?).elim off fun c => c.1 + c.2
      if cuts.isEmpty then s else modEntry p l k (fun e => { e with sent := (ep, upto) :: e.sent.filter (·.1 != ep) }) s
    pushEntry p l k s = dropPieces p l k (deadCheck p l k (e.eps.eraseDups.foldl one s2)) := by
  have hno : (!e.push || decide (e.state = 0) || decide (e.state = 3) || e.status.isSome || decide (s.ns < x.begin e + e.pushStart) ||
      (decide (e.ckey ≠ 0) && decide (e.state ≠ 2))) = false := by
    by_cases h0 : e.ckey = 0
    · rcases h with h | h <;> simp [hpush, h, hs, Nat.not_lt.mpr ht, h0]
    · simp [hpush, hc h0, hs, Nat.not_lt.mpr ht]
  delta pushEntry
  dsimp only
  rw [hx]
  dsimp only
  rw [hno, if_neg Bool.false_ne_true]

end

end Sys2Proof.Machine
end

section
/-! PROOFS. Hallmarks, content keys and the TRNG (R385 to R395). -/

namespace Sys2Proof.Machine

section
variable {s : State} {j : Job} {x : Part} {p k i : Nat}

/-- The nonce of a HALLMARK_GET, and the answer with its signature. -/
def nonceOf (j : Job) : Bytes := (j.payload ++ List.replicate 32 0).take 32

def signed (s : State) (b : Bytes) : Bytes := b ++ (Config.sign s.flash.identity b ++ List.replicate 384 0).take 384

theorem hallmarkGet_part (hk : fldLE j.payload 32 1 = 0) (hp : fldLE j.payload 33 1 = p) (hm : j.manager = true ∨ p = j.part)
    (hx : s.part? p = some x) (hid : s.power.noIdentity = false) (hkey : x.keyPair.isSome = true) :
    hallmarkGet j s = (.done .ok 0 (signed s (hallmarkBody s j (nonceOf j) (some p))),
      modPart p (fun x => { x with nonces := (x.nonces ++ [(nonceOf j, s.ns)]).drop (x.nonces.length - 15) }) s) := by
  have hnone : x.keyPair.isNone = false := by rw [← Option.not_isSome, hkey]; rfl
  delta hallmarkGet
  dsimp only
  rw [hk, hp, hx, if_neg (by decide), if_neg (by rcases hm with h | h <;> simp [h]), if_neg (by simp), hid, if_neg Bool.false_ne_true,
    if_neg (by simp [hnone])]
  rfl

theorem hallmarkGet_module (hk : fldLE j.payload 32 1 = 1) (hm : j.manager = true) (hid : s.power.noIdentity = false) :
    hallmarkGet j s = (.done .ok 0 (signed s (hallmarkBody s j (nonceOf j) none)), s) := by
  delta hallmarkGet
  dsimp only
  rw [hk, hm, hid, if_neg (by decide), if_neg (by simp), if_neg (by simp), if_neg Bool.false_ne_true, if_neg (by simp)]
  rfl

/-- CKEY_LOAD names a partition with a key pair, a nonce that the partition holds, and a slot is free. -/
def KeyLoadable (j : Job) (s : State) (x : Part) (k i : Nat) : Prop :=
  s.part? j.part = some x ∧ x.keyPair = some k ∧
    (x.nonces.any fun n => n.1 == j.payload.take 32 && decide (s.ns < n.2 + 600000000000)) = true ∧
    ((List.range 64).filter fun i => !(keysOf s j.part).any fun k => k.handle % 256 == i && keyLive s k).head? = some i

/-- The content key that an opened capsule gives. -/
def openedKey (h : Nat) (b : Bytes) : CKey :=
  { handle := h, key := b.take 32, keyId := (b.drop 32).take 16, pushOnly := bit (fldLE b 48 4) 0, notAfter := fldLE b 56 8 }

theorem ckeyLoad_unopened (h : KeyLoadable j s x k i) (ho : Config.oaepOpen k (j.payload.take 32) (j.payload.drop 32) = none) :
    ckeyLoad j s = (.done .noAccess, s) := by
  obtain ⟨hx, hk, -, -⟩ := h
  simp only [ckeyLoad, hx, hk, Option.isNone_some, Bool.false_eq_true, if_false, Option.bind_some, ho]

theorem ckeyLoad_opened {b : Bytes} (h : KeyLoadable j s x k i) (ho : Config.oaepOpen k (j.payload.take 32) (j.payload.drop 32) = some b) :
    ckeyLoad j s =
      if b.length ≠ 64 then (.done .noAccess, s)
      else if 1 < fldLE b 48 4 ∨ fldLE b 52 4 ≠ 0 then (.done .badDescriptor, s)
      else (.done .ok 0 (toLE 2 (256 * (j.part + 1) + i)), { s with
        tiers.ckeys := s.tiers.ckeys.filter (·.handle != 256 * (j.part + 1) + i) ++ [openedKey (256 * (j.part + 1) + i) b] }) := by
  obtain ⟨hx, hk, hn, hi⟩ := h
  simp only [ckeyLoad, hx, hk, Option.isNone_some, Bool.false_eq_true, if_false, Option.bind_some, ho, hn, hi, Bool.not_true, Bool.false_or,
    decide_eq_true_eq, Bool.or_eq_true]
  rfl

theorem ckeyUnload_ok {h : Nat} (hh : fldLE j.payload 0 2 = h) (hk : (s.ckey? j.part h).isSome = true) (hu : handleUsed s j.part h = false) :
    ckeyUnload j s = (.ok, { s with tiers.ckeys := s.tiers.ckeys.filter (·.handle != h) }) := by
  have hnone : (s.ckey? j.part h).isNone = false := by rw [← Option.not_isSome, hk]; rfl
  simp only [ckeyUnload, hh, hnone, hu, Bool.false_eq_true, if_false]

end

/-- Settles O55. -/
theorem bellowsAndKeysAct : Obligations.BellowsAndKeysAct := by
  have next := fun {s t u : State} (h : t = u) => congrArg (fun t => (Host.Outcome.next (settle s t) : Host.Outcome State Fault Refusal)) h
  refine ⟨?_, ?_, ?_, ?_, ?_, ?_, ?_, ?_, ?_, ?_, ?_, ?_, ?_, ?_, ?_⟩
  · exact fun m j s hrun hbad hread hread1 hw hgood hfree hp hhere => exec_done rfl hrun
      (bellowsLoad_reads (s := startJob j s) rfl hread rfl rfl hbad hread1 (loadList_ok hw hgood hfree hp hhere))
  · exact fun m j x s hrun hmax hx => exec_simply rfl hrun (bellowsStop_ok (s := startJob j s) rfl hmax hx)
  · exact fun p l k x e s hx h0 hdue hkey => next (entryStart_due hx h0 hdue hkey)
  · intro p l k x e s hx hst hno hq hsoon hpiece hturn htrk s0 go
    have h := bellowsChunk_turn ⟨hx, hst, hno, hq, hsoon, hpiece, hturn, htrk⟩
    have hgo : ∀ {r t}, chunkSource p l k e s0 = r → chunkStep p l k e r = t → go t := fun hr ht =>
      next (h.trans ((congrArg (chunkStep p l k e) hr).trans ht))
    have htrailer : ∀ {r}, e.wantsTrailer = true → sourceTrailer p l k e s0 = r → chunkSource p l k e s0 = r := fun hw hr => (if_pos hw).trans hr
    have hchunk : ∀ {r}, e.wantsTrailer = false → sourceChunk p l k (e.done / 65536) e s0 = r → chunkSource p l k e s0 = r :=
      fun hw hr => (if_neg (Bool.eq_false_iff.mp hw)).trans hr
    refine ⟨fun d s1 hw hr => ?_, fun s1 hw hr => ?_, fun s1 hw hr => ?_, fun st s1 hw hr => hgo (hchunk hw hr) rfl, fun d s1 hw hr => ?_⟩
    · exact hgo (htrailer hw hr) (if_pos hw)
    · exact hgo (htrailer hw hr) (congrArg (waited p l k 1) (if_neg (by simp [hw])))
    · exact hgo (hchunk hw hr) (congrArg (waited p l k 1) (by simp [hw]))
    · have hmove : chunkStep p l k e (.ready d, s1) = moveChunk p l k e d (waited p l k 1 s1) := if_neg (Bool.eq_false_iff.mp hw)
      exact ⟨fun hd => hgo (hchunk hw hr) (hmove.trans (moveChunk_more hd)),
        fun y hd hc hy => hgo (hchunk hw hr) (hmove.trans (moveChunk_whole hd hc hy))⟩
  · intro p l k x e s hx hst hno hq hsoon hturn hasked hsrc hc hdst i n o tok s1 g d b hopen hbusy hgot hok hb
    have hpiece : e.pieceNext = true → (pieceNook s p).isSome = true := fun h => absurd h (by rw [pieceNext_plain hc hdst]; exact Bool.false_ne_true)
    have hrun := sourceRun_memory (s := turnTaken p s) (p := p) (l := l) (k := k) (e := e) hsrc hopen hbusy hgot hok
    have hw : e.wantsTrailer = false := by simp [BEntry.wantsTrailer, hc]
    have hsource : chunkSource p l k e (chunkAsked p l k e s) = (.ready d, engForget tok g.2) := by
      rw [chunkAsked, if_neg (Nat.not_le.mpr hasked), chunkSource, hw]
      exact hrun
    have h := (bellowsChunk_turn ⟨hx, hst, hno, hq, hsoon, hpiece, hturn, .inr hasked⟩).trans (congrArg (chunkStep p l k e) hsource)
    refine next (h.trans ((if_neg (Bool.eq_false_iff.mp hw)).trans ((moveChunk_more (.inr hc)).trans ?_)))
    rw [chunkMoved_plain hc hdst hb]
  · intro p l k x e s hx h
    refine ⟨fun st hs => next (entryComplete_status hx h hs), fun hs hq => next (entryComplete_quiesced hx h hs hq), ?_⟩
    intro hs hq h2 hbusy hpush failed
    have hend := entryComplete_moved hx hs hq h2 hbusy hpush
    exact ⟨fun hf => next (hend.trans (congrArg (fun o : Option EngRes => endEntry p l k ((o.map (·.st)).getD .ok) s) hf)),
      fun r hf => next (hend.trans (congrArg (fun o : Option EngRes => endEntry p l k ((o.map (·.st)).getD .ok) s) hf))⟩
  · exact fun p l k x e s hx hpush h hs ht hc hturn => next ((if_pos hturn).trans (pushEntry_due (s := turnTaken p s) hx hpush h hs ht hc))
  · exact fun m j x s hrun hk hm hx hid hkey => exec_done rfl hrun (hallmarkGet_part (s := startJob j s) hk rfl hm hx hid hkey)
  · exact fun m j s hrun hk hm hid => exec_done rfl hrun (hallmarkGet_module (s := startJob j s) hk hm hid)
  · intro m j x k i s hrun hx hk hn hi h s1
    have hload : KeyLoadable j s1 x k i := ⟨hx, hk, hn, hi⟩
    cases ho : Config.oaepOpen k (j.payload.take 32) (j.payload.drop 32) with
    | none => exact exec_done rfl hrun (ckeyLoad_unopened hload ho)
    | some b =>
      have hopen := ckeyLoad_opened hload ho
      dsimp only
      split
      · next hlen => exact exec_done rfl hrun (hopen.trans (if_pos hlen))
      · next hlen =>
        rw [if_neg hlen] at hopen
        split
        · next hbad => exact exec_done rfl hrun (hopen.trans (if_pos hbad))
        · next hbad => exact exec_done rfl hrun (hopen.trans (if_neg hbad))
  · exact fun m j s hrun hk hu => exec_simply rfl hrun (ckeyUnload_ok (s := startJob j s) rfl hk hu)
  · exact fun h s => rfl
  · exact fun p s => rfl
  · exact fun s hf => next (if_neg (by rw [hf]; exact Bool.false_ne_true))
  · exact fun s => rfl

end Sys2Proof.Machine
end

section
/-! PROOFS. ASH_ASSIGN where commands of the tray wait for their rings (R320, R327). -/

namespace Sys2Proof.Machine

/-- ASH_ASSIGN of channel 0 of the flash tray on port 5. -/
def assignJob : Job := { id := 1, op := 0x0A05, part := 1, payload := [5, 0, 0, 0, 0, 0, 0, 0, 1, 0, 0, 0, 0, 0, 0, 0] }

/-- The tray has been identified. Of its two open commands the older one waits for its ring, which has room for it. -/
def waitingCinderState : State :=
  { State.reset with
    flash := { State.reset.flash with prof := { State.reset.flash.prof with sysNooks := 1 } }
    trays := State.reset.trays.set 5 { mode := 3, owner := some 1 }
    tiers := { State.reset.tiers with
      trays := [{ port := 5, part := 1, ctrlEn := true, identified := true, chanCount := 1 }]
      cmds := [{ tray := 5, opc := 2, waits := true }, { tray := 5, opc := 3 }] }
    mantel := { State.reset.mantel with jobs := [assignJob] } }

/-- The state after ASH_ASSIGN's own part. -/
def assignedState : State := (ashAssign assignJob (startJob assignJob waitingCinderState)).2

theorem waitingCinderState_mayRun : mayRun waitingCinderState .a 0x0A05 assignJob := by decide +kernel

theorem ashAssign_waiting : (ashAssign assignJob (startJob assignJob waitingCinderState)).1 = .ok := by decide +kernel

theorem exec_ashAssign_waiting :
    exec (.ashAssign .a) waitingCinderState = .next (settle waitingCinderState (finish assignJob.id .ok 0 [] assignedState)) :=
  exec_simply rfl waitingCinderState_mayRun (Prod.ext ashAssign_waiting rfl)

/-- The opcodes of the open commands, in their order: the one that waited now stands behind the other. -/
theorem assignedState_cmds : assignedState.tiers.cmds.map (·.opc) = [3, 2, 5, 7, 7] := by decide +kernel

/-- Refutes O56: its ASH_ASSIGN clause says that the commands open before stand first, in their order. Submitting BAD_BLOCK_LOG also issues
the tray's command that waits for its ring (`pumpCinder`), which moves it behind those that were issued before. -/
theorem not_ashCommandsAct : ¬ Obligations.AshCommandsAct := by
  rintro ⟨-, -, hassign, -⟩
  obtain ⟨u, hu, -, -, hcmds⟩ := hassign .a assignJob 1 _ waitingCinderState waitingCinderState_mayRun (by decide +kernel) (by decide +kernel)
    (by decide +kernel) (by decide +kernel) rfl rfl rfl (by decide +kernel)
  have ht := congrArg (fun t : State => t.tiers) (Host.Outcome.next.inj (exec_ashAssign_waiting.symm.trans hu))
  simp only [settle_tiers, finish_tiers] at ht
  have hopc := congrArg (List.map fun k : Nat × Nat × Nat × Nat => k.2.1) hcmds
  rw [← ht, List.map_map] at hopc
  exact absurd (assignedState_cmds.symm.trans hopc) (by decide +kernel)

end Sys2Proof.Machine
end

section
/-! PROOFS. PARTITION_DESTROY while a TRNG health test fails (R390, R397). -/

namespace Sys2Proof.Machine

/-- PARTITION_DESTROY of partition 1. -/
def destroyPartJob : Job := { id := 1, op := 0x0302, part := 1, payload := [1] }

/-- Partition 1 holds nook 1, whose memory key is 7, and the TRNG has failed. -/
def failedTrngState : State :=
  { State.reset with
    power := { State.reset.power with trngFail := true }
    ten := { State.reset.ten with parts := [{ id := 1 }], nooks := [.free, .part 1], memKey := [7, 7] }
    mantel := { State.reset.mantel with jobs := [destroyPartJob] } }

/-- The state after PARTITION_DESTROY's own part. -/
def destroyedState : State := (partitionDestroy destroyPartJob (startJob destroyPartJob failedTrngState)).2

theorem failedTrngState_mayRun : mayRun failedTrngState .a 0x0302 destroyPartJob := by decide +kernel

theorem partitionDestroy_failedTrng : (partitionDestroy destroyPartJob (startJob destroyPartJob failedTrngState)).1 = .done .ok := by decide +kernel

theorem partitionDestroy_eq : partitionDestroy destroyPartJob (startJob destroyPartJob failedTrngState) = (.done .ok, destroyedState) := by
  rw [← partitionDestroy_failedTrng, destroyedState]

theorem exec_partitionDestroy_failedTrng : exec (.partitionDestroy .a) failedTrngState =
    .next (settle failedTrngState (finish destroyPartJob.id .ok 0 [] destroyedState)) :=
  exec_done rfl failedTrngState_mayRun partitionDestroy_eq

/-- The key of the partition's nook is gone. -/
theorem destroyedState_memKey : destroyedState.ten.memKey = [7, 0] := by decide +kernel

/-- Refutes O57: its PARTITION_DESTROY clause leaves the memory keys as they are while the TRNG has failed. The command has no fresh keys
then, and still forgets those of the partition's nooks. -/
theorem not_tenancyCommandsAct : ¬ Obligations.TenancyCommandsAct := by
  rintro ⟨-, hdestroy, -⟩
  have h := hdestroy .a destroyPartJob failedTrngState failedTrngState_mayRun (by decide +kernel) (by decide +kernel) (by decide +kernel)
  have ht := congrArg (fun t : State => t.ten.memKey) (Host.Outcome.next.inj (exec_partitionDestroy_failedTrng.symm.trans h))
  simp only [settle_ten, finish_ten] at ht
  exact absurd (destroyedState_memKey.symm.trans ht) (by decide +kernel)

end Sys2Proof.Machine
end

section
/-! PROOFS. What events and messages of the module leave of Mantel's registers, and faults, temperature and telemetry (R445 to R464). -/

namespace Sys2Proof.Machine

/-! ### Events and Mantel's registers -/

section
variable {β : Type} (G : Mantel → β)

/-- A part of Mantel that is neither an event queue nor the state of the IRQ frames. -/
def OffEvents : Prop :=
  (∀ (m : Mantel) q, G { m with evM := q } = G m) ∧ (∀ (m : Mantel) q, G { m with evP := q } = G m) ∧
    ∀ (m : Mantel) st o a n b, G { m with irqStatus := st, irqOut := o, irqAt := a, irqSent := n, irqMore := b } = G m

variable {G} (hG : OffEvents G)
include hG

theorem noteIrq_keep (t : Nat) (fresh st : BitVec 32) (m : Mantel) : G (noteIrq t fresh { m with irqStatus := st }) = G m := by
  obtain ⟨-, -, hirq⟩ := hG
  unfold noteIrq
  split
  · exact hirq m st m.irqOut m.irqAt m.irqSent m.irqMore
  · split
    · exact hirq m st m.irqOut m.irqAt m.irqSent true
    · unfold sendIrq
      split
      · exact hirq m st _ t (m.irqSent + 1) false
      · exact hirq m st m.irqOut m.irqAt m.irqSent true

theorem raiseIrq_mantel_keep (mask : BitVec 32) (s : State) : G (raiseIrq mask s).mantel = G s.mantel := noteIrq_keep hG ..

theorem pushM_mantel_keep (e : Event) (s : State) : G (pushM e s).mantel = G s.mantel := by
  have hq := hG.1 s.mantel
  unfold pushM
  dsimp only
  split
  · split
    · exact (raiseIrq_mantel_keep hG ..).trans (hq _)
    · exact hq _
  · exact (raiseIrq_mantel_keep hG ..).trans (hq _)

theorem event_mantel_keep (c : Nat) (b : Bool) (ps : List Nat) (k : Option Nat) (d : List Nat) (s : State) :
    G (event c b ps k d s).mantel = G s.mantel := by
  have hp := hG.2.1
  refine (foldl_keep (fun s : State => G s.mantel) _ (fun s p => ?_) _ _).trans ?_
  · split
    · exact hp ..
    · rfl
  · split
    · exact pushM_mantel_keep hG ..
    · rfl

end

/-! ### A message of the module itself -/

theorem loopEvent_keep {β : Type} (F : State → β) (hL : ∀ m s, F (loopReport m s) = F s) (m : PktMsg) (st : Status) (s : State) :
    F (loopEvent m st s) = F s := by
  unfold loopEvent
  split
  · exact hL ..
  · rfl

/-- A message of the module's own queues a frame, or reports a loop, and its tracker is the only other thing it changes. -/
theorem ownMsg_keep {β : Type} (F : State → β) (hL : ∀ m s, F (loopReport m s) = F s) (hE : ∀ b p v ep o s, F (enqueue b p v ep o s) = F s)
    (hT : ∀ (s : State) ks n, F { s with mem := { s.mem with trks := ks, nextTrk := n } } = F s)
    (opc : Nat) (part : Option Nat) (svc dst tag epoch : Nat) (body : Bytes) (s : State) :
    F (ownMsg opc part svc dst tag epoch body s).2 = F s := by
  unfold ownMsg
  dsimp only
  split
  · exact loopEvent_keep F hL ..
  · split
    · exact hE false ..
    · dsimp only
      split
      · exact hT s _ _
      · exact (hE ..).trans (hT s _ _)

/-! ### Single faults of SRAM -/

section
variable {s : State}

theorem table?_damaged {p t : Nat} {x : Table} (h : s.table? p t = some x) :
    sramUncorrectable (.tableDesc p t) s = modTable p t (fun t => { t with damaged := true }) (sramFault (some p) [4, x.d.coord, t] s) := by
  rw [sramUncorrectable, h]

theorem template_damaged {nook p id : Nat} {t : Template} (h : s.template? nook id = some t) (hp : t.part = p) :
    sramUncorrectable (.template nook p id) s =
      modTemplate nook id (fun t => { t with damaged := true }) (sramFault (holder s nook) [3, nook, id] s) := by
  rw [sramUncorrectable, h]
  exact if_neg (by simp [hp])

theorem tileQueue_damaged {nook cid : Nat} {c : Chain} (h : s.chain? cid = some c) (hn : c.home = nook) (ha : c.admitted = true) :
    sramUncorrectable (.tileQueue nook cid) s = abort cid .damaged 0 (sramFault (holder s nook) [0, nook, cid] s) := by
  rw [sramUncorrectable, h]
  exact if_neg (by simp [hn, ha])

theorem chainQueue_damaged {nook cid : Nat} {c : Chain} (h : s.chain? cid = some c) (hn : c.home = nook) (ha : c.admitted = false) :
    sramUncorrectable (.chainQueue nook cid) s = abort cid .damaged 0 (sramFault (holder s nook) [2, nook, cid] s) := by
  rw [sramUncorrectable, h]
  exact if_neg (by simp [hn, ha])

theorem tracker_damaged {id : Nat} {k : Trk} (h : s.mem.trks.find? (·.id == id) = some k) :
    sramUncorrectable (.tracker id) s = endTracker id .damaged (sramFault k.part [6, id] s) := by
  rw [sramUncorrectable, h]

theorem directory_damaged {nook set : Nat} (h : setLost s nook set = false) :
    sramUncorrectable (.directory nook set) s =
      (let s1 := eventMO 0x003B (holder s nook) [nook, set] (sramFault (holder s nook) [11, nook, set] s)
       recallAll (fun d => d.nook == nook && d.line % 4096 == set) { s1 with dir.setLost := s1.dir.setLost ++ [(nook, set)] }) := by
  delta sramUncorrectable
  exact if_neg (by simp [h])

/-! ### Retirement of channels -/

variable {c : Nat}

/-- The channel has begun to retire, with the first one that did so at this instant for the same partition. -/
def retireBegun (c : Nat) (s : State) : State :=
  modChan c (fun k => { k with retiring := some s.t, lead := (sameFault s c).elim c fun d => (s.chan d).lead }) s

/-- What a retirement does to the work of the channel. -/
def channelLost (c : Nat) (t : State) : State := recallAll (fun d => onChan t c d.line) (loseReads c (loseStrokes c (dropMapPages c t)))

section
variable {why : RetireWhy} (hc : c < 768) (hg : chanGone (s.chan c) = false) (hd : retireDue s c why = true)
include hc hg hd

theorem retireTrigger_free (ho : s.chanOwner c = none) : retireTrigger c why s = channelLost c (retireBegun c s) := by
  delta retireTrigger
  dsimp only
  rw [if_neg (by simp [hg, hd, hc]), ho]
  rfl

theorem retireTrigger_first {p : Nat} (ho : s.chanOwner c = some p) (hf : sameFault s c = none) :
    retireTrigger c why s = channelLost c (dataFault p 0x0030 c (retireBegun c s)) := by
  delta retireTrigger
  dsimp only
  rw [if_neg (by simp [hg, hd, hc]), ho]
  dsimp only
  rw [if_neg (by simp [hf])]
  rfl

theorem retireTrigger_covered {p d : Nat} (ho : s.chanOwner c = some p) (hf : sameFault s c = some d) :
    retireTrigger c why s = channelLost c (retireBegun c s) := by
  delta retireTrigger
  dsimp only
  rw [if_neg (by simp [hg, hd, hc]), ho]
  dsimp only
  rw [if_pos (by simp [hf])]
  rfl

end

/-- The channel is retired, and its retirement recorded and raised. -/
def retireRecorded (c : Nat) (s : State) : State :=
  let t := modChan c (fun k => { k with retired := true, retiring := none, damaged := [], refPend := false, refBusy := false,
                                        scrubPend := false, winRef := none }) s
  eventMO 0x0030 (s.chanOwner c) [c] { t with flash := { t.flash with retired := t.flash.retired ++ [c], retired1 := t.flash.retired1 ++ [c] } }

/-- Recording a retirement may end the partition's recovery, and does no more. -/
theorem retireEnd_keep {β : Type} (F : State → β) (hP : ∀ p f s, F (modPart p f s) = F s) (hr : (s.chan c).retiring.isSome = true)
    (hrun : (s.chanOwner c).elim false (fun p => !recoveryRuns s p 0x0030 (s.chan c).lead) = false) :
    F (retireEnd c s) = F (retireRecorded c s) := by
  delta retireEnd
  dsimp only
  rw [if_neg (by rw [hrun]; simpa [Option.isSome_iff_ne_none] using hr)]
  split
  · rfl
  · split
    · rfl
    · exact hP ..

theorem chan_modChan {k : Chan} (h : s.chans[c]? = some k) (f : Chan → Chan) : (modChan c f s).chan c = f k := by
  simp [State.chan, modChan, List.getD, h]

theorem chan_retireRecorded {k : Chan} (h : s.chans[c]? = some k) : (retireRecorded c s).chan c =
    { k with retired := true, retiring := none, damaged := [], refPend := false, refBusy := false, scrubPend := false, winRef := none } := by
  rw [State.chan, retireRecorded, eventMO_chans]
  exact chan_modChan h _

theorem retireRecorded_flash : (retireRecorded c s).flash.retired = s.flash.retired ++ [c] := by rw [retireRecorded, eventMO_flash]; rfl
theorem retireRecorded_mem : (retireRecorded c s).mem = s.mem := by rw [retireRecorded, eventMO_mem]; rfl
theorem retireRecorded_maps : (retireRecorded c s).maps = s.maps := by rw [retireRecorded, eventMO_maps]; rfl
theorem retireRecorded_dir : (retireRecorded c s).dir = s.dir := by rw [retireRecorded, eventMO_dir]; rfl

/-! ### The end of a recovery -/

theorem recoveryEnd_one {p : Nat} {x : Part} {r : Recovery} (hp : s.part? p = some x) (hr : x.recs.filter (·.ended) = [r]) :
    recoveryEnd p s = eventMO 0x0037 (some p) [r.code, s.t - r.at_] (modPart p (fun x => { x with recs := startNext (x.recs.filter (! ·.ended)) }) s) := by
  delta recoveryEnd
  dsimp only
  rw [hp]
  dsimp only
  rw [hr]
  rfl

/-! ### Temperature -/

/-- The warning after a sample of the temperatures. -/
def warnAfter (h : Int) (ts : List Int) (s : State) : Bool :=
  hotter 105 95 h ts || (s.power.warn &&
    !((since s.t (decide (h ≤ 1600) && ts.all fun x => decide (x ≤ 1440)) s.power.coolAt).elim false fun t0 => t0 + 10000000 ≤ s.t))

/-- The temperatures are recorded, and what follows from them at once. -/
def tempTaken (h : Int) (ts : List Int) (s : State) : State :=
  let u := { s with power := { s.power with
    tempHearth := h, tempStacks := ts, warn := warnAfter h ts s
    coolAt := since s.t (decide (h ≤ 1600) && ts.all fun x => decide (x ≤ 1440)) s.power.coolAt
    belowAt := since s.t (!hotter 105 95 h ts) s.power.belowAt } }
  { u with chans := u.chans.zipIdx.map fun k => { k.1 with hot := decide (85 * 16 < ts.getD (k.2 / 32) 0) } }

/-- The change of the warning is reported, and low power noted. -/
def tempNoted (h : Int) (ts : List Int) (s : State) : State :=
  noteLow (if warnAfter h ts s && !s.power.warn then event 0x0039 true [] none [tempWord (tempTaken h ts s)] (tempTaken h ts s) else tempTaken h ts s)

theorem tempSample_eq {h : Int} {ts : List Int} (hlen : ts.length = 24) : tempSample h ts s =
    if hotter 118 105 h ts && !(tempNoted h ts s).power.emergency && !inReset (tempNoted h ts s) then { tempNoted h ts s with power.tooHot := true }
    else tempNoted h ts s := by
  have hts : (ts ++ List.replicate 24 0).take 24 = ts := by rw [← hlen, List.take_left]
  delta tempSample
  dsimp only
  rw [hts]
  rfl

theorem tempNoted_keep {β : Type} (F : State → β) (hE : ∀ s, F (event 0x0039 true [] none [tempWord s] s) = F s)
    (hW : ∀ (s : State) a, F { s with power.lowAt := a } = F s) (h : Int) (ts : List Int) : F (tempNoted h ts s) = F (tempTaken h ts s) := by
  refine (hW _ _).trans ?_
  split
  · exact hE _
  · rfl

/-- The sample's fields of the power controller, and what it keeps. -/
theorem tempNoted_power (h : Int) (ts : List Int) : ∃ a, (tempNoted h ts s).power = { (tempTaken h ts s).power with lowAt := a } := by
  unfold tempNoted noteLow
  split
  · exact ⟨_, by dsimp only; rw [event_power]⟩
  · exact ⟨_, rfl⟩

theorem tempSample_keep {β : Type} (F : State → β) (hE : ∀ s, F (event 0x0039 true [] none [tempWord s] s) = F s)
    (hW : ∀ (s : State) w, F { s with power := w } = F s) (hC : ∀ (s : State) k, F { s with chans := k } = F s) {h : Int} {ts : List Int}
    (hlen : ts.length = 24) : F (tempSample h ts s) = F s := by
  have hn : F (tempNoted h ts s) = F s := (tempNoted_keep F hE (fun _ _ => hW ..) h ts).trans ((hC ..).trans (hW ..))
  rw [tempSample_eq hlen]
  split
  · exact (hW ..).trans hn
  · exact hn

theorem exists_tempSample_power {h : Int} {ts : List Int} (hlen : ts.length = 24) : ∃ a b, (tempSample h ts s).power =
    { s.power with
      tempHearth := h, tempStacks := ts, warn := warnAfter h ts s
      coolAt := since s.t (decide (h ≤ 1600) && ts.all fun x => decide (x ≤ 1440)) s.power.coolAt
      belowAt := since s.t (!hotter 105 95 h ts) s.power.belowAt, lowAt := a, tooHot := b } ∧
    b = (s.power.tooHot || (hotter 118 105 h ts && !s.power.emergency && !inReset s)) := by
  obtain ⟨a, ha⟩ := tempNoted_power (s := s) h ts
  have hem : (tempNoted h ts s).power.emergency = s.power.emergency := by rw [ha]; rfl
  have hre : inReset (tempNoted h ts s) = inReset s := by rw [inReset, inReset, ha]; rfl
  rw [tempSample_eq hlen, hem, hre]
  split
  · next hh => exact ⟨a, true, by dsimp only; rw [ha]; rfl, by rw [hh, Bool.or_true]⟩
  · next hh => exact ⟨a, s.power.tooHot, by rw [ha]; rfl, by rw [Bool.eq_false_iff.mpr hh, Bool.or_false]⟩

/-! ### The clock -/

theorem throttle_down {t0 : Nat} (hsec : s.flash.prof.secure = false) (hem : s.power.emergency = false) (hre : inReset s = false)
    (hns : s.ns % 256 = 0) (hstep : 0 < s.power.step) (hw : s.power.warn = false) (hp : s.power.powerW ≤ 2650) (hlow : s.power.lowAt = some t0)
    (ht : t0 + 10000000 ≤ s.t) (hst : s.power.stepAt + 10000000 ≤ s.t) :
    throttle s = eventMA 0x0038 [s.power.step - 1, stepMhz (s.power.step - 1)]
      { s with power := { s.power with step := s.power.step - 1, stepAt := s.t } } := by
  have hn : (if (s.power.warn || decide (2650 < s.power.powerW)) && decide (s.power.stepAt + 1000000 ≤ s.t) then min 3 (s.power.step + 1)
      else if (s.power.lowAt.elim false fun t0 => decide (t0 + 10000000 ≤ s.t)) && decide (s.power.stepAt + 10000000 ≤ s.t) then s.power.step - 1
      else s.power.step) = s.power.step - 1 := by
    have hwarm : decide (2650 < s.power.powerW) = false := decide_eq_false (Nat.not_lt.mpr hp)
    rw [hw, hwarm, Bool.false_or, Bool.false_and, if_neg Bool.false_ne_true, hlow, Option.elim_some, decide_eq_true ht, decide_eq_true hst]
    rfl
  delta throttle
  dsimp only
  rw [hn]
  exact if_neg (by simp [hsec, hem, hre, hns]; omega)

theorem throttle_up (hsec : s.flash.prof.secure = false) (hem : s.power.emergency = false) (hre : inReset s = false)
    (hns : s.ns % 256 = 0) (hw : s.power.warn = true ∨ 2650 < s.power.powerW) (hst : s.power.stepAt + 1000000 ≤ s.t) (hstep : s.power.step < 3) :
    throttle s = eventMA 0x0038 [s.power.step + 1, stepMhz (s.power.step + 1)]
      { s with power := { s.power with step := s.power.step + 1, stepAt := s.t } } := by
  delta throttle
  dsimp only
  rw [if_pos (c := (s.power.warn || decide (2650 < s.power.powerW)) && _) (by simp [hw, hst]), Nat.min_eq_right hstep]
  exact if_neg (by simp [hsec, hem, hre, hns])

/-! ### Telemetry -/

/-- The stream sends with this sample. -/
def streamDue (s : State) : Bool := s.mantel.stream.elim false fun x => x.2 ≤ s.mantel.streamAt + 1

/-- The counters of the millisecond that has ended become its sample. -/
def sampled (w mv : Nat) (s : State) : State :=
  let u := noteLow { s with power := { s.power with powerW := w, inputMv := mv } }
  { u with mantel := { u.mantel with
      teleM := sampleOf u none u.mantel.cntM
      teleP := u.mantel.cntP.zipIdx.map fun c => if (u.part? c.2).isSome then sampleOf u (some c.2) c.1 else {}
      cntM := {}, cntP := List.replicate 16 {}, teleAt := s.ns / 1000000, streamAt := if streamDue s then 0 else u.mantel.streamAt + 1 } }

/-- Beyond the sample itself a message to the stream's endpoint may leave. -/
theorem telemetrySample_keep {β : Type} (F : State → β) (hL : ∀ m s, F (loopReport m s) = F s)
    (hE : ∀ b p v ep o s, F (enqueue b p v ep o s) = F s)
    (hT : ∀ (s : State) ks n, F { s with mem := { s.mem with trks := ks, nextTrk := n } } = F s) {w mv : Nat}
    (h : s.mantel.teleAt < s.ns / 1000000) : F (telemetrySample w mv s) = F (sampled w mv s) := by
  delta telemetrySample
  dsimp only
  rw [if_neg (Nat.not_le.mpr h)]
  dsimp only [noteLow]
  split
  · by_cases hdue : streamDue s = true
    · refine (congrArg F (if_pos hdue)).trans ?_
      exact (ownMsg_keep F hL hE hT ..).trans rfl
    · exact congrArg F (if_neg hdue)
  · rfl

end

end Sys2Proof.Machine
end

section
/-! PROOFS. Faults and background work (O58). -/

namespace Sys2Proof.Machine

section
variable {s : State} {c : Nat} {k : Chan}

/-- What a retired channel leaves: its fields in `t`, the state after CHANNEL_RETIRE. -/
theorem exists_channelRetire (hk : s.chans[c]? = some k) (hr : k.retiring.isSome = true)
    (hrun : (s.chanOwner c).elim false (fun p => !recoveryRuns s p 0x0030 k.lead) = false) :
    ∃ t, exec (.channelRetire c) s = .next t ∧ (t.chan c).retired = true ∧ (t.chan c).retiring = none ∧ (t.chan c).damaged = [] ∧
      t.flash.retired = s.flash.retired ++ [c] ∧ t.mem = s.mem ∧ t.maps = s.maps ∧ t.dir = s.dir := by
  obtain rfl : k = s.chan c := (chan_of_getElem? hk).symm
  have hchan : (settle s (retireEnd c s)).chan c = (retireRecorded c s).chan c := by
    rw [State.chan, State.chan, settle_chans, retireEnd_keep State.chans modPart_chans hr hrun]
  refine ⟨_, rfl, ?_, ?_, ?_, ?_, ?_, ?_, ?_⟩
  · rw [hchan, chan_retireRecorded hk]
  · rw [hchan, chan_retireRecorded hk]
  · rw [hchan, chan_retireRecorded hk]
  · rw [settle_flash, retireEnd_keep State.flash modPart_flash hr hrun, retireRecorded_flash]
  · rw [settle_mem, retireEnd_keep State.mem modPart_mem hr hrun, retireRecorded_mem]
  · rw [settle_maps, retireEnd_keep State.maps modPart_maps hr hrun, retireRecorded_maps]
  · rw [settle_dir, retireEnd_keep State.dir modPart_dir hr hrun, retireRecorded_dir]

theorem exists_tempSample {h : Int} {ts : List Int} (hlen : ts.length = 24) :
    ∃ t, exec (.tempSample h ts) s = .next t ∧ t.power.tempHearth = h ∧ t.power.tempStacks = ts ∧ t.mem = s.mem ∧ t.maps = s.maps ∧ t.dir = s.dir ∧
      (hotter 105 95 h ts = true → t.power.warn = true) ∧
      (hotter 118 105 h ts = true → s.power.emergency = false → inReset s = false → t.power.tooHot = true) ∧
      (hotter 118 105 h ts = false → t.power.tooHot = s.power.tooHot) ∧
      t.power.emergency = s.power.emergency ∧ t.power.readyBasic = s.power.readyBasic := by
  obtain ⟨a, b, hp, hb⟩ := exists_tempSample_power (s := s) (h := h) hlen
  have hpow : (settle s (tempSample h ts s)).power = (tempSample h ts s).power := settle_power ..
  rw [hp] at hpow
  refine ⟨_, rfl, ?_, ?_, ?_, ?_, ?_, fun hw => ?_, fun hh he hre => ?_, fun hh => ?_, ?_, ?_⟩
  · rw [hpow]
  · rw [hpow]
  · rw [settle_mem, tempSample_keep State.mem (fun _ => event_mem ..) (fun _ _ => rfl) (fun _ _ => rfl) hlen]
  · rw [settle_maps, tempSample_keep State.maps (fun _ => event_maps ..) (fun _ _ => rfl) (fun _ _ => rfl) hlen]
  · rw [settle_dir, tempSample_keep State.dir (fun _ => event_dir ..) (fun _ _ => rfl) (fun _ _ => rfl) hlen]
  · rw [hpow]
    exact congrArg (· || _) hw
  · rw [hpow, hb, hh, he, hre, Bool.not_false, Bool.and_self, Bool.and_self, Bool.or_true]
  · rw [hpow, hb, hh, Bool.false_and, Bool.false_and, Bool.or_false]
  · rw [hpow]
  · rw [hpow]

theorem exists_telemetrySample {w mv : Nat} (h : s.mantel.teleAt < s.ns / 1000000) :
    ∃ t, exec (.telemetrySample w mv) s = .next t ∧ t.mantel.teleAt = s.ns / 1000000 ∧ t.power.powerW = w ∧ t.power.inputMv = mv ∧
      t.mantel.teleM.powerW = w ∧ t.mantel.teleM.ns = (s.ns / 1000000 - 1) * 1000000 ∧ t.mem.bytes = s.mem.bytes ∧ t.dir = s.dir := by
  have hteleM : (settle s (telemetrySample w mv s)).mantel.teleM = (sampled w mv s).mantel.teleM := by
    rw [settle_mantel_teleM]
    exact telemetrySample_keep (fun s : State => s.mantel.teleM)
      (fun _ _ => event_mantel_keep ⟨fun _ _ => rfl, fun _ _ => rfl, fun _ _ _ _ _ _ => rfl⟩ ..)
      (fun _ _ _ _ _ _ => by rw [enqueue_mantel]) (fun _ _ _ => rfl) h
  have hteleAt : (settle s (telemetrySample w mv s)).mantel.teleAt = (sampled w mv s).mantel.teleAt := by
    rw [settle_mantel_teleAt]
    exact telemetrySample_keep (fun s : State => s.mantel.teleAt)
      (fun _ _ => event_mantel_keep ⟨fun _ _ => rfl, fun _ _ => rfl, fun _ _ _ _ _ _ => rfl⟩ ..)
      (fun _ _ _ _ _ _ => by rw [enqueue_mantel]) (fun _ _ _ => rfl) h
  have hpow : (settle s (telemetrySample w mv s)).power = (sampled w mv s).power := by
    rw [settle_power, telemetrySample_keep State.power loopReport_power enqueue_power (fun _ _ _ => rfl) h]
  refine ⟨_, rfl, hteleAt, ?_, ?_, ?_, ?_, ?_, ?_⟩
  · rw [hpow]
    rfl
  · rw [hpow]
    rfl
  · rw [hteleM]
    rfl
  · rw [hteleM]
    rfl
  · rw [settle_mem]
    exact telemetrySample_keep (fun s : State => s.mem.bytes) (by simp) (by simp) (fun _ _ _ => rfl) h
  · rw [settle_dir]
    exact telemetrySample_keep State.dir loopReport_dir enqueue_dir (fun _ _ _ => rfl) h

end

/-- Settles O58. -/
theorem faultsAndBackgroundAct : Obligations.FaultsAndBackgroundAct := by
  have next := fun {s t u : State} (h : t = u) => congrArg (fun t => (Host.Outcome.next (settle s t) : Host.Outcome State Fault Refusal)) h
  refine ⟨?rowCache, ?template, ?tableDesc, ?tier0, ?calendar, ?keyContent, ?keySession, ?cleaner, ?tracker, ?queues, ?directory, ?mantel,
    ?restart, ?trigger, ?retire, ?recovery, ?temp, ?down, ?up, ?telemetry⟩
  case rowCache => exact fun nook p t r s h => next (if_neg (by simpa [Option.isSome_iff_ne_none] using h))
  case template => exact fun nook p id t s h hp => next (template_damaged h hp)
  case tableDesc => exact fun p t x s h => next (table?_damaged h)
  case tier0 => exact fun p l e s h => next (if_neg (by simpa [Option.isSome_iff_ne_none] using h))
  case calendar => exact fun b s => ⟨fun h => next (if_pos h), fun h => next (if_neg (by simpa using h))⟩
  case keyContent => exact fun h s => rfl
  case keySession => exact fun p s h => next (if_pos h)
  case cleaner => exact fun k set n s => ⟨rfl, rfl, next (by simp [cleanerCycle, Bool.not_and, Bool.not_not])⟩
  case tracker => exact fun id k s h => next (tracker_damaged h)
  case queues => exact fun nook cid c s h hn => ⟨fun ha => next (tileQueue_damaged h hn ha), fun ha => next (chainQueue_damaged h hn ha)⟩
  case directory => exact fun nook set s h => next (directory_damaged h)
  case mantel => exact fun s h => next (if_neg (by simp [h]))
  case restart => exact fun s => rfl
  case trigger =>
    exact fun c why s hc hg hd => ⟨fun ho => next (retireTrigger_free hc hg hd ho),
      fun p ho hf => next (retireTrigger_first hc hg hd ho hf), fun p d ho hf => next (retireTrigger_covered hc hg hd ho hf)⟩
  case retire => exact fun c k s hk hr hrun => exists_channelRetire hk hr hrun
  case recovery => exact fun p x r s hp hr => next (recoveryEnd_one hp hr)
  case temp => exact fun h ts s hlen => exists_tempSample hlen
  case down =>
    exact fun t0 s hsec hem hre hns hstep hw hp hlow ht hst => next (throttle_down hsec hem hre hns hstep hw hp hlow ht hst)
  case up => exact fun s hsec hem hre hns hw hst hstep => next (throttle_up hsec hem hre hns hw hst hstep)
  case telemetry => exact fun w mv s h => exists_telemetrySample h

end Sys2Proof.Machine
end

section
/-! PROOFS. What a start keeps of the power controller and of memory, and the thermal emergency (R420 to R430, R450). -/

namespace Sys2Proof.Machine

/-! ### A profile that is applied -/

/-- The power controller without its count of free values, and the bytes of memory. -/
def bootKept (s : State) : Power × List Host.Cell := ({ s.power with frees := 0 }, s.mem.bytes)

theorem bootKept_congr {s t : State} (hp : t.power = s.power) (hm : t.mem = s.mem) : bootKept t = bootKept s := by
  rw [bootKept, bootKept, hp, hm]

theorem foldlM_keep {σ α β : Type} (F : σ → β) (g : σ → α → Option σ) (h : ∀ s x t, g s x = some t → F t = F s) (l : List α) :
    ∀ s t, l.foldlM g s = some t → F t = F s := by
  induction l with
  | nil =>
    intro s t ht
    obtain rfl : s = t := Option.some.inj ht
    rfl
  | cons x xs ih =>
    intro s t ht
    rw [List.foldlM_cons] at ht
    obtain ⟨u, hu, hut⟩ := Option.bind_eq_some_iff.mp ht
    exact (ih u t hut).trans (h s x u hu)

theorem bootKept_addParam (d : Nat) (p : DParam) (s : State) : bootKept (addParam d p s) = bootKept s :=
  bootKept_congr (modD_power ..) (modD_mem ..)

theorem bootKept_setPort (d : Nat) (s : State) : bootKept (setPort d s).2 = bootKept s := by
  unfold setPort
  split
  · exact bootKept_addParam ..
  · rfl

theorem bootKept_setSvc (d : Nat) (s : State) : bootKept (setSvc d s).2 = bootKept s := by
  unfold setSvc
  split
  · exact bootKept_addParam ..
  · rfl

theorem bootKept_setSub (d : Nat) (s : State) : bootKept (setSub d s).2 = bootKept s := by
  unfold setSub
  split
  · exact bootKept_addParam ..
  · rfl

theorem bootKept_hostAgent (t : Nat) (s : State) : bootKept (hostAgent t s) = bootKept s := by
  unfold hostAgent
  split
  · rfl
  · split
    · rfl
    · split <;> rfl

theorem bootKept_freshKeys (ns : List Nat) (s : State) : bootKept (freshKeys ns s) = bootKept s :=
  foldl_keep bootKept _ (by intros; rfl) ns s

theorem bootKept_joinTwin (p tag : Nat) (s : State) : bootKept (joinTwin p tag s) = bootKept s := by
  unfold joinTwin
  split
  · rfl
  · dsimp only
    split <;> rfl

theorem bootKept_makePart (b : Bytes) (key : Option Nat) (s : State) : bootKept (makePart b key s) = bootKept s := by
  refine (bootKept_joinTwin ..).trans ((bootKept_freshKeys ..).trans ?_)
  refine (foldl_keep bootKept _ (fun s t => ?_) _ _).trans ?_
  · split
    · exact bootKept_hostAgent ..
    · rfl
  · exact (foldl_keep bootKept _ (by intros; rfl) _ _).trans (foldl_keep bootKept _ (by intros; rfl) _ _)

theorem bootKept_placeExt (e : Extent) (s : State) : bootKept (placeExt e s) = bootKept s := by
  unfold placeExt
  split
  · rfl
  · exact foldl_keep (fun a : List Nat × State => bootKept a.2) _ (by intros; rfl) _ _

theorem bootKept_extentAdd (j : Job) (s : State) : bootKept (extentAdd j s).2 = bootKept s := by
  have hmir : bootKept (if (decExtent (leNat j.payload)).mirror == 1 then mirrorDesc j (decExtent (leNat j.payload)).part s else s) = bootKept s := by
    split
    · exact bootKept_congr (mirrorState_power ..) (mirrorState_mem ..)
    · rfl
  unfold extentAdd
  dsimp only
  split
  · rfl
  · split
    · rfl
    · split
      · rfl
      · split
        · rfl
        · exact (trayKeys_keep bootKept (fun _ => rfl) (fun _ _ => rfl) _).trans ((bootKept_placeExt ..).trans hmir)

theorem bootKept_routeSet (j : Job) (s : State) : bootKept (routeSet j s).2 = bootKept s := by
  unfold routeSet
  dsimp only
  split
  · rfl
  · split <;> rfl

theorem bootKept_ok {r : Status × State} {t : State} (h : (if r.1 = .ok then some r.2 else none) = some t) : bootKept t = bootKept r.2 := by
  split at h
  · exact congrArg bootKept (Option.some.inj h).symm
  · exact absurd h (by simp)

theorem bootKept_applyItem {x : Nat × Bytes} {s t : State} (h : applyItem x s = some t) : bootKept t = bootKept s := by
  unfold applyItem at h
  dsimp only at h
  split at h
  · exact (bootKept_ok h).trans (bootKept_setPort ..)
  · split at h
    · exact (bootKept_ok h).trans (bootKept_setSvc ..)
    · split at h
      · exact (bootKept_ok h).trans (bootKept_setSub ..)
      · split at h
        · split at h
          · exact absurd h (by simp)
          · exact (congrArg bootKept (Option.some.inj h).symm).trans (bootKept_makePart ..)
        · split at h
          · exact (bootKept_ok h).trans (bootKept_extentAdd ..)
          · exact (bootKept_ok h).trans (bootKept_routeSet ..)

theorem bootKept_applyRecord {b : Bytes} {s t : State} (h : applyRecord b s = some t) : bootKept t = bootKept s := by
  unfold applyRecord at h
  split at h
  · exact absurd h (by simp)
  · split at h
    · exact absurd h (by simp)
    · split at h
      · exact absurd h (by simp)
      · obtain ⟨u, hu, rfl⟩ := Option.map_eq_some_iff.mp h
        exact (foldlM_keep bootKept _ (fun _ _ _ hx => bootKept_applyItem hx) _ _ _ hu : bootKept u = bootKept (layOut (decProfile b) s))

theorem bootKept_applySlot {n : Nat} {b : Bytes} {s t : State} (h : applySlot n s = some (b, t)) : bootKept t = bootKept s := by
  have copy : ∀ {cf : List Host.Cell}, ((record? cf n).bind fun b => (applyRecord b s).map fun s => (b, s)) = some (b, t) →
      bootKept t = bootKept s := by
    intro cf hcf
    obtain ⟨r, -, hr⟩ := Option.bind_eq_some_iff.mp hcf
    obtain ⟨u, hu, hut⟩ := Option.map_eq_some_iff.mp hr
    obtain ⟨-, rfl⟩ := Prod.mk.inj hut
    exact bootKept_applyRecord hu
  rcases Option.or_eq_some_iff.mp h with h0 | ⟨-, h1⟩
  · exact copy h0
  · exact copy h1

theorem bootKept_chooseProfile (s : State) : bootKept (chooseProfile s) = bootKept s := by
  unfold chooseProfile
  dsimp only
  split
  · rfl
  · next n b u hfind =>
    obtain ⟨i, -, hi⟩ := List.exists_of_findSome?_eq_some hfind
    obtain ⟨r, hr, hru⟩ := Option.map_eq_some_iff.mp hi
    obtain ⟨-, rfl⟩ := Prod.mk.inj hru
    exact (bootKept_applySlot hr : bootKept u = bootKept s)

theorem bootKept_measure (s : State) : bootKept (measure s) = bootKept s :=
  foldl_keep bootKept _ (by intros; rfl) _ _

/-! ### The start instant -/

section
variable {s : State} (hv : s.power.valid = true) (hdue : s.power.startDue = true)
  (href : (s.power.refLost.getD 0 false && s.power.refLost.getD 1 false) = false)

/-- The module as its start begins. -/
def starting (s : State) : State :=
  let w := s.power
  let u := cleared w.warm s
  { u with power := { u.power with
      rstLow := false, startDue := false, started := true, startAt := u.t, brake := w.brakeLow || (w.warm && w.brakeLatch),
      sel := if w.warm then w.sel else w.selPin, pos := if w.warm then w.pos else w.posPin } }

/-- The module with its profile. -/
def profiled (s : State) : State :=
  let u := chooseProfile (setChans (measure (starting s)))
  { u with power.warm := false }

theorem exists_frees {u v : State} (h : bootKept u = bootKept v) :
    ∃ n, ({ u with power.warm := false } : State).power = { v.power with warm := false, frees := n } ∧ u.mem.bytes = v.mem.bytes := by
  obtain ⟨hp, hb⟩ := Prod.mk.inj h
  exact ⟨u.power.frees, congrArg (fun k : Power => { k with warm := false, frees := u.power.frees }) hp, hb⟩

theorem exists_profiled : ∃ n, (profiled s).power = { (starting s).power with warm := false, frees := n } ∧ (profiled s).mem.bytes = [] :=
  exists_frees ((bootKept_chooseProfile (setChans (measure (starting s)))).trans (bootKept_measure (starting s)))

include hv hdue href

theorem startInstant_eq (fwOk idOk : Bool) : startInstant fwOk idOk s =
    if !fwOk then setCause 1 { starting s with power.bootFail := true }
    else if idOk then openNamespaces (profiled s) else event 0x001C true [] none [] { profiled s with power.noIdentity := true } := by
  delta startInstant
  refine (if_neg (by rw [href]; simp [hv, hdue])).trans ?_
  -- The states on the way get their names one after the other: only then are the two sides compared.
  extract_lets _ _ v _ c _ w
  have hstart : v = starting s := rfl
  clear_value v
  subst hstart
  have hchosen : c = chooseProfile (setChans (measure (starting s))) := rfl
  clear_value c
  subst hchosen
  have hprof : w = profiled s := rfl
  clear_value w
  subst hprof
  rfl

/-- What a start leaves of the power controller, and that memory is empty. -/
theorem exists_startInstant (fwOk idOk : Bool) : ∃ n, (startInstant fwOk idOk s).power = { (starting s).power with
      warm := fwOk.not && (starting s).power.warm, frees := n, bootFail := !fwOk, noIdentity := fwOk && !idOk } ∧
    (startInstant fwOk idOk s).mem.bytes = [] := by
  rw [startInstant_eq hv hdue href]
  cases fwOk with
  | false => exact ⟨_, rfl, rfl⟩
  | true =>
    obtain ⟨n, hp, hb⟩ := exists_profiled (s := s)
    cases idOk with
    | true => exact ⟨n, hp, hb⟩
    | false =>
      rw [if_neg (by simp), if_neg (by simp), event_power, event_mem]
      exact ⟨n, by dsimp only; rw [hp]; rfl, hb⟩

end

end Sys2Proof.Machine
end

section
/-! PROOFS. Start, power and pins (O59). -/

namespace Sys2Proof.Machine

/-! ### The thermal emergency -/

section
variable {s : State}

theorem abortWhere_keep {β : Type} (F : State → β) (hH : ∀ c st g s, F (halt c st g s) = F s) (q : Chain → Bool) (st : Status) (s : State) :
    F (abortWhere q st s) = F s :=
  foldl_keep F _ (by intros; exact hH ..) _ _

theorem thermalEmergency_flash (s : State) : (thermalEmergency s).flash = s.flash := by
  rw [thermalEmergency, readyChange, event_flash, eventMA_flash, setCause]
  exact abortWhere_keep State.flash halt_flash _ _ _

theorem thermalEmergency_power (s : State) : (thermalEmergency s).power =
    { s.power with emergency := true, tooHot := false, readyBasic := false, readyFull := false } := by
  rw [thermalEmergency, readyChange, event_power, eventMA_power, setCause]
  dsimp only
  rw [abortWhere_keep State.power halt_power]

theorem offEvents_faultCause : OffEvents fun m => m.faultCause := ⟨fun _ _ => rfl, fun _ _ => rfl, fun _ _ _ _ _ _ => rfl⟩

theorem thermalEmergency_faultCause (s : State) : (thermalEmergency s).mantel.faultCause = s.mantel.faultCause ||| 4 := by
  rw [thermalEmergency, readyChange, event_mantel_keep offEvents_faultCause, eventMA, event_mantel_keep offEvents_faultCause, setCause]
  dsimp only
  rw [abortWhere_keep State.mantel halt_mantel]

theorem or_and_cancel_right {w : Nat} (x y : BitVec w) : (x ||| y) &&& y = y := by
  ext i hi
  rw [BitVec.getElem_and, BitVec.getElem_or]
  cases x[i] <;> cases y[i] <;> rfl

/-! ### Slot boundaries -/

theorem selectDue_empty (h : s.flash.selectDue = []) : ({ s with flash := { s.flash with selectDue := [] } } : State) = s := by
  conv_rhs => rw [show s = { s with flash := { s.flash with selectDue := s.flash.selectDue } } from rfl, h]

/-- A thermal emergency that waits begins. -/
def emergencyStep (s : State) : State := if s.power.tooHot && !inReset s then thermalEmergency s else s

/-- The brake takes effect or ends. -/
def brakeStep (s : State) : State :=
  if brakeWanted s = s.power.brake || s.power.emergency || inReset s then s
  else eventMA 0x001D [s.slot, b2n (brakeWanted s), b2n s.power.brakeLatch] { s with power.brake := brakeWanted s }

/-- The selections of a profile that wait take effect. -/
def selectStep (s : State) : State :=
  s.flash.selectDue.foldl (fun s x => finish x.2 (if (applySlot x.1 (bare s)).isSome then .ok else .profileBad) 0 [] (selectLive x.1 s))
    { s with flash.selectDue := [] }

theorem slotBoundary_new (h : s.ember.lastSlot < s.slot) :
    slotBoundary s = selectStep (brakeStep (emergencyStep { s with ember.lastSlot := s.slot })) :=
  if_neg (Nat.not_le.mpr h)

theorem emergencyStep_cool (h : s.power.tooHot = false) : emergencyStep s = s := if_neg (by simp [h])

theorem brakeStep_same (h : brakeWanted s = s.power.brake) : brakeStep s = s := if_pos (by simp [h])

theorem brakeStep_emergency (h : s.power.emergency = true) : brakeStep s = s := if_pos (by simp [h])

theorem brakeStep_change (h : brakeWanted s ≠ s.power.brake) (he : s.power.emergency = false) (hr : inReset s = false) :
    brakeStep s = eventMA 0x001D [s.slot, b2n (brakeWanted s), b2n s.power.brakeLatch] { s with power.brake := brakeWanted s } :=
  if_neg (by simp [h, he, hr])

theorem selectStep_none (h : s.flash.selectDue = []) : selectStep s = { s with flash.selectDue := [] } := by rw [selectStep, h]; rfl

theorem selectStep_one {n j : Nat} (h : s.flash.selectDue = [(n, j)]) : selectStep s =
    finish j (if (applySlot n (bare { s with flash.selectDue := [] })).isSome then .ok else .profileBad) 0 []
      (selectLive n { s with flash.selectDue := [] }) := by
  rw [selectStep, h, List.foldl_cons, List.foldl_nil]

theorem slotBoundary_tooHot (hslot : s.ember.lastSlot < s.slot) (hdue : s.flash.selectDue = []) (hot : s.power.tooHot = true)
    (hre : inReset s = false) :
    slotBoundary s = { thermalEmergency { s with ember.lastSlot := s.slot } with flash.selectDue := [] } := by
  have hem : emergencyStep { s with ember.lastSlot := s.slot } = thermalEmergency { s with ember.lastSlot := s.slot } :=
    if_pos (by rw [show inReset { s with ember.lastSlot := s.slot } = false from hre]; exact Bool.and_eq_true_iff.mpr ⟨hot, rfl⟩)
  have hflash : (thermalEmergency { s with ember.lastSlot := s.slot }).flash.selectDue = [] := by rw [thermalEmergency_flash]; exact hdue
  rw [slotBoundary_new hslot, hem, brakeStep_emergency (by rw [thermalEmergency_power]), selectStep_none hflash]

theorem slotBoundary_cool (hslot : s.ember.lastSlot < s.slot) (hot : s.power.tooHot = false) :
    slotBoundary s = selectStep (brakeStep { s with ember.lastSlot := s.slot }) := by
  rw [slotBoundary_new hslot, emergencyStep_cool (s := { s with ember.lastSlot := s.slot }) hot]

theorem slotBoundary_quiet (hslot : s.ember.lastSlot < s.slot) (hdue : s.flash.selectDue = []) (hot : s.power.tooHot = false)
    (hb : brakeWanted { s with ember.lastSlot := s.slot } = s.power.brake) : slotBoundary s = { s with ember.lastSlot := s.slot } := by
  rw [slotBoundary_cool hslot hot, brakeStep_same (s := { s with ember.lastSlot := s.slot }) hb,
    selectStep_none (s := { s with ember.lastSlot := s.slot }) hdue]
  exact selectDue_empty (s := { s with ember.lastSlot := s.slot }) hdue

theorem slotBoundary_brake (hslot : s.ember.lastSlot < s.slot) (hdue : s.flash.selectDue = []) (hot : s.power.tooHot = false)
    (hb : brakeWanted { s with ember.lastSlot := s.slot } ≠ s.power.brake) (he : s.power.emergency = false) (hr : inReset s = false) :
    slotBoundary s = eventMA 0x001D [s.slot, b2n (brakeWanted { s with ember.lastSlot := s.slot }), b2n s.power.brakeLatch]
      { s with ember.lastSlot := s.slot, power.brake := brakeWanted { s with ember.lastSlot := s.slot } } := by
  rw [slotBoundary_cool hslot hot, brakeStep_change (s := { s with ember.lastSlot := s.slot }) hb he hr,
    selectStep_none (by rw [eventMA_flash]; exact hdue)]
  exact selectDue_empty (by rw [eventMA_flash]; exact hdue)

theorem slotBoundary_select {n j : Nat} (hslot : s.ember.lastSlot < s.slot) (hdue : s.flash.selectDue = [(n, j)]) (hot : s.power.tooHot = false)
    (hb : brakeWanted { s with ember.lastSlot := s.slot, flash.selectDue := [] } = s.power.brake) :
    slotBoundary s = finish j (if (applySlot n (bare { s with ember.lastSlot := s.slot, flash.selectDue := [] })).isSome then .ok else .profileBad) 0 []
      (selectLive n { s with ember.lastSlot := s.slot, flash.selectDue := [] }) := by
  rw [slotBoundary_cool hslot hot, brakeStep_same (s := { s with ember.lastSlot := s.slot }) hb,
    selectStep_one (s := { s with ember.lastSlot := s.slot }) hdue]

/-! ### Readiness -/

/-- The tray ports leave reset. -/
def traysFreed (s : State) : State :=
  { s with trays := s.trays.map fun k => if k.mode = 1 || k.mode = 3 then { k with perstLow := false } else k }

/-- READY_FULL gives partitions their key pairs, and nothing else besides the trays and the event. -/
theorem readyFull_keep {β : Type} (F : State → β) (hT : ∀ (s : State) x, F { s with ten := x } = F s)
    (hE : ∀ c b ps k d s, F (event c b ps k d s) = F s) (hF : ∀ (s : State) b, F { s with power.readyFull := b } = F s)
    (hb : s.power.readyBasic = true) (hf : s.power.readyFull = false) (hr : inReset s = false) : F (readyFull s) = F (traysFreed s) := by
  delta readyFull
  refine (congrArg F (if_neg (by simp [hb, hf, hr]))).trans ?_
  refine (hE ..).trans ((hF ..).trans ?_)
  split
  · rfl
  · refine foldl_keep F _ (fun s p => ?_) _ _
    exact (hT ..).trans (hT ..)

theorem readyFull_power (hb : s.power.readyBasic = true) (hf : s.power.readyFull = false) (hr : inReset s = false) :
    (readyFull s).power.readyFull = true := by
  delta readyFull
  refine (congrArg (fun s : State => s.power.readyFull) (if_neg (by simp [hb, hf, hr]))).trans ?_
  rw [readyChange, event_power]

/-! ### The brake -/

theorem brakeAssert_first (hl : s.power.brakeLow = false) (ha : s.power.brakeAsserts = []) (hr : inReset s = false) :
    brakeAssert s = { s with power := { s.power with brakeLow := true, brakeAsserts := [s.t] } } := by
  delta brakeAssert
  dsimp only
  rw [if_neg (by simp [hl]), ha, hr]
  simp

theorem brakeAssert_second {a : Nat} (hl : s.power.brakeLow = false) (ha : s.power.brakeAsserts = [a]) (ht : s.t ≤ a + 10000000)
    (hr : inReset s = false) :
    brakeAssert s = { s with power := { s.power with brakeLow := true, brakeAsserts := [a, s.t], brakeLatch := true } } := by
  have hnear : [a].filter (fun a => decide (s.t ≤ a + 10000000)) = [a] := List.filter_cons_of_pos (decide_eq_true ht)
  delta brakeAssert
  dsimp only
  rw [if_neg (by simp [hl]), ha, hr, hnear]
  simp

/-! ### Reference clocks -/

theorem refLost_pcie (h : s.power.refLost.getD 2 false = false) :
    refLost 2 s = (List.range 32).foldl (fun s t => trayDown t s) { s with power.refLost := s.power.refLost.set 2 true } := by
  delta refLost
  exact (if_neg (by rw [h]; decide)).trans (if_pos rfl)

variable {k : Nat}

theorem refLost_both (h : s.power.refLost.getD k false = false) (hk : k ≤ 1)
    (hb : ((s.power.refLost.set k true).getD 0 false && (s.power.refLost.set k true).getD 1 false) = true) :
    refLost k s = resetLow { s with power.refLost := s.power.refLost.set k true } := by
  delta refLost
  exact (if_neg (by rw [h]; simp; omega)).trans ((if_neg (by omega)).trans (if_pos hb))

theorem refLost_one (h : s.power.refLost.getD k false = false) (hk : k ≤ 1)
    (hb : ((s.power.refLost.set k true).getD 0 false && (s.power.refLost.set k true).getD 1 false) = false) :
    refLost k s = chimneyDown (if k = 0 then .a else .b)
      (((List.range 128).map (128 * k + ·)).foldl (fun s p => dropLink p s) { s with power.refLost := s.power.refLost.set k true }) := by
  delta refLost
  exact (if_neg (by rw [h]; simp; omega)).trans ((if_neg (by omega)).trans (if_neg (by rw [hb]; exact Bool.false_ne_true)))

/-! ### Profile commands -/

theorem length_cellsRead (d : Byte) (l : List Host.Cell) (x n : Nat) : (cellsRead d l x n).length = n := by
  induction n generalizing x with
  | zero => rfl
  | succ n ih => rw [cellsRead, List.length_cons, ih]

variable {j : Job}

theorem exists_profileRead (hn : fldLE j.payload 0 1 ≤ 3) (hz : zeroAt j.payload 1 3 = true)
    (hend : fldLE j.payload 4 4 + fldLE j.payload 8 4 ≤ slotBytes4) (hlen : fldLE j.payload 8 4 ≤ 4096) :
    ∃ b, profileRead j s = (.done .ok 0 b, s) ∧ b.length = fldLE j.payload 8 4 := by
  delta profileRead
  refine ⟨_, if_neg ?_, length_cellsRead ..⟩
  simp only [hz, Bool.or_eq_true, decide_eq_true_eq, Bool.not_true, Bool.false_eq_true, or_false, not_or, Nat.not_lt]
  exact ⟨⟨hn, hend⟩, hlen⟩

theorem profileWrite_ok (hn : fldLE j.payload 0 1 ≤ 3) (hz : zeroAt j.payload 1 3 = true)
    (hend : fldLE j.payload 4 4 + (j.payload.drop 8).length ≤ slotBytes4) (ha : slotActive s (fldLE j.payload 0 1) = false) :
    profileWrite j s = (.ok, { s with flash := { s.flash with
      cf0 := cellsWrite 0xFF s.flash.cf0 (fldLE j.payload 0 1 * slotBytes4 + fldLE j.payload 4 4) (j.payload.drop 8)
      cf1 := cellsWrite 0xFF s.flash.cf1 (fldLE j.payload 0 1 * slotBytes4 + fldLE j.payload 4 4) (j.payload.drop 8) } }) := by
  delta profileWrite
  refine (if_neg ?_).trans (if_neg (by rw [ha]; exact Bool.false_ne_true))
  simp only [hz, Bool.or_eq_true, decide_eq_true_eq, Bool.not_true, Bool.false_eq_true, or_false, not_or, Nat.not_lt]
  exact ⟨hn, hend⟩

theorem profileSelect_waits (hn : fldLE j.payload 0 1 ≤ 3) (hs : (applySlot (fldLE j.payload 0 1) (bare s)).isSome = true) :
    profileSelect j s = (.waits, { s with flash.selectDue := s.flash.selectDue ++ [(fldLE j.payload 0 1, j.id)] }) := by
  delta profileSelect
  exact (if_neg (Nat.not_lt.mpr hn)).trans (if_neg (by simpa [Option.isSome_iff_ne_none] using hs))

theorem profileSelect_bad (hn : fldLE j.payload 0 1 ≤ 3) (hs : (applySlot (fldLE j.payload 0 1) (bare s)).isSome = false) :
    profileSelect j s = (.done .profileBad, s) := by
  delta profileSelect
  exact (if_neg (Nat.not_lt.mpr hn)).trans (if_pos (by simpa using hs))

theorem warmRestart_ok (hf : s.mantel.fwStream = none)
    (he : s.power.emergency = true → s.power.belowAt.elim false (fun t0 => decide (t0 + 10000000 ≤ s.t)) = true) :
    warmRestart j s = (.done .ok, { s with power := { s.power with warm := true, startDue := true } }) := by
  delta warmRestart
  refine if_neg ?_
  rw [hf]
  cases hem : s.power.emergency with
  | false => simp
  | true => rw [he hem]; simp

end

/-- Settles O59. -/
theorem startAndPowerAct : Obligations.StartAndPowerAct := by
  have next := fun {s t u : State} (h : t = u) => congrArg (fun t => (Host.Outcome.next (settle s t) : Host.Outcome State Fault Refusal)) h
  refine ⟨?warm, ?read, ?write, ?select, ?hot, ?quiet, ?due, ?valid, ?out, ?back, ?loss, ?reset, ?start, ?basic, ?full, ?brake, ?latch, ?release,
    ?clear, ?refLost, ?refBack, ?sense, ?smbus⟩
  case warm => exact fun m j s hrun hf he => exec_done rfl hrun (warmRestart_ok (s := startJob j s) hf he)
  case read =>
    intro m j s hrun hn hz hend hlen
    obtain ⟨b, hb, hl⟩ := exists_profileRead (s := startJob j s) hn hz hend hlen
    exact ⟨b, exec_done rfl hrun hb, hl⟩
  case write =>
    intro m j s hrun n put hn hz hend ha
    exact exec_simply rfl hrun (profileWrite_ok (s := startJob j s) hn hz hend ha)
  case select =>
    exact fun m j s hrun hn => ⟨fun h => exec_waits rfl hrun (profileSelect_waits (s := startJob j s) hn h),
      fun h => exec_done rfl hrun (profileSelect_bad (s := startJob j s) hn h)⟩
  case hot =>
    intro s hslot hdue hot hre s1
    have hpow : s1.power = { s.power with emergency := true, tooHot := false, readyBasic := false, readyFull := false } := thermalEmergency_power _
    refine ⟨next (slotBoundary_tooHot hslot hdue hot hre), ?_, ?_, ?_, ?_⟩
    · rw [hpow]
    · rw [hpow]
    · rw [hpow]
    · rw [thermalEmergency_faultCause, or_and_cancel_right]
  case quiet =>
    exact fun s hslot hdue hot => ⟨fun hb => next (slotBoundary_quiet hslot hdue hot hb),
      fun hb he hr => next (slotBoundary_brake hslot hdue hot hb he hr)⟩
  case due => exact fun n j s hslot hdue hot hb => next (slotBoundary_select hslot hdue hot hb)
  case valid => exact fun s h => next (if_neg (by simp [h]))
  case out => exact fun s => rfl
  case back => exact fun s => rfl
  case loss =>
    refine fun s => ⟨_, rfl, ?_, ?_, ?_, ?_, ?_, ?_, ?_, ?_⟩
    · rw [settle_power]
      rfl
    · rw [settle_power]
      rfl
    · rw [settle_power]
      rfl
    · rw [settle_mem]
      rfl
    · rw [settle_mantel_jobs]
      rfl
    · rw [settle_flash]
      rfl
    · rw [settle_flash]
      rfl
    · rw [settle_tiers]
      rfl
  case reset =>
    refine fun s => ⟨_, rfl, ?_, ?_, ?_, ?_, ?_, ?_, ?_, ?_⟩
    · rw [settle_power]
      rfl
    · rw [settle_power]
      rfl
    · rw [settle_power]
      rfl
    · rw [settle_mem]
      rfl
    · rw [settle_ten]
      rfl
    · rw [settle_dir]
      rfl
    · rw [settle_flash]
      rfl
    · rw [settle_flash]
      rfl
  case start =>
    intro fwOk idOk s hv hdue href
    obtain ⟨n, hp, hb⟩ := exists_startInstant hv hdue href fwOk idOk
    have hpow := (settle_power s (startInstant fwOk idOk s)).trans hp
    refine ⟨_, rfl, ?_, ?_, ?_, ?_, ?_, ?_, ?_, fun hf => ?_, fun hf => ?_⟩
    · rw [hpow]
      rfl
    · rw [hpow]
      rfl
    · rw [hpow]
      rfl
    · rw [hpow]
      rfl
    · rw [hpow]
      rfl
    · rw [settle_mem]
      exact hb
    · rw [hpow]
    · rw [hpow, hf, Bool.true_and]
    · rw [settle_faultCause, hf, startInstant_eq hv hdue href, if_pos (by rfl), setCause, BitVec.getLsbD_or, BitVec.getLsbD_or]
      simp
  case basic => exact fun s h1 h2 h3 h4 h5 h6 => next (if_neg (by simp [h1, h2, h3, h4, h5, h6]))
  case full =>
    intro s hb hf hr
    refine ⟨_, rfl, ?_, ?_, ?_, ?_, ?_⟩
    · rw [settle_power, readyFull_power hb hf hr]
    · rw [settle_mem, readyFull_keep State.mem (fun _ _ => rfl) event_mem (fun _ _ => rfl) hb hf hr]
      rfl
    · rw [settle_maps, readyFull_keep State.maps (fun _ _ => rfl) event_maps (fun _ _ => rfl) hb hf hr]
      rfl
    · rw [settle_sax, readyFull_keep State.sax (fun _ _ => rfl) event_sax (fun _ _ => rfl) hb hf hr]
      rfl
    · rw [settle_trays, readyFull_keep State.trays (fun _ _ => rfl) event_trays (fun _ _ => rfl) hb hf hr]
      rfl
  case brake => exact fun s hl ha hr => next (brakeAssert_first hl ha hr)
  case latch => exact fun a s hl ha ht hr => next (brakeAssert_second hl ha ht hr)
  case release => exact fun s h => next (if_pos h)
  case clear => exact fun s hl hb ht => next (if_pos (by simp [hl, hb, ht]))
  case refLost =>
    intro k s h s1
    refine ⟨?_, fun hk hb => next (refLost_both h hk hb), fun hk hb => next (refLost_one h hk hb)⟩
    rintro rfl
    exact next (refLost_pcie h)
  case refBack => exact fun k s => rfl
  case sense => exact fun low s h => next (if_neg h)
  case smbus =>
    intro c s hv hc
    refine next ((if_pos hv).trans ?_)
    rw [if_pos (by simp [hc])]
    rfl

end Sys2Proof.Machine
end

section
/-! PROOFS. The twin (O60). -/

namespace Sys2Proof.Machine

section
variable {s : State} {j : Job}

/-! ### Pairing commands -/

theorem twinPair_waits (hsys : s.flash.prof.sysNooks ≠ 0) (hz : zeroAt j.payload 2 6 = true) (hab : fldLE j.payload 0 1 ≠ fldLE j.payload 1 1)
    (ha : fldLE j.payload 0 1 % 4 = 0) (hb : fldLE j.payload 1 1 % 4 = 0) (hwa : (s.port (fldLE j.payload 0 1)).wide = true)
    (hwb : (s.port (fldLE j.payload 1 1)).wide = true) (hka : (s.port (fldLE j.payload 0 1)).kind = 2)
    (hkb : (s.port (fldLE j.payload 1 1)).kind = 2) (hn : fldLE j.payload 8 8 ≠ 0) (hst : s.twin.st = .unpaired) (hjob : s.twin.pairJob = none) :
    twinPair j s = (.waits, { s with twin := { s.twin with
      portA := fldLE j.payload 0 1, portB := fldLE j.payload 1 1, serial := fldLE j.payload 8 8, pairJob := some (j.id, s.t) } }) := by
  delta twinPair
  dsimp only
  rw [if_neg (by simp [hz]), if_neg hsys, if_neg (by simp [hab, ha, hb, hwa, hwb, hka, hkb, hn]), if_neg (by simp [hst]), if_neg (by simp [hjob])]

section
variable (hsys : s.flash.prof.sysNooks ≠ 0)
include hsys

theorem twinUnpair_alone (hst : s.twin.st = .unpaired) : twinUnpair j s = (.ok, s) :=
  (if_neg hsys).trans (if_pos (by rw [hst]; rfl))

theorem twinUnpair_pair (hst : s.twin.st ≠ .unpaired) : twinUnpair j s = (.ok, tellTwin 0x0205 [] (endPair s)) :=
  (if_neg hsys).trans (if_neg (by simpa using hst))

theorem twinStatus_ok : twinStatus j s = (.done .ok 0 (twinRecord s), s) := if_neg hsys

variable (hst : s.twin.st = .paired) (hjob : s.twin.takeJob = none) (hgive : s.twin.giving = none)
  (hin : s.twin.twinned.contains (fldLE j.payload 0 1) = true)
include hst hjob hgive hin

theorem twinTakeover_primary (hp : s.twin.primary.contains (fldLE j.payload 0 1) = true) : twinTakeover j s = (.done .ok, s) := by
  delta twinTakeover
  dsimp only
  rw [if_neg hsys, if_neg (by simp [hst, hjob, hgive]), hin, if_neg (by simp), if_pos hp]

theorem twinTakeover_asks (hp : s.twin.primary.contains (fldLE j.payload 0 1) = false) : twinTakeover j s =
    (.waits, tellTwin 0x0207 (toLE 1 (fldLE j.payload 0 1)) { s with twin.takeJob := some (j.id, fldLE j.payload 0 1, s.t) }) := by
  delta twinTakeover
  dsimp only
  rw [if_neg hsys, if_neg (by simp [hst, hjob, hgive]), hin, if_neg (by simp), hp, if_neg Bool.false_ne_true]

end

/-! ### The pair's events -/

theorem twinPaired_due (hst : s.twin.st = .degraded ∨ s.twin.st = .alone ∨ (s.twin.st = .unpaired ∧ (twinProfile s = true ∨ s.twin.pairJob.isSome = true)))
    (hm : matching s = true) : twinPaired s = pairUp s := by
  refine if_pos (Bool.and_eq_true_iff.mpr ⟨?_, hm⟩)
  rcases hst with h | h | ⟨h, hp⟩
  · rw [h]
    rfl
  · rw [h]
    rfl
  · simpa [h] using hp

theorem twinDown_due {a : Nat} (hs : s.twin.sense = true) (ha : s.twin.senseAt = some a) (ht : a + 1000000 ≤ s.t)
    (hst : s.twin.st = .paired ∨ s.twin.st = .syncing ∨ s.twin.st = .degraded) :
    twinDown s =
      (let taken := if s.twin.st == .paired then s.twin.twinned.filter (! s.twin.primary.contains ·) else []
       let s1 := unmirror { s with twin := { s.twin with takeJob := none, giving := none, copying := [] } }
       let s2 := setTwin .alone taken (takeOver taken (dataFaults taken 0x0021 0 s1))
       finish? (s.twin.takeJob.map (·.1)) (if taken.isEmpty then .busy else .ok) (taken.foldl (fun s p => endRecovery p 0x0021 0 s) s2)) := by
  have hdue : (s.twin.sense && s.twin.senseAt.elim false fun a => decide (a + 1000000 ≤ s.t)) = true := by
    rw [hs, ha, Option.elim_some, decide_eq_true ht]
    rfl
  delta twinDown
  refine if_neg ?_
  rw [hdue]
  rcases hst with h | h | h <;> simp [h]

theorem twinLinksDown_due {a : Nat} (ha : s.twin.downAt = some a) (ht : a + 2000000 ≤ s.t) (hd : twinDark s = true) (hs : s.twin.sense = false)
    (hm : s.mirrors = true) : twinLinksDown s = finish? (s.twin.takeJob.map (·.1)) .busy
      (setTwin .degraded [] (unmirror { s with twin := { s.twin with copying := [], giving := none, takeJob := none } })) := by
  have hdue : (s.twin.downAt.elim false fun a => decide (a + 2000000 ≤ s.t)) = true := by
    rw [ha, Option.elim_some, decide_eq_true ht]
  delta twinLinksDown
  refine if_neg ?_
  rw [hdue, hd, hs, hm]
  exact Bool.false_ne_true

theorem twinSyncEnd_copied (hst : s.twin.st = .syncing) (hc : s.twin.copying = []) : twinSyncEnd s = setTwin .paired [] s :=
  if_neg (by simp [hst, hc])

theorem twinSyncEnd_copying (hc : s.twin.copying ≠ []) : twinSyncEnd s = s :=
  if_pos (by simp [hc])

theorem twinPairTimeout_due {w : Nat × Nat} (hw : s.twin.pairJob = some w) (ht : w.2 + 1000000000 ≤ s.t) :
    twinPairTimeout s = finish w.1 .timeout 0 [] { s with twin := { s.twin with
      pairJob := none, portA := s.flash.prof.twinA, portB := s.flash.prof.twinB, serial := s.flash.prof.twinSerial } } := by
  delta twinPairTimeout
  dsimp only
  rw [hw]
  exact if_neg (Nat.not_lt.mpr ht)

/-! ### The old primary hands over -/

/-- A chain of the partition that runs. -/
def runsFor (p : Nat) (c : Chain) : Bool := c.part == p && c.admitted && c.status.isNone && !c.ended

/-- The partition's chains have been stopped, and its cached copies are recalled. -/
def drained (p : Nat) (s : State) : State := recallAll (cachedThere s p) (abortWhere (runsFor p) .quiesced s)

/-- Something of the partition still keeps the roles from changing. -/
def stillBusy (p : Nat) (s : State) : Bool :=
  s.chains.chains.any (fun c => c.part == p && c.admitted) || s.dir.ents.any (cachedThere s p) || !s.twin.open_.isEmpty || s.twin.desc.any (·.2.1 == p)

section
variable {p a : Nat} (hg : s.twin.giving = some (p, a)) (ht : a + 4000000 ≤ s.t ∨ s.chains.chains.any (runsFor p) = false)
include hg ht

theorem takeoverDrain_due : takeoverDrain p s =
    if stillBusy p (drained p s) then drained p s
    else tellTwin 0x0207 (toLE 1 p ++ [1])
      { drained p s with twin := { (drained p s).twin with giving := none, primary := (drained p s).twin.primary.filter (· != p) } } := by
  have hdue : (s.twin.giving.elim false fun g => g.1 == p && (decide (g.2 + 4000000 ≤ s.t) || !s.chains.chains.any (runsFor p))) = true := by
    rw [hg]
    rcases ht with h | h
    · simp [h]
    · simp only [Option.elim_some, h, Bool.not_false, Bool.or_true, Bool.and_true, beq_self_eq_true]
  delta takeoverDrain
  refine if_neg ?_
  exact fun h => Bool.false_ne_true (((Bool.not_eq_true' _).mp h).symm.trans hdue)

theorem takeoverDrain_busy (hb : stillBusy p (drained p s) = true) : takeoverDrain p s = drained p s :=
  (takeoverDrain_due hg ht).trans (if_pos hb)

theorem takeoverDrain_done (hb : stillBusy p (drained p s) = false) : takeoverDrain p s = tellTwin 0x0207 (toLE 1 p ++ [1])
    { drained p s with twin := { (drained p s).twin with giving := none, primary := (drained p s).twin.primary.filter (· != p) } } :=
  (takeoverDrain_due hg ht).trans (if_neg (by rw [hb]; exact Bool.false_ne_true))

end

/-! ### Messages of the twin -/

/-- What a mirror write that passes the policer does, with its status. -/
def mirrorActs (q : Nat) (m : MirrorMsg) (s : State) : Status × State :=
  match q, m with
  | 16, .desc op b => if s.twin.st == .unpaired then (.noAccess, s) else applyControl op b s
  | 16, .calendar b => if s.mirrors then applyMirror 16 (.calendar b) s else (.noAccess, s)
  | _, m => if s.mirrors && (s.twin.twinned.contains q && !s.twin.primary.contains q) then applyMirror q m s else (.noAccess, s)

theorem mirrorActs_control {op : Nat} {b : Bytes} (hst : s.twin.st ≠ .unpaired) : mirrorActs 16 (.desc op b) s = applyControl op b s :=
  if_neg (by simpa using hst)

theorem mirrorActs_calendar {b : Bytes} (hmir : s.mirrors = true) :
    mirrorActs 16 (.calendar b) s = (.ok, { s with twin.calImage := cellsWrite 0 [] 0 b }) :=
  if_pos hmir

theorem mirrorActs_partition {q : Nat} {m : MirrorMsg} (hq : q ≤ 15) (hmir : s.mirrors = true) (hin : s.twin.twinned.contains q = true)
    (hprim : s.twin.primary.contains q = false) : mirrorActs q m s = applyMirror q m s := by
  unfold mirrorActs
  split
  · omega
  · omega
  · rw [if_pos (by rw [hmir, hin, hprim]; rfl)]

section
variable {p txn : Nat} (hk : (s.port p).kind = 2) (hl : linkAlive s p = true)

theorem policeTwin_refused {svc n h : Nat} {f : State → State} {s1 : State}
    (hp : police p (peerId s p) (rawFlits ((s.port p).sess.phase == 3) (1 + pktLen n)) true s = (false, h, s1)) :
    policeTwin p svc txn n f s = answerTwin p svc txn 7 .retry [] s1 := by
  rw [policeTwin, hp]

theorem policeTwin_passed {svc n h : Nat} {f : State → State} {s1 : State}
    (hp : police p (peerId s p) (rawFlits ((s.port p).sess.phase == 3) (1 + pktLen n)) true s = (true, h, s1)) :
    policeTwin p svc txn n f s = f s1 := by
  rw [policeTwin, hp]

include hk hl

theorem mirrorAccess_refused {w : Bool} {a h : Nat} {d : Bytes} {s1 : State}
    (hp : police p (peerId s p) (rawFlits ((s.port p).sess.phase == 3) (1 + pktLen (8 + d.length))) true s = (false, h, s1)) :
    mirrorAccess p w a txn d s = answerTwin p 5 txn 7 .retry [] s1 :=
  (if_neg (by simp [hk, hl])).trans (policeTwin_refused hp)

theorem mirrorWrite_refused {q h : Nat} {m : MirrorMsg} {s1 : State}
    (hp : police p (peerId s p) (rawFlits ((s.port p).sess.phase == 3) (1 + pktLen (mirrorBytes m))) true s = (false, h, s1)) :
    mirrorWrite p q txn m s = answerTwin p (mirrorSvc m) txn 7 .retry [] s1 :=
  (if_neg (by simp [hk, hl])).trans (policeTwin_refused hp)

section
variable {a h : Nat} {d : Bytes} {e : Extent} {s1 : State}
  (hp : police p (peerId s p) (rawFlits ((s.port p).sess.phase == 3) (1 + pktLen (8 + d.length))) true s = (true, h, s1))
  (hst : s1.twin.st = .paired) (he : anyExtent s1 a = some e) (hm : e.mirror = 1) (hin : s1.twin.twinned.contains e.part = true)
  (hprim : s1.twin.primary.contains e.part = false)
include hp hst he hm hin hprim

theorem mirrorAccess_passed (w : Bool) : mirrorAccess p w a txn d s =
    if w then answerTwin p 5 txn 7 .ok [] (memWrite a d s1) else answerTwin p 5 txn 3 .ok (memRead s1 a 64) s1 := by
  have hok : (s1.twin.st == .paired && (anyExtent s1 a).elim false fun e =>
      e.mirror == 1 && s1.twin.twinned.contains e.part && !s1.twin.primary.contains e.part) = true := by
    rw [hst, he, Option.elim_some, hm, hin, hprim]
    rfl
  refine (if_neg (by simp [hk, hl])).trans ((policeTwin_passed hp).trans ?_)
  dsimp only
  rw [hok, if_neg (by decide)]

end

section
variable {q h : Nat} {m : MirrorMsg} {s1 : State}
  (hp : police p (peerId s p) (rawFlits ((s.port p).sess.phase == 3) (1 + pktLen (mirrorBytes m))) true s = (true, h, s1))
include hp

theorem mirrorWrite_passed : mirrorWrite p q txn m s = answerTwin p (mirrorSvc m) txn 7 (mirrorActs q m s1).1 [] (mirrorActs q m s1).2 :=
  (if_neg (by simp [hk, hl])).trans (policeTwin_passed hp)

end

end

theorem applyMirror_data {q a : Nat} {d : Bytes} {e : Extent} (he : anyExtent s a = some e) (hq : e.part = q) (hm : e.mirror = 1) :
    applyMirror q (.data a d) s = (.ok, memWrite a d s) := by
  delta applyMirror
  dsimp only
  rw [he]
  exact if_neg (by simp [hq, hm])

end

/-- Settles O60. -/
theorem twinActs : Obligations.TwinActs := by
  have next := fun {s t u : State} (h : t = u) => congrArg (fun t => (Host.Outcome.next (settle s t) : Host.Outcome State Fault Refusal)) h
  refine ⟨?pair, ?unpair, ?status, ?takeover, ?paired, ?down, ?links, ?sync, ?timeout, ?drain, ?access, ?refused, ?write, ?data⟩
  case pair =>
    exact fun m j s hrun hsys hz hab ha hb hwa hwb hka hkb hn hst hjob =>
      exec_waits rfl hrun (twinPair_waits (s := startJob j s) hsys hz hab ha hb hwa hwb hka hkb hn hst hjob)
  case unpair =>
    exact fun m j s hrun hsys => ⟨fun hst => exec_simply rfl hrun (twinUnpair_alone (s := startJob j s) hsys hst),
      fun hst => exec_simply rfl hrun (twinUnpair_pair (s := startJob j s) hsys hst)⟩
  case status => exact fun m j s hrun hsys => exec_done rfl hrun (twinStatus_ok (s := startJob j s) hsys)
  case takeover =>
    exact fun m j s hrun hsys hst hjob hgive hin =>
      ⟨fun hp => exec_done rfl hrun (twinTakeover_primary (s := startJob j s) hsys hst hjob hgive hin hp),
        fun hp => exec_waits rfl hrun (twinTakeover_asks (s := startJob j s) hsys hst hjob hgive hin hp)⟩
  case paired => exact fun s hst hm => next (twinPaired_due hst hm)
  case down => exact fun a s hs ha ht hst => next (twinDown_due hs ha ht hst)
  case links => exact fun a s ha ht hd hs hm => next (twinLinksDown_due ha ht hd hs hm)
  case sync => exact fun s hst => ⟨fun hc => next (twinSyncEnd_copied hst hc), fun hc => next (twinSyncEnd_copying hc)⟩
  case timeout => exact fun w s hw ht => next (twinPairTimeout_due hw ht)
  case drain =>
    exact fun p a s hg ht => ⟨fun hb => next (takeoverDrain_busy hg ht hb), fun hb => next (takeoverDrain_done hg ht hb)⟩
  case access =>
    exact fun p a txn h d e s s1 hk hl hp hst he hm hin hprim =>
      ⟨next (mirrorAccess_passed hk hl hp hst he hm hin hprim true), next (mirrorAccess_passed hk hl hp hst he hm hin hprim false)⟩
  case refused =>
    exact fun p q a txn h w d m s s1 hk hl => ⟨fun hp => next (mirrorAccess_refused hk hl hp), fun hp => next (mirrorWrite_refused hk hl hp)⟩
  case write =>
    intro p q txn h m s s1 hk hl hp go
    have through : ∀ {st : Status} {t : State}, mirrorActs q m s1 = (st, t) → go st t := by
      intro st t hdone
      refine next ?_
      rw [mirrorWrite_passed hk hl hp, hdone]
    refine ⟨?_, ?_, fun hq hmir hin hprim => through (mirrorActs_partition hq hmir hin hprim)⟩
    · rintro op b rfl rfl hst
      exact through (mirrorActs_control hst)
    · rintro b rfl rfl hmir
      exact through (mirrorActs_calendar hmir)
  case data => exact fun q a d e s he hq hm => applyMirror_data he hq hm

end Sys2Proof.Machine
end
